-- ==== Sys2Proof/Word.lean ====
section
/-! DEFINITION. The word types of the block and their plainest arithmetic: bytes, register words, byte strings. -/

namespace Sys2Proof

/-- One byte. -/
abbrev Byte := BitVec 8

/-- A register word (R415: every register is 32 bits wide). -/
abbrev Word := BitVec 32

/-- A byte string: digests, keys, signatures, payloads (R7). -/
abbrev Bytes := List Byte

/-- Number of ticks after which the 64-bit tick count would wrap (Sundial section of 01_the_complex.md). -/
abbrev tickModulus : Nat := 2 ^ 64

end Sys2Proof
end

