-- ==== Sys2Proof/Syntax.lean ====
section
/-! DEFINITION. The commands of the block: one constructor of Instr per row of spec/opcode_table.json, with the
operands the rule of the row gives the event, and the small types those operands are made of. -/

namespace Sys2Proof

/-- What a host buffer access answers (R394): the bytes, an error response, or nothing within 10 µs.
For a command whose buffer receives a record, `data` stands for an accepted write. -/
inductive BufRead where
  | data (bytes : Bytes)
  | error
  | noAnswer
deriving DecidableEq, Repr

/-- A host descriptor chain as fetched (Table HOST-1): header fields, the operand area from byte 20 on
(extensions included), and the host buffer. -/
structure HostCmd where
  ring    : Fin 64
  cid     : Fin 256
  flags   : Byte
  chain   : Nat
  tag     : BitVec 16
  gen     : BitVec 16
  bufAddr : BitVec 64
  bufLen  : Nat
  ops     : Bytes
  buf     : BufRead
deriving DecidableEq, Repr

/-- What brings a message over Bandstand: its MCTP tag, and the DTLS association that carries its records (R315, R316). -/
structure MctpSrc where
  tag   : Fin 8
  assoc : Fin 4
deriving DecidableEq, Repr

/-- An MCTP message whose packets and declared length disagree (R316, R368): where it came from, the tick of its last packet, the length
that its first packet declares, and the bytes that have arrived. -/
structure LateMessage where
  src      : MctpSrc
  last     : Nat
  declared : Nat
  length   : Nat
deriving DecidableEq, Repr

/-- The first flight of a DTLS client: the UDP port it is sent to and the certificate chain it brings (R314, R315). -/
structure DtlsHello where
  port  : BitVec 16
  chain : Bytes
deriving DecidableEq, Repr

/-- The MCTP tag and the 8-byte header of an Ehrov management command (R316, R317), the association that carries it, and whether
bytes 1 to 4 of the message hold Ehrov's enterprise number. -/
structure MgmtHdr where
  tag  : Fin 8
  res0 : Bool      -- the header's res0 bytes are zero: ignored (R9)
  unit : BitVec 16
  gen  : BitVec 16
  assoc : Fin 4
  vendor : Bool
deriving DecidableEq, Repr

/-- Ocenaip's own users of a channel's internal port (R87); the scrub engine among them (R110). -/
inductive FenceUser where
  | scrub
  | spill
  | blob
  | greenhouse (die : Fin 32)
  | lodge (die : Fin 32)
  | memoryRead
  | digest (engine : Fin 4)
deriving DecidableEq, Repr

/-- The request port of a fence channel (R87). -/
inductive FencePort where
  | fabric
  | internal (user : FenceUser)
deriving DecidableEq, Repr

/-- One request at a fence channel (Table PORT-2). -/
structure FenceReq where
  ch   : Fin 512
  port : FencePort
  line : BitVec 52
  cid  : Fin 256
  ksel : Fin 4
  tag  : BitVec 12
deriving DecidableEq, Repr

/-- The status the fence's internal port returns for an aggregate of reads (R87, Table FENCE-7). -/
inductive FetchStatus where
  | ok
  | reserved      -- row 1
  | refused       -- row 2
  | fenced        -- row 3
  | noKey         -- row 4
  | tagFail       -- row 7
  | uerr          -- row 6
deriving DecidableEq, Repr

/-- What the lines of a transfer brought, read in order: the status of the first that was refused or failed, and how many came
with data before it. -/
structure LineReads where
  status : FetchStatus
  served : Nat
deriving DecidableEq, Repr

/-- What a fetch of data through the internal port brought; of a refused one, the line that was refused and its KSEL. -/
structure Fetched where
  status : FetchStatus
  parts  : List Bytes
  line   : BitVec 52
  ksel   : Fin 4
deriving DecidableEq, Repr

/-- A requester of class 8 key fills (R97, R248). -/
inductive FillReq where
  | fence (ch : Fin 512) (cid : Fin 256) (ksel : Fin 4)
  | job (engine : Fin 96) (job : Fin 256)
  | sampling (die : Fin 32) (cid : Fin 256)
deriving DecidableEq, Repr

/-- The port a semaphore operation came on: the die port names the issuing core, the internal port its CID (R338). -/
inductive PergPort where
  | core (c : Fin 320)
  | internal (cid : Fin 256)
deriving DecidableEq, Repr

/-- A semaphore operation at slice `die` (R40, R338, R339). -/
structure PergOp where
  die  : Fin 32
  port : PergPort
  sem  : Fin 16384
  n    : BitVec 20
deriving DecidableEq, Repr

/-- One core slot header as a restore reads it (Table CTX-5): VALID and the 48 semaphore values. -/
structure SlotHeader where
  valid : Bool
  sems  : List (BitVec 20)
deriving DecidableEq, Repr

/-- One payload entry a producer writes at a spill queue (R360): END and payload bytes 0 to 62. -/
structure QEntry where
  last    : Bool
  payload : Bytes
deriving DecidableEq, Repr

/-- Where a producer's entry goes (R358, R361): a queue named by the unit that owns the port, or the context-private port
of a die, which selects the queue from the stamp of the issuing core. -/
inductive QPort where
  | queue (q : Fin 320) (port : Fin 320) (producer : BitVec 6)
  | ctxPrivate (die : Fin 32) (core : Fin 320)
deriving DecidableEq, Repr

/-- What a Lodge reads on its die's AVSBus in one loop (Table PWR-1): the monitor block's margin, droops and hottest temperature, the
core regulator's output current in mA and voltage in mV, the clock generator's step in force; `acked` where every transfer was
acknowledged within its retries. -/
structure AvsReading where
  margin : Nat
  droops : Nat
  tj     : Nat
  mA     : Nat
  volt   : Nat
  step   : Nat
  acked  : Bool
deriving DecidableEq, Repr

/-- The supplies the OTP controller checks (R283): programming supply in mV, core supply in permille of nominal. -/
structure Supplies where
  progMv : Nat
  coreMil : Nat
deriving DecidableEq, Repr

/-- The endpoints' hop-control messages after reassembly (Table LINK-7). -/
structure HelloMsg where
  ep     : BitVec 16
  random : Bytes
  ecdh   : Bytes
  kem    : Bytes
deriving DecidableEq, Repr

/-- A JOIN or GRANT message after reassembly of its fragments (R129, R130). -/
structure JobMsg where
  engine : Fin 96
  destEp : BitVec 16
  srcEp  : BitVec 16
  jobId  : BitVec 16
  chain  : Bytes
  ecdh   : Bytes
  kem    : Bytes
  wrapped : Bytes
  digest : Bytes
  sig    : Bytes
deriving DecidableEq, Repr

/-- The two transports of SPDM (R223, R225). -/
inductive SpdmTransport where
  | doe
  | mctp
deriving DecidableEq, Repr

/-- How an SPDM request came (R46, R223, R316): in a DOE object, of type 2 where it is secured under a session, or in an MCTP
message with its tag. -/
inductive SpdmPort where
  | doe (session : Option (BitVec 32))
  | mctp (p : MctpSrc) (session : Option (BitVec 32))
deriving DecidableEq, Repr

/-- The transport of a request. -/
def SpdmPort.transport : SpdmPort → SpdmTransport
  | .doe _ => .doe
  | .mctp _ _ => .mctp

/-- The session a request is secured under, where it is. -/
def SpdmPort.session : SpdmPort → Option (BitVec 32)
  | .doe x => x
  | .mctp _ x => x

/-- A blob-load target (R242): a free working slot, or the pending half of a replacement. -/
inductive LoadTarget where
  | working (cid : Fin 256) (attr : BitVec 5)
  | pending (slot : Fin 4096)
deriving DecidableEq, Repr

/-- The operation a derivation performs (Table ORNG-7): key input slot, label, context, length, target slots
with their attribute and the CID on whose behalf it runs. -/
structure DeriveReq where
  ki      : Fin 4096
  label   : Bytes
  context : Bytes
  bits    : Nat
  targets : List (Fin 4096)
  attr    : BitVec 5
  cid     : Fin 256
deriving DecidableEq, Repr

/-- A word as the two sensing passes read it (R276); words not named read equal to the array. -/
structure SensedWord where
  word : Fin 2048
  low  : BitVec 40
  high : BitVec 40
deriving DecidableEq, Repr

/-- LOCK's operands besides the region: the supplies during its pulses, and the words that its re-read at both margins finds
otherwise than the array holds them (R280). -/
structure LockInput where
  supplies : Supplies
  reads    : List SensedWord
deriving DecidableEq, Repr

/-- A digest descriptor as written to a requester's queue page: the address of its 64-byte block, and its bytes (R259). -/
structure DgSubmit where
  addr  : BitVec 26
  bytes : Bytes
deriving DecidableEq, Repr

/-- A Neighbor Solicitation or an Echo Request: the address it is for, and its bytes after the type (R314). -/
structure IcmpMsg where
  target : BitVec 128
  body   : Bytes
deriving DecidableEq, Repr

/-- A host command whose buffer is not answered, with its opcode (R394). -/
structure LateBuffer where
  cmd    : HostCmd
  opcode : Byte
deriving DecidableEq, Repr

/-- Member ranges of a job (Table LINK-9A), low and high endpoint inclusive. -/
abbrev EpRange := BitVec 16 × BitVec 16

/-- The commands of the block, in the order of spec/opcode_table.json. -/
inductive Instr where
  -- alarms, resets, timebase, latching reads, register writes
  | tamperZeroize
  | tamperRelease
  | supplyAlarm
  | supplyRelease
  | supplyResetTimeout
  | coldReset
  | blockReset
  | lockstepMismatch (pair : Fin 3)
  | resetDelayExpiry
  | refLoss
  | refRelock
  | lockedChangeCommit
  | sundTickLoRead (master : Fin 39)
  | orngZeroTickLoRead (master : Fin 39)
  | hostPerfLoRead (master : Fin 39) (page : Fin 64) (perCtx : Bool) (idx : Fin 8)
  | registerWrite (master : Fin 39) (offset : BitVec 24) (value : Word)
  -- tenant contexts: host and management commands
  | ctxCreate (h : HostCmd)
  | ctxKeyImport (h : HostCmd)
  | ctxFrameBind (h : HostCmd)
  | ctxFrameRelease (h : HostCmd)
  | ctxPrefixSeal (h : HostCmd)
  | ctxSchedule (h : HostCmd)
  | ctxDrain (h : HostCmd)
  | ctxDestroy (h : HostCmd)
  | mgmtCtxDrain (m : MgmtHdr)
  | mgmtCtxDestroy (m : MgmtHdr)
  | attestEvidence (h : HostCmd)
  | verifyPolicy (h : HostCmd)
  | verifyReport (h : HostCmd)
  | jobLinkOpen (h : HostCmd)
  | jobLinkClose (h : HostCmd)
  | scrubFrames (h : HostCmd)
  | mgmtScrubFrames (m : MgmtHdr) (frames : List (Fin 524288))
  | powerPolicy (h : HostCmd)
  | debugConsent (h : HostCmd)
  -- context-private packets at the head of queue 65 + cid
  | pfxCreate (cid : Fin 256)
  | pfxJoin (cid : Fin 256)
  | pfxLeave (cid : Fin 256)
  | cmrExtend (cid : Fin 256)
  -- context and group events
  | groupRetired (g : Fin 256)
  | integrityFault (unit : Fin 544)
  | fencedToDestroying (cid : Fin 256)
  | drainCountsZero (cid : Fin 256)
  | drainFinish (cid : Fin 256)
  | drainTimeout (cid : Fin 256)
  | destroyWaitTimeout (cid : Fin 256)
  | destroyZeroise (cid : Fin 256)
  | destroyScrubDone (cid : Fin 256)
  | cooldownExpiry (cid : Fin 256)
  | consentExpiry (cid : Fin 256)
  | counterRefresh
  -- context switch and dies
  | sliceExpiry (die : Fin 32)
  | saveComplete (die : Fin 32)
  | ctxClearAck (die : Fin 32)
  | ctxClearTimeout (die : Fin 32)
  | stampDone (die : Fin 32) (reads : LineReads) (headers : List SlotHeader)
  | preemptTimeout (die : Fin 32)
  | coreReset (die : Fin 32) (core : Fin 320)
  | partialReset (die : Fin 32)
  | heartbeatMissed (die : Fin 32)
  | ldgHeartbeat (master : Fin 39) (die : Fin 32) (value : Word)
  | dieReloadDone (die : Fin 32) (image : Bytes)
  | dieReloadTimeout (die : Fin 32)
  | blockResetRequest (master : Fin 39) (value : Word)
  | dieResetRequest (master : Fin 39) (value : Word)
  -- memory fence, fills, scrub, locked changes
  | fenceReadRequest (r : FenceReq)
  | fenceWriteRequest (r : FenceReq) (data : BitVec 512)
  | mcResponse (ch : Fin 512) (data : BitVec 512) (metaTag : Word) (uerr : Bool)
  | mcWack (ch : Fin 512) (pos : Nat)
  | fillRequest (f : FillReq)
  | fenceFillMessage (drop : Fin 32) (msg : Bytes)
  | jobFillMessage (drop : Fin 32) (msg : Bytes)
  | samplingKeyFillMessage (drop : Fin 32) (msg : Bytes)
  | pushMessage (drop : Fin 32) (msg : Bytes)
  | pushAckTimeout (drop : Fin 32)
  | scrubFrameDone (frame : Fin 524288)
  | lockInvalidatePairs (master : Fin 39) (id : Fin 256) (mask : BitVec 4)
  | lockInvalidateCid (master : Fin 39) (id : Fin 256)
  | lockInvalidateGroup (master : Fin 39) (id : Fin 256)
  | lockSealGroup (master : Fin 39) (id : Fin 256)
  | lockInvalidateAll (master : Fin 39)
  -- link fence
  | linkEgressBeat (engine : Fin 96) (cid : Fin 256) (job : BitVec 16) (data : Bytes)
  | egressFrameClose (engine : Fin 96)
  | linkIngressFrame (engine : Fin 96) (beats : Nat) (frame : Bytes)
  | jobTagThreshold (j : Fin 256)
  | hopTagThreshold (engine : Fin 96)
  | lnkUpRise (engine : Fin 96)
  | lnkUpFall (engine : Fin 96)
  | hopHello (engine : Fin 96) (m : HelloMsg)
  | hopCert (engine : Fin 96) (chain : Bytes)
  | hopEncap (engine : Fin 96) (ct : Bytes) (sig : Bytes)
  | hopFinish (engine : Fin 96) (mac : Bytes)
  | keyingTimeout (engine : Fin 96)
  | linkRetryTimer (engine : Fin 96)
  | hseqRekeyThreshold (engine : Fin 96)
  | linkRekey (m : MgmtHdr)
  | rekeyRetryTimer (engine : Fin 96)
  | oldPhaseExpiry (engine : Fin 96)
  | join (m : JobMsg)
  | grant (m : JobMsg)
  | memberKeyingTimeout (j : Fin 256)
  | jobClose (engine : Fin 96) (job : BitVec 16)
  | closeAck (engine : Fin 96) (job : BitVec 16)
  | closeTimerExpiry (engine : Fin 96) (j : Fin 256)
  | jobOpenOp (m : MgmtHdr) (jobId : BitVec 16) (leader : Bool) (leaderEp : BitVec 16) (plain : Bool) (ranges : List EpRange)
  | jobCloseOp (m : MgmtHdr)
  -- Greenhouse
  | receipt (die : Fin 32) (core : Fin 320) (entries : List QEntry)
  | samplingDecision (die : Fin 32)
  | opBegin (die : Fin 32)
  | opEnd (die : Fin 32)
  | outputCopyDone (die : Fin 32) (slot : Fin 16) (f : Fetched)
  | checkVerdict (die : Fin 32) (slot : Fin 16)
  | checkDrop (die : Fin 32) (slot : Fin 16)
  -- Pergola
  | add (op : PergOp)
  | sub (op : PergOp)
  | waitGe (op : PergOp)
  | waitSub (op : PergOp)
  | read (op : PergOp)
  | set (op : PergOp)
  | realign (op : PergOp)
  | ringOperation (home : Fin 32)
  | waitTimeout (die : Fin 32) (core : Fin 320)
  -- spill queues and Lodge service
  | splqEntryWrite (p : QPort) (e : QEntry)
  | consumerRead (q : Fin 320)
  | spillBurstDone (q : Fin 320)
  | middleReadDone (q : Fin 320) (reads : LineReads)
  | splqTimeoutNotice (q : Fin 320)
  | packetShortTimeout (q : Fin 320) (port : Nat)
  | schedule (die : Fin 32)
  | drain (die : Fin 32)
  | fence (die : Fin 32)
  | destroy (die : Fin 32)
  | reload (die : Fin 32)
  -- power
  | powerLoop (die : Fin 32) (r : AvsReading)
  | thermalLimit (die : Fin 32)
  | powerCap (m : MgmtHdr) (watts : Nat)
  | powerTelemetryRefresh
  -- Orangery
  | remask (slot : Fin 4096)
  | entropyBlock (raw : Bytes)
  | drbgReseed
  | generateQueueTimeout
  | blobLoad (target : LoadTarget) (blob : Bytes)
  | blobExport (slot : Fin 4096) (cid : Fin 256) (perBoot : Bool)
  | derive (d : DeriveReq)
  | zeroise (slot : Fin 4096) (cid : Fin 256)
  | compare (slot : Fin 4096) (cid : Fin 256) (value : Bytes)
  | keyCheckValue (slot : Fin 4096)
  | keyLoadVerified (load : Fin 4096)
  | keyLoadCommit (load : Fin 4096)
  | kbusEstablish
  | kbusConfirmation (drop : Fin 32) (pub : Bytes) (conf : Bytes)
  -- digest engines
  | digestHash (requester : Fin 37) (desc : DgSubmit)
  | hmacGen (requester : Fin 37) (cid : Fin 256) (desc : DgSubmit)
  | hmacCheck (requester : Fin 37) (cid : Fin 256) (desc : DgSubmit)
  | dgstPreempted (engine : Fin 4) (processed : Bytes)
  | digestDone (engine : Fin 4) (data : Bytes) (expected : Bytes)
  | dgstReadTimeout (engine : Fin 4)
  | dgst0ImageEnd
  | unitEn (master : Fin 39) (value : Word)
  -- OTP and life cycle
  | program (master : Fin 39) (word : Fin 2048) (v : Supplies)
  | lock (master : Fin 39) (region : Fin 2048) (input : LockInput)
  | thermoAdvance (master : Fin 39) (counter : Fin 2048) (v : Supplies)
  | genUds (master : Fin 39) (v : Supplies)
  | lcycAdvance (master : Fin 39) (target : Fin 2048) (v : Supplies)
  | mgmtLcycAdvance (m : MgmtHdr) (target : Fin 2048) (v : Supplies)
  | otpPulseEnd (failed : BitVec 40)
  | overrideWrite (master : Fin 39) (e : Fin 16) (word : BitVec 11) (valid : Bool) (value : Word)
  | otpSensingDone (reads : List SensedWord)
  -- boot
  | bootRomStart
  | drbgReady
  | slotSelection
  | verified
  | bootAttemptFail
  | bootAttemptTimeout
  | deferredCheckDone (part : Fin 16)
  | freeze (master : Fin 39) (value : Word)
  | freezeTimeout
  | belvedereSequenceDone
  | ready
  | pottingShed
  | announce
  | pottingData (mac : BitVec 48) (offset : Nat) (data : Bytes)
  | pottingEnd (mac : BitVec 48) (length : Nat)
  | pottingShedTransferTimeout
  -- Belvedere and SPDM
  | signingDone
  | mrExtend (m : MgmtHdr) (reg : Byte) (d : Bytes)
  | getVersion (p : SpdmPort)
  | getCapabilities (p : SpdmPort)
  | negotiateAlgorithms (p : SpdmPort) (base : Bytes)
  | getDigests (p : SpdmPort)
  | getCertificate (p : SpdmPort) (slot : Byte) (offset : Nat) (length : Nat)
  | challenge (p : SpdmPort) (slot : Byte) (nonce : Bytes) (summary : Byte)
  | getMeasurements (p : SpdmPort) (index : Byte) (signed : Bool) (nonce : Bytes)
  | keyExchange (p : SpdmPort) (session : BitVec 32) (ecdh : Bytes)
  | spdmFinish (p : SpdmPort) (session : BitVec 32) (mac : Bytes)
  | spdmUnsupportedRequest (p : SpdmPort) (code : Byte)
  | sessionIdleTimeout (t : SpdmTransport) (session : BitVec 32)
  -- DOE
  | doeDiscovery (index : Byte)
  | doeAbort
  | doeObjectTimeout
  -- Bandstand
  | dtlsHandshake (hello : DtlsHello) (transcript : Bytes) (sig : Bytes)
  | associationIdleTimeout (a : Fin 4)
  | bootingDatagram
  | icmpv6Request (echo : Bool) (msg : IcmpMsg)
  | mctpMessageTimeout (late : LateMessage)
  | getInfo (m : MgmtHdr)
  | keygenEpoch (m : MgmtHdr) (chain : Bytes) (sig : Bytes) (v : Supplies)
  | ctxMemoryRead (m : MgmtHdr) (cid : Fin 256) (ksel : Fin 4) (addr : BitVec 64) (length : Nat)
  | settingsWrite (m : MgmtHdr) (block : Bytes)
  | updtConfirm (m : MgmtHdr)
  | autoConfirmExpiry
  | updtDiscard (m : MgmtHdr)
  | eventsRead (m : MgmtHdr) (start : Nat)
  | faultLogRead (m : MgmtHdr) (start : Nat)
  | queryDeviceIdentifiers (p : MctpSrc)
  | getFirmwareParameters (p : MctpSrc)
  | requestUpdate (p : MctpSrc)
  | passComponentTable (p : MctpSrc) (component : BitVec 16)
  | updateComponent (p : MctpSrc) (component : BitVec 16) (size : Nat)
  | firmwareData (p : MctpSrc) (offset : Nat) (data : Bytes)
  | firmwareDataTimeout
  | stagingDone
  | activateFirmware (p : MctpSrc)
  | getStatus (p : MctpSrc)
  | cancelUpdateComponent (p : MctpSrc)
  | cancelUpdate (p : MctpSrc)
  -- host rings
  | hostCmdDb (master : Fin 39) (page : Fin 64) (value : Word)
  | hostCplDb (master : Fin 39) (page : Fin 64) (value : Word)
  | commandRingEnable (master : Fin 39) (page : Fin 64) (value : Word)
  | completionRingEnable (master : Fin 39) (page : Fin 64) (value : Word)
  | chainTimeout (ring : Fin 64) (h : HostCmd)
  | descriptorFetchFault (ring : Fin 64)
  | completionWriteFault (ring : Fin 64)
  | bufferAccessTimeout (late : LateBuffer)
  | coalescingTimer (ring : Fin 64)
  | hostFlr
  | hostFnReady
  -- rows added at the table's end
  | operandFetchDone (die : Fin 32) (slot : Fin 16) (f : Fetched)
  | lodgeReadyTimeout (die : Fin 32)
  | programmingSupplyAbort (v : Supplies) (burned : BitVec 40)
  | doeObjectError (type : Byte) (declared : Nat) (length : Nat)
  | hostUnlistedOpcode (h : HostCmd) (opcode : Byte)
  | mgmtUnlistedOpcode (m : MgmtHdr) (opcode : Byte)
  | pldmUnsupportedCommand (p : MctpSrc) (code : Byte)
  | contextPrivateBadPacket (cid : Fin 256)
  | pergolaNullOperation (op : PergOp)
  | bandstandFrameDropped
  | sgmiiLinkChange (up : Bool)
deriving DecidableEq, Repr

end Sys2Proof
end

