-- ==== Sys2Proof/Decode.lean ====
section
/-! DEFINITION. The commands that words of the table spell. The table of this block gives no row any bits, so no word
spells a command. -/

namespace Sys2Proof

/-- The command a word spells by the table's bits: none, since no row of the table has bits. -/
def decodeTableWord (_nbits _w : Nat) : Option Instr := none

end Sys2Proof
end

