-- ==== Sys2Proof/Machine/Classes.lean ====
section
/-! DEFINITION. The event classes of Table ARCH-4 (01_the_complex.md): class and unit index of each event it lists. -/

namespace Sys2Proof.Machine

/-- Class and unit index of an event that Table ARCH-4 lists. -/
def eventUnit : Instr → Option (Nat × Nat)
  | .tamperZeroize => some (1, 0)
  | .supplyAlarm => some (2, 0)
  | .blockReset => some (3, 0)
  | .blockResetRequest _ _ => some (3, 0)
  | .lockstepMismatch _ => some (3, 0)
  | .resetDelayExpiry => some (3, 0)
  | .tamperRelease => some (3, 0)
  | .supplyResetTimeout => some (3, 0)
  | .coldReset => some (3, 0)
  | .integrityFault u => some (4, u.val)
  | .mgmtCtxDrain m | .mgmtCtxDestroy m | .mgmtScrubFrames m _ | .linkRekey m | .jobOpenOp m _ _ _ _ _ | .jobCloseOp m
  | .powerCap m _ | .mgmtLcycAdvance m _ _ | .mrExtend m _ _ | .getInfo m | .keygenEpoch m _ _ _ | .ctxMemoryRead m _ _ _ _
  | .settingsWrite m _ | .updtConfirm m | .updtDiscard m | .eventsRead m _ | .faultLogRead m _ | .mgmtUnlistedOpcode m _ =>
    some (5, m.tag.val)
  | .getVersion p | .getCapabilities p | .negotiateAlgorithms p _ | .getDigests p | .getCertificate p _ _ _ | .challenge p _ _ _
  | .getMeasurements p _ _ _ | .keyExchange p _ _ | .spdmFinish p _ _ | .spdmUnsupportedRequest p _ =>
    (match p with | .mctp t _ => some (5, t.tag.val) | .doe _ => none)
  | .queryDeviceIdentifiers t | .getFirmwareParameters t | .requestUpdate t | .passComponentTable t _ | .updateComponent t _ _
  | .firmwareData t _ _ | .activateFirmware t | .getStatus t | .cancelUpdateComponent t | .cancelUpdate t
  | .pldmUnsupportedCommand t _ => some (5, t.tag.val)
  | .ctxCreate h | .ctxKeyImport h | .ctxFrameBind h | .ctxFrameRelease h | .ctxPrefixSeal h | .ctxSchedule h | .ctxDrain h
  | .ctxDestroy h | .attestEvidence h | .verifyPolicy h | .verifyReport h | .jobLinkOpen h | .jobLinkClose h | .scrubFrames h
  | .powerPolicy h | .debugConsent h | .hostUnlistedOpcode h _ => some (6, h.ring.val)
  | .bufferAccessTimeout x => some (6, x.cmd.ring.val)
  | .chainTimeout ring _ => some (6, ring.val)
  | .pfxCreate c | .pfxJoin c | .pfxLeave c | .cmrExtend c | .contextPrivateBadPacket c => some (7, c.val - 1)
  | .add o | .sub o | .waitGe o | .waitSub o | .read o | .set o | .realign o | .pergolaNullOperation o => some (8, o.die.val)
  | .ringOperation h => some (8, h.val)
  | .fillRequest (.fence ch _ _) => some (8, 32 + ch.val)
  | .jobClose e _ | .closeAck e _ => some (8, 544 + e.val)
  | .splqTimeoutNotice q | .packetShortTimeout q _ => some (9, q.val)
  | .waitTimeout d _ => some (9, 320 + d.val)
  | .closeTimerExpiry e _ => some (9, 352 + e.val)
  | .drainTimeout c => some (9, 447 + c.val)
  | _ => none

/-- A reset request or an alarm: classes 1 to 3. -/
def isReset (i : Instr) : Bool :=
  match eventUnit i with
  | some (c, _) => decide (c ≤ 3)
  | none => false

/-- What a block reset leaves of the commands of its tick (Table ARCH-5, last row): every later event is discarded but the
alarms and resets, which are applied first in any tick (log 112). -/
def afterReset (q : List Instr) : List Instr := q.filter isReset

/-- The place of an event in its tick: the class of Table ARCH-4; 0 for what is applied at the start of a tick (R137, R268,
R285), 10 for what sees the tick's commands applied before it (R204, R268, R285; log 113). Die resets end class 4, in ascending die
order (R411). -/
def eventPlace (i : Instr) : Option (Nat × Nat) :=
  match i with
  | .jobTagThreshold _ => some (0, 0)
  | .hopTagThreshold _ => some (0, 0)
  | .ready => some (0, 0)
  | .samplingDecision _ => some (10, 0)
  | .digestDone _ _ _ => some (10, 0)
  | .overrideWrite _ _ _ _ _ => some (10, 0)
  | .partialReset die => some (4, 544 + die.val)
  | i => eventUnit i

/-- The registers that close to writes in the tick in which host_fn_ready rises, that tick included (R424): SPLQ_CFG,
SPLQ_MID_BASE, PWRM_CFG, the LDG_PWR_CFG and PAV_WDOG_CFG. -/
def closesAtReady (off : Nat) : Bool :=
  decide (off = 0x20) || decide (off = 0xF0004) ||
    (decide (0xE0000 ≤ off) && decide (off < 0xE0000 + 320 * 0x20) && (decide (off % 0x20 = 0) || decide (off % 0x20 = 4))) ||
    (decide (0x150200 ≤ off) && decide (off < 0x150200 + 32 * 0x1000) && decide ((off - 0x150200) % 0x1000 = 0))

/-- An event that ends the boot attempt under way. -/
def endsAttempt : Instr → Bool
  | .bootAttemptFail => true
  | .bootAttemptTimeout => true
  | _ => false

/-- An event by which contexts become FENCED in its tick. -/
def fencesContexts : Instr → Bool
  | .integrityFault _ => true
  | .partialReset _ => true
  | _ => false

/-- Two events of one tick that may not stand in this order, whatever their classes: zeroisation comes before any other event (Table
ARCH-5), the failure of an attempt before VERIFIED (Table BOOT-13), a fencing before a frame that arrives with it (Table LINK-11),
READY before a write of a register that it closes (R424). -/
def mayNotPrecede (a b : Instr) : Bool :=
  match a, b with
  | a, .tamperZeroize => (eventPlace a).isNone
  | .verified, b => endsAttempt b
  | .linkIngressFrame _ _ _, b => fencesContexts b
  | .registerWrite _ off _, .ready => closesAtReady off.toNat
  | _, _ => false

/-- Master and value of a register write that carries its register's offset. -/
def writeOf : Instr → Option (Nat × Nat)
  | .registerWrite m off _ => some (off.toNat, m.val)
  | _ => none

/-- The writes of one KCLK cycle to one register, in ascending master index (R421). The commands carry no cycle: who fills the queue
knows which writes share one (log 146). -/
def cycleOrdered : List Instr → Bool
  | [] => true
  | a :: rest => rest.all (fun b =>
      match writeOf a, writeOf b with
      | some (off, m), some (off', m') => !decide (off = off') || decide (m < m')
      | _, _ => true) && cycleOrdered rest

/-- The turn of a key fill (R248): fence fills before link job fills, these before sampling-key fills, with the unit in its turn. -/
def fillPlace (i : Instr) : Option (Nat × Nat) :=
  match i with
  | .fillRequest (.fence ch _ _) => some (0, ch.val)
  | .fillRequest (.job e _) => some (1, e.val)
  | .fillRequest (.sampling d _) => some (2, d.val)
  | _ => none

end Sys2Proof.Machine
end

