-- ==== Sys2Proof/Config.lean ====
section
/-! DEFINITION. What an instance of the block fixes, and the values the spec leaves open: the unit counts of the full
configuration, the free values drawn from the DRBG, and the public-key functions whose algorithms the spec only names. -/

namespace Sys2Proof

/-- Dies of the full configuration (R11, Table SCOPE-2). -/
abbrev Config.dies : Nat := 32
/-- Fence channels of the full configuration. -/
abbrev Config.channels : Nat := 512
/-- Link engines of the full configuration. -/
abbrev Config.engines : Nat := 96
/-- Frames of the package (03_tenant_contexts.md). -/
abbrev Config.frames : Nat := 524288
/-- Frames that control firmware reserves at boot as DEVICE frames under CID 0, beside the middles of the spill queues: the
staging frames of R193, the stores of R406, the parts of R308. Their numbers are left open. -/
opaque Config.bootFrames : List Nat
/-- A settings block in the format of the image with a manifest digest, where its firmware has another one (R327): the conversion belongs
to that firmware. -/
opaque Config.settingsFor (image block : Bytes) : Option Bytes
/-- PAV_BUILD_CFG of the full configuration (Table SCOPE-2). -/
abbrev Config.buildCfg : BitVec 32 := 0x01601020

/-- The `n`-th value drawn from the DRBG or from a drop's own drawing (R23, R250 to R252): a free value, log 4. -/
opaque Config.freeBits : Nat → BitVec 512

/-- ECDSA P-384 verification: public key, message, signature (R58: FIPS 186-5, not restated by the spec, log 11). -/
opaque Config.ecdsaVerify (pub msg sig : Bytes) : Bool

/-- ML-DSA-87 verification: public key, message, signature (R58: FIPS 204). -/
opaque Config.mldsaVerify (pub msg sig : Bytes) : Bool

/-- ECDSA P-384 signature of a message under a key seed. -/
opaque Config.ecdsaSign (seed msg : Bytes) : Bytes

/-- ML-DSA-87 signature of a message under a key seed. -/
opaque Config.mldsaSign (seed msg : Bytes) : Bytes

/-- ECDSA P-384 public key of a seed (R209). -/
opaque Config.ecdsaPublic (seed : Bytes) : Bytes

/-- ML-DSA-87 public key of a seed (R209). -/
opaque Config.mldsaPublic (seed : Bytes) : Bytes

/-- ECDH P-384 public key of a secret (R58: SP 800-56A). -/
opaque Config.ecdhPublic (secret : Bytes) : Bytes

/-- ECDH P-384 shared x-coordinate of a secret and a peer's public key; none where the peer's key is not a valid point. -/
opaque Config.ecdhShared (secret pub : Bytes) : Option Bytes

/-- ML-KEM-1024 encapsulation key of a secret (R58: FIPS 203). -/
opaque Config.kemPublic (secret : Bytes) : Bytes

/-- ML-KEM-1024 encapsulation to a key under drawn randomness: ciphertext and shared secret. -/
opaque Config.kemEncap (pub rand : Bytes) : Bytes × Bytes

/-- ML-KEM-1024 decapsulation of a ciphertext. -/
opaque Config.kemDecap (secret ct : Bytes) : Bytes

/-- What a verifier reads of a DER certificate (R212): its text, its TBSCertificate, the same with the signature octets of the
Ehrov hybrid extension filled with zeros, both signatures, both subject keys, and whether subject and issuer are one. -/
structure CertView where
  text      : Bytes
  tbs       : Bytes
  zeroed    : Bytes
  ecdsaSig  : Bytes
  mldsaSig  : Bytes
  ecdsaKey  : Bytes
  mldsaKey  : Bytes
  selfIssued : Bool
deriving DecidableEq, Repr

/-- The certificates of a chain in its order, issuers first; none where the bytes are no chain of X.509 v3 certificates in DER
(R58, R212: the encoding is the standard's, log 11). -/
opaque Config.derChain (chain : Bytes) : Option (List CertView)

/-- A chain's signing certificate carries the Ehrov key-generation role (R318). -/
opaque Config.keygenRole (chain : Bytes) : Bool

/-- A span of addresses that a requester of the digest engines reaches in its own SRAM (R267): requester index of Table DGST-2,
address, length. The spec gives the SRAMs' sizes and no addresses (log 127). -/
opaque Config.sramReach (requester address len : Nat) : Bool

/-- The further IPv6 address that a settings block names, where it names one (R314): the spec lays out no settings block. -/
opaque Config.settingsAddress (block : Bytes) : Option (BitVec 128)

/-- The SHA-384 digest of the mask ROM (MR0 of R216). -/
opaque Config.romDigest : Bytes

/-- The Ehrov root digest held in the mask ROM, the trust anchor while IDENT is incomplete (R299). -/
opaque Config.romAnchor : Bytes

/-- The verify data of SPDM FINISH under a session's secret; the SPDM key schedule is not restated by the spec. -/
opaque Config.spdmFinished (secret : Bytes) : Bytes

/-- The Ehrov root certificate of a trust anchor, level 1 of Table BELV-2. -/
opaque Config.rootCertificate (anchor : Bytes) : Bytes

/-- The life-cycle code in the alias certificate of a chain (Table BELV-2). -/
opaque Config.chainLifecycle (chain : Bytes) : BitVec 32

/-- The static route of the settings block in force to a destination endpoint, as a link number (R32); the format of the
settings block is left open. -/
opaque Config.routeOf (settings : Bytes) (endpoint : BitVec 16) : Option Nat

/-- Code of a soft-maximum element whose finished partial brings the denominator S1 = 0 with a finite maximum, from the
partial's fields and the element (R175 states no quotient there, log 24). -/
opaque Config.softOpen : List Nat → Nat

/-- A TBSCertificate in DER of a subject's ECDSA key, the fields of Table BELV-2 and the contents of the hybrid extension (R212;
the encoding is the standard's, log 11). -/
opaque Config.derTbs (ecdsaKey fields extension : Bytes) : Bytes

/-- A certificate in DER of a TBSCertificate and its ECDSA signature. -/
opaque Config.derCert (tbs sig : Bytes) : Bytes

end Sys2Proof
end

