-- ==== Sys2Proof/Machine/Map.lean ====
section
/-! DEFINITION. Finite maps from numbers to values as plain data in one canonical form: keys strictly rising, and no
entry equal to what an unlisted key reads as. Every array of the block (channels, dies, frames, slots, OTP words, queues)
is such a map, whose default is the reset value of one element. -/

namespace Sys2Proof.Machine

/-- A map from numbers to values as sorted pairs. -/
abbrev NMap (α : Type) := List (Nat × α)

/-- The value at key `k`; an unlisted key reads as `d`. -/
def mapGet {α : Type} (d : α) : NMap α → Nat → α
  | [], _ => d
  | (k', v) :: m, k => if k = k' then v else if k < k' then d else mapGet d m k

/-- `m` without an entry at `k`. -/
def mapErase {α : Type} : NMap α → Nat → NMap α
  | [], _ => []
  | (k', v) :: m, k => if k = k' then m else if k < k' then (k', v) :: m else (k', v) :: mapErase m k

/-- `m` with the entry (`k`, `v`) put at its place. -/
def mapPut {α : Type} : NMap α → Nat → α → NMap α
  | [], k, v => [(k, v)]
  | (k', v') :: m, k, v =>
    if k = k' then (k, v) :: m else if k < k' then (k, v) :: (k', v') :: m else (k', v') :: mapPut m k v

/-- `m` with key `k` reading `v`; writing the default removes the entry. -/
def mapSet {α : Type} [DecidableEq α] (d : α) (m : NMap α) (k : Nat) (v : α) : NMap α :=
  if v = d then mapErase m k else mapPut m k v

/-- `m` with `f` applied at key `k`. -/
def mapMod {α : Type} [DecidableEq α] (d : α) (m : NMap α) (k : Nat) (f : α → α) : NMap α :=
  mapSet d m k (f (mapGet d m k))

/-- `f` applied at every listed key; entries that become the default are removed. -/
def mapAll {α : Type} [DecidableEq α] (d : α) (f : Nat → α → α) (m : NMap α) : NMap α :=
  m.filterMap (fun e => if f e.1 e.2 = d then none else some (e.1, f e.1 e.2))

/-- Every key of `m` lies above `b`, and the keys rise strictly. -/
def mapAbove {α : Type} : Nat → NMap α → Bool
  | _, [] => true
  | b, (k, _) :: m => decide (b ≤ k) && mapAbove (k + 1) m

/-- The canonical form: keys strictly rising, no entry equal to the default. -/
def mapWf {α : Type} [DecidableEq α] (d : α) (m : NMap α) : Bool :=
  mapAbove 0 m && m.all (fun e => decide (e.2 ≠ d))

/-- `f` applied to every key below `n`, in rising order. -/
def forUpTo {σ : Type} : Nat → (Nat → σ → σ) → σ → σ
  | 0, _, s => s
  | n + 1, f, s => f n (forUpTo n f s)

/-- The least number below `n` that satisfies `p`. -/
def leastBelow (n : Nat) (p : Nat → Bool) : Option Nat :=
  (List.range n).find? p

end Sys2Proof.Machine
end

