-- ==== Sys2Proof/Machine/ByteOps.lean ====
section
/-! DEFINITION. Byte strings: the byte orders of R7, padding, slices, exclusive or, bits, and saturating counters. -/

namespace Sys2Proof.Machine

/-- `n` bytes of `x`, least significant first (R7: little-endian). -/
def leNat : Nat → Nat → Bytes
  | 0, _ => []
  | n + 1, x => BitVec.ofNat 8 x :: leNat n (x / 256)

/-- `n` bytes of `x`, most significant first. -/
def beNat (n x : Nat) : Bytes := (leNat n x).reverse

/-- The number a little-endian byte string holds. -/
def leVal : Bytes → Nat
  | [] => 0
  | b :: bs => b.toNat + 256 * leVal bs

/-- The number a big-endian byte string holds. -/
def beVal (bs : Bytes) : Nat := leVal bs.reverse

/-- Little-endian bytes of a bit vector. -/
def leBv {w : Nat} (n : Nat) (x : BitVec w) : Bytes := leNat n x.toNat

/-- `n` zero bytes. -/
def zeros (n : Nat) : Bytes := List.replicate n 0

/-- `bs` cut or padded with zeros to `n` bytes. -/
def fit (n : Nat) (bs : Bytes) : Bytes := bs.take n ++ zeros (n - (bs.take n).length)

/-- Bytes `off` to `off + n - 1`; bytes beyond the end read zero. -/
def slice (bs : Bytes) (off n : Nat) : Bytes := fit n (bs.drop off)

/-- Byte `i`; bytes beyond the end read zero. -/
def byteAt (bs : Bytes) (i : Nat) : Byte := (bs.drop i).headD 0

/-- The little-endian number of bytes `off` to `off + n - 1`. -/
def leAt (bs : Bytes) (off n : Nat) : Nat := leVal (slice bs off n)

/-- Bytewise exclusive or, to the length of the shorter. -/
def xorBytes (a b : Bytes) : Bytes := List.zipWith (· ^^^ ·) a b

/-- `bs` with `v` written from offset `off` on (`bs` grows with zeros where it is too short). -/
def patch (bs : Bytes) (off : Nat) (v : Bytes) : Bytes :=
  fit off bs ++ v ++ bs.drop (off + v.length)

/-- All bytes are zero. -/
def allZero (bs : Bytes) : Bool := bs.all (· == 0)

/-- ASCII text as bytes. -/
def ascii (t : String) : Bytes := t.toList.map (fun c => BitVec.ofNat 8 c.toNat)

/-- A byte string cut into pieces of `n` bytes, the last one short where `n` does not divide the length. -/
def chunksFuel : Nat → Nat → Bytes → List Bytes
  | 0, _, _ => []
  | _ + 1, _, [] => []
  | f + 1, n, bs => bs.take n :: chunksFuel f n (bs.drop n)

/-- A byte string cut into pieces of `n` bytes (`n` at least 1). -/
def chunks (n : Nat) (bs : Bytes) : List Bytes := chunksFuel (bs.length + 1) (max n 1) bs

/-- One bit as a number. -/
def bit (b : Bool) : Nat := if b then 1 else 0

/-- Bit `i` of a number. -/
def testBit (x i : Nat) : Bool := Nat.testBit x i

/-- Bits `lo` to `lo + n - 1` of a number. -/
def bits (x lo n : Nat) : Nat := x / 2 ^ lo % 2 ^ n

/-- A 32-bit register word built from a number. -/
def word (x : Nat) : Word := BitVec.ofNat 32 x

/-- `x + n`, held at the largest value of the width (saturating counters of R10, R142, R337). -/
def satAdd {w : Nat} (x : BitVec w) (n : Nat) : BitVec w :=
  if x.toNat + n < 2 ^ w then BitVec.ofNat w (x.toNat + n) else BitVec.allOnes w

/-- `x` held between `lo` and `hi`. -/
def clamp (lo hi x : Nat) : Nat := max lo (min hi x)

/-- Number of 1 bits of a number below 2 to the `n`. -/
def popCount : Nat → Nat → Nat
  | 0, _ => 0
  | n + 1, x => x % 2 + popCount n (x / 2)

end Sys2Proof.Machine
end

