-- ==== Sys2Proof/Machine/Status.lean ====
section
/-! DEFINITION. The status and fault codes of Table FAULT-1 (R404). -/

namespace Sys2Proof.Machine

/-- A status code (R404: no other value is ever produced). -/
inductive Status where
  | ok  -- 0x0000 Success
  | busy  -- 0x0001 A resource, queue or gate is not available now
  | staleGeneration  -- 0x0002 Generation not current, under R24
  | badDescriptor  -- 0x0003 Malformed command, descriptor, operation or record
  | notPermitted  -- 0x0004 Not allowed to this requester, in this state or life cycle
  | lengthShort  -- 0x0005 Fewer data than declared, under R368
  | lengthLong  -- 0x0006 More data than declared, under R368
  | timeout  -- 0x0007 A bounded wait or access expired
  | otpMarginal  -- 0x0101 Marginal word at sensing, or burn not verified
  | otpLockIncomplete  -- 0x0102 Lock or transition on an incomplete region
  | otpSupplyWindow  -- 0x0103 Programming supply or core supply out of window
  | lcycInvalid  -- 0x0104 No life-cycle majority
  | bootSlotInvalid  -- 0x0201 Slot failed a check of Table BOOT-7
  | bootSlotTie  -- 0x0202 Equal sequence numbers, decided under R302
  | bootNoImage  -- 0x0203 No slot bootable
  | bootSvnLow  -- 0x0204 Security version below the floor
  | keySlotBad  -- 0x0301 Share integrity code failed
  | keyAttrDenied  -- 0x0302 Attribute or CID binding forbids the use
  | keyBlobInvalid  -- 0x0303 Blob, bundle or key-bus message failed its checks
  | keyKcvMismatch  -- 0x0304 Key check value differs
  | keyZeroized  -- 0x0305 Keys zeroised
  | dgstPreempted  -- 0x0401 Digest request pre-empted, state exported
  | dgstCompareFail  -- 0x0402 Digest compare mismatch
  | ctxState  -- 0x0501 Command not valid in the context's state
  | ctxFenced  -- 0x0502 Context is FENCED
  | ctxGone  -- 0x0503 Context destroyed or being destroyed
  | ctxDrainForced  -- 0x0504 Drain forced at its timeout
  | ctxPrefixSealed  -- 0x0505 Prefix group already sealed
  | fencTagFail  -- 0x0601 Line tag failed, or uncorrectable read
  | fencWriteSealed  -- 0x0602 Write to a sealed group
  | fencNoKey  -- 0x0603 No key for (CID, KSEL)
  | lnkfUnknownJob  -- 0x0701 Frame for a job not held
  | lnkfJobTag  -- 0x0702 Job tag or job header failed
  | lnkfHopTag  -- 0x0703 Hop tag, sequence or header failed
  | lnkfNotMember  -- 0x0704 Sender or opener not a member
  | lnkfCloseTimeout  -- 0x0705 JOB_CLOSE not acknowledged in 2 ms
  | belvUpdatePending  -- 0x0801 Activation committed, reboot pending
  | belvDieResetting  -- 0x0802 A die is RESETTING; the record is written
  | grnhMismatch  -- 0x0901 Recomputed tile differs
  | grnhSampleDropped  -- 0x0902 Selected sample not checked
  | grnhReceiptMissing  -- 0x0903 Fewer receipts than declared
  | pergSaturated  -- 0x0A01 ADD saturated
  | pergUnderflow  -- 0x0A02 SUB clamped at 0
  | pergDrift  -- 0x0A03 REALIGN out of bound
  | pergWaitTimeout  -- 0x0A04 Wait released by timeout
  | pergLeftover  -- 0x0A05 Core semaphores non-zero at save-out
  | splqOverrun  -- 0x0B01 Packet discarded at a full queue
  | splqTimeoutNotice  -- 0x0B02 Queue idle with entries
  | pwrPolicyClipped  -- 0x0C01 Host policy clipped by a higher rank
  | pwrThermalLimit  -- 0x0C02 Die held at the thermal bound
  | hostRingStopped  -- 0x0D01 Command ring stopped by a fault
  | updtHeaderReject  -- 0x0E01 Update header refused
  | updtBinding  -- 0x0E02 Update bound to another unit
  | updtDeltaBase  -- 0x0E03 Delta base is not the running slot
  | updtTrialFailed  -- 0x0E04 Trial slot retired after three attempts
  | tamper  -- 0x0F01 Tamper line asserted
  | supplyAlarm  -- 0x0F02 Supply alarm asserted
deriving DecidableEq, Repr

/-- The 16-bit code of a status (Table FAULT-1). -/
def statusCode : Status → BitVec 16
  | .ok => 0x0000
  | .busy => 0x0001
  | .staleGeneration => 0x0002
  | .badDescriptor => 0x0003
  | .notPermitted => 0x0004
  | .lengthShort => 0x0005
  | .lengthLong => 0x0006
  | .timeout => 0x0007
  | .otpMarginal => 0x0101
  | .otpLockIncomplete => 0x0102
  | .otpSupplyWindow => 0x0103
  | .lcycInvalid => 0x0104
  | .bootSlotInvalid => 0x0201
  | .bootSlotTie => 0x0202
  | .bootNoImage => 0x0203
  | .bootSvnLow => 0x0204
  | .keySlotBad => 0x0301
  | .keyAttrDenied => 0x0302
  | .keyBlobInvalid => 0x0303
  | .keyKcvMismatch => 0x0304
  | .keyZeroized => 0x0305
  | .dgstPreempted => 0x0401
  | .dgstCompareFail => 0x0402
  | .ctxState => 0x0501
  | .ctxFenced => 0x0502
  | .ctxGone => 0x0503
  | .ctxDrainForced => 0x0504
  | .ctxPrefixSealed => 0x0505
  | .fencTagFail => 0x0601
  | .fencWriteSealed => 0x0602
  | .fencNoKey => 0x0603
  | .lnkfUnknownJob => 0x0701
  | .lnkfJobTag => 0x0702
  | .lnkfHopTag => 0x0703
  | .lnkfNotMember => 0x0704
  | .lnkfCloseTimeout => 0x0705
  | .belvUpdatePending => 0x0801
  | .belvDieResetting => 0x0802
  | .grnhMismatch => 0x0901
  | .grnhSampleDropped => 0x0902
  | .grnhReceiptMissing => 0x0903
  | .pergSaturated => 0x0A01
  | .pergUnderflow => 0x0A02
  | .pergDrift => 0x0A03
  | .pergWaitTimeout => 0x0A04
  | .pergLeftover => 0x0A05
  | .splqOverrun => 0x0B01
  | .splqTimeoutNotice => 0x0B02
  | .pwrPolicyClipped => 0x0C01
  | .pwrThermalLimit => 0x0C02
  | .hostRingStopped => 0x0D01
  | .updtHeaderReject => 0x0E01
  | .updtBinding => 0x0E02
  | .updtDeltaBase => 0x0E03
  | .updtTrialFailed => 0x0E04
  | .tamper => 0x0F01
  | .supplyAlarm => 0x0F02

/-- All codes, in the order of Table FAULT-1. -/
def allStatus : List Status :=
  [.ok, .busy, .staleGeneration, .badDescriptor, .notPermitted, .lengthShort,
   .lengthLong, .timeout, .otpMarginal, .otpLockIncomplete, .otpSupplyWindow, .lcycInvalid,
   .bootSlotInvalid, .bootSlotTie, .bootNoImage, .bootSvnLow, .keySlotBad, .keyAttrDenied,
   .keyBlobInvalid, .keyKcvMismatch, .keyZeroized, .dgstPreempted, .dgstCompareFail, .ctxState,
   .ctxFenced, .ctxGone, .ctxDrainForced, .ctxPrefixSealed, .fencTagFail, .fencWriteSealed,
   .fencNoKey, .lnkfUnknownJob, .lnkfJobTag, .lnkfHopTag, .lnkfNotMember, .lnkfCloseTimeout,
   .belvUpdatePending, .belvDieResetting, .grnhMismatch, .grnhSampleDropped, .grnhReceiptMissing, .pergSaturated,
   .pergUnderflow, .pergDrift, .pergWaitTimeout, .pergLeftover, .splqOverrun, .splqTimeoutNotice,
   .pwrPolicyClipped, .pwrThermalLimit, .hostRingStopped, .updtHeaderReject, .updtBinding, .updtDeltaBase,
   .updtTrialFailed, .tamper, .supplyAlarm]

end Sys2Proof.Machine
end

