-- ==== Sys2Proof/Machine/TypesCore.lean ====
section
/-! DEFINITION. Types of the state, first part: what the ports send, spill queues, fault stores, alarms and resets, Sundial,
host rings, dies and Lodges, tenant contexts, prefix groups and frames. -/

namespace Sys2Proof.Machine

/-- Who waits for the end of a piece of work: a host command in progress by its number, a management command by its MCTP
tag, or nobody. -/
inductive Waiter where
  | none
  | host (id : Nat)
  | mgmt (tag : Nat)
deriving DecidableEq, Repr

/-- What Ocenaip's ports send to the surroundings, in order (model's own record, log 3). -/
inductive Out where
  | completion (ring entry : Nat) (bytes : Bytes)          -- host memory, Table HOST-4
  | msix (vector : Nat)                                    -- R388
  | hostWrite (addr : BitVec 64) (data : Bytes)            -- R394
  | mgmtReply (tag opcode : Nat) (status : Status) (state : Nat) (gen : BitVec 16) (data : Bytes)   -- R317
  | ocnBoot (phase : Nat)                                  -- R315
  | pldm (tag : Nat) (command : Nat) (bytes : Bytes)       -- R322
  | pldmRequest (offset length : Nat)                      -- R323
  | pldmEvent (command : Nat) (code : Nat)                 -- Table UPDT-2
  | spdm (port : SpdmPort) (code : Nat) (bytes : Bytes)    -- R223
  | doe (type : Nat) (bytes : Bytes)                       -- R46
  | ethernet (dst : BitVec 48) (etherType : BitVec 16) (payload : Bytes)          -- R333
  | icmp (source : BitVec 128) (bytes : Bytes)                                   -- R314
  | dtls (accepted : Bool) (chain sig : Bytes)             -- R315
  | bandStatus (status : Status)                           -- R307: what Bandstand answers in HALT
  | fenceRsp (ch : Nat) (port : FencePort) (tag kind row : Nat) (data : BitVec 512)  -- R87
  | mcReq (ch : Nat) (we : Bool) (line : Nat) (data : BitVec 512) (metaTag : Word)  -- Table PORT-2
  | kbus (drop : Nat) (msg : Bytes)                        -- R247
  | kbusReply (drop : Nat) (bytes : Bytes)                 -- R245, R249
  | linkFrame (engine : Nat) (beats : List Bytes)          -- R117: a frame in 256-byte beats, the last one padded
  | linkDeliver (engine job : Nat) (beats : List Bytes)    -- R33, R121: a frame's payload in 256-byte beats
  | wake (die core : Nat) (status : BitVec 16)             -- R40
  | wakeValue (die core : Nat) (value : BitVec 20)         -- R345
  | slotHeader (die cid vdie core : Nat) (place : Nat × Nat) (header : Bytes)   -- Table CTX-5: frame and byte offset
  | internalWake (die cid : Nat) (status : BitVec 16) (value : BitVec 20)  -- R344
  | stamp (die core cid kselEn : Nat)                      -- R39: ldg_stamp_core, CID and KSEL_EN of one core
  | avs (die rail value : Nat)                             -- R371, R373: rail 0 the voltage in mV, rail 1 the step
  | flash (offset : Nat) (data : Bytes)                    -- R43
  | consumerSignal (q : Nat)                               -- R369
  | queueEntry (q : Nat) (entry : Bytes)                   -- R363
  | fetch (die cid ksel : Nat) (addr length : Nat)         -- R195
  | stage (die frame : Nat) (data : Bytes)                 -- R193: the copy written to a staging frame under CID 0
  | regRead (master off : Nat) (value : Word)              -- R8, R420
  | burst (q : Nat) (write : Bool) (line : Nat) (data : Bytes)   -- R365: first line in the middle, the entries written
  | digest (requester desc : Nat) (st : Status) (result : Bytes)   -- R259, R266
  | digestPos (requester desc pos : Nat)                   -- R260
  | digestExport (requester address : Nat) (bytes : Bytes)   -- R262
  | mailbox (st : Status) (bytes : Bytes)                    -- R231
deriving DecidableEq, Repr

/-- A sticky bit: clear, or set with the tick of its last setting event (R10). -/
abbrev Sticky := Option Nat

/-! ## Spill queues (16_spill_queues.md) -/

/-- Where an entry of a spill queue stands (R365). -/
inductive QLoc where
  | head
  | middle
  | spilling
  | fetching
  | tail
deriving DecidableEq, Repr

/-- A stored entry: its place, its tag's fields, its payload and the packet it belongs to. -/
structure QItem where
  loc      : QLoc
  producer : BitVec 6
  last     : Bool
  payload  : Bytes
  pkt      : Nat
  pos      : Nat          -- its position in the ring of the middle, once a burst carries it there (R365)
deriving DecidableEq, Repr

/-- An open packet of a port (R361): its number, its declared length, the entries received, the last entry's tick. -/
structure OpenPkt where
  port     : Nat
  pkt      : Nat
  declared : Nat
  received : Nat
  lastTick : Nat
  pin      : Option (Nat × Nat)   -- core and pin semaphore of a receipt whose header was accepted (R368)
deriving DecidableEq, Repr

/-- One spill queue. -/
structure SpillQ where
  midFrames : BitVec 6 := 0
  timeout   : BitVec 24 := 0x0061A8
  midBase   : BitVec 19 := 0
  items     : List QItem := []
  opens     : List OpenPkt := []
  ignoring  : List Nat := []      -- ports whose packet is ignored up to END (R367, R368)
  midWr     : Nat := 0            -- ring position of the next burst into the middle (R365)
  midFail   : Bool := false       -- a read of the middle has failed: what it reads back does not come (R366, R106)
  crossing  : Nat := 0            -- entries in the receipt port's crossing, as of tick `crossAt` (R362)
  crossAt   : Nat := 0
  order     : List Nat := []      -- committed packets not fully read, in commitment order
  nextPkt   : Nat := 0
  overrun   : Sticky := none
  notice    : Sticky := none
  lenShort  : Sticky := none
  lenLong   : Sticky := none
  midLost   : Sticky := none
  drop      : Word := 0
  lastRead  : Nat := 0            -- tick of the last read, notice, or first commitment after empty (R369)
deriving DecidableEq, Repr

/-! ## Fault stores, alarms, resets, Sundial (19, 02 R36, 01) -/

/-- Causes of a block reset, CAUSE of PAV_RESET_CAUSE (Table FAULT-8). -/
inductive ResetCause where
  | none
  | tamper
  | supply
  | lockstep
  | cid0Integrity
  | lifeCycle
  | activation
  | firmware
  | bootRestart
deriving DecidableEq, Repr

/-- Causes of a partial die reset (R411). -/
inductive DieCause where
  | clearLate
  | preemptLate
  | thermal
  | heartbeat
  | firmware
deriving DecidableEq, Repr

/-- An integrity fault sampled and not yet applied (R108): the context, its cause and the kind of Table FENCE-8. -/
structure IntegFault where
  unit  : Nat
  cid   : Nat
  cause : Nat
  tick  : Nat
deriving DecidableEq, Repr

/-- The Pavilion's alarm, reset and fault-log state. -/
structure Pav where
  tamper       : Bool := false            -- a zeroisation is in force
  tamperLow    : Nat := 0                 -- tick the line last read low
  supply       : Option Nat := none       -- tick T of the supply alarm in force
  supplyLow    : Nat := 0
  pendingReset : Option ResetCause := none
  resetAt      : Nat := 0                 -- tick in which the source of that block reset was sampled (R408)
  delayed      : List (Nat × ResetCause) := []
  dieCauses    : List (Nat × DieCause) := []
  integ        : List IntegFault := []
  cause        : ResetCause := .none
  count        : BitVec 8 := 0
  tamperSeen   : Bool := false
  stTamper     : Sticky := none
  stSupply     : Sticky := none
  stWdog       : Sticky := none
  stFlogLost   : Sticky := none
  wdogTicks    : BitVec 16 := 0x0064
  flog         : List Bytes := []         -- fault-log store, oldest first, at most 16,384
  flogSeq      : Word := 0
  events       : List Bytes := []         -- management-event store, at most 4,096
  eventSeq     : Word := 0
  notPerm      : NMap Nat := []           -- next tick at which a master's NOT_PERMITTED may be recorded (R418)
  cid0Failed   : Bool := false            -- a CID 0 integrity fault has raised its block reset (R106)
deriving DecidableEq, Repr

/-- Sundial: the tick count is `State.tick`. -/
structure Sund where
  refLoss  : Sticky := none
  refLock  : Bool := true
  lockLast : Word := 0
  ptr4     : Nat := 0
  mgmtPtr  : BitVec 3 := 0
  hostPtr  : BitVec 6 := 0
  ctxqPtr  : BitVec 8 := 0
  ptr8     : Nat := 0
  ptr9     : Nat := 0
  linkFillPtr : Nat := 0                  -- link job fills and Greenhouse sampling-key fills (R248)
  grnhFillPtr : Nat := 0
  tickHi   : NMap Word := []              -- per master (R30, R420)
  zeroHi   : NMap Word := []              -- per master (R257)
  perfHi   : NMap Word := []              -- per master, page, bank and counter (R403)
deriving DecidableEq, Repr

/-! ## Host interface (18_host_rings.md) -/

/-- Unit a command names, for GEN and STATE of its completion. -/
inductive UnitRef where
  | none
  | ctx (cid : Nat)
  | job (j : Nat)
  | slot (n : Nat)
  | link (e : Nat)
deriving DecidableEq, Repr

/-- A host command that has been taken and has not completed (R385, R395). -/
structure InProg where
  id    : Nat
  ring  : Nat
  cpl   : Nat
  opcode : Nat
  dead  : Bool              -- its completion is discarded (R398)
  cid   : Nat               -- CID it acts for, for the counters of R403
  tag   : BitVec 16
  noIrq : Bool
  unit  : UnitRef
  buf   : BitVec 64
  bufLen : Nat
  write : BufRead          -- what the host answers to a record write (R394)
deriving DecidableEq, Repr

/-- A management command whose reply is owed (R316: one outstanding message per tag). -/
structure MgmtProg where
  tag    : Nat
  opcode : Nat
  unit   : UnitRef
deriving DecidableEq, Repr

/-- A command ring. -/
structure CmdRing where
  base       : BitVec 64 := 0
  log2       : BitVec 5 := 4
  cpl        : BitVec 6 := 0
  enable     : Bool := false
  stopped    : Bool := false
  dbErr      : Sticky := none
  badDesc    : Sticky := none
  fetchFault : Sticky := none
  badCount   : BitVec 16 := 0
  head       : BitVec 16 := 0
  pi         : BitVec 16 := 0
  posted     : List Nat := []       -- doorbell tick of each posted entry, HEAD first
  badNext    : Nat := 0             -- next tick at which a BAD_DESCRIPTOR record may be posted (R390)
  epoch      : Nat := 0             -- rises at every disable and re-initialisation (R396)
  lastTake   : Option Nat := none   -- tick of the last command taken (R386)
deriving DecidableEq, Repr

/-- A completion ring. -/
structure CplRing where
  base       : BitVec 64 := 0
  log2       : BitVec 5 := 4
  vector     : BitVec 6 := 0
  enable     : Bool := false
  irqEn      : Bool := false
  coalCount  : BitVec 8 := 0
  coalUs     : BitVec 8 := 0
  tail       : BitVec 16 := 0
  phase      : Bool := true
  used       : Nat := 0             -- entries written and not freed by the host
  reserved   : Nat := 0             -- entries reserved for commands taken
  events     : List Bytes := []     -- event completions that wait for an entry (R396)
  unsig      : Nat := 0             -- unsignalled completions (R388)
  unsigTick  : Nat := 0             -- tick of the first of them
  eventLost  : Sticky := none
  dbErr      : Sticky := none
  writeFault : Sticky := none
deriving DecidableEq, Repr

/-- The DOE mailbox (R46, R400). -/
structure Doe where
  busy     : Bool := false
  error    : Bool := false
  ready    : Bool := false
  response : Bytes := []
  arriving : Option Nat := none       -- an object shorter than declared so far: tick of its last data (R46)
deriving DecidableEq, Repr

/-- The host function. -/
structure HostFn where
  rings   : NMap CmdRing := []
  cpls    : NMap CplRing := []
  inProg  : List InProg := []
  nextId  : Nat := 0
  ready   : Bool := false             -- host_fn_ready
  flrTick : Option Nat := none        -- re-initialisation in progress since
  everReady : Bool := false           -- host_fn_ready has risen since reset (R414, R370)
  ctxSel  : BitVec 8 := 0             -- HOST_CTX_SEL, one register shared by every page (R422)
  devCnt  : NMap Nat := []            -- device counters 0 to 6 (R403)
  devShown : NMap Nat := []           -- their coarsened values (R84)
  doe     : Doe := {}
deriving DecidableEq, Repr

/-! ## Dies and Lodges (01 Table ARCH-7, 03 R71, 19 R411) -/

/-- Die states (Table ARCH-7). -/
inductive DieState where
  | held
  | running
  | resetting
  | failed
deriving DecidableEq, Repr

/-- A resident of a die (Table SPLQ-9). -/
structure Resident where
  cid   : Nat
  vdie  : Nat
  gen   : BitVec 16
  slice : Nat      -- µs
deriving DecidableEq, Repr

/-- Steps of a Lodge (Table CTX-6, Table CTX-9): a pre-emption runs, the cores have reached their switch point and the Lodge waits
for answers to their receipts (R196), ctx_clear is high (for a switch, or for a drain or
fence), the stamps of the incoming resident are being written; a pre-emption without saving runs for the drain or fence of a
context, `judge` where its leftovers are judged (R352), and its stamps are being cleared; `ans` is the semaphore the service
request named. -/
inductive LodgeStep where
  | idle
  | preempting (deadline : Nat)
  | awaiting
  | clearing (deadline : Nat) (switching : Bool)
  | stamping
  | evicting (deadline cid : Nat) (judge : Bool) (ans : Nat)
  | unstamping (cid ans : Nat)
deriving DecidableEq, Repr

/-- One die with its Lodge. -/
structure Die where
  state      : DieState := .held
  gen        : BitVec 16 := 0
  bound      : BitVec 13 := 0x03E8
  saveKib    : BitVec 12 := 0x03F
  cidOut     : BitVec 8 := 0
  cidIn      : BitVec 8 := 0
  switches   : BitVec 16 := 0
  preemptLate : Sticky := none
  clearLate  : Sticky := none
  restoreFail : Sticky := none
  saveShort  : Sticky := none
  residents  : List Resident := []
  current    : Option Resident := none   -- the resident whose cores are on the die (R71)
  coresRun   : Bool := false             -- released at step 7
  step       : LodgeStep := .idle
  sliceEnd   : Nat := 0
  last       : Option (Nat × Nat) := none   -- CID and virtual die of the last resident: the place of the rotation
  rstN       : Bool := false             -- die_rst_n
  ctxClear   : Bool := false             -- ctx_clear
  stampGap   : Bool := false             -- ctx_clear has risen and no ldg_stamp_done has come since (R351)
  stampCid   : Nat := 0
  stampKsel  : BitVec 4 := 0
  stampVdie  : Nat := 0
  heartbeat  : Nat := 0                  -- tick of the last heartbeat
  mr4        : Bool := false             -- MR4_CURRENT
  reload     : Option Nat := none        -- tick at which a reload of die firmware started
  holdDue    : Option Nat := none        -- tick T of a die reset whose tick T + 1 has not come (Table FAULT-5)
  reloadAns  : Option Nat := none        -- answer semaphore of a RELOAD request
  asking     : Bool := false             -- a service request is posted and not answered (R359)
  backlog    : List (List Bytes) := []   -- service requests the Pavilion still has to post
  releasedAt : Option Nat := none        -- initial release, Lodge not yet ready (Table ARCH-7)
deriving DecidableEq, Repr

/-! ## Tenant contexts (03_tenant_contexts.md) -/

/-- Context states (Table CTX-14). -/
inductive CtxState where
  | free
  | created
  | keyed
  | running
  | draining
  | drained
  | fenced
  | destroying
deriving DecidableEq, Repr

/-- A key import in progress (R65, R66, Table ORNG-8): kind, the number of its load at the Orangery, who waits. -/
structure Import where
  priv   : Bool
  load   : Nat
  waiter : Waiter
deriving DecidableEq, Repr

/-- Phases of a drain, or of the wait of a destroy from FENCED (Table CTX-9). -/
inductive DrainPhase where
  | lodges      -- Lodges have not all reported
  | counts      -- outstanding counts are not all 0
  | closes      -- job closes have not all ended
deriving DecidableEq, Repr

/-- A drain in progress: its phase, the dies that have not reported, its limit, and who waits for DRAINED. -/
structure Drain where
  phase    : DrainPhase
  lodges   : List Nat
  deadline : Nat
  waiters  : List Waiter
  since    : Nat             -- tick in which its phase began
  toPost   : Bool            -- its DRAIN requests are to be posted in the next tick
deriving DecidableEq, Repr

/-- A destroy in progress (Table CTX-10): `tick` is U; `zeroised` after U+1; `commit` is Uc once known. -/
structure Destroy where
  tick     : Nat
  zeroised : Bool
  commit   : Option Nat
  scrub    : Option Nat      -- number of the scrub job of the context's frames
  us       : Nat             -- Us: tick in which the last of its frames was done, or Uc where it has none
deriving DecidableEq, Repr

/-- A consent token in force (R83). -/
structure Consent where
  scope  : BitVec 8
  expiry : Nat
  nonce  : Bytes
deriving DecidableEq, Repr

/-- A verification policy (R189). -/
structure VPolicy where
  rate   : Nat := 0
  fence  : Bool := false     -- ACTION: FENCE, else REPORT
  seq    : Nat := 0
  nonce  : Bytes := []
  set    : Bool := false     -- a policy of the tenant, not the start value of R189
deriving DecidableEq, Repr

/-- One context. -/
structure Ctx where
  state     : CtxState := .free
  gen       : BitVec 16 := 0
  cooldown  : Option Nat := none        -- end of cool-down
  cause     : BitVec 4 := 0
  forced    : Bool := false
  destroyPending : Bool := false
  destroyWaiters : List Waiter := []
  v         : Nat := 0
  map       : List (Option Nat) := []   -- physical die of each virtual die
  slice     : Nat := 0
  saved     : List Nat := []            -- virtual dies that must still be saved out for a pending empty map (R70)
  schedWait : Option Waiter := none     -- a pending empty map
  importing : Option Import := none
  ksel      : NMap (Option Nat) := []   -- group bound to KSEL 1 to 3
  drain     : Option Drain := none
  destroy   : Option Destroy := none
  consent   : Option Consent := none
  policy    : VPolicy := {}
  policyOld : VPolicy := {}             -- the policy that still governs up to `policyAt`
  policyAt  : Nat := 0
  cmr       : NMap Bytes := []
  cov       : NMap Nat := []
  covShown  : NMap Nat := []
  sealCnt   : BitVec 64 := 0
  w         : Nat := 8
  fMin      : Nat := 0
  pMax      : Nat := 0
  cnt       : NMap Nat := []
  cntShown  : NMap Nat := []            -- counters as last refreshed under consent (R84)
  ring      : Option (Nat × Nat) := none  -- creating ring and its epoch (R396)
  privSet   : Bool := false
  ecdsaPub  : Bytes := []
  mldsaPub  : Bytes := []
  opSeq     : Option Nat := none
  backing   : NMap Nat := []             -- backing block of the virtualised set (R340)
  home      : Option Nat := none         -- home slice while BOUND
  fenceFrom : Option Nat := none         -- requests are refused from this tick (R63, Table FENCE-7 row 3)
  fenceTo   : Option Nat := none         -- last tick of that refusal: Uc of the destroy (Table CTX-10)
  fencedAt  : Nat := 0                   -- tick in which the context became FENCED
  leftAt    : Nat := 0                   -- tick in which the context last left RUNNING
  oddKsel   : NMap Bool := []            -- a KSEL was bound on the check value of a key that is not the group's (R76)
deriving DecidableEq, Repr

/-- Prefix-group states (Table CTX-7). -/
inductive GroupState where
  | free
  | open_
  | sealed_
  | retiring
deriving DecidableEq, Repr

/-- One prefix group. -/
structure Group where
  state   : GroupState := .free
  creator : Nat := 0
  members : Nat := 0
  digest  : Bytes := []
  kcv     : Bytes := []
  sealing : Bool := false        -- a seal has been accepted (R75)
  sealTick : Option Nat := none  -- commit tick T of its seal: SEALED from T + 1
  fillSealed : Option Nat := none -- commit tick of the first locked change that sealed it: fills return SEALED (R99)
  invDone : Bool := false        -- the retire invalidation has committed (R77)
  endAt   : Nat := 0             -- tick in which the invalidation committed or the last of its frames returned (R77)
deriving DecidableEq, Repr

/-- Frame classes (Table CTX-4). -/
inductive FrameClass where
  | priv
  | save
  | shared
  | device
deriving DecidableEq, Repr

/-- One frame of the frame table. -/
structure Frame where
  owner : Nat := 255
  cls   : FrameClass := .priv
  group : Nat := 0
  zeroing : Bool := false     -- zero-initialisation not finished
deriving DecidableEq, Repr

end Sys2Proof.Machine
end

