-- ==== Sys2Proof/Machine/TypesFabric.lean ====
section
/-! DEFINITION. Types of the state, second part: the Orangery, the memory fence, the link fence. -/

namespace Sys2Proof.Machine

/-! ## Orangery (10_orangery_keys.md) -/

/-- One half of a slot: two shares with their integrity codes (R232, R234). -/
structure Half where
  s0 : BitVec 512 := 0
  s1 : BitVec 512 := 0
  c0 : BitVec 16 := 0
  c1 : BitVec 16 := 0
deriving DecidableEq, Repr

/-- Slot states (R232). -/
inductive SlotState where
  | empty
  | active
  | bad
deriving DecidableEq, Repr

/-- A key slot. -/
structure Slot where
  state   : SlotState := .empty
  attr    : BitVec 5 := 0          -- bits of blob header byte 2 (Table ORNG-6)
  cid     : Nat := 0
  group   : Option Nat := none     -- GROUP and its number
  len     : Nat := 0               -- key length in bytes
  active  : Half := {}
  pend    : Half := {}
  pending : Bool := false          -- a load holds the pending half
  maskedAt : Option Nat := none    -- tick of the last re-mask (R235)
deriving DecidableEq, Repr

/-- A generate request that queues while a reseed waits for a healthy block (R252): the operation that made it. -/
inductive GenReq where
  | exportBlob (slot : Fin 4096) (cid : Fin 256) (perBoot : Bool)
  | derive (d : DeriveReq)
  | load (t : LoadTarget) (blob : Bytes)
  | keyImport (h : HostCmd) (prog : InProg)
  | jobOpen (h : HostCmd) (prog : InProg)
  | jobOpenOp (m : MgmtHdr) (id : BitVec 16) (leader : Bool) (lep : BitVec 16) (plain : Bool) (rs : List EpRange) (prog : MgmtProg)
  | prefix_ (cid : Nat) (join : Bool) (packet : Bytes)
  | spdm (p : SpdmPort) (code : Nat) (pre post : Bytes) (hybrid : Bool)   -- a signed SPDM response: what stands before and after its nonce
  | keyExchange (p : SpdmPort) (id : BitVec 32) (ecdh : Bytes)
  | hello (engine : Nat) (rekey : Bool)                 -- HELLO of a hop exchange
  | encap (engine : Nat) (chain : Bytes)                -- ENCAP of a hop exchange, after CERT
  | hopKeys (engine : Nat) (ct : Bytes)                 -- the keys of a hop exchange, after ENCAP
  | grant (job : Nat) (msg : JobMsg)                    -- GRANT of a leader, after JOIN
  | member (job : Nat) (msg : JobMsg)                   -- the job key of a member, after GRANT
  | uds (supplies : Supplies)                           -- GEN_UDS
  | remask (slot : Nat)
  | kbus                                                -- establishment of the bus keys
  | kbusConf (drop : Nat) (pub conf : Bytes)            -- a drop's confirmation
  | belvedere                                           -- the derivations of R230
deriving DecidableEq, Repr

/-- What a key load is for (R65, R242, R244). -/
inductive LoadFor where
  | priv (cid : Nat)
  | team (cid : Nat)
  | blob
deriving DecidableEq, Repr

/-- A key load in progress (Table ORNG-8): its target slots, lowest first; the outcome of its checks; S once verified. -/
structure KeyLoad where
  slots   : List Nat
  lens    : List Nat
  attrs   : List (BitVec 5)
  for_    : LoadFor
  result  : Status
  commitS : Option Nat
  waiter  : Waiter
  consent : Bytes × Bytes          -- consent verification keys of a private set
  cmr     : Bytes := []            -- what CMR1 is extended with (Table BELV-7)
deriving DecidableEq, Repr

/-- The drop of a die on the key bus. -/
structure Drop where
  key      : Option Bytes := none   -- bus key held by the drop
  last     : Nat := 0               -- last COUNTER accepted
  sent     : Nat := 0               -- last COUNTER sent
  attempts : Nat := 0
  cleared  : Bool := false          -- zeroised: answers every fill locally as ZEROIZED
deriving DecidableEq, Repr

/-- An unacknowledged push (R249). -/
structure Push where
  drop   : Nat
  counter : Nat
  unit   : Nat
  plain  : Bytes × Bytes            -- header without COUNTER, key material
  tick   : Nat
  resent : Bool
deriving DecidableEq, Repr

/-- The vault. -/
structure Orng where
  slots     : NMap Slot := []
  loads     : List KeyLoad := []
  drops     : NMap Drop := []
  pushes    : List Push := []
  ready     : Bool := false
  error     : Bool := false
  kbusReady : Bool := false
  zeroized  : Bool := false
  slotBad   : Sticky := none
  entFail   : Sticky := none
  kbusFail  : Sticky := none
  blobFail  : Sticky := none
  slotSel   : BitVec 12 := 0
  reseeds   : BitVec 16 := 0
  rctFails  : BitVec 16 := 0
  aptFails  : BitVec 16 := 0
  kbusUp    : BitVec 32 := 0
  fillCnt   : Word := 0
  maskStart : Option Nat := none     -- tick re-masking started
  maxDefer  : BitVec 11 := 0
  zeroTick  : BitVec 64 := 0
  pool      : List Bytes := []       -- conditioned blocks in hand (R251)
  failRun   : Nat := 0               -- conditioned blocks failed in succession (R252)
  requests  : Nat := 0               -- generate requests since the last reseed
  lastSeed  : Nat := 0
  queue     : List (Nat × GenReq) := []  -- generate requests that wait for a reseed, with their ticks (R252)
  runBit    : Bool := false          -- last raw bit and the length of its run (R250)
  runLen    : Nat := 0
  dkey      : Bytes := []            -- Key and V of CTR_DRBG (R251)
  dv        : Bytes := []
  maskStop  : Option Nat := none     -- tick the DRBG entered ERROR: re-masking stands from then on (R252)
  kbusPub   : Bytes := []            -- ephemeral public key sent to the drops
  booting   : Bool := false          -- establishment in progress
deriving DecidableEq, Repr

/-- Conditioned blocks in hand. -/
def Orng.blocks (o : Orng) : Nat := o.pool.length

/-! ## Memory fence (04_memory_fence.md) -/

/-- A key-cache entry (R94). `dead` and `sealedAt` are the commit ticks of locked changes: the entry serves requests
sampled up to `dead`, and refuses writes sampled after `sealedAt` (R16, R99). -/
structure KcEntry where
  cid   : Nat
  ksel  : Nat
  k1    : Bytes
  k2    : Bytes
  kt    : Bytes
  id    : Nat
  sel   : Nat
  pinned : Bool
  sealedAt : Option Nat
  dead  : Option Nat
deriving DecidableEq, Repr

/-- A request at a channel: reads carry no data, and a digest engine's read carries the order number of its request, counted from 1. -/
structure ChanReq where
  port : FencePort
  line : Nat
  cid  : Nat
  ksel : Nat
  tag  : Nat
  data : Option (BitVec 512)
  owner : Nat
deriving DecidableEq, Repr

/-- A read on its way to memory, with the keys selected for it. -/
structure ReadFlight where
  req : ChanReq
  key : KcEntry
  refused : Bool := false     -- its CID was refused when its destroy committed: it returns zeros (R107)
deriving DecidableEq, Repr

/-- A fill outstanding at a channel (R96, R98). -/
structure Fill where
  cid  : Nat
  ksel : Nat
  asked : Bool           -- raised and not yet served by the Orangery
  retried : Bool
  cancelled : Bool       -- a locked change named its pair (R99)
  from_ : Nat            -- first tick in which the Orangery may serve it (R99)
deriving DecidableEq, Repr

/-- One fence channel. -/
structure Chan where
  tagFail  : Sticky := none
  uerr     : Sticky := none
  sealedWrite : Sticky := none
  noKey    : Sticky := none
  routeErr : Sticky := none
  resCid   : Sticky := none
  kbusErr  : Sticky := none
  parkFull : Sticky := none
  failAddr : BitVec 52 := 0
  failInfo : Word := 0
  failTick : BitVec 64 := 0
  cntTag   : Word := 0
  cntRefuse : Word := 0
  cntNoKey : Word := 0
  hit      : Word := 0
  miss     : Word := 0
  outstSel : BitVec 8 := 0
  entries  : List KcEntry := []        -- most recently used first
  parked   : List ChanReq := []
  intQ     : List ChanReq := []        -- requests that wait at the internal port: the lines of the frames in progress (R110)
  fills    : List Fill := []
  reads    : List ReadFlight := []     -- in order of mc_req
  writes   : List ChanReq := []
  counts   : NMap Nat := []            -- outstanding counters by CID
  recs     : List (Nat × Nat × Nat) := []  -- (CID, status code, state) records posted (R109)
  permNext : Nat := 0                  -- next tick for a NOT_PERMITTED record
  keyNext  : Nat := 0                  -- next tick for a FENC_NO_KEY record
  cid0From : Option Nat := none        -- requests under CID 0 are refused from this tick (R106)
deriving DecidableEq, Repr

/-- What a locked change does (Table FENCE-15). -/
inductive LockOp where
  | pairs (cid : Nat) (mask : BitVec 4)
  | ofCid (cid : Nat)
  | ofGroup (g : Nat)
  | sealGroup (g : Nat)
  | all
deriving DecidableEq, Repr

/-- Who issued a locked change, and what its commit completes. -/
inductive LockOwner where
  | firmware
  | sealing (g : Nat) (w : Waiter)
  | destroy (cid : Nat)
  | retire (g : Nat)
  | orangery
deriving DecidableEq, Repr

/-- A locked change. -/
structure Lock where
  op     : LockOp
  groups : BitVec 16
  owner  : LockOwner
  issued : Nat           -- tick in which it was issued or took its place (R16, R116)
deriving DecidableEq, Repr

/-- The identity a scrub job writes under (R110). -/
inductive ScrubIdent where
  | ctx (cid : Nat)
  | group (g : Nat)
  | unowned
deriving DecidableEq, Repr

/-- One frame queued at the scrub engine: its job, the identity, the pair its lines are written under, whether its lines
have been put to the channels. -/
structure ScrubFrame where
  frame : Nat
  job   : Nat
  ident : ScrubIdent
  cid   : Nat
  ksel  : Nat := 0
  started : Bool := false
deriving DecidableEq, Repr

/-- What a scrub job is for. -/
inductive ScrubFor where
  | bind
  | release (cid : Nat)
  | scrub
  | destroy (cid : Nat)
  | retire (g : Nat)
deriving DecidableEq, Repr

/-- A scrub job: its number, its frames left, what it is for, who waits. -/
structure ScrubJob where
  no     : Nat
  left   : Nat
  for_   : ScrubFor
  waiter : Waiter
deriving DecidableEq, Repr

/-- An operator's read of a context's memory (R319): offset in its first line and length, the lines with what has come,
who waits. -/
structure MemRead where
  cid    : Nat
  off    : Nat
  len    : Nat
  lines  : List (Nat × Option (BitVec 512))
  waiter : Waiter
deriving DecidableEq, Repr

/-- The fence-wide state. -/
structure Fence where
  chans      : NMap Chan := []
  addrBits   : BitVec 6 := 0x22
  scrubShare : BitVec 4 := 4
  lockGroups : BitVec 16 := 0xFFFF
  lockErr    : Sticky := none
  locks      : List Lock := []         -- awaiting commit, oldest first, at most 8
  lockWait   : List Lock := []         -- waiting for a place (R116)
  lastCommit : Nat := 0                -- tick of the last commit
  lastGroups : BitVec 16 := 0          -- groups of the commits of that tick
  commitAt   : NMap Nat := []          -- tick of the last commit in each group (R16)
  aborted    : Sticky := none
  scrub      : List ScrubFrame := []
  jobs       : List ScrubJob := []
  nextJob    : Nat := 0
  memReads   : List MemRead := []
  zeroAt     : NMap Nat := []          -- by CID: the tick after the last fall of one of its counts to 0 (R102)
deriving DecidableEq, Repr

/-! ## Link fence (05_link_fence.md) -/

/-- Link states (Table LINK-6). -/
inductive LinkState where
  | down
  | keying
  | ready
  | rekeying
  | quarantined
  | failed
deriving DecidableEq, Repr

/-- A hop-key exchange (Table LINK-7). -/
structure Exchange where
  rekey   : Bool
  start   : Nat
  random  : Bytes
  ecdhSlot : Nat               -- working slots of the ephemeral private keys (R237)
  kemSlot : Nat
  ecdhPub : Bytes
  kemPub  : Bytes
  peer    : Option HelloMsg := none
  peerKeys : Option (Bytes × Bytes) := none
  peerChain : Bytes := []
  ownCt   : Bytes := []
  ownSlot : Option Nat := none -- working slot of the secret this side encapsulated
  peerCt  : Bytes := []
  finSlot : Option Nat := none -- working slot of the finish key (Table ORNG-7)
deriving DecidableEq, Repr

/-- A frame being assembled from fabric beats (R121). -/
structure Egress where
  job  : Nat
  data : Bytes
  last : Nat
deriving DecidableEq, Repr

/-- The fragments received so far of a JOIN or GRANT message (R130): its kind, job and sender, each frame from the job header
to the job tag, and whether the last one has come. -/
structure JobAsm where
  grant  : Bool
  job    : BitVec 16
  ep     : BitVec 16
  frames : List Bytes
  done   : Bool
deriving DecidableEq, Repr

/-- The fragments received so far of a hop-control message (R123): its type, its data, how many have come, and whether the last one
has. -/
structure HopAsm where
  type : Nat
  data : Bytes
  got  : Nat
  done : Bool
deriving DecidableEq, Repr

/-- One link engine. -/
structure Engine where
  unknownJob : Sticky := none
  jobTag     : Sticky := none
  hopTag     : Sticky := none
  notMember  : Sticky := none
  length     : Sticky := none
  closeTimeout : Sticky := none
  quarantine : Sticky := none
  keyFail    : Sticky := none
  egressRefused : Sticky := none
  state      : LinkState := .down
  kphase     : Bool := false
  cls        : BitVec 2 := 0
  rekeys     : BitVec 16 := 0
  peerEp     : BitVec 16 := 0
  cntUnknown : Word := 0
  cntJobTag  : Word := 0
  cntHopTag  : Word := 0
  cntMember  : Word := 0
  cntLength  : Word := 0
  cntDrop    : Word := 0
  up         : Bool := false
  txSeq      : Nat := 1              -- next HSEQ of the current phase
  txEst      : Nat := 1              -- next HSEQ of the first establishment
  rxSeq      : NMap Nat := []        -- last accepted HSEQ: phase 0, phase 1, establishment 2
  keys       : NMap Bytes := []      -- hop keys held: 2 × phase + direction, 0 transmit, 1 receive
  phases     : List Bool := []       -- key phases whose frames are accepted (R124)
  oldUntil   : Option Nat := none    -- end of the old phase's acceptance (R124)
  rxPhase    : Bool := false         -- phase of the last frame accepted
  exch       : Option Exchange := none
  failedAt   : Nat := 0
  upAt       : Nat := 0
  attempts   : Nat := 0
  retryAt    : Option Nat := none    -- retry of a failed rekey
  badHop     : List Nat := []        -- ticks of bad hop tags, newest first
  hopDue     : Option Nat := none    -- tick in which the threshold was met (R137)
  recs       : NMap Nat := []        -- next tick for a record of a status code (R138)
  egress     : Option Egress := none
  jobKeys    : List (Nat × Bytes) := []   -- cached job keys, most recent first, at most 32
  jobFills   : List (Nat × Bool × Bool) := []   -- job-key fills outstanding: still to be served, already retried
  txPark     : List (Nat × Nat × Bytes) := []   -- frames waiting for a job key: job, DIR and payload
  rxPark     : List (Nat × Bytes) := []         -- received frames waiting for a job key: job and frame
  closeDue   : List Nat := []        -- jobs whose JOB_CLOSE waits for READY (R139)
  asm        : List JobAsm := []     -- JOIN and GRANT messages whose fragments arrive (R130)
  hopAsm     : List HopAsm := []     -- hop-control messages that have come or are coming, one of a type (R123)
deriving DecidableEq, Repr

/-- Job states (Table LINK-8). -/
inductive JobState where
  | free
  | keying
  | open_
  | suspended
  | closing
deriving DecidableEq, Repr

/-- One entry of the local job table. -/
structure Job where
  id       : BitVec 16 := 0
  cid      : Nat := 0
  state    : JobState := .free
  leader   : Bool := false
  plain    : Bool := false
  gen      : BitVec 16 := 0
  ranges   : List (Nat × Nat) := []
  digest   : Bytes := []            -- SHA-384 of the token
  leaderEp : BitVec 16 := 0
  links    : List Nat := []         -- links that have carried a frame (R131)
  closed   : List Nat := []         -- links on which the peer closed (R133)
  awaiting : List (Nat × Nat) := [] -- links whose CLOSE_ACK is awaited, with their timers
  timedOut : Bool := false
  failWith : Option Status := none  -- status of the close forced by R130
  deadline : Nat := 0               -- of KEYING (R130)
  jseq     : NMap Nat := []
  bad      : List Nat := []         -- ticks of bad job tags
  badDue   : Option Nat := none
  ring     : Option (Nat × Nat) := none
  ecdhSlot : Option Nat := none     -- working slots of a member's ephemeral private keys (R129, R237)
  kemSlot  : Option Nat := none
  ecdhPub  : Bytes := []
  kemPub   : Bytes := []
  openW    : Waiter := .none
  closeW   : Waiter := .none
deriving DecidableEq, Repr

/-- A JOB_CLOSE or CLOSE_ACK frame that has passed the checks of Table LINK-9. -/
structure CtlFrame where
  engine : Nat
  job    : Nat
  ack    : Bool
  srcEp  : BitVec 16
deriving DecidableEq, Repr

/-- The link-fence-wide state. -/
structure Link where
  engines  : NMap Engine := []
  jobs     : NMap Job := []
  endpoint : BitVec 16 := 0
  trusted  : BitVec 4 := 0
  plainOp  : Bool := false
  ctl      : List CtlFrame := []
  frozen   : Option (BitVec 4 × Bool) := none  -- TRUSTED and PLAIN_OPERATOR in force at FREEZE (R143)
deriving DecidableEq, Repr

/-! ## Pergola (15_pergola_semaphores.md) -/

/-- Who issued an operation: a core of a die, or the internal port. -/
inductive Issuer where
  | core (die core : Nat)
  | internal (slice : Nat)   -- the slice whose internal port it came on
deriving DecidableEq, Repr

/-- A wait held by a slice (R344, R346): its waiter index, the semaphore's index, N, the kind, the context, the issuer,
and the tick of its acceptance. -/
structure PWait where
  idx   : Nat
  sem   : Nat
  n     : Nat
  sub   : Bool
  cid   : Nat
  from_ : Issuer
  tick  : Nat
deriving DecidableEq, Repr

/-- Operations of Table PERG-2. -/
inductive PCode where
  | null
  | add
  | sub
  | waitGe
  | waitSub
  | read
  | set
  | realign
deriving DecidableEq, Repr

/-- An operation on its way over the ring to its home slice (R341). -/
structure RingMsg where
  home : Nat
  src  : Nat
  code : PCode
  sem  : Nat
  n    : Nat
  cid  : Nat
  from_ : Issuer
  tick : Nat         -- tick in which it entered the ring
deriving DecidableEq, Repr

/-- One slice: core semaphores at 0 to 15,359, privileged semaphores at 15,360 to 15,871. -/
structure Slice where
  sems      : NMap Nat := []
  waits     : List PWait := []
  ptr       : Nat := 0
  saturated : Sticky := none
  underflow : Sticky := none
  drift     : Sticky := none
  timeout   : Sticky := none
  leftover  : Sticky := none
  badOp     : Sticky := none
  stampDrop : Sticky := none
  service   : Bool := false
  waitTicks : BitVec 24 := 0
  home      : Option Nat := none      -- context whose set is held here
  lastFault : Word := 0
  cntSat    : Word := 0
  cntUnder  : Word := 0
  cntDrift  : Word := 0
  cntTimeout : Word := 0
  cntDrop   : Word := 0
  sel       : BitVec 14 := 0
  recs      : NMap Nat := []          -- next tick for a record of a status code (R353)
deriving DecidableEq, Repr

/-- Pergola: the slices and the operations on the ring. -/
structure Perg where
  slices : NMap Slice := []
  ring   : List RingMsg := []
deriving DecidableEq, Repr

end Sys2Proof.Machine
end

