-- ==== Sys2Proof/Machine/GimusNum.lean ====
section
/-! DEFINITION. Numbers of Gimus arithmetic (06_gimus_arithmetic.md, R145 to R150, R157 to R165): formats, exact values,
flags, conversions to linear and logarithmic formats. -/

namespace Sys2Proof.Machine

/-! ## Formats (Table GIMUS-1, Table GIMUS-2) -/

/-- FORMAT of an element descriptor. -/
inductive GFmt where
  | int8
  | e2m1
  | e4m3
  | e5m2
  | lns8
  | lns4
  | fp16
  | bf16
  | fp32
  | exact
deriving DecidableEq, Repr

/-- FORMAT codes; 0xA to 0xF are reserved. -/
def gFmtOf (c : Nat) : Option GFmt :=
  ([.int8, .e2m1, .e4m3, .e5m2, .lns8, .lns4, .fp16, .bf16, .fp32, .exact] : List GFmt)[c]?

/-- Width of an element in bits (R147). -/
def gWidth : GFmt → Nat
  | .int8 => 8
  | .e2m1 => 4
  | .e4m3 => 8
  | .e5m2 => 8
  | .lns8 => 8
  | .lns4 => 4
  | .fp16 => 16
  | .bf16 => 16
  | .fp32 => 32
  | .exact => 384

/-- Mantissa bits of a floating format. -/
def gMant : GFmt → Nat
  | .e2m1 => 1
  | .e4m3 => 3
  | .e5m2 => 2
  | .fp16 => 10
  | .bf16 => 7
  | .fp32 => 23
  | .int8 => 0
  | .lns8 => 0
  | .lns4 => 0
  | .exact => 0

/-- Exponent bias. -/
def gBias : GFmt → Int
  | .e2m1 => 1
  | .e4m3 => 7
  | .e5m2 => 15
  | .fp16 => 15
  | .bf16 => 127
  | .fp32 => 127
  | .int8 => 0
  | .lns8 => 0
  | .lns4 => 0
  | .exact => 0

/-- Code of the maximum finite magnitude, sign clear (Table GIMUS-2, R158). -/
def gMaxCode : GFmt → Nat
  | .int8 => 0x7F
  | .e2m1 => 0x7
  | .e4m3 => 0x7E
  | .e5m2 => 0x7B
  | .lns8 => 0x3F
  | .lns4 => 0x3
  | .fp16 => 0x7BFF
  | .bf16 => 0x7F7F
  | .fp32 => 0x7F7FFFFF
  | .exact => 0

/-- The format has an infinity. -/
def gHasInf : GFmt → Bool
  | .e5m2 => true
  | .fp16 => true
  | .bf16 => true
  | .fp32 => true
  | .int8 => false
  | .e2m1 => false
  | .e4m3 => false
  | .lns8 => false
  | .lns4 => false
  | .exact => false

/-- The canonical NaN, or 0 for FP4 and INT8 (R159, Table GIMUS-7). -/
def gNaN : GFmt → Nat
  | .fp32 => 0x7FC00000
  | .bf16 => 0x7FC0
  | .fp16 => 0x7E00
  | .e5m2 => 0x7E
  | .e4m3 => 0x7F
  | .lns8 => 0xC0
  | .lns4 => 0xC
  | .int8 => 0
  | .e2m1 => 0
  | .exact => 0

/-- A logarithmic format. -/
def gIsLns (f : GFmt) : Bool := decide (f = .lns8) || decide (f = .lns4)

/-- 8 bits or fewer: the formats that may carry a block scale (R150). -/
def gNarrow (f : GFmt) : Bool := decide (gWidth f ≤ 8)

/-- Sign bit of a format as a number. -/
def gSign (f : GFmt) : Nat := 2 ^ (gWidth f - 1)

/-! ## Exact values -/

/-- An exact value: NaN, an infinity, or a sign with a magnitude num / den (den at least 1); zero keeps its sign. -/
inductive GVal where
  | nan
  | inf (neg : Bool)
  | fin (neg : Bool) (num den : Nat)
deriving DecidableEq, Repr

/-- m × 2^e as a magnitude. -/
def gDyadic (neg : Bool) (m : Nat) (e : Int) : GVal :=
  if 0 ≤ e then .fin neg (m * 2 ^ e.toNat) 1 else .fin neg m (2 ^ (-e).toNat)

/-- A magnitude scaled by 2^e, exactly. -/
def gScale (x : GVal) (e : Int) : GVal :=
  match x with
  | .nan => .nan
  | .inf n => .inf n
  | .fin n a b => if 0 ≤ e then .fin n (a * 2 ^ e.toNat) b else .fin n a (b * 2 ^ (-e).toNat)

/-- Numerator with its sign. -/
def gNum (neg : Bool) (a : Nat) : Int := if neg then -(a : Int) else a

/-- A signed fraction as a value; zero is +0. -/
def gOfInt (n : Int) (den : Nat) : GVal := .fin (decide (n < 0)) n.natAbs den

/-- A zero value. -/
def gIsZero : GVal → Bool
  | .nan => false
  | .inf _ => false
  | .fin _ a _ => decide (a = 0)

/-- NaN or infinite. -/
def gIsSpecial : GVal → Bool
  | .nan => true
  | .inf _ => true
  | .fin _ _ _ => false

/-! ## Logarithmic values (R148, R149) -/

/-- Table GIMUS-3. -/
def gT : List Nat := [4096, 4277, 4467, 4664, 4871, 5087, 5312, 5547, 5793, 6049, 6317, 6597, 6889, 7194, 7512, 7845]

/-- Linear value of a sign and a log in sixteenths. -/
def gLnsLinear (neg : Bool) (l : Int) : GVal := gDyadic neg (gT.getD (l % 16).toNat 0) (l / 16 - 12)

/-- An LNS code: NaN, zero, or a sign with a log in sixteenths. -/
inductive LnsVal where
  | nan
  | zero
  | log (neg : Bool) (l : Int)
deriving DecidableEq, Repr

/-- A two's complement number of `w` bits. -/
def gSigned (w x : Nat) : Int := if x < 2 ^ (w - 1) then x else (x : Int) - 2 ^ w

/-- An LNS8 or LNS4 code read (R148). -/
def lnsRead (f : GFmt) (c : Nat) : LnsVal :=
  let w := gWidth f - 1
  let neg := decide (c / 2 ^ w % 2 = 1)
  let k := gSigned w (c % 2 ^ w)
  if k = -(2 ^ (w - 1) : Int) then (if neg then .nan else .zero)
  else .log neg (if f = .lns4 then 8 * k else k)

/-- The value of a code (R146, R148). -/
def gRead (f : GFmt) (c : Nat) : GVal :=
  if gIsLns f then
    match lnsRead f c with
    | .nan => .nan
    | .zero => .fin false 0 1
    | .log n l => gLnsLinear n l
  else if f = .int8 then gOfInt (gSigned 8 (c % 256)) 1
  else
    let m := gMant f
    let neg := decide (c / gSign f % 2 = 1)
    let mag := c % gSign f
    let e := mag / 2 ^ m
    let frac := mag % 2 ^ m
    if gHasInf f && decide (mag > gMaxCode f) then (if frac = 0 then .inf neg else .nan)
    else if f = .e4m3 ∧ mag = 0x7F then .nan
    else if e = 0 then gDyadic neg frac (1 - gBias f - m)
    else gDyadic neg (2 ^ m + frac) ((e : Int) - gBias f - m)

/-! ## Flags (R160) and results -/

/-- Flags of an element and whether it is special (R161). -/
structure GFlags where
  nan   : Bool := false
  inf   : Bool := false
  cancel : Bool := false
  sat   : Bool := false
  flush : Bool := false
  special : Bool := false
deriving DecidableEq, Repr

/-- Flags of two steps together. -/
def gOr (a b : GFlags) : GFlags :=
  ⟨a.nan || b.nan, a.inf || b.inf, a.cancel || b.cancel, a.sat || b.sat, a.flush || b.flush, a.special || b.special⟩

/-- Flags as bits 0 to 4 of the tile status word (Table GIMUS-8). -/
def gFlagBits (f : GFlags) : Nat := bit f.nan + 2 * bit f.inf + 4 * bit f.cancel + 8 * bit f.sat + 16 * bit f.flush

/-- Round half to even of a / b. -/
def roundHalfEven (a b : Nat) : Nat :=
  let q := a / b
  let r := a % b
  if 2 * r < b then q else if b < 2 * r then q + 1 else q + q % 2

/-- floor(log2(a / b)) for a, b above 0. -/
def floorLog2 (a b : Nat) : Int :=
  let g : Int := (Nat.log2 a : Int) - Nat.log2 b
  let le : Bool := if 0 ≤ g then decide (b * 2 ^ g.toNat ≤ a) else decide (b ≤ a * 2 ^ (-g).toNat)
  if le then g else g - 1

/-- a / b rounded half to even on the grid 2^g. -/
def roundGrid (a b : Nat) (g : Int) : Nat :=
  if 0 ≤ g then roundHalfEven a (b * 2 ^ g.toNat) else roundHalfEven (a * 2 ^ (-g).toNat) b

/-- The magnitude code of a / b on F's grid, exponent unbounded above (R163). -/
def magCode (f : GFmt) (a b : Nat) : Nat :=
  if a = 0 then 0
  else
    let m := gMant f
    let emin := 1 - gBias f
    let e := max emin (floorLog2 a b)
    (e - emin).toNat * 2 ^ m + roundGrid a b (e - m)

/-- A magnitude code with its sign. -/
def withSign (f : GFmt) (neg : Bool) (mag : Nat) : Nat := mag + (if neg then gSign f else 0)

/-- The maximum finite value of a sign: −128 for INT8 (R158). -/
def gMaxOf (f : GFmt) (neg : Bool) : Nat :=
  if f = .int8 then (if neg then 0x80 else 0x7F) else withSign f neg (gMaxCode f)

/-- The result that stands for an infinity of a sign: infinity, or the maximum finite value with SAT_APPLIED. -/
def gInfOut (f : GFmt) (sat neg : Bool) : Nat × Bool :=
  if gHasInf f && !sat then (withSign f neg (gMaxCode f + 1), false) else (gMaxOf f neg, true)

/-- Conversion to a linear format (Table GIMUS-10). -/
def convLinear (f : GFmt) (sat : Bool) (x : GVal) : Nat × GFlags :=
  match x with
  | .nan => (gNaN f, { nan := true, special := true })
  | .inf n =>
    let (c, s) := gInfOut f sat n
    (c, { inf := true, sat := s, special := true })
  | .fin n a b =>
    if f = .int8 then
      let v := gNum n (roundHalfEven a b)
      if v < -128 ∨ 127 < v then (gMaxOf f n, { sat := true, special := true })
      else ((v % 256).toNat, { flush := decide (a ≠ 0) && decide (v = 0) })
    else
      let mag := magCode f a b
      if mag > gMaxCode f then
        let (c, s) := gInfOut f sat n
        (c, { inf := !s, sat := s, special := true })
      else (withSign f n mag, { flush := decide (a ≠ 0) && decide (mag = 0) })

/-- Code of a sign and a log in steps of the LNS format. -/
def lnsCode (f : GFmt) (neg : Bool) (k : Int) : Nat :=
  let w := gWidth f - 1
  (k % 2 ^ w).toNat + (if neg then 2 ^ w else 0)

/-- Linear value of step `k` of an LNS format: sixteenths for LNS8, halves for LNS4. -/
def lnsStep (f : GFmt) (k : Int) : Nat × Nat :=
  match gLnsLinear false (if f = .lns4 then 8 * k else k) with
  | .fin _ a b => (a, b)
  | .nan => (0, 1)
  | .inf _ => (0, 1)

/-- a / b is at least the value of step `k`. -/
def atLeastStep (f : GFmt) (k : Int) (a b : Nat) : Bool :=
  let (x, y) := lnsStep f k
  decide (x * b ≤ a * y)

/-- The candidate nearest a / b among `n` steps from `k` upward and the formal step after them; ties take the code whose
bit 0 is clear (R164). The formal codes above an LNS4 maximum go on in its own steps, from k = 4 on, where R164 writes out those of LNS8
(DEDUCED, log 155). -/
def lnsNearest (f : GFmt) (a b : Nat) : Nat → Int → Int
  | 0, k => k
  | n + 1, k =>
    if atLeastStep f (k + 1) a b then lnsNearest f a b n (k + 1)
    else if !atLeastStep f k a b then k
    else
      -- twice the value against the sum of the neighbours
      let (x0, y0) := lnsStep f k
      let (x1, y1) := lnsStep f (k + 1)
      let l := 2 * a * (y0 * y1)
      let r := b * (x0 * y1 + x1 * y0)
      if l < r then k else if r < l then k + 1 else if k % 2 = 0 then k else k + 1

/-- Conversion to a logarithmic format (Table GIMUS-11). -/
def convLns (f : GFmt) (x : GVal) : Nat × GFlags :=
  let half : Int := 2 ^ (gWidth f - 2)
  let zeroCode := 2 ^ (gWidth f - 2)
  match x with
  | .nan => (gNaN f, { nan := true, special := true })
  | .inf n => (lnsCode f n (half - 1), { inf := true, sat := true, special := true })
  | .fin n a b =>
    if a = 0 then (zeroCode, {})
    else if a * (if f = .lns8 then 16 else 4) < b then (zeroCode, { flush := true })
    else
      let k := lnsNearest f a b (2 ^ (gWidth f - 1) - 1) (1 - half)
      if k ≥ half then (lnsCode f n (half - 1), { sat := true, special := true }) else (lnsCode f n k, {})

/-- Conversion of one exact value to an output format (R163, R164). -/
def gConv (f : GFmt) (sat : Bool) (x : GVal) : Nat × GFlags :=
  if gIsLns f then convLns f x else convLinear f sat x

/-- Conversion under a block scale byte (R165). -/
def gConvScaled (f : GFmt) (sat : Bool) (scale : Nat) (x : GVal) : Nat × GFlags :=
  if scale = 255 then gConv f sat .nan else gConv f sat (gScale x (127 - (scale : Int)))

/-- An input element after its block scale (R165). -/
def gReadScaled (f : GFmt) (c scale : Nat) : GVal :=
  if scale = 255 then .nan else gScale (gRead f c) ((scale : Int) - 127)

end Sys2Proof.Machine
end

