-- ==== Sys2Proof/Machine/GimusDot.lean ====
section
/-! DEFINITION. Gimus sums (06_gimus_arithmetic.md, R151 to R158, R165 to R167, R426, R427): terms, windows, segments,
exact partials, the decision of a result. -/

namespace Sys2Proof.Machine

/-- An exact partial (Table GIMUS-13): SUM in units of 2^−160, term flags, TERMS. -/
structure GAcc where
  sum   : Int := 0
  nan   : Bool := false
  pos   : Bool := false
  neg   : Bool := false
  flushed : Bool := false
  terms : Nat := 0
deriving DecidableEq, Repr

/-- Bound on TERMS (R152, R166, R167). -/
def termLimit : Nat := 16777215

/-- Sums added and flags joined (R167); the limit on TERMS is judged by the operations. -/
def accAdd (a b : GAcc) : GAcc :=
  ⟨a.sum + b.sum, a.nan || b.nan, a.pos || b.pos, a.neg || b.neg, a.flushed || b.flushed, a.terms + b.terms⟩

/-- A value entered into the wide window (R156): truncated toward zero onto 2^−160; infinite at 2^160 or more. The values
of the narrow and FP16 windows lie on sub-grids and enter exactly. -/
def enterWide (x : GVal) (a : GAcc) : GAcc :=
  match x with
  | .nan => { a with nan := true }
  | .inf n => if n then { a with neg := true } else { a with pos := true }
  | .fin n p q =>
    if q * 2 ^ 160 ≤ p then (if n then { a with neg := true } else { a with pos := true })
    else
      let t := p * 2 ^ 160 / q
      { a with sum := a.sum + gNum n t, flushed := a.flushed || (decide (p ≠ 0) && decide (t = 0)) }

/-- One operand element of a term: its format, code and scale byte (127 where unscaled). -/
structure GElem where
  fmt   : GFmt
  code  : Nat
  scale : Nat
deriving DecidableEq, Repr

/-- Product of two values by the rows of Table GIMUS-6. -/
def gMul (x y : GVal) : GVal :=
  match x, y with
  | .nan, _ => .nan
  | _, .nan => .nan
  | .inf n, .inf m => .inf (n != m)
  | .inf n, .fin m a _ => if a = 0 then .nan else .inf (n != m)
  | .fin m a _, .inf n => if a = 0 then .nan else .inf (n != m)
  | .fin n a b, .fin m c d => .fin (n != m) (a * c) (b * d)

/-- Product of two operand elements without their scales (R153). -/
def rawTerm (a b : GElem) : GVal :=
  if gIsLns a.fmt && gIsLns b.fmt then
    match lnsRead a.fmt a.code, lnsRead b.fmt b.code with
    | .nan, _ => .nan
    | _, .nan => .nan
    | .zero, _ => .fin false 0 1
    | _, .zero => .fin false 0 1
    | .log n l, .log m k => gLnsLinear (n != m) (l + k)
  else gMul (gRead a.fmt a.code) (gRead b.fmt b.code)

/-- A NaN scale among two. -/
def nanScale (a b : GElem) : Bool := decide (a.scale = 255) || decide (b.scale = 255)

/-- A term with both scales applied, each on its own (R426). -/
def scaledTerm (a b : GElem) : GVal :=
  if nanScale a b then .nan else gScale (rawTerm a b) ((a.scale : Int) + b.scale - 254)

/-- Reduction classes (Table GIMUS-5). -/
inductive GClass where
  | bf16
  | fp16
  | block
  | narrow
deriving DecidableEq, Repr

/-- The class of two product operands; `sa` and `sb` say whether each carries a block scale. -/
def classOf (fa fb : GFmt) (sa sb : Bool) : GClass :=
  if fa = .bf16 ∨ fb = .bf16 then .bf16
  else if fa = .fp16 ∨ fb = .fp16 then .fp16
  else if sa || sb then .block
  else .narrow

/-- One segment of the block-scaled class: the exact sum of its finite terms, scaled, entered once; its other terms enter
as they are (R156). -/
def enterSegment (ts : List (GElem × GElem)) (acc : GAcc) : GAcc :=
  let step : Int × GAcc → GElem × GElem → Int × GAcc := fun (p, acc) (a, b) =>
    if nanScale a b then (p, { acc with nan := true })
    else match rawTerm a b with
      | .fin n x y => (p + gNum n (x * 2 ^ 32 / y), acc)   -- exact: every term is a multiple of 2^−32
      | t => (p, enterWide t acc)
  let (p, acc) := ts.foldl step (0, acc)
  match ts with
  | [] => acc
  | (a, b) :: _ =>
    if nanScale a b then acc
    else enterWide (gScale (gOfInt p (2 ^ 32)) ((a.scale : Int) + b.scale - 254)) acc

/-- Pieces of `n` terms. -/
def splitEvery (n : Nat) : Nat → List (GElem × GElem) → List (List (GElem × GElem))
  | 0, _ => []
  | _ + 1, [] => []
  | f + 1, ts => ts.take n :: splitEvery n f (ts.drop n)

/-- The terms of one output element, in a class, with segment length `g`. -/
def enterTerms (c : GClass) (g : Nat) (ts : List (GElem × GElem)) (acc : GAcc) : GAcc :=
  let a := if c = .block then (splitEvery (max 1 g) (ts.length + 1) ts).foldl (fun acc seg => enterSegment seg acc) acc
    else ts.foldl (fun acc t => enterWide (scaledTerm t.1 t.2) acc) acc
  { a with terms := a.terms + ts.length }

/-- The values of an element-wise sum, each its own term (R154). -/
def enterValue (x : GElem) (acc : GAcc) : GAcc :=
  let a := enterWide (gReadScaled x.fmt x.code x.scale) acc
  { a with terms := a.terms + 1 }

/-- An addend in FP32, BF16 or FP16 (R154): one term, entered exactly. -/
def enterAddend (x : GVal) (acc : GAcc) : GAcc :=
  let a := enterWide x acc
  { a with terms := a.terms + 1 }

/-! ## Records (Table GIMUS-13) -/

/-- A record's bytes. -/
def accBytes (a : GAcc) : Bytes :=
  leNat 44 (a.sum % 2 ^ 352).toNat ++
  leNat 1 (bit a.nan + 2 * bit a.pos + 4 * bit a.neg + 8 * bit a.flushed) ++ leNat 3 a.terms

/-- A record read from 48 bytes. -/
def accRead (bs : Bytes) : GAcc :=
  let f := leAt bs 44 1
  ⟨gSigned 352 (leAt bs 0 44), testBit f 0, testBit f 1, testBit f 2, testBit f 3, leAt bs 45 3⟩

/-! ## Results (Table GIMUS-7, R165) -/

/-- Flags that the terms set on entry. -/
def entryFlags (a : GAcc) : GFlags :=
  { nan := a.nan, inf := a.pos || a.neg, flush := a.flushed, special := a.nan || a.pos || a.neg }

/-- The element that an accumulator yields in an output format, without an output scale. -/
def accResult (f : GFmt) (sat : Bool) (a : GAcc) : Nat × GFlags :=
  let noNan := decide (f = .e2m1) || decide (f = .int8)
  let e := entryFlags a
  if a.nan then (gNaN f, e)
  else if a.pos && a.neg then (gNaN f, gOr e { cancel := true, nan := noNan })
  else if a.pos || a.neg then
    let r := gConv f sat (.inf a.neg)
    (r.1, gOr e r.2)
  else
    let r := gConv f sat (gOfInt a.sum (2 ^ 160))
    (r.1, gOr e r.2)

/-- The element of a scaled output: rules 1 to 3 stand, rule 4 rounds the scaled sum, and a NaN scale replaces the value
(R165). -/
def accResultScaled (f : GFmt) (sat : Bool) (scale : Nat) (a : GAcc) : Nat × GFlags :=
  if scale = 255 then
    let cancel := !a.nan && a.pos && a.neg
    (gNaN f, gOr (entryFlags a) { nan := true, cancel := cancel, special := true })
  else if a.nan || a.pos || a.neg then accResult f sat a
  else
    let r := gConv f sat (gScale (gOfInt a.sum (2 ^ 160)) (127 - (scale : Int)))
    (r.1, gOr (entryFlags a) r.2)

/-- Flags of an EXACT output (R166): NAN_SEEN, INF_SEEN, UNDERFLOW_FLUSH. -/
def exactFlags (a : GAcc) : GFlags := entryFlags a

/-- The record of a converted value (R427). -/
def exactOf (x : GVal) : GAcc :=
  match x with
  | .nan => { nan := true, terms := 1 }
  | .inf n => { pos := !n, neg := n, terms := 1 }
  | .fin n a b => { sum := gNum n (a * 2 ^ 160 / b), terms := 1 }

end Sys2Proof.Machine
end

