-- ==== Sys2Proof/Machine/GimusFn.lean ====
section
/-! DEFINITION. The functions and row statistics of 07_functions_and_statistics.md (R168 to R181): exp2, log2, division,
the compositions of Table FUNC-1, the soft maximum, row statistics and their partials. -/

namespace Sys2Proof.Machine

/-- T2[i] = round_half_even(2^(i/64) × 2^23) for i from 0 to 64 (R171). -/
def funT2 : List Nat :=
  [8388608, 8479954, 8572295, 8665641, 8760003, 8855394, 8951823, 9049301, 9147842, 9247455, 9348154, 9449948, 9552851] ++
  [9656875, 9762032, 9868333, 9975792, 10084422, 10194234, 10305242, 10417458, 10530897, 10645571, 10761494, 10878679, 10997140] ++
  [11116891, 11237946, 11360319, 11484025, 11609078, 11735492, 11863283, 11992466, 12123055, 12255067, 12388516, 12523418, 12659789] ++
  [12797645, 12937002, 13077877, 13220286, 13364245, 13509772, 13656884, 13805598, 13955931, 14107901, 14261526, 14416824, 14573813] ++
  [14732511, 14892937, 15055111, 15219050, 15384775, 15552304, 15721658, 15892855, 16065917, 16240863, 16417715, 16596492, 16777216]

/-- L[i] = round_half_even(log2(1 + i/64) × 2^23) for i from 0 to 64 (R173). -/
def funL : List Nat :=
  [0, 187635, 372405, 554396, 733691, 910369, 1084505, 1256170, 1425434, 1592364, 1757022, 1919470, 2079767] ++
  [2237968, 2394127, 2548298, 2700529, 2850868, 2999364, 3146059, 3290997, 3434220, 3575768, 3715679, 3853992, 3990741] ++
  [4125963, 4259690, 4391956, 4522792, 4652228, 4780295, 4907021, 5032434, 5156560, 5279426, 5401057, 5521478, 5640713] ++
  [5758784, 5875714, 5991526, 6106239, 6219876, 6332455, 6443997, 6554520, 6664043, 6772584, 6880160, 6986788, 7092485] ++
  [7197266, 7301148, 7404147, 7506275, 7607550, 7707984, 7807591, 7906385, 8004379, 8101586, 8198018, 8293688, 8388608]

/-- A value with the flags of the steps that led to it. -/
abbrev GStep := GVal × GFlags

/-- A value rounded once to FP32 in IEEE mode (Table GIMUS-10). -/
def toFp32 (x : GVal) : GStep :=
  let r := convLinear .fp32 false x
  (gRead .fp32 r.1, r.2)

/-- A step's flags without its special mark. -/
def plain (f : GFlags) : GFlags := { f with special := false }

/-- An interpolated table entry: the entry at bits [22:17] of `f23` plus the chord. -/
def chord (t : List Nat) (f23 : Nat) : Nat :=
  let i := f23 / 2 ^ 17
  let a := t.getD i 0
  a + (t.getD (i + 1) 0 - a) * (f23 % 2 ^ 17) / 2 ^ 17

/-- floor of a signed fraction. -/
def floorVal (neg : Bool) (a b : Nat) : Int := gNum neg a / (b : Int)

/-- exp2 (R171, R172). -/
def fnExp2 (x : GVal) : GStep :=
  match x with
  | .nan => (.nan, { nan := true, special := true })
  | .inf true => (.fin false 0 1, { inf := true, special := true })
  | .inf false => (.inf false, { inf := true, special := true })
  | .fin n a b =>
    let v := gNum n a
    if 128 * (b : Int) ≤ v then (.inf false, { inf := true, special := true })
    else if v < -126 * (b : Int) then (.fin false 0 1, { flush := true })
    else
      let k := v / (b : Int)
      let f23 := ((v - k * b) * 2 ^ 23 / (b : Int)).toNat
      (gDyadic false (chord funT2 f23) (k - 23), {})

/-- log2 (R173, R174). -/
def fnLog2 (x : GVal) : GStep :=
  match x with
  | .nan => (.nan, { nan := true, special := true })
  | .inf true => (.nan, { nan := true, inf := true, special := true })
  | .inf false => (.inf false, { inf := true, special := true })
  | .fin n a b =>
    if a = 0 then (.inf true, { inf := true, special := true })
    else if n then (.nan, { nan := true, special := true })
    else
      let e := floorLog2 a b
      if e < -126 then (.inf true, { inf := true, special := true })
      else
        let m23 := (if 23 ≤ e then a / (b * 2 ^ (e - 23).toNat) else a * 2 ^ (23 - e).toNat / b) - 2 ^ 23
        let r := toFp32 (gOfInt (e * 2 ^ 23 + chord funL m23) (2 ^ 23))
        (r.1, r.2)

/-- Exact quotient (R169), before its rounding. A zero divided by a finite value takes the exclusive OR of the signs, which no row gives
(DESIGN CHOICE, log 155). -/
def fnQuot (x y : GVal) : GStep :=
  match x, y with
  | .nan, _ => (.nan, { nan := true, special := true })
  | _, .nan => (.nan, { nan := true, special := true })
  | .inf _, .inf _ => (.nan, { cancel := true, special := true })
  | .inf n, .fin m _ _ => (.inf (n != m), { inf := true, special := true })
  | .fin n _ _, .inf m => (.fin (n != m) 0 1, { special := true })
  | .fin n a b, .fin m c d =>
    if c = 0 then (if a = 0 then (.nan, { nan := true, special := true }) else (.inf (n != m), { inf := true, special := true }))
    else (.fin (n != m) (a * d) (b * c), {})

/-- A NaN that carries its own flags stays a NaN without adding NAN_SEEN; anything else is rounded to FP32. -/
def roundStep (r : GStep) : GStep :=
  match r.1 with
  | .nan => r
  | x =>
    let q := toFp32 x
    (q.1, gOr r.2 q.2)

/-- div (R169). -/
def fnDiv (x y : GVal) : GStep := roundStep (fnQuot x y)

/-- An exact sum by the pattern of Table GIMUS-7; an exact zero is +0. -/
def fnSum (x y : GVal) : GStep :=
  match x, y with
  | .nan, _ => (.nan, { nan := true, special := true })
  | _, .nan => (.nan, { nan := true, special := true })
  | .inf n, .inf m => if n = m then (.inf n, { inf := true, special := true })
      else (.nan, { inf := true, cancel := true, special := true })
  | .inf n, .fin _ _ _ => (.inf n, { inf := true, special := true })
  | .fin _ _ _, .inf n => (.inf n, { inf := true, special := true })
  | .fin n a b, .fin m c d => (gOfInt (gNum n a * d + gNum m c * b) (b * d), {})

/-- An exact product by the pattern of Tables GIMUS-6 and GIMUS-7; an exact zero is +0. -/
def fnProd (x y : GVal) : GStep :=
  match gMul x y with
  | .nan => (.nan, { nan := true, special := true })
  | .inf n => (.inf n, { inf := true, special := true })
  | .fin n a b => (if a = 0 then .fin false 0 1 else .fin n a b, {})

/-- A rounded sum. -/
def fnAdd (x y : GVal) : GStep := roundStep (fnSum x y)
/-- A rounded product. -/
def fnMul (x y : GVal) : GStep := roundStep (fnProd x y)

/-- A step after a step, flags joined. -/
def andThen (r : GStep) (k : GVal → GStep) : GStep :=
  let q := k r.1
  (q.1, gOr r.2 q.2)

/-- An FP32 constant. -/
def fp32Of (c : Nat) : GVal := gRead .fp32 c
/-- LOG2E. -/
def cLog2e : GVal := fp32Of 0x3FB8AA3B
/-- LN2. -/
def cLn2 : GVal := fp32Of 0x3F317218
/-- A small fraction. -/
def cFrac (neg : Bool) (a b : Nat) : GVal := .fin neg a b
/-- The negation of a value. -/
def gNeg : GVal → GVal
  | .nan => .nan
  | .inf n => .inf (!n)
  | .fin n a b => .fin (!n) a b

/-- exp(x) (Table FUNC-1). -/
def fnExp (x : GVal) : GStep := andThen (fnMul x cLog2e) fnExp2
/-- ln(x). -/
def fnLn (x : GVal) : GStep := andThen (fnLog2 x) (fun l => fnMul l cLn2)
/-- sqrt(x). -/
def fnSqrt (x : GVal) : GStep := andThen (andThen (fnLog2 x) (fun l => fnMul (cFrac false 1 2) l)) fnExp2
/-- rsqrt(x). -/
def fnRsqrt (x : GVal) : GStep := andThen (andThen (fnLog2 x) (fun l => fnMul (cFrac true 1 2) l)) fnExp2
/-- pow(x, y). Table FUNC-1 defines it for x above 0; every other x takes the same composition (DESIGN CHOICE, log 155). -/
def fnPow (x y : GVal) : GStep := andThen (andThen (fnLog2 x) (fun l => fnMul y l)) fnExp2
/-- sigmoid(x). -/
def fnSigmoid (x : GVal) : GStep :=
  andThen (andThen (fnExp (gNeg x)) (fun e => fnAdd (cFrac false 1 1) e)) (fun d => fnDiv (cFrac false 1 1) d)
/-- silu(x). -/
def fnSilu (x : GVal) : GStep := andThen (fnSigmoid x) (fun g => fnMul x g)
/-- tanh(x): the doubling of the sigmoid and the subtraction are one exact operation, rounded once. -/
def fnTanh (x : GVal) : GStep :=
  andThen (andThen (fnMul (cFrac false 2 1) x) fnSigmoid) (fun g => roundStep (fnSum (gScale g 1) (cFrac true 1 1)))
/-- Normalise(x, mean, var, eps). -/
def fnNormalise (x mean var eps : GVal) : GStep :=
  andThen (andThen (fnAdd var eps) fnRsqrt) (fun r => andThen (fnAdd x (gNeg mean)) (fun d => fnMul d r))

/-- Functions of Table GRNH-5 on FP32 inputs; `y` is the second operand where the function has one. -/
def fnApply (code : Nat) (x y : GVal) : Option GStep :=
  match code with
  | 0x01 => some (fnExp2 x)
  | 0x02 => some (fnLog2 x)
  | 0x03 => some (fnDiv x y)
  | 0x04 => some (fnExp x)
  | 0x05 => some (fnLn x)
  | 0x06 => some (fnSqrt x)
  | 0x07 => some (fnRsqrt x)
  | 0x08 => some (fnPow x y)
  | 0x09 => some (fnSigmoid x)
  | 0x0A => some (fnSilu x)
  | 0x0B => some (fnTanh x)
  | _ => none

/-- The second conversion, to the output format (R168). A NaN that a step produced keeps that step's own flags. -/
def fnOut (f : GFmt) (sat : Bool) (scale : Nat) (r : GStep) : Nat × GFlags :=
  let q := gConvScaled f sat scale r.1
  (q.1, gOr r.2 q.2)

/-! ## Statistics partials (R179) -/

/-- A statistics partial (Table FUNC-10). -/
structure GPart where
  s2     : Nat := 0
  s1     : Int := 0
  n      : Nat := 0
  e      : Int := 0
  kind   : Nat := 0
  nan    : Bool := false
  pos    : Bool := false
  neg    : Bool := false
  nonzero : Bool := false
  rowmax : Nat := 0
deriving DecidableEq, Repr

/-- The bytes of a partial. -/
def partBytes (p : GPart) : Bytes :=
  leNat 32 p.s2 ++ leNat 24 (p.s1 % 2 ^ 192).toNat ++ leNat 8 p.n ++ leNat 2 (p.e % 2 ^ 16).toNat ++ leNat 1 p.kind ++
  leNat 1 (bit p.nan + 2 * bit p.pos + 4 * bit p.neg + 8 * bit p.nonzero) ++ leNat 4 p.rowmax ++ zeros 8

/-- A partial read from 80 bytes. -/
def partRead (bs : Bytes) : GPart :=
  let f := leAt bs 67 1
  ⟨leAt bs 0 32, gSigned 192 (leAt bs 32 24), leAt bs 56 8, gSigned 16 (leAt bs 64 2), leAt bs 66 1,
    testBit f 0, testBit f 1, testBit f 2, testBit f 3, leAt bs 68 4⟩

/-! ## Soft maximum (R175) -/

/-- Strict order of two finite or infinite values. -/
def gLess (x y : GVal) : Bool :=
  match x, y with
  | .nan, _ => false
  | _, .nan => false
  | .inf n, .inf m => n && !m
  | .inf n, .fin _ _ _ => n
  | .fin _ _ _, .inf m => !m
  | .fin n a b, .fin m c d => decide (gNum n a * d < gNum m c * b)

/-- The greatest value of a row. -/
def rowMax (xs : List GVal) : GVal := xs.foldl (fun m x => if gLess m x then x else m) (.inf true)

/-- y[j] and q[j] of an element under a maximum m. -/
def softTerm (m x : GVal) : GVal × Nat :=
  match x, m with
  | .fin n a b, .fin mn c d =>
    let diff := gNum n a * d - gNum mn c * b
    let t := (toFp32 (fnProd (gOfInt diff (b * d)) cLog2e).1).1
    let y := (fnExp2 t).1
    match y with
    | .fin _ p q => (y, p * 2 ^ 96 / q)
    | _ => (y, 0)
  | _, _ => (.fin false 0 1, 0)

/-- An element as numbers. -/
def softKey : GVal → List Nat
  | .nan => [0]
  | .inf s => [1, bit s]
  | .fin s a b => [2, bit s, a, b]

/-- A row of the soft maximum (Table FUNC-6). The maximum and the denominator are the row's own, or those of a finished
partial of KIND 1, whose FLAGS then stand for the specials of the whole row (R176, R180). A partial's S1 is an integer
of either sign; at S1 = 0 the quotient of a finite element is open and its code free (log 24). -/
def softRow (f : GFmt) (sat : Bool) (scales : List Nat) (xs : List GVal) (part : Option GPart) : List (Nat × GFlags) :=
  let p := part.getD {}
  let isNan := xs.any (· == .nan) || p.nan
  let isPos := xs.any (· == .inf false) || p.pos
  let anyNeg := xs.any (· == .inf true) || p.neg
  let m := if part.isSome then fp32Of p.rowmax else rowMax xs
  let s1 : Int := if part.isSome then p.s1 else ((xs.map (fun x => (softTerm m x).2)).foldl (· + ·) 0 : Nat)
  (xs.zip scales).map (fun (x, sc) =>
    if isNan then
      let r := gConvScaled f sat sc .nan
      (r.1, gOr { nan := true, special := true } r.2)
    else if isPos then
      let r := gConvScaled f sat sc .nan
      (r.1, gOr { inf := true, cancel := true, special := true } r.2)
    else if m == .inf true then
      let r := gConvScaled f sat sc (.fin false 0 1)
      (r.1, gOr { inf := true, special := true } r.2)
    else
      let special := x == .inf true
      let q : GVal := match (softTerm m x).1 with
        | .fin _ a b => if a = 0 then .fin false 0 1 else .fin (decide (s1 < 0)) (a * 2 ^ 96) (b * s1.natAbs)
        | v => v
      let r := if special then gConvScaled f sat sc (.fin false 0 1)
        else if s1 = 0 ∧ sc ≠ 255 then (Config.softOpen ([p.rowmax, p.s2, p.n] ++ softKey x) % 2 ^ gWidth f, {})
        else gConvScaled f sat sc q
      (r.1, gOr { inf := anyNeg, special := special, flush := gIsZero (gRead f r.1) && !special && decide (sc ≠ 255) } r.2))

/-! ## Row statistics (R177, R178) -/

/-- Exponent of a row: the greatest floor(log2) of its non-zero values. -/
def rowExp (xs : List GVal) : Option Int :=
  xs.foldl (fun e x => match x with
    | .fin _ a b => if a = 0 then e else
        let l := floorLog2 a b
        some (match e with | some e => max e l | none => l)
    | _ => e) none

/-- q[j] at exponent e. -/
def rowQ (e : Int) (x : GVal) : Int :=
  match x with
  | .fin n a b => gNum n (if 0 ≤ 96 - e then a * 2 ^ (96 - e).toNat / b else a / (b * 2 ^ (e - 96).toNat))
  | .nan => 0
  | .inf _ => 0

/-- Limit on N of a kind (Table FUNC-10). -/
def partLimit (kind : Nat) : Nat := if kind = 0 then 4294967296 else 16777215

/-- Two partials combined (R180); none where they may not be. -/
def partAdd (a b : GPart) : Option GPart :=
  if a.kind = b.kind ∧ a.kind ≤ 1 ∧ a.rowmax = b.rowmax ∧ a.n + b.n ≤ partLimit a.kind ∧
      (a.e = b.e ∨ a.nonzero = false ∨ b.nonzero = false) then
    some { s2 := a.s2 + b.s2, s1 := a.s1 + b.s1, n := a.n + b.n, e := if a.nonzero then a.e else b.e, kind := a.kind,
           nan := a.nan || b.nan, pos := a.pos || b.pos, neg := a.neg || b.neg, nonzero := a.nonzero || b.nonzero,
           rowmax := a.rowmax }
  else none

/-- The row statistics of a row as a partial of KIND 0, at an exponent. -/
def partOfRow (e : Int) (xs : List GVal) : GPart :=
  let qs := xs.map (rowQ e)
  { s2 := (qs.foldl (fun t q => t + q * q) 0).toNat, s1 := qs.foldl (· + ·) 0, n := xs.length, e := e, kind := 0,
    nan := xs.any (· == .nan), pos := xs.any (· == .inf false), neg := xs.any (· == .inf true),
    nonzero := (rowExp xs).isSome, rowmax := 0 }

/-- S × 2^k / d as a value. -/
def ratio (s : Int) (k : Int) (d : Nat) : GVal := gScale (gOfInt s d) k

/-- MEAN, MSQ and VAR of a finished partial, each converted to its output (R177, R178). `which`: 0 MEAN, 1 MSQ, 2 VAR. -/
def statOut (f : GFmt) (sat : Bool) (scale which : Nat) (p : GPart) : Nat × GFlags :=
  let conv (x : GVal) (fl : GFlags) : Nat × GFlags :=
    let r := gConvScaled f sat scale x
    (r.1, gOr fl r.2)
  let sp : GFlags := { inf := true, cancel := true, special := true }
  if p.nan then conv .nan { nan := true, special := true }
  else if p.pos && p.neg then
    conv (if which = 1 then .inf false else .nan) sp
  else if p.pos || p.neg then
    conv (if which = 0 then .inf p.neg else if which = 1 then .inf false else .nan) sp
  else if !p.nonzero then conv (.fin false 0 1) {}
  else if which = 0 then conv (ratio p.s1 (p.e - 96) p.n) {}
  else if which = 1 then conv (ratio p.s2 (2 * p.e - 192) p.n) {}
  else conv (ratio ((p.n : Int) * p.s2 - p.s1 * p.s1) (2 * p.e - 192) (p.n * p.n)) {}

end Sys2Proof.Machine
end

