-- ==== Sys2Proof/Machine/GimusTile.lean ====
section
/-! DEFINITION. Receipts and the recomputation of a tile (08_greenhouse_verification.md, R184 to R187, R197, R428, R429). -/

namespace Sys2Proof.Machine

/-! ## Receipts (Tables GRNH-2 to GRNH-5) -/

/-- An operand entry. -/
structure GOp where
  role   : Nat
  ksel   : Nat
  desc   : Nat
  addr   : Nat
  stride : Nat
  layout : Nat
  scaleAddr : Nat
  scaleStride : Nat
  res0   : Bool
deriving DecidableEq, Repr

/-- A receipt. -/
structure Rcpt where
  kind   : Nat
  cid    : Nat
  vdie   : Nat
  core   : Nat
  entries : Nat
  pin    : Nat
  func   : Nat
  opseq  : Nat
  tileRow : Nat
  tileCol : Nat
  height : Nat
  width  : Nat
  k      : Nat
  kOrigin : Nat
  status : Nat
  aux    : Nat
  res0   : Bool
  ops    : List GOp
deriving DecidableEq, Repr

/-- An operand entry from its 63 payload bytes; entry byte n is payload byte n − 1. -/
def parseOp (p : Bytes) : GOp :=
  ⟨leAt p 0 1, leAt p 1 1, leAt p 2 2, leAt p 4 8, leAt p 12 4, leAt p 16 1, leAt p 17 8, leAt p 25 4,
    allZero (slice p 29 34)⟩

/-- A receipt from the payloads of its entries. -/
def parseRcpt (es : List Bytes) : Rcpt :=
  let h := es.headD []
  { kind := leAt h 0 1, cid := leAt h 1 1, vdie := leAt h 2 1, core := leAt h 3 2, entries := leAt h 5 1,
    pin := leAt h 6 1, func := leAt h 7 1, opseq := leAt h 15 8, tileRow := leAt h 23 2, tileCol := leAt h 25 2,
    height := leAt h 27 2, width := leAt h 29 2, k := leAt h 31 3, kOrigin := leAt h 34 3, status := leAt h 37 8,
    aux := leAt h 45 4, res0 := allZero (slice h 8 7) && allZero (slice h 49 14), ops := (es.drop 1).map parseOp }

/-- OP_BEGIN. -/
def kOpBegin : Nat := 0x01
/-- OP_END. -/
def kOpEnd : Nat := 0x02
/-- DOT. -/
def kDot : Nat := 0x10
/-- CONVERT. -/
def kConvert : Nat := 0x11
/-- FUNC. -/
def kFunc : Nat := 0x12
/-- SOFTMAX. -/
def kSoftmax : Nat := 0x13
/-- ROWSTAT. -/
def kRowstat : Nat := 0x14
/-- COMBINE. -/
def kCombine : Nat := 0x15

/-- A tile receipt: every kind but OP_BEGIN and OP_END. -/
def isTile (r : Rcpt) : Bool := decide (r.kind ≠ kOpBegin) && decide (r.kind ≠ kOpEnd)

/-! ## Descriptors (Table GIMUS-1) -/

/-- FORMAT of an operand. -/
def opFmt (o : GOp) : GFmt := (gFmtOf (o.desc % 16)).getD .int8
/-- SAT of an output. -/
def opSat (o : GOp) : Bool := testBit o.desc 5
/-- Block size; 0 where unscaled. -/
def opBs (o : GOp) : Nat := if bits o.desc 6 3 = 0 then 0 else 2 ^ (bits o.desc 6 3 + 2)
/-- BS_DIR. -/
def opDir (o : GOp) : Bool := testBit o.desc 9
/-- TRANS. -/
def opTrans (o : GOp) : Bool := testBit o.layout 0

/-- A role's operand. -/
def opOf (r : Rcpt) (role : Nat) : Option GOp := r.ops.find? (fun o => o.role == role)
/-- The outputs, in order. -/
def outsOf (r : Rcpt) : List GOp := r.ops.filter (fun o => o.role == 3)

/-- Outputs of a ROWSTAT, by bit of FUNC: 0 MEAN, 1 MSQ, 2 VAR, 3 PARTIAL. -/
def statBits (func : Nat) : List Nat := (List.range 4).filter (fun i => testBit func i)

/-- The operand at position `i` of a receipt is a statistics partial. -/
def isPartial (r : Rcpt) (i : Nat) (o : GOp) : Bool :=
  if r.kind = kSoftmax then decide (o.role = 1)
  else if r.kind = kRowstat then decide (o.role = 3) && decide ((statBits r.func)[i - 1]? = some 3)
  else if r.kind = kCombine then decide (r.func = 1)
  else false

/-- Bits of one element of an operand. -/
def opBits (r : Rcpt) (i : Nat) (o : GOp) : Nat := if isPartial r i o then 640 else gWidth (opFmt o)

/-- Rows and columns of an operand's tile (R428, R429). -/
def opDims (r : Rcpt) (o : GOp) : Nat × Nat :=
  if r.kind = kDot then
    if o.role = 0 then (r.height, r.k) else if o.role = 1 then (r.k, r.width) else (r.height, r.width)
  else if r.kind = kRowstat then (r.height, if o.role = 3 then 1 else r.width)
  else if r.kind = kCombine then (if o.role = 3 then 1 else r.height, 1)
  else if r.kind = kSoftmax ∧ o.role = 1 then (r.height, 1)
  else if r.kind = kFunc ∧ r.func = 0x0C ∧ o.role = 1 then (r.height, 2)
  else (r.height, r.width)

/-- Origin of an operand's tile in its rows and columns (R428). -/
def opOrigin (r : Rcpt) (o : GOp) : Nat × Nat :=
  let r0 := r.tileRow * r.height
  let c0 := r.tileCol * r.width
  if r.kind = kDot ∧ o.role = 0 then (r0, r.kOrigin)
  else if r.kind = kDot ∧ o.role = 1 then (r.kOrigin, c0)
  else if r.kind = kRowstat ∧ o.role = 3 then (r0, 0)
  else (r0, c0)

/-- Blocks run across consecutive columns (R150, R428). -/
def opAlongCols (r : Rcpt) (o : GOp) : Bool := if r.kind = kDot ∧ o.role = 1 then opDir o else !opDir o

/-- Segment length of R151; 0 where K is unscaled and 0. -/
def segLen (a b : GOp) (k : Nat) : Nat :=
  let g : GOp → Nat := fun o => if opBs o = 0 then k else if opDir o then 1 else opBs o
  min (g a) (g b)

/-! ## Memory spans -/

/-- Element spans: address and length of every storage row. -/
def elemSpans (r : Rcpt) (i : Nat) (o : GOp) : List (Nat × Nat) :=
  let (rows, cols) := opDims r o
  let (outer, inner) := if opTrans o && decide (r.kind ≠ kCombine) then (cols, rows) else (rows, cols)
  let n := (inner * opBits r i o + 7) / 8
  (List.range outer).map (fun j => (o.addr + j * o.stride, n))

/-- Scale rows and bytes per scale row. -/
def scaleDims (r : Rcpt) (o : GOp) : Nat × Nat :=
  let (rows, cols) := opDims r o
  let bs := max 1 (opBs o)
  if opAlongCols r o then (rows, (cols + bs - 1) / bs) else ((rows + bs - 1) / bs, cols)

/-- Scale spans. -/
def scaleSpans (r : Rcpt) (o : GOp) : List (Nat × Nat) :=
  if opBs o = 0 then []
  else (List.range (scaleDims r o).1).map (fun j => (o.scaleAddr + j * o.scaleStride, (scaleDims r o).2))

/-- The element at a row and column of fetched storage rows laid end to end. -/
def elemAt (r : Rcpt) (i : Nat) (o : GOp) (data : Bytes) (row col : Nat) : Nat :=
  let (rows, cols) := opDims r o
  let t := opTrans o && decide (r.kind ≠ kCombine)
  let (outer, inner, len) := if t then (col, row, rows) else (row, col, cols)
  let w := opBits r i o
  let n := (len * w + 7) / 8
  if w = 4 then bits (leAt data (outer * n + inner / 2) 1) (4 * (inner % 2)) 4
  else leAt data (outer * n + inner * (w / 8)) (w / 8)

/-- The scale byte of an element; 127 where unscaled (R150). -/
def scaleAt (r : Rcpt) (o : GOp) (data : Bytes) (row col : Nat) : Nat :=
  if opBs o = 0 then 127
  else if opAlongCols r o then leAt data (row * (scaleDims r o).2 + col / opBs o) 1
  else leAt data (row / opBs o * (scaleDims r o).2 + col) 1

/-! ## Static checks (R186) -/

/-- Packed size of an operand's elements, over its storage rows. -/
def packedBytes (r : Rcpt) (i : Nat) (o : GOp) : Nat :=
  let (rows, cols) := opDims r o
  let (outer, inner) := if opTrans o && decide (r.kind ≠ kCombine) then (cols, rows) else (rows, cols)
  outer * ((inner * opBits r i o + 7) / 8)

/-- Packed size of the outputs. -/
def outBytes (r : Rcpt) : Nat :=
  (r.ops.zipIdx.map (fun (o, i) => if o.role = 3 then packedBytes r i o else 0)).foldl (· + ·) 0

/-- An operand entry's own fields. -/
def opFieldsOk (r : Rcpt) (i : Nat) (o : GOp) : Bool :=
  o.res0 && decide (o.role ≤ 3) && decide (o.ksel ≤ 3) && decide (o.layout ≤ 1) &&
  (if isPartial r i o then decide (o.desc = 0)
   else decide (o.desc % 16 < 10) && decide (bits o.desc 6 3 ≤ 5) && decide (o.desc < 2 ^ 10) &&
        (decide (opBs o = 0) || gNarrow (opFmt o))) &&
  (decide (opBs o ≠ 0) || (decide (o.scaleAddr = 0) && decide (o.scaleStride = 0))) &&
  (if o.role = 3 then !(testBit o.desc 4 && opSat o) else true)

/-- Roles permitted for a receipt (Table GRNH-4, Table GRNH-5). -/
def rolesOk (r : Rcpt) : Bool :=
  let roles := r.ops.map (·.role)
  if r.kind = kOpBegin ∨ r.kind = kOpEnd then decide (roles = []) && decide (r.func = 0)
  else if r.kind = kDot then (decide (roles = [0, 1, 3]) || decide (roles = [0, 1, 2, 3])) && decide (r.func = 0)
  else if r.kind = kConvert then decide (roles = [0, 3]) && decide (r.func = 0)
  else if r.kind = kFunc then
    if r.func = 0x03 ∨ r.func = 0x08 ∨ r.func = 0x0C ∨ r.func = 0x10 ∨ r.func = 0x11 then decide (roles = [0, 1, 3])
    else decide (1 ≤ r.func) && decide (r.func ≤ 0x0B) && decide (roles = [0, 3])
  else if r.kind = kSoftmax then
    (decide (roles = [0, 3]) || decide (roles = [0, 1, 3])) && decide (r.func = 0)
  else if r.kind = kRowstat then
    decide (1 ≤ r.func) && decide (r.func ≤ 15) && decide (roles = 0 :: List.replicate (statBits r.func).length 3)
  else if r.kind = kCombine then decide (roles = [0, 3]) && decide (r.func ≤ 1)
  else false

/-- A product operand's format (R152). -/
def productOk (o : GOp) : Bool := decide (opFmt o ≠ .fp32) && decide (opFmt o ≠ .exact)

/-- The receipt describes a Gimus operation (R145, R152, R155, R162, R166 to R168, R180, R429). -/
def gimusOk (r : Rcpt) : Bool :=
  let outsNotExact := (outsOf r).all (fun o => opFmt o != .exact)
  match opOf r 0, opOf r 1, outsOf r with
  | some a, b, out :: _ =>
    if r.kind = kDot then
      match b with
      | none => false
      | some b =>
        productOk a && productOk b &&
        (match opOf r 2 with
         | none => true
         | some d => (opFmt d == .fp32 || opFmt d == .bf16 || opFmt d == .fp16 || opFmt d == .exact) &&
             (decide (opFmt out ≠ .exact) || opFmt d == .exact || decide (r.k + 1 ≤ termLimit))) &&
        (match classOf (opFmt a) (opFmt b) (decide (opBs a ≠ 0)) (decide (opBs b ≠ 0)) with
         | .block => decide (segLen a b r.k = 0) || decide (r.kOrigin % segLen a b r.k = 0)
         | .bf16 => true
         | .fp16 => true
         | .narrow => true)
    else if r.kind = kFunc then
      if r.func = 0x10 ∨ r.func = 0x11 then
        match b with
        | some b => productOk a && productOk b
        | none => false
      else if r.func = 0x0C then
        match b with
        | some b => decide (opFmt b = .fp32) && outsNotExact
        | none => false
      else outsNotExact
    else if r.kind = kConvert then true
    else if r.kind = kCombine then
      decide (r.width = 1) && decide (r.tileCol = 0) && decide (r.k = 0) && decide (r.kOrigin = 0) &&
      (decide (r.func = 1) || (decide (opFmt a = .exact) && decide (opFmt out = .exact)))
    else (r.ops.zipIdx.all (fun (o, i) => o.role != 3 || isPartial r i o || opFmt o != .exact))
  | _, _, _ => false

/-- A scaled operand's tile begins on a block boundary along its blocks (R186, R428). -/
def boundaryOk (r : Rcpt) (o : GOp) : Bool :=
  if opBs o = 0 then true
  else decide ((if opAlongCols r o then (opOrigin r o).2 else (opOrigin r o).1) % opBs o = 0)

/-- The checks of R186 that a receipt's own bytes decide. -/
def rcptStatic (count : Nat) (r : Rcpt) : Bool :=
  r.res0 && decide (r.entries = count) && decide (1 ≤ count) && decide (count ≤ 6) && decide (r.pin ≤ 47) &&
  decide (r.vdie ≤ 31) && decide (r.core ≤ 319) &&
  decide (bits r.status 5 10 = 0) && decide (r.status / 2 ^ 48 = 0) &&
  (decide (r.aux = 0) || decide (r.kind = kOpBegin) || (decide (r.kind = kFunc) && decide (r.func = 0x0C))) &&
  rolesOk r && r.ops.zipIdx.all (fun (o, i) => opFieldsOk r i o) &&
  (!isTile r ||
    (decide (1 ≤ r.height) && decide (1 ≤ r.width) && gimusOk r && r.ops.all (boundaryOk r) &&
      decide (outBytes r ≤ 2097152)))

/-! ## Recomputation -/

/-- Data of the operands: for each operand in order, its element bytes (empty for an output) and its scale bytes. -/
abbrev TileData := List (Bytes × Bytes)

/-- A result of a tile: for every output its elements in row-major order, and the tile status; none where the data make
it no Gimus operation (R166, R167, R180). -/
abbrev TileResult := Option (List (List Nat) × Nat)

/-- The data of a role's operand. -/
def dataOf (r : Rcpt) (d : TileData) (role : Nat) : Option (Nat × GOp × Bytes × Bytes) :=
  ((r.ops.zipIdx.zip d).find? (fun x => x.1.1.role == role)).map (fun x => (x.1.2, x.1.1, x.2.1, x.2.2))

/-- Tile status of the elements of an output in row-major order (R160, R161). -/
def tileStatus (cols : Nat) (fs : List GFlags) : Nat :=
  let all := fs.foldl gOr {}
  match fs.findIdx? (·.special) with
  | none => gFlagBits all
  | some i => gFlagBits all + 2 ^ 15 + (i / cols) % 2 ^ 16 * 2 ^ 16 + (i % cols) * 2 ^ 32

/-- An operand element as a term's factor. -/
def elemOf (r : Rcpt) (x : Nat × GOp × Bytes × Bytes) (row col : Nat) : GElem :=
  ⟨opFmt x.2.1, elemAt r x.1 x.2.1 x.2.2.1 row col, scaleAt r x.2.1 x.2.2.2 row col⟩

/-- A record read from an element code. -/
def recOf (code : Nat) : GAcc := accRead (leNat 48 code)

/-- An element of an output from an accumulator: rounded, or as a record. -/
def outElem (o : GOp) (scale : Nat) (a : GAcc) : Nat × GFlags :=
  if opFmt o = .exact then (leVal (accBytes a), exactFlags a)
  else accResultScaled (opFmt o) (opSat o) scale a

/-- An element converted to an output: a value, or for an EXACT output its record (R165, R427). -/
def outConv (o : GOp) (scale : Nat) (x : GVal) : Nat × GFlags :=
  if opFmt o = .exact then
    let a := exactOf x
    (leVal (accBytes a), exactFlags a)
  else gConvScaled (opFmt o) (opSat o) scale x

/-- An input element as FP32 (R168), with the flags of its conversion. A block-scaled element of magnitude 2^128 or more has no FP32
value and becomes an infinity with INF_SEEN (DESIGN CHOICE, log 155). -/
def inFp32 (e : GElem) : GStep :=
  if e.fmt = .exact then
    let r := accResult .fp32 false (recOf e.code)
    (gRead .fp32 r.1, r.2)
  else toFp32 (gReadScaled e.fmt e.code e.scale)

/-- One dot-product element (R152 to R158). The res0 bits of an EXACT addend are ignored (R9). With K = 0 the addend is
converted, or copied unchanged from EXACT to EXACT (R152); under a NaN output scale it keeps the flags of its entry, as
every term does (R165). -/
def dotElem (r : Rcpt) (a b : Nat × GOp × Bytes × Bytes) (add : Option (Nat × GOp × Bytes × Bytes))
    (out : GOp) (scale row col : Nat) : Option (Nat × GFlags) :=
  let ts := (List.range r.k).map (fun k => (elemOf r a row k, elemOf r b k col))
  let cls := classOf (opFmt a.2.1) (opFmt b.2.1) (decide (opBs a.2.1 ≠ 0)) (decide (opBs b.2.1 ≠ 0))
  let acc := enterTerms cls (segLen a.2.1 b.2.1 r.k) ts {}
  match add with
  | none => some (outElem out scale acc)
  | some d =>
    let e := elemOf r d row col
    if e.fmt = .exact then
      let total := accAdd acc (recOf e.code)
      if r.k = 0 ∧ opFmt out = .exact then some (e.code, exactFlags (recOf e.code))
      else if total.terms ≤ termLimit then some (outElem out scale total)
      else none
    else if r.k = 0 ∧ opFmt out ≠ .exact ∧ scale ≠ 255 then some (outConv out scale (gRead e.fmt e.code))
    else some (outElem out scale (enterAddend (gRead e.fmt e.code) acc))

/-- The elements of a tile by position. -/
def overTile (rows cols : Nat) (f : Nat → Nat → Option (Nat × GFlags)) : Option (List (Nat × GFlags)) :=
  ((List.range rows).flatMap (fun i => (List.range cols).map (fun j => f i j))).mapM id

/-- A one-output tile. -/
def oneOut (rows cols : Nat) (f : Nat → Nat → Option (Nat × GFlags)) : TileResult :=
  (overTile rows cols f).map (fun es => ([es.map (·.1)], tileStatus cols (es.map (·.2))))

/-- CONVERT of one element (R163 to R165, R167, R427). -/
def convElem (e : GElem) (out : GOp) (scale : Nat) : Option (Nat × GFlags) :=
  if e.fmt = .exact then
    if opFmt out = .exact then
      some (e.code, { exactFlags (recOf e.code) with flush := false })
    else some (accResultScaled (opFmt out) (opSat out) scale (recOf e.code))
  else some (outConv out scale (gReadScaled e.fmt e.code e.scale))

/-- FUNC of one element. The flags of every input's conversion count, those of Normalise's mean and var apart (DESIGN CHOICE, log 155). -/
def funcElem (r : Rcpt) (x : GElem) (y : Option GElem) (meanVar : GVal × GVal) (out : GOp) (scale : Nat) :
    Option (Nat × GFlags) :=
  if r.func = 0x10 then
    match y with
    | some y => some (outElem out scale (enterValue y (enterValue x {})))
    | none => none
  else if r.func = 0x11 then
    match y with
    | some y =>
      let cls := classOf x.fmt y.fmt (decide (x.scale ≠ 127)) (decide (y.scale ≠ 127))
      some (outElem out scale (enterTerms cls 1 [(x, y)] {}))
    | none => none
  else
    let a := inFp32 x
    let b : GStep := match y with | some y => inFp32 y | none => (.fin false 0 1, {})
    let r1 : Option GStep := if r.func = 0x0C then some (fnNormalise a.1 meanVar.1 meanVar.2 (gRead .fp32 r.aux))
      else fnApply r.func a.1 b.1
    r1.map (fun q =>
      let o := fnOut (opFmt out) (opSat out) scale q
      (o.1, gOr (gOr a.2 b.2) o.2))

/-- A partial's KIND is none of the reserved ones (Table FUNC-10); its res0 fields are ignored (R9). -/
def partOk (code : Nat) : Bool := decide (bits code (8 * 66) 8 ≤ 1)

/-- The exponent at which a part of a row is compared (R181): the one that the parts agreed on, which the staged record
names, where it is no smaller than the part's own greatest exponent; else the part's own. `staged` is the record's code,
none where no copy stands. DEDUCED: log 125. -/
def agreedE (staged : Option Nat) (xs : List GVal) : Int :=
  let own := (rowExp xs).getD (-149)
  match staged with
  | none => (rowExp xs).getD 0
  | some c =>
    let e := gSigned 16 (bits c (8 * 64) 16)
    if own ≤ e ∧ e ≤ 127 then e else (rowExp xs).getD 0

/-- Flags of a partial as an output: its specials (DEDUCED from R166 and R178). -/
def partFlags (p : GPart) : GFlags :=
  { nan := p.nan, inf := p.pos || p.neg, special := p.nan || p.pos || p.neg }

/-- The tile of a receipt recomputed from its operands. A ROWSTAT receipt carries one tile status for its outputs, so the
flags and special elements of the outputs of a row are joined (DESIGN CHOICE: log 126). In a soft maximum the flags of an EXACT input's
conversion count beside those of Table FUNC-6 (DESIGN CHOICE, log 155). The data of a PARTIAL output are
its staged copy, which names the agreed exponent (R181). -/
def recompute (r : Rcpt) (d : TileData) : TileResult :=
  match dataOf r d 0, dataOf r d 3 with
  | some a, some o =>
    let out := o.2.1
    let so (i j : Nat) : Nat := scaleAt r out o.2.2.2 i j
    if r.kind = kDot then
      match dataOf r d 1 with
      | none => none
      | some b => oneOut r.height r.width (fun i j => dotElem r a b (dataOf r d 2) out (so i j) i j)
    else if r.kind = kConvert then oneOut r.height r.width (fun i j => convElem (elemOf r a i j) out (so i j))
    else if r.kind = kFunc then
      oneOut r.height r.width (fun i j =>
        let b := dataOf r d 1
        let mv : GVal × GVal := match b with
          | some b => (gRead .fp32 (elemOf r b i 0).code, gRead .fp32 (elemOf r b i 1).code)
          | none => (.nan, .nan)
        funcElem r (elemOf r a i j) (if r.func = 0x0C then none else b.map (fun b => elemOf r b i j)) mv out (so i j))
    else if r.kind = kSoftmax then
      let rows := (List.range r.height).map (fun i =>
        let xs := (List.range r.width).map (fun j => inFp32 (elemOf r a i j))
        let fl : List GFlags := if opFmt a.2.1 = .exact then xs.map (fun x => plain x.2) else xs.map (fun _ => {})
        let part := (dataOf r d 1).map (fun b => elemAt r b.1 b.2.1 b.2.2.1 i 0)
        let ok := match part with
          | some c => partOk c && decide (bits c (8 * 66) 8 = 1)
          | none => true
        if ok then
          some ((softRow (opFmt out) (opSat out) ((List.range r.width).map (so i)) (xs.map (·.1))
            (part.map (fun c => partRead (leNat 80 c)))).zipWith (fun e f => (e.1, gOr e.2 f)) fl)
        else none)
      (rows.mapM id).map (fun rs => ([rs.flatten.map (·.1)], tileStatus r.width (rs.flatten.map (·.2))))
    else if r.kind = kRowstat then
      let parts : List (List GVal × GFlags) := (List.range r.height).map (fun i =>
        let xs := (List.range r.width).map (fun j => inFp32 (elemOf r a i j))
        let fl := (xs.map (fun x => plain x.2)).foldl gOr {}
        (xs.map (·.1), if opFmt a.2.1 = .exact then fl else {}))
      let outs := ((r.ops.zipIdx.zip d).filter (fun x => x.1.1.role == 3)).zip (statBits r.func)
      let res : List (List (Nat × GFlags)) := outs.map (fun (x, w) => parts.zipIdx.map (fun (p, i) =>
        if w = 3 then
          let staged := if x.2.1 = [] then none else some (elemAt r x.1.2 x.1.1 x.2.1 i 0)
          let q := partOfRow (agreedE staged p.1) p.1
          (leVal (partBytes q), gOr (partFlags q) p.2)
        else
          let e := statOut (opFmt x.1.1) (opSat x.1.1) (scaleAt r x.1.1 x.2.2 i 0) w (partOfRow ((rowExp p.1).getD 0) p.1)
          (e.1, gOr e.2 p.2)))
      let perRow := (List.range r.height).map (fun i => (res.map (fun c => (c.getD i (0, {})).2)).foldl gOr {})
      some (res.map (fun c => c.map (·.1)), tileStatus 1 perRow)
    else if r.kind = kCombine then
      let codes := (List.range r.height).map (fun i => elemAt r a.1 a.2.1 a.2.2.1 i 0)
      if r.func = 0 then
        let t := (codes.map recOf).foldl accAdd {}
        if t.terms ≤ termLimit then some ([[leVal (accBytes t)]], tileStatus 1 [exactFlags t]) else none
      else if codes.all partOk then
        match codes.map (fun c => partRead (leNat 80 c)) with
        | [] => none
        | p :: ps =>
          (ps.foldlM (fun t q => partAdd t q) p).map (fun t => ([[leVal (partBytes t)]], tileStatus 1 [partFlags t]))
      else none
    else none
  | _, _ => none

/-- The elements of an output as the staged copy holds them. -/
def stagedElems (r : Rcpt) (i : Nat) (o : GOp) (data : Bytes) : List Nat :=
  let (rows, cols) := opDims r o
  (List.range rows).flatMap (fun x => (List.range cols).map (fun y => elemAt r i o data x y))

/-- The operands' data with the staged copies in the places of the outputs. -/
def withCopies : List GOp → List Bytes → TileData → TileData
  | o :: os, cs, x :: d =>
    if o.role = 3 then (cs.headD [], x.2) :: withCopies os (cs.drop 1) d else x :: withCopies os cs d
  | [], _, _ => []
  | _ :: _, _, [] => []

/-- The verdict's reason (R197, R199): none for MATCH, else 0 DATA, 1 STATUS, 2 BOTH, 3 MALFORMED. `copies` holds the
staged bytes of each output in order. -/
def verdictOf (r : Rcpt) (copies : List Bytes) (d : TileData) : Option Nat :=
  match recompute r (withCopies r.ops copies d) with
  | none => some 3
  | some (outs, st) =>
    let os := r.ops.zipIdx.filter (fun x => x.1.role == 3)
    let staged := (os.zip copies).map (fun (x, c) => stagedElems r x.2 x.1 c)
    let dataOk := decide (staged = outs)
    let statOk := decide (st = r.status)
    if dataOk && statOk then none else if statOk then some 0 else if dataOk then some 1 else some 2

end Sys2Proof.Machine
end

