-- ==== Sys2Proof/Machine/TypesGrnh.lean ====
section
/-! DEFINITION. Types of the state, third part: the Greenhouse engines (08_greenhouse_verification.md). -/

namespace Sys2Proof.Machine

/-- A check slot in use: its receipt, the ACTION of the policy of its decision tick, its order of selection, what has
been copied and fetched. -/
structure Check where
  rcpt   : Rcpt
  fence  : Bool
  seq    : Nat
  copied : Bool := false
  fetched : Bool := false
  copies : List Bytes := []
  data   : TileData := []
deriving DecidableEq, Repr

/-- The receipt at the head of a queue, as its decision tick finds it (R188): the packet, the tick, whether its context was
RUNNING, and the policy in force. -/
structure HeadRcpt where
  pkt     : Nat
  tick    : Nat
  running : Bool
  policy  : VPolicy
deriving DecidableEq, Repr

/-- One verification engine. -/
structure GrEng where
  mismatch : Sticky := none
  drop     : Sticky := none
  missing  : Sticky := none
  malformed : Sticky := none
  untracked : Sticky := none
  unowned  : Sticky := none
  cntReceipts : Word := 0
  cntSelected : Word := 0
  cntChecked : Word := 0
  cntDropped : Word := 0
  cntMismatch : Word := 0
  cntUnowned : Word := 0
  lastSdc  : Word := 0
  slots    : NMap (Option Check) := []
  nextSeq  : Nat := 0
  keys     : List (Nat × Option Bytes) := []  -- sampling keys, most recent first; none where the fill returned no key
  fills    : List (Nat × Bool) := []          -- fills outstanding by CID, and whether each has been retried
  head     : Option HeadRcpt := none          -- what the last packet to reach the head met (R188)
deriving DecidableEq, Repr

/-- An open operation (R201). -/
structure OpenOp where
  cid   : Nat
  vdie  : Nat
  opseq : Nat
  tiles : Nat
  seen  : Nat
deriving DecidableEq, Repr

/-- The untracked operations of a virtual die: their count and LOW (R201). -/
structure Untracked where
  cid   : Nat
  vdie  : Nat
  count : Nat
  low   : Nat
deriving DecidableEq, Repr

/-- A retire answer that waits for checks to end their fetches (R195). -/
structure Retire where
  die   : Nat
  core  : Nat
  cid   : Nat
  vdie  : Nat
  opseq : Nat
  pin   : Nat
deriving DecidableEq, Repr

/-- Greenhouse. -/
structure Grnh where
  engines : NMap GrEng := []
  opens   : List OpenOp := []       -- at most 8,192
  untracked : List Untracked := []
  retires : List Retire := []
  early   : List (Nat × Nat × Nat) := []   -- (CID, VDIE, OPSEQ) of tile receipts that no OP_BEGIN preceded (R187)
  floor   : BitVec 13 := 0          -- RATE_FLOOR
  loaded  : Bool := false
  verified : Bool := false
deriving DecidableEq, Repr

end Sys2Proof.Machine
end

