-- ==== Sys2Proof/Machine/TypesSys.lean ====
section
/-! DEFINITION. Types of the state, fourth part: digest engines, OTP and life cycle, boot and flash, Belvedere and SPDM,
Bandstand and update, power. -/

namespace Sys2Proof.Machine

/-! ## Digest engines (11_digest_engines.md) -/

/-- A digest request as its descriptor gives it (Table DGST-1). -/
structure DgReq where
  requester : Nat
  desc     : Nat           -- address of the descriptor in the requester's SRAM
  op       : Nat           -- 1 HASH, 2 HMAC_GEN, 3 HMAC_CHECK
  alg      : Nat           -- 0 SHA-256, 1 SHA-384, 2 SHA-512
  prio     : Nat
  compare  : Bool
  extend   : Bool
  external : Bool          -- source read through the fence under CID 0
  resume   : Bool
  slot     : Nat
  mr       : Nat
  source   : Nat
  len      : Nat
  expected : Nat
  export_  : Nat
  result   : Nat
  cid      : Nat           -- CID on whose behalf a keyed request acts (R259)
  record   : Bytes         -- export record read for RESUME
deriving DecidableEq, Repr

/-- A request that runs: its order and tick of start, its chaining value and the bytes taken so far, for HMAC the outer value,
and the submission of higher priority that waits for its engine (R261). -/
structure DgRun where
  req     : DgReq
  order   : Nat
  chain   : Bytes
  done    : Nat
  outer   : Bytes
  preempt : Option DgReq
  since   : Nat
deriving DecidableEq, Repr

/-- One digest engine. -/
structure DgEng where
  preempted : Sticky := none
  cmpFail   : Sticky := none
  errClear  : Sticky := none
  cmpA : Byte := 0
  cmpB : Byte := 0
  run  : Option DgRun := none
deriving DecidableEq, Repr

/-- A cached HMAC state (R264): slot, algorithm, inner and outer chaining values. -/
structure HmacState where
  slot  : Nat
  alg   : Nat
  inner : Bytes
  outer : Bytes
deriving DecidableEq, Repr

/-- The digest unit. -/
structure Dgst where
  engines : NMap DgEng := []
  enabled : Bool := false
  queue   : List DgReq := []       -- waiting requests, head first, at most 16
  cache   : List HmacState := []   -- most recently used first, at most 64
  started : Nat := 0               -- requests started since reset
  cut0    : Bool := false          -- an alarm has cleared DGST0 since the image under way began (R267)
deriving DecidableEq, Repr

/-! ## OTP and life cycle (12_otp_and_lifecycle.md) -/

/-- The shadow of a word: its data, whether it is valid, blank and marginal. -/
structure ShadowWord where
  data     : Word := 0
  valid    : Bool := true
  blank    : Bool := true
  marginal : Bool := false
deriving DecidableEq, Repr

/-- An override entry (R285). -/
structure Override where
  word  : BitVec 11 := 0
  valid : Bool := false
  value : Word := 0
deriving DecidableEq, Repr

/-- What the end of a controller command completes. -/
inductive OtpFor where
  | command
  | advance (target : Nat)        -- LCYC_ADVANCE: a block reset follows (R290)
deriving DecidableEq, Repr

/-- A controller command that runs: the words still to be burned with their bits, the bits of the first still unburned,
the pulses applied to it. -/
structure OtpCmd where
  burns  : List (Nat × BitVec 40)
  pulses : Nat
  for_   : OtpFor
  waiter : Waiter
deriving DecidableEq, Repr

/-- The OTP controller. `array` survives every reset. -/
structure Otp where
  array       : NMap (BitVec 40) := []
  shadow      : NMap ShadowWord := []
  sensed      : Bool := false
  marginal    : Sticky := none
  supplyAbort : Sticky := none
  verifyFail  : Sticky := none
  lockRefused : Sticky := none
  repaired    : Bool := false
  region      : BitVec 8 := 0
  wdata       : Word := 0
  cmdStatus   : BitVec 16 := 0
  cmdPulses   : BitVec 2 := 0
  margCount   : Nat := 0
  margFirst   : Nat := 0
  thermo      : NMap Nat := []       -- values of counters 0 to 3 as sensed
  state       : Nat := 0             -- voted state number, 5 for LCYC_INVALID
  agree       : Nat := 0
  pending     : Nat := 0
  code        : Word := 0
  ovr         : NMap Override := []
  cmd         : Option OtpCmd := none
  repairAt    : Option Nat := none   -- copy that the ROM repairs before the vote (R288)
  repairReads : BitVec 40 × BitVec 40 := (0, 0)   -- its reads at the two margins
deriving DecidableEq, Repr

/-! ## Boot and flash (13_gatehouse_boot.md, 14_update_and_bandstand.md) -/

/-- A valid record of the log (Table BOOT-2). -/
structure LogRec where
  kind    : Nat
  seq     : Nat
  payload : Bytes
deriving DecidableEq, Repr

/-- The record log as its last scan and later appends leave it: active half, next position, next record sequence. -/
structure LogView where
  half : Option Nat := none
  pos  : Nat := 0
  next : Nat := 1
  recs : List LogRec := []       -- valid records of the active half, oldest first
deriving DecidableEq, Repr

/-- The Potting Shed (R333). -/
structure Shed where
  active   : Bool := false
  mac      : Option (BitVec 48) := none
  written  : Nat := 0
  last     : Nat := 0            -- tick of the last frame
  announced : Nat := 0           -- tick of the last ANNOUNCE
  seq      : Nat := 0
deriving DecidableEq, Repr

/-- The boot sequencer. -/
structure Boot where
  phase    : Nat := 0
  tie      : Sticky := none
  fallback : Sticky := none
  svnLow   : Sticky := none
  trialRetired : Sticky := none
  dirDefault : Sticky := none
  minSvnIgnored : Sticky := none
  rootFromRom : Bool := false
  verA     : Byte := 0
  verB     : Byte := 0
  slot     : Option Nat := none
  trial    : Bool := false
  trials   : Nat := 0
  seq      : Nat := 0
  svn      : Nat := 0
  version  : Nat := 0
  floor    : Nat := 0
  minSvn   : Nat := 0
  excluded : BitVec 2 := 0
  attempts : Nat := 0
  lastFail : BitVec 16 := 0
  failSlot : Nat := 255
  readyUs  : Nat := 0
  readyAt  : Nat := 0            -- tick in which READY rose
  before   : Nat := 0            -- ticks from the original release to the last boot restart
  attemptAt : Nat := 0           -- tick at which the attempt began
  romDone  : Bool := false
  restarted : Bool := false
  statusA  : Status := .ok
  statusB  : Status := .ok
  parts    : List Bool := []     -- compare results of parts 1 to 4 as they end
  frozen   : Bool := false
  belvDone : Bool := false
  failed   : Option Status := none   -- why the attempt has failed, until its restart (R307)
  noImage  : Bool := false       -- selection found no slot
  tied     : Bool := false       -- selection found two OK slots of one sequence number (SLOT_TIE of R219)
  deferred : List Nat := []      -- part entries whose deferred check is still to end (R308)
  copies   : NMap Bytes := []    -- deferred parts read into DEVICE frames and found good, by part entry (R308)
  dieParts : List (Nat × List Nat) := []   -- TYPE 5 entries whose check is still to end, each with the dies it holds back (R308)
  settings : Option Bytes := none   -- the settings block that MR7 has measured (R320)
  ownSettings : Option Bytes := none   -- that block in the format of the running firmware (R327)
  images   : NMap Bytes := []    -- resident bytes by TYPE (Table BOOT-6): SRAM of the Gatehouse, of the Pavilion, of every
                                 -- Lodge, microcode store of every Greenhouse engine
  xspi     : Option (Nat × Nat) := none   -- read opcode and dummy cycles in use, from selection on (R294)
  fails    : NMap Status := []   -- statuses of the failed attempts by slot, kept across boot restarts (Table BOOT-7)
  shed     : Shed := {}
deriving DecidableEq, Repr

/-! ## Belvedere and SPDM (09_belvedere_attestation.md) -/

/-- A queued signing request. -/
inductive SignReq where
  | evidence (waiter : Waiter) (body : Bytes) (status : Status)
  | spdm (port : SpdmPort) (code : Nat) (body : Bytes) (hybrid : Bool) (signed : Bool)
deriving DecidableEq, Repr

/-- An SPDM session (R225), with the sequence number of each direction's next message. -/
structure Session where
  port   : SpdmTransport
  id     : BitVec 32
  slot   : Nat                        -- working slot that holds the session's secret (R237)
  up     : Bool
  last   : Nat
  rx     : Nat := 0
  tx     : Nat := 0
deriving DecidableEq, Repr

/-- Belvedere. -/
structure Belv where
  ready      : Bool := false
  identOk    : Bool := false
  publicOnly : Bool := false
  reason     : Nat := 0            -- R211: 0 none, 1 life cycle, 2 IDENT, 3 marginal secret
  zeroized   : Sticky := none
  signBusy   : Sticky := none
  logFull    : Sticky := none
  maxSess    : BitVec 3 := 4
  idleS      : BitVec 8 := 0x3C
  slot1En    : Bool := true
  mr         : NMap Bytes := []
  log        : List Bytes := []
  nonce      : Bytes := []
  queue      : List SignReq := []
  signed     : BitVec 16 := 0
  slot0      : Bool := false       -- certificate slot 0 provisioned
  slot1      : Bool := false
  aliasCert  : Bytes := []
  ecdhPub    : Bytes := []
  kemPub     : Bytes := []
  sessions   : List Session := []
deriving DecidableEq, Repr

/-! ## Bandstand and update -/

/-- An update in progress (R321 to R325). -/
structure Update where
  tag      : Nat
  size     : Option Nat := none    -- declared size of the component image
  image    : Bytes := []           -- bytes received
  last     : Nat := 0              -- tick of the last request
  phase    : Nat := 0              -- 1 HEADER, 2 REBUILD, 3 CHECK, 4 STAGED
deriving DecidableEq, Repr

/-- The update engine. -/
structure Updt where
  reject      : Sticky := none
  trialFailed : Sticky := none
  confirmed   : Sticky := none
  lastStatus  : BitVec 16 := 0
  progress    : Nat := 0
  gens        : NMap (BitVec 16) := []
  current     : Option Update := none
  raise_    : Bool := false      -- RAISE_FLOOR and AUTO_CONFIRM_S of the staged image's delta header
  autoS     : Nat := 0
  hold        : Bool := false      -- R326
  activating  : Bool := false      -- an activation has been committed in this boot
deriving DecidableEq, Repr

/-- The Bandstand port. -/
structure Band where
  linkUp    : Bool := false
  authFail  : Sticky := none
  rxDrop    : Sticky := none
  port      : BitVec 16 := 0xC04E
  maxAssoc  : BitVec 3 := 2
  assocs    : NMap (Option Nat) := []   -- tick of the last record of each association
  handshakes : BitVec 16 := 0
  cntAuth   : Word := 0
  cntDrop   : Word := 0
deriving DecidableEq, Repr

/-! ## Power (17_power_and_telemetry.md) -/

/-- The power loop of a die. -/
structure DiePwr where
  mLo     : BitVec 8 := 0x20
  mHi     : BitVec 8 := 0xC0
  step    : Nat := 0
  volt    : Nat := 0
  tj      : Nat := 0
  margin  : Nat := 0
  budget  : Nat := 0
  power   : Nat := 0
  thermal : Bool := false
  hot     : Nat := 0              -- consecutive loops at 105 °C or more at step 8 (R378)
  clipped : Bool := false
  clipSteps : Nat := 0
  clipW   : Nat := 0
  clipCap : Bool := false         -- the cap share has taken part in the clip
  unclipped : Nat := 0            -- P of the last loop that was not clipped
  loops   : Bool := false         -- the loop has started since the die became RUNNING
  loopAt  : Option Nat := none    -- tick of the last loop (R373)
  held    : Bool := false         -- a transfer failed before the first loop: step 8 stands (R374)
  sum     : Nat := 0              -- power of the loops of the operator's refresh period, added up, and their number (R380)
  count   : Nat := 0
  shown   : Nat := 0              -- power of the die as the operator reads it, in W (Table PWR-2)
  errThermal : Sticky := none
  errAvs  : Sticky := none
  errDroop : Sticky := none
deriving DecidableEq, Repr

/-- The power manager. -/
structure Power where
  dies    : NMap DiePwr := []
  clipped : Sticky := none
  thermal : Sticky := none
  avsErr  : Sticky := none
  vmax    : BitVec 12 := 0x352
  vfloor  : BitVec 12 := 0x226
  start   : BitVec 4 := 4
  cap     : Nat := 7500
  hostW   : Nat := 0
  cntClip : Word := 0
  sum     : Nat := 0              -- package totals of the loops of the host's refresh period, added up
  loops   : Nat := 0              -- and their number
  opSum   : Nat := 0              -- the same for the operator's refresh period
  opLoops : Nat := 0
  opW     : Nat := 0              -- the operator's readings (Table PWR-2): package total in W, cap, clipped dies
  opCap   : Nat := 7500
  opClipped : Nat := 0
deriving DecidableEq, Repr

end Sys2Proof.Machine
end

