-- ==== Sys2Proof/Machine/State.lean ====
section
/-! DEFINITION. The state of the block as plain data, the reasons a step can stop, and the state after reset. -/

namespace Sys2Proof.Machine

/-- The block. -/
structure State where
  pending : List Instr := []        -- the queue of waiting commands, front first
  outs    : List Out := []          -- what the ports have sent, newest last (log 3)
  free    : Nat := 0                -- free values drawn so far (log 4)
  tick    : Nat := 0                -- the tick count (Sundial)
  gates   : BitVec 8 := 0           -- open gates, bits of Table BOOT-8
  sund    : Sund := {}
  pav     : Pav := {}
  host    : HostFn := {}
  mgmt    : List MgmtProg := []     -- management commands whose replies are owed
  ctxs    : NMap Ctx := []
  groups  : NMap Group := []
  frames  : NMap Frame := []
  dies    : NMap Die := []
  splq    : NMap SpillQ := []
  orng    : Orng := {}
  fence   : Fence := {}
  link    : Link := {}
  perg    : Perg := {}
  grnh    : Grnh := {}
  grnhFills : List (Nat × Nat) := []   -- sampling-key fills raised: die and CID
  dgst    : Dgst := {}
  otp     : Otp := {}
  flash   : NMap Byte := []         -- the bytes of the xSPI flash; an unlisted byte is erased, 0xFF
  logv    : LogView := {}
  boot    : Boot := {}
  belv    : Belv := {}
  updt    : Updt := {}
  band    : Band := {}
  power   : Power := {}
deriving DecidableEq, Repr

/-- No command of the block ends in a fault: every fault of the spec is a status, a record or a state change. -/
inductive Fault where
deriving DecidableEq, Repr

/-- Why a step has no meaning. -/
inductive Refusal where
  /-- Raised by an arm of `exec` whose command has no meaning yet; safe, since no next state is claimed. -/
  | notModelled (mnemonic : String)
deriving DecidableEq, Repr

/-- The block right after reset. -/
def State.reset : State := {}

end Sys2Proof.Machine
end

