-- ==== Sys2Proof/Machine/SpillOps.lean ====
section
/-! DEFINITION. The operations of one spill queue (16_spill_queues.md): acceptance at the tail, commitment, overrun and
length failures, movement between head, middle and tail, reading. -/

namespace Sys2Proof.Machine

/-- Middle frames in force: values above 32 act as 32 (Table SPLQ-5). -/
def midFramesOf (q : SpillQ) : Nat := min 32 q.midFrames.toNat

/-- Capacity in entries (R365); at most 64 while no spill request is served (R366). -/
def qCapacity (canSpill : Bool) (q : SpillQ) : Nat := 64 + if canSpill then 32768 * midFramesOf q else 0

/-- Timeout in ticks; 0 acts as 25,000 (Table SPLQ-5). -/
def qTimeout (q : SpillQ) : Nat := if q.timeout = 0 then 25000 else q.timeout.toNat

/-- FULL: as many entries as the capacity (R367). -/
def qFull (canSpill : Bool) (q : SpillQ) : Bool := decide (q.items.length ≥ qCapacity canSpill q)

/-- Entries at a place. -/
def qCountAt (q : SpillQ) (l : QLoc) : Nat := (q.items.filter (fun i => i.loc == l)).length

/-- No entry is in the middle or on its way to or from it. -/
def midEmpty (q : SpillQ) : Bool := q.items.all (fun i => i.loc == .head || i.loc == .tail)

/-- An entry is in the middle, or on its way to or from it. -/
def inMiddle (i : QItem) : Bool := i.loc == .middle || i.loc == .spilling || i.loc == .fetching

/-- Ring positions of the middle (R365). -/
def midSize (q : SpillQ) : Nat := 32768 * max 1 (midFramesOf q)

/-- The first `n` entries at place `a` moved to place `b`. -/
def moveItems (a b : QLoc) : Nat → List QItem → List QItem
  | _, [] => []
  | 0, is => is
  | n + 1, i :: is => if i.loc == a then { i with loc := b } :: moveItems a b n is else i :: moveItems a b (n + 1) is

/-- While the middle is empty and the head has room, entries pass from the tail to the head (R365). -/
def promote (q : SpillQ) : SpillQ :=
  if midEmpty q then { q with items := moveItems .tail .head (32 - qCountAt q .head) q.items } else q

/-- The first `n` tail entries on their way to the middle, each with its ring position, the first at `p`. -/
def placeBurst (size : Nat) : Nat → Nat → List QItem → List QItem
  | _, _, [] => []
  | 0, _, is => is
  | n + 1, p, i :: is =>
    if i.loc == .tail then { i with loc := .spilling, pos := p % size } :: placeBurst size n (p + 1) is
    else i :: placeBurst size (n + 1) p is

/-- The 16 ring positions of the next burst hold no entry. -/
def burstFits (q : SpillQ) : Bool :=
  (List.range 16).all (fun k => q.items.all (fun i => !inMiddle i || decide (i.pos ≠ (q.midWr + k) % midSize q)))

/-- A burst of 16 tail entries starts when the tail holds 16 and they cannot pass to the head (R365). -/
def startSpill (canSpill : Bool) (q : SpillQ) : SpillQ :=
  if canSpill && decide (midFramesOf q ≠ 0) && decide (qCountAt q .tail ≥ 16) && decide (qCountAt q .spilling = 0) && burstFits q
  then { q with items := placeBurst (midSize q) 16 q.midWr q.items, midWr := (q.midWr + 16) % midSize q } else q

/-- The oldest 16 middle entries are read back when the head has 16 free places (R365). -/
def startFetch (q : SpillQ) : SpillQ :=
  if decide (qCountAt q .head ≤ 16) && decide (qCountAt q .middle > 0) && decide (qCountAt q .fetching = 0) && !q.midFail
  then { q with items := moveItems .middle .fetching 16 q.items } else q

/-- The movements a queue makes on its own after any change. -/
def settle (canSpill : Bool) (q : SpillQ) : SpillQ := startFetch (startSpill canSpill (promote q))

/-- What became of an entry at the tail. -/
inductive QResult where
  | accepted
  | committed
  | ignored
  | overrun (pin : Option (Nat × Nat))
  | short (pin : Option (Nat × Nat))
  | long (pin : Option (Nat × Nat))
deriving DecidableEq, Repr

/-- The entries of packet `p` withdrawn and counted. -/
def withdraw (p : Nat) (q : SpillQ) : SpillQ :=
  let gone := (q.items.filter (fun i => i.pkt == p)).length
  { q with items := q.items.filter (fun i => i.pkt != p), drop := satAdd q.drop gone }

/-- The open packet of a port. -/
def openOf (q : SpillQ) (port : Nat) : Option OpenPkt := q.opens.find? (fun o => o.port == port)

/-- `q` without the open packet of a port. -/
def closeOpen (port : Nat) (q : SpillQ) : SpillQ := { q with opens := q.opens.filter (fun o => o.port != port) }

/-- A sticky bit after a setting event of tick `t` (R10). -/
def raise (t : Nat) (_ : Sticky) : Sticky := some t

/-- A sticky bit after a write of one in tick `t`: a setting event of the same tick keeps it set (R10). -/
def wipe (t : Nat) (b : Sticky) : Sticky := if b = some t then b else none

/-- A W1C bit after a register write whose bit is `w`. -/
def w1c (t : Nat) (w : Bool) (b : Sticky) : Sticky := if w then wipe t b else b

/-- The end of a packet whose END entry has been accepted (R361, R368). -/
def endPacket (tick : Nat) (o : OpenPkt) (q : SpillQ) : SpillQ × QResult :=
  let q := closeOpen o.port q
  if o.received < o.declared then ({ withdraw o.pkt q with lenShort := some tick }, .short o.pin)
  else if o.received > o.declared then ({ withdraw o.pkt q with lenLong := some tick }, .long o.pin)
  else ({ q with order := q.order ++ [o.pkt], lastRead := if q.order = [] then tick else q.lastRead }, .committed)

/-- One entry at the tail (R360, R361, R367, R368), which finds the queue FULL where `full` is set. `declared` and `pin` are read
from a packet's first entry. -/
def pushAs (full : Bool) (tick port declared : Nat) (pin : Option (Nat × Nat)) (producer : BitVec 6) (last : Bool)
    (payload : Bytes) (q : SpillQ) : SpillQ × QResult :=
  if q.ignoring.contains port then
    ({ q with drop := satAdd q.drop 1, ignoring := if last then q.ignoring.filter (· != port) else q.ignoring },
      .ignored)
  else if full then
    let o := openOf q port
    let q1 := match o with
      | some o => closeOpen port (withdraw o.pkt q)
      | none => q
    ({ q1 with drop := satAdd q1.drop 1, overrun := some tick,
               ignoring := if last then q1.ignoring else q1.ignoring ++ [port] },
      .overrun (match o with | some o => o.pin | none => pin))
  else
    let o : OpenPkt := match openOf q port with
      | some o => { o with received := o.received + 1, lastTick := tick }
      | none => ⟨port, q.nextPkt, declared, 1, tick, pin⟩
    let q1 := if (openOf q port).isSome then q else { q with nextPkt := q.nextPkt + 1 }
    let q2 := if o.received > o.declared then { q1 with drop := satAdd q1.drop 1 }
      else { q1 with items := q1.items ++ [⟨.tail, producer, last, fit 63 payload, o.pkt, 0⟩] }
    if last then endPacket tick o q2
    else ({ closeOpen port q2 with opens := (closeOpen port q2).opens ++ [o] }, .accepted)

/-- One entry at the tail of a queue that is FULL at its capacity (R367). -/
def pushEntry (canSpill : Bool) (tick port declared : Nat) (pin : Option (Nat × Nat)) (producer : BitVec 6) (last : Bool)
    (payload : Bytes) (q : SpillQ) : SpillQ × QResult :=
  pushAs (qFull canSpill q) tick port declared pin producer last payload q

/-- Entries of the receipt port's crossing that KCLK has not taken by tick `t`: it takes four in a tick (R362, R14). -/
def crossingAt (t : Nat) (q : SpillQ) : Nat := q.crossing - 4 * (t - q.crossAt)

/-- The crossing of 64 entries is full. -/
def crossFull (t : Nat) (q : SpillQ) : Bool := decide (64 ≤ crossingAt t q)

/-- An entry has entered the crossing, where it had room. -/
def crossIn (t : Nat) (q : SpillQ) : SpillQ :=
  { q with crossing := crossingAt t q + (if crossFull t q then 0 else 1), crossAt := t }

/-- The first entry of packet `p`, with the rest of the queue. -/
def takeFirst (p : Nat) : List QItem → Option (QItem × List QItem)
  | [] => none
  | i :: is =>
    if i.pkt = p then some (i, is)
    else match takeFirst p is with
      | some (j, r) => some (j, i :: r)
      | none => none

/-- A packet has an entry whose read-back has failed (R366): it is not handed out. -/
def pktHeld (q : SpillQ) (p : Nat) : Bool := q.midFail && q.items.any (fun i => i.pkt == p && i.loc == .fetching)

/-- The next entry of the earliest-committed packet, removed (R363); none where no packet is committed. A read never waits: it
reaches an entry wherever the entry stands (log 130). -/
def popEntry (tick : Nat) (q : SpillQ) : Option QItem × SpillQ :=
  match q.order with
  | [] => (none, { q with lastRead := tick })
  | p :: ps =>
    if pktHeld q p then (none, { q with lastRead := tick })
    else match takeFirst p q.items with
    | none => (none, { q with order := ps, lastRead := tick })
    | some (i, rest) => (some i, { q with items := rest, order := if i.last then ps else p :: ps, lastRead := tick })

/-- The earliest-committed packet read whole: its entries in order, with the queue left (R363, R364). -/
def popPacket (tick : Nat) (q : SpillQ) : Option (List QItem) × SpillQ :=
  match q.order with
  | [] => (none, { q with lastRead := tick })
  | p :: ps =>
    if pktHeld q p then (none, { q with lastRead := tick })
    else (some (q.items.filter (fun i => i.pkt == p)),
      { q with items := q.items.filter (fun i => i.pkt != p), order := ps, lastRead := tick })

/-- The entries of the packet at the head, left in place. -/
def peekPacket (q : SpillQ) : Option (List QItem) :=
  match q.order with
  | [] => none
  | p :: _ => if pktHeld q p then none else some (q.items.filter (fun i => i.pkt == p))

/-- An entry as its 64 bytes: tag, then payload (Table SPLQ-2). -/
def entryBytes (i : QItem) : Bytes :=
  BitVec.ofNat 8 (1 + 2 * bit i.last + 4 * i.producer.toNat) :: fit 63 i.payload

/-- The burst in flight has been acknowledged: its entries are in the middle (R365). -/
def burstDone (q : SpillQ) : SpillQ := { q with items := moveItems .spilling .middle 16 q.items }

/-- Line of ring position `p` of the middle (R365): frame MID_BASE + p / 32,768, offset (p mod 32,768) × 64. -/
def midLine (q : SpillQ) (p : Nat) : Nat := q.midBase.toNat * 32768 + p % midSize q

/-- Entries at a place, oldest first. -/
def itemsAt (q : SpillQ) (l : QLoc) : List QItem := q.items.filter (fun i => i.loc == l)

/-- The entries read back enter the head (R365). -/
def fetchDone (q : SpillQ) : SpillQ := { q with items := moveItems .fetching .head 16 q.items }

/-- Packets that have an entry in the middle. -/
def midPkts (q : SpillQ) : List Nat := (q.items.filter (fun i => i.loc == .middle || i.loc == .fetching)).map (·.pkt)

/-- Open packets that have one. -/
def midOpens (q : SpillQ) : List OpenPkt := q.opens.filter (fun o => (midPkts q).contains o.pkt)

/-- The loss of the middle at a tamper zeroisation (R366); an open packet that loses an entry is discarded as R367 discards one. -/
def loseMiddle (tick : Nat) (q : SpillQ) : SpillQ :=
  let q := { q with items := moveItems .spilling .tail 16 q.items }
  let pkts := midPkts q
  if pkts.isEmpty then q
  else
    let gone := (q.items.filter (fun i => pkts.contains i.pkt)).length
    { q with
      items := q.items.filter (fun i => !pkts.contains i.pkt)
      order := q.order.filter (fun p => !pkts.contains p)
      ignoring := q.ignoring ++ ((q.opens.filter (fun o => pkts.contains o.pkt)).map (·.port))
      opens := q.opens.filter (fun o => !pkts.contains o.pkt)
      drop := satAdd q.drop gone
      overrun := if (midOpens q).isEmpty then q.overrun else some tick
      midLost := some tick }

/-- An open packet failed at its timeout (R368): its entries are withdrawn and the rest of its run is ignored. -/
def shortOpen (tick : Nat) (o : OpenPkt) (q : SpillQ) : SpillQ :=
  { withdraw o.pkt (closeOpen o.port q) with lenShort := some tick, ignoring := q.ignoring ++ [o.port] }

/-- A queue without entries and without open packets, as CTX_CREATE leaves the context's queue (R358). -/
def emptyQueue (q : SpillQ) : SpillQ := { q with items := [], opens := [], order := [], ignoring := [] }

/-- The same at a destroy, which counts the entries that it discards in CNT_DROP (R358). -/
def discardQueue (q : SpillQ) : SpillQ := { emptyQueue q with drop := satAdd q.drop q.items.length }

end Sys2Proof.Machine
end

