-- ==== Sys2Proof/Machine/LogOps.lean ====
section
/-! DEFINITION. What the record log says of the image slots (13_gatehouse_boot.md R295, R303, Table BOOT-3). -/

namespace Sys2Proof.Machine

/-- The record in force of a kind: the valid one with the highest sequence that satisfies `p`. -/
def inForce (s : State) (kind : Nat) (p : LogRec → Bool) : Option LogRec :=
  (s.logv.recs.filter (fun r => decide (r.kind = kind) && p r)).getLast?

/-- Slot and sequence number a TRIAL_ATTEMPT or CONFIRM record names. -/
def recSlotSeq (r : LogRec) : Nat × Nat := (leAt r.payload 0 1, leAt r.payload 4 8)

/-- The SLOT_STATE record in force for a slot: state, sequence number, manifest digest. -/
def slotRecord (s : State) (n : Nat) : Option (Nat × Nat × Bytes) :=
  (inForce s 1 (fun r => decide (leAt r.payload 0 1 = n))).map (fun r => (leAt r.payload 1 1, leAt r.payload 4 8, slice r.payload 12 48))

/-- TRIAL_ATTEMPT records for a slot and sequence number. -/
def trialCount (s : State) (n seq : Nat) : Nat :=
  (s.logv.recs.filter (fun r => decide (r.kind = 3) && decide (recSlotSeq r = (n, seq)))).length

/-- A CONFIRM record names a slot with its sequence number. -/
def isConfirmed (s : State) (n seq : Nat) : Bool :=
  s.logv.recs.any (fun r => decide (r.kind = 4) && decide (recSlotSeq r = (n, seq)))

/-- A slot is VALID with no CONFIRM (R303). -/
def slotInTrial (s : State) (n : Nat) : Bool :=
  match slotRecord s n with
  | some (st, seq, _) => decide (st = 2) && !isConfirmed s n seq
  | none => false

/-- STATE of a slot as its UPDT_SLOT register shows it, with TRIAL as bit 2 (Table UPDT-11). -/
def slotCode (s : State) (n : Nat) : Nat :=
  (match slotRecord s n with | some (st, _, _) => st | none => 0) + 4 * bit (slotInTrial s n)

end Sys2Proof.Machine
end

