-- ==== Sys2Proof/Machine/Ops.lean ====
section
/-! DEFINITION. The named operations over the state that the meanings share: elements of arrays, free values, records,
spill-queue writes, counters, completions, event completions, management replies. -/

namespace Sys2Proof.Machine

/-! ## Elements -/

/-- Context of a CID. -/
def ctxOf (s : State) (c : Nat) : Ctx := mapGet {} s.ctxs c
/-- `f` applied to a context. -/
def updCtx (c : Nat) (f : Ctx → Ctx) (s : State) : State := { s with ctxs := mapMod {} s.ctxs c f }
/-- The consent in force for a context in this tick (R83): it still holds in the tick of its expiry (Table CTX-11). -/
def consentNow (s : State) (c : Nat) : Option Consent :=
  match (ctxOf s c).consent with
  | some k => if s.tick ≤ k.expiry then some k else none
  | none => none
/-- A group. -/
def groupOf (s : State) (g : Nat) : Group := mapGet {} s.groups g
/-- `f` applied to a group. -/
def updGroup (g : Nat) (f : Group → Group) (s : State) : State := { s with groups := mapMod {} s.groups g f }
/-- A frame. -/
def frameOf (s : State) (n : Nat) : Frame := mapGet {} s.frames n
/-- `f` applied to a frame. -/
def updFrame (n : Nat) (f : Frame → Frame) (s : State) : State := { s with frames := mapMod {} s.frames n f }
/-- A die. -/
def dieOf (s : State) (d : Nat) : Die := mapGet {} s.dies d
/-- `f` applied to a die. -/
def updDie (d : Nat) (f : Die → Die) (s : State) : State := { s with dies := mapMod {} s.dies d f }
/-- A spill queue. -/
def qOf (s : State) (q : Nat) : SpillQ := mapGet {} s.splq q
/-- `f` applied to a spill queue. -/
def updQ (q : Nat) (f : SpillQ → SpillQ) (s : State) : State := { s with splq := mapMod {} s.splq q f }
/-- A command ring. -/
def ringOf (s : State) (r : Nat) : CmdRing := mapGet {} s.host.rings r
/-- `f` applied to a command ring. -/
def updRing (r : Nat) (f : CmdRing → CmdRing) (s : State) : State :=
  { s with host := { s.host with rings := mapMod {} s.host.rings r f } }
/-- A completion ring. -/
def cplOf (s : State) (r : Nat) : CplRing := mapGet {} s.host.cpls r
/-- `f` applied to a completion ring. -/
def updCpl (r : Nat) (f : CplRing → CplRing) (s : State) : State :=
  { s with host := { s.host with cpls := mapMod {} s.host.cpls r f } }

/-- `o` sent on its port. -/
def emit (o : Out) (s : State) : State := { s with outs := s.outs ++ [o] }

/-- A grant of class 8, engine requests: the class's pointer advances (R21). -/
def grantEngine (s : State) : State := { s with sund := { s.sund with ptr8 := (s.sund.ptr8 + 1) % 640 } }
/-- A grant of class 9, timers (R21). -/
def grantTimer (s : State) : State := { s with sund := { s.sund with ptr9 := (s.sund.ptr9 + 1) % 702 } }

/-- The next free value (log 4), with the state that has drawn it. -/
def draw (s : State) : BitVec 512 × State := (Config.freeBits s.free, { s with free := s.free + 1 })

/-- An advance of a generation: 0xFFFF wraps to 0x0001 (R23). -/
def genNext (g : BitVec 16) : BitVec 16 := if g = 0xffff then 1 else g + 1

/-- A drawn seed of a generation; 0x0000 is replaced by 0x0001 (R23). -/
def genSeed (v : Nat) : BitVec 16 := if v % 65536 = 0 then 1 else BitVec.ofNat 16 v

/-- A gate of Table BOOT-8 is open. -/
def gateOpen (s : State) (g : Nat) : Bool := s.gates.getLsbD g

/-! ## Spill queues and records -/

/-- Spilling is served: after the key-distribution gate opens (R366, R113), and not after a zeroisation. -/
def canSpill (s : State) : Bool := gateOpen s 1 && !s.pav.tamper

/-- Bursts that a change of queue `n` has started are sent to the fence's internal port under CID 0 (R365): a write of 16 tail
entries at the next ring positions, a read of the oldest 16. Each names the line of its first entry. -/
def burstOuts (n : Nat) (before after : SpillQ) : List Out :=
  let first : List QItem → Nat := fun is => midLine after ((is.map (·.pos)).headD 0)
  (if qCountAt before .spilling = 0 && qCountAt after .spilling > 0
    then [Out.burst n true (first (itemsAt after .spilling)) ((itemsAt after .spilling).flatMap entryBytes)] else []) ++
  (if qCountAt before .fetching = 0 && qCountAt after .fetching > 0 then [Out.burst n false (first (itemsAt after .fetching)) []] else [])

/-- A queue replaced by a changed one, which then settles. -/
def putQ (n : Nat) (q' : SpillQ) (s : State) : State :=
  let q1 := settle (canSpill s) q'
  { s with splq := mapSet {} s.splq n q1, outs := s.outs ++ burstOuts n (qOf s n) q1 }

/-- The generic fault record payload (Table FAULT-2, R405): status, tick, source kind, unit, detail bytes 13 to 20. -/
def genericRecord (s : State) (st : Status) (kind unit : Nat) (detail : Bytes) : Bytes :=
  leBv 2 (statusCode st) ++ leNat 8 s.tick ++ leNat 1 kind ++ leNat 2 unit ++ fit 8 detail ++ zeros 42

/-- A record written as a one-entry packet at queue `q`, and what became of it; the producer is the kind. -/
def postEntry (q kind : Nat) (payload : Bytes) (s : State) : State × QResult :=
  let (x, r) := pushEntry (canSpill s) s.tick (1000 + kind) 1 none (BitVec.ofNat 6 kind) true payload (qOf s q)
  (putQ q x s, r)

/-- The entry found its queue FULL. -/
def isOverrun : QResult → Bool
  | .overrun _ => true
  | .accepted => false
  | .committed => false
  | .ignored => false
  | .short _ => false
  | .long _ => false

/-- A record posted as a one-entry packet on queue 0 (fault log) or 1 (management events). An overrun of queue 1 is recorded in
the fault log; the fault-log queue records its own in its status register only (R367). -/
def postRecord (q kind : Nat) (payload : Bytes) (s : State) : State :=
  let x := postEntry q kind payload s
  let y := (postEntry 0 10 (genericRecord s .splqOverrun 10 q []) x.1).1
  let lost := decide (q ≠ 0) && isOverrun x.2
  { s with splq := if lost then y.splq else x.1.splq, outs := if lost then y.outs else x.1.outs }

/-- A fault record in the generic layout. -/
def postFault (st : Status) (kind unit : Nat) (detail : Bytes) (s : State) : State :=
  postRecord 0 kind (genericRecord s st kind unit detail) s

/-- A record posted as a management event that reports a fault. -/
def postFaultEvent (st : Status) (kind unit : Nat) (detail : Bytes) (s : State) : State :=
  postRecord 1 kind (genericRecord s st kind unit detail) s

/-- A management event that reports no fault: status OK, event code in byte 62 (R405, Table FAULT-10). -/
def postEvent (code kind unit : Nat) (detail : Bytes) (s : State) : State :=
  postRecord 1 kind (patch (genericRecord s .ok kind unit detail) 62 (leNat 1 code)) s

/-- A management event in another unit's layout, its bytes from 10 on given. -/
def postEventRaw (code kind : Nat) (body : Bytes) (s : State) : State :=
  postRecord 1 kind (leNat 2 0 ++ leNat 8 s.tick ++ fit 52 body ++ leNat 1 code) s

/-- A fault record in another unit's layout, its bytes from 10 on given. -/
def postFaultRaw (st : Status) (kind : Nat) (body : Bytes) (s : State) : State :=
  postRecord 0 kind (leBv 2 (statusCode st) ++ leNat 8 s.tick ++ fit 53 body) s

/-- A fault record in another unit's layout posted as a management event. -/
def postFaultEventRaw (st : Status) (kind : Nat) (body : Bytes) (s : State) : State :=
  postRecord 1 kind (leBv 2 (statusCode st) ++ leNat 8 s.tick ++ fit 53 body) s

/-- What a failed packet posts: one record of source kind 10; the fault-log queue posts none for itself (R367). -/
def queueFault (n : Nat) (st : Status) (s : State) : State :=
  if n = 0 then s else postFault st 10 n [] s

/-- The result of an acceptance reported (R367, R368). -/
def reportQ (n : Nat) (r : QResult) (s : State) : State :=
  match r with
  | .overrun _ => queueFault n .splqOverrun s
  | .short _ => queueFault n .lengthShort s
  | .long _ => queueFault n .lengthLong s
  | .accepted => s
  | .committed => s
  | .ignored => s

/-- Declared length of a packet from its first entry's payload (Table SPLQ-1). -/
def declaredOf (n : Nat) (payload : Bytes) : Nat :=
  if 2 ≤ n ∧ n ≤ 33 then (byteAt payload 5).toNat
  else if 34 ≤ n ∧ n ≤ 65 then (byteAt payload 0).toNat
  else 1

/-- One entry written at queue `n`: the state, and what became of it. -/
def writeQ (n port : Nat) (pin : Option (Nat × Nat)) (producer : BitVec 6) (last : Bool) (payload : Bytes)
    (s : State) : State × QResult :=
  let (q, r) := pushEntry (canSpill s) s.tick port (declaredOf n payload) pin producer last payload (qOf s n)
  (reportQ n r (putQ n q s), r)

/-- One entry that comes over the receipt port's crossing: one that finds the crossing full is treated as finding the queue FULL
(R362). -/
def writeCrossed (n port : Nat) (pin : Option (Nat × Nat)) (producer : BitVec 6) (last : Bool) (payload : Bytes)
    (s : State) : State × QResult :=
  let x := qOf s n
  let full := qFull (canSpill s) x || crossFull s.tick x
  let (q, r) := pushAs full s.tick port (declaredOf n payload) pin producer last payload (crossIn s.tick x)
  (reportQ n r (putQ n q s), r)

/-! ## Counters of R403 -/

/-- Counter `i` raised by `k` for all contexts and for CID `c`. -/
def countUp (i c k : Nat) (s : State) : State :=
  updCtx c (fun x => { x with cnt := mapMod 0 x.cnt i (· + k) })
    { s with host := { s.host with devCnt := mapMod 0 s.host.devCnt i (· + k) } }

/-! ## Completions (R387, R388, R395, R396) -/

/-- Size of a ring from LOG2_SIZE; values outside 4 to 16 act as the nearer limit (Table HOST-10). -/
def ringSize (log2 : BitVec 5) : Nat := 2 ^ clamp 4 16 log2.toNat

/-- A completion ring has an entry neither unread nor reserved. -/
def cplFree (c : CplRing) : Bool := decide (c.used + c.reserved < ringSize c.log2)

/-- STATE code of a context (Table CTX-14). -/
def ctxCode : CtxState → Nat
  | .free => 0
  | .created => 1
  | .keyed => 2
  | .running => 3
  | .draining => 4
  | .drained => 5
  | .fenced => 6
  | .destroying => 7

/-- The interrupt decision after a completion (R388): counted when IRQ_EN is 1 and NO_IRQ is clear. -/
def irqAfter (noIrq : Bool) (r : Nat) (s : State) : State :=
  let c := cplOf s r
  if !c.irqEn || noIrq then s
  else if c.unsig + 1 ≥ max 1 c.coalCount.toNat then
    emit (.msix c.vector.toNat) (updCpl r (fun c => { c with unsig := 0 }) s)
  else updCpl r (fun c => { c with unsig := c.unsig + 1, unsigTick := if c.unsig = 0 then s.tick else c.unsigTick }) s

/-- A completion of 16 bytes written at the tail with the ring's phase (R387). -/
def writeCpl (r : Nat) (noIrq : Bool) (bytes : Bytes) (s : State) : State :=
  let c := cplOf s r
  let out := patch bytes 7 [byteAt bytes 7 ||| (if c.phase then 1 else 0)]
  let next := (c.tail.toNat + 1) % ringSize c.log2
  let s1 := updCpl r (fun c => { c with tail := BitVec.ofNat 16 next, phase := if next = 0 then !c.phase else c.phase,
                                        used := c.used + 1 }) s
  irqAfter noIrq r (emit (.completion r c.tail.toNat out) s1)

/-- The 16 bytes of a completion without its phase (Table HOST-4). -/
def cplBytes (st : Status) (tag gen : BitVec 16) (state : Nat) (event : Bool) (ring : Nat) (detail : Bytes) : Bytes :=
  leBv 2 (statusCode st) ++ leBv 2 tag ++ leBv 2 gen ++ leNat 1 state ++ leNat 1 (2 * bit event + 4 * ring) ++ fit 8 detail

/-- The completion ring of a command ring. -/
def cplRingOf (s : State) (ring : Nat) : Nat := (ringOf s ring).cpl.toNat

/-- Retry time of BUSY and BELV_UPDATE_PENDING (Table HOST-5). -/
def retryDetail : Bytes := leNat 8 16384000

/-- DETAIL of a status: the retry time where Table HOST-5 gives one, else what the command gives. -/
def detailOf (st : Status) (d : Bytes) : Bytes :=
  if st = .busy ∨ st = .belvUpdatePending then retryDetail else d

/-! ## Units (R24, R26) -/

/-- A link engine. -/
def engOf (s : State) (e : Nat) : Engine := mapGet {} s.link.engines e
/-- `f` applied to a link engine. -/
def updEng (e : Nat) (f : Engine → Engine) (s : State) : State :=
  { s with link := { s.link with engines := mapMod {} s.link.engines e f } }
/-- A local job. -/
def jobOf (s : State) (j : Nat) : Job := mapGet {} s.link.jobs j
/-- `f` applied to a local job. -/
def updJob (j : Nat) (f : Job → Job) (s : State) : State :=
  { s with link := { s.link with jobs := mapMod {} s.link.jobs j f } }
/-- A fence channel. -/
def chanOf (s : State) (n : Nat) : Chan := mapGet {} s.fence.chans n
/-- `f` applied to a fence channel. -/
def updChan (n : Nat) (f : Chan → Chan) (s : State) : State :=
  { s with fence := { s.fence with chans := mapMod {} s.fence.chans n f } }
/-- A key slot. -/
def slotOf (s : State) (n : Nat) : Slot := mapGet {} s.orng.slots n
/-- `f` applied to a key slot. -/
def updSlot (n : Nat) (f : Slot → Slot) (s : State) : State :=
  { s with orng := { s.orng with slots := mapMod {} s.orng.slots n f } }
/-- A drop of the key bus. -/
def dropOf (s : State) (n : Nat) : Drop := mapGet {} s.orng.drops n
/-- `f` applied to a drop. -/
def updDrop (n : Nat) (f : Drop → Drop) (s : State) : State :=
  { s with orng := { s.orng with drops := mapMod {} s.orng.drops n f } }

/-- Code of a job state (Table LINK-8). -/
def jobCode : JobState → Nat
  | .free => 0
  | .keying => 1
  | .open_ => 2
  | .suspended => 3
  | .closing => 4

/-- Code of a link state (Table LINK-6). -/
def linkCode : LinkState → Nat
  | .down => 0
  | .keying => 1
  | .ready => 2
  | .rekeying => 3
  | .quarantined => 4
  | .failed => 5

/-- Code of a die state (Table ARCH-14). -/
def dieCode : DieState → Nat
  | .held => 0
  | .running => 1
  | .resetting => 2
  | .failed => 3

/-- State of a group as it stands: an OPEN group whose seal committed in T is SEALED from T + 1 (R75). -/
def groupStateAt (s : State) (g : Nat) : GroupState :=
  let x := groupOf s g
  match x.state, x.sealTick with
  | .open_, some t => if s.tick > t then .sealed_ else .open_
  | st, _ => st

/-- Current generation and STATE of a named unit (Table HOST-4). -/
def unitView (s : State) : UnitRef → BitVec 16 × Nat
  | .none => (0, 0)
  | .ctx c => ((ctxOf s c).gen, ctxCode (ctxOf s c).state)
  | .job j => ((jobOf s j).gen, jobCode (jobOf s j).state)
  | .slot n => (mapGet 0 s.updt.gens n, slotCode s n)
  | .link e => (0, linkCode (engOf s e).state)

/-! ## Completing commands -/

/-- What every BAD_DESCRIPTOR completion does (R390): sticky bit, count, and at most one record per ring and 1 ms. -/
def noteBad (ip : InProg) (s : State) : State :=
  let r := ringOf s ip.ring
  let s1 := updRing ip.ring (fun r => { r with badDesc := raise s.tick r.badDesc, badCount := satAdd r.badCount 1 }) s
  if s.tick < r.badNext then s1
  else postFault .badDescriptor 7 ip.ring (leNat 1 ip.opcode ++ leBv 2 ip.tag)
    (updRing ip.ring (fun r => { r with badNext := s.tick + 250000 }) s1)

/-- The completion of a command that has been taken (R395): its reserved entry is used; a completion that a
re-initialisation has discarded (R398) or whose ring is not enabled (R383) is not posted. -/
def completeHost (ip : InProg) (st : Status) (detail : Bytes) (s : State) : State :=
  let s1 := { s with host := { s.host with inProg := s.host.inProg.filter (fun x => x.id != ip.id) } }
  if ip.dead then s1
  else
    let s2 := updCpl ip.cpl (fun c => { c with reserved := c.reserved - 1 }) (if st = .badDescriptor then noteBad ip s1 else s1)
    if (cplOf s2 ip.cpl).enable then
      let (g, code) := unitView s2 ip.unit
      countUp 5 ip.cid 1
        (writeCpl ip.cpl ip.noIrq (cplBytes st ip.tag g code false ip.ring (detailOf st detail)) s2)
    else s2

/-- The reply of a management command (R317): status, the unit's state and generation, and what the command returns. -/
def replyMgmt (p : MgmtProg) (st : Status) (data : Bytes) (s : State) : State :=
  let (g, code) := unitView s p.unit
  emit (.mgmtReply p.tag p.opcode st code g data) { s with mgmt := s.mgmt.filter (fun x => x.tag != p.tag) }

/-- The end of work that somebody waits for. -/
def finish (w : Waiter) (st : Status) (detail : Bytes) (s : State) : State :=
  match w with
  | .none => s
  | .host id =>
    match s.host.inProg.find? (fun x => x.id == id) with
    | some ip => completeHost ip st detail s
    | none => s
  | .mgmt tag =>
    match s.mgmt.find? (fun x => x.tag == tag) with
    | some p => replyMgmt p st detail s
    | none => s

/-- Every waiter of a list finished alike. -/
def finishAll (ws : List Waiter) (st : Status) (detail : Bytes) (s : State) : State :=
  ws.foldl (fun s w => finish w st detail s) s

/-- An event completion (R396, Table HOST-6) for a unit created through ring `origin`. -/
def postHostEvent (origin : Option (Nat × Nat)) (st : Status) (u : UnitRef) (detail : Bytes) (s : State) : State :=
  let live := match origin with
    | some (r, e) => decide ((ringOf s r).epoch = e)
    | none => false
  let ring := match origin with | some (r, _) => r | none => 0
  let dest := if live then cplRingOf s ring else 0
  let c := cplOf s dest
  let (g, code) := unitView s u
  let bytes := cplBytes st 0xffff g code true ring detail
  if c.enable then
    if cplFree c && c.events.isEmpty then writeCpl dest false bytes s
    else if c.events.length < 16 then updCpl dest (fun c => { c with events := c.events ++ [bytes] }) s
    else updCpl dest (fun c => { c with eventLost := raise s.tick c.eventLost }) s
  else updCpl dest (fun c => { c with eventLost := raise s.tick c.eventLost }) s

/-- Waiting event completions written while the ring has a free entry (`n` bounds the loop). -/
def flushEvents (r : Nat) : Nat → State → State
  | 0, s => s
  | n + 1, s =>
    match (cplOf s r).events with
    | [] => s
    | b :: bs =>
      if cplFree (cplOf s r) then flushEvents r n (writeCpl r false b (updCpl r (fun c => { c with events := bs }) s))
      else s

end Sys2Proof.Machine
end

