-- ==== Sys2Proof/Machine/InForce.lean ====
section
/-! DEFINITION. Values in force of the OTP regions (12_otp_and_lifecycle.md Table OTP-4, Table OTP-5, R285), and the rate floor
they give (R189). -/

namespace Sys2Proof.Machine

/-- A word's shadow. -/
def shadowOf (s : State) (w : Nat) : ShadowWord := mapGet {} s.otp.shadow w

/-- The bytes of consecutive shadow words. -/
def shadowBytes (s : State) (first n : Nat) : Bytes := (List.range n).flatMap (fun i => leBv 4 (shadowOf s (first + i)).data)

/-- Device class ID. -/
def deviceClass (s : State) : Bytes := shadowBytes s 80 1

/-- Class byte LC_CLASS of Table BELV-1: 1 in Returned. -/
def lcClass (s : State) : Nat := if s.otp.state = 3 then 1 else 0

/-- Some override entry is valid for a word between `lo` and `hi`. -/
def overridden (s : State) (lo hi : Nat) : Bool :=
  s.otp.ovr.any (fun e => e.2.valid && decide (lo ≤ e.2.word.toNat) && decide (e.2.word.toNat ≤ hi))

/-- A content word of POLICY or MGMT as its function sees it (R285): the override where there is one, else the sensed value;
blank words count as 0. -/
def wordInForce (s : State) (w : Nat) : Word :=
  match s.otp.ovr.find? (fun e => e.2.valid && decide (e.2.word.toNat = w)) with
  | some e => e.2.value
  | none => if (shadowOf s w).blank then 0 else (shadowOf s w).data

/-- POLICY serves its function. -/
def policyComplete (s : State) : Bool := s.otp.region.getLsbD 2 || overridden s 128 129
/-- MGMT serves its function. -/
def mgmtComplete (s : State) : Bool := s.otp.region.getLsbD 4 || overridden s 144 155

/-- NO_PLAIN_OPERATOR in force (Table OTP-5). -/
def noPlainOperator (s : State) : Bool := !policyComplete s || (wordInForce s 128).getLsbD 0
/-- NO_TRUSTED_LINKS in force. -/
def noTrustedLinks (s : State) : Bool := !policyComplete s || (wordInForce s 128).getLsbD 1
/-- MIN_RATE_FLOOR in force. -/
def minRateFloor (s : State) : Nat := if policyComplete s then min 4096 (bits (wordInForce s 128).toNat 16 13) else 4096
/-- POTTING_SHED_OFF in force: without POLICY it acts as 0 in Maker and Integrator (Table OTP-4). -/
def shedOff (s : State) : Bool := if policyComplete s then (wordInForce s 129).getLsbD 0 else decide (s.otp.state > 1)
/-- SLOT1_OFF in force. -/
def slot1Off (s : State) : Bool := !policyComplete s || (wordInForce s 129).getLsbD 1

/-- RATE_FLOOR in force: at least MIN_RATE_FLOOR of POLICY (Table OTP-5). -/
def rateFloor (s : State) : Nat := min 4096 (max (min 4096 s.grnh.floor.toNat) (minRateFloor s))

/-- TRUSTED of LNKF_CLASS_MODE in force: from FREEZE on, as MR8 has recorded it (R143). -/
def trustedInForce (s : State) : BitVec 4 :=
  match s.link.frozen with
  | some f => f.1
  | none => if noTrustedLinks s then 0 else s.link.trusted

/-- PLAIN_OPERATOR in force: from FREEZE on, as MR8 has recorded it (R143). -/
def plainInForce (s : State) : Bool :=
  match s.link.frozen with
  | some f => f.2
  | none => s.link.plainOp && !noPlainOperator s

end Sys2Proof.Machine
end

