-- ==== Sys2Proof/Machine/Sha.lean ====
section
/-! DEFINITION. The SHA-2 hashes, HMAC and the SP 800-108 derivation that R58, R243 and Table DGST-1 name. PRESUMED: the
spec names FIPS 180-4, FIPS 198-1 and SP 800-108 and gives no algorithm; the text here is those standards' (log 10). -/

namespace Sys2Proof.Machine

/-- Round constants of SHA-256 (PRESUMED, FIPS 180-4). -/
def sha256K : List (BitVec 32) :=
  [0x428a2f98, 0x71374491, 0xb5c0fbcf, 0xe9b5dba5, 0x3956c25b, 0x59f111f1, 0x923f82a4, 0xab1c5ed5] ++
  [0xd807aa98, 0x12835b01, 0x243185be, 0x550c7dc3, 0x72be5d74, 0x80deb1fe, 0x9bdc06a7, 0xc19bf174] ++
  [0xe49b69c1, 0xefbe4786, 0x0fc19dc6, 0x240ca1cc, 0x2de92c6f, 0x4a7484aa, 0x5cb0a9dc, 0x76f988da] ++
  [0x983e5152, 0xa831c66d, 0xb00327c8, 0xbf597fc7, 0xc6e00bf3, 0xd5a79147, 0x06ca6351, 0x14292967] ++
  [0x27b70a85, 0x2e1b2138, 0x4d2c6dfc, 0x53380d13, 0x650a7354, 0x766a0abb, 0x81c2c92e, 0x92722c85] ++
  [0xa2bfe8a1, 0xa81a664b, 0xc24b8b70, 0xc76c51a3, 0xd192e819, 0xd6990624, 0xf40e3585, 0x106aa070] ++
  [0x19a4c116, 0x1e376c08, 0x2748774c, 0x34b0bcb5, 0x391c0cb3, 0x4ed8aa4a, 0x5b9cca4f, 0x682e6ff3] ++
  [0x748f82ee, 0x78a5636f, 0x84c87814, 0x8cc70208, 0x90befffa, 0xa4506ceb, 0xbef9a3f7, 0xc67178f2]

/-- Round constants of SHA-384 and SHA-512 (PRESUMED, FIPS 180-4). -/
def sha512K : List (BitVec 64) :=
  [0x428a2f98d728ae22, 0x7137449123ef65cd, 0xb5c0fbcfec4d3b2f, 0xe9b5dba58189dbbc, 0x3956c25bf348b538, 0x59f111f1b605d019, 0x923f82a4af194f9b, 0xab1c5ed5da6d8118] ++
  [0xd807aa98a3030242, 0x12835b0145706fbe, 0x243185be4ee4b28c, 0x550c7dc3d5ffb4e2, 0x72be5d74f27b896f, 0x80deb1fe3b1696b1, 0x9bdc06a725c71235, 0xc19bf174cf692694] ++
  [0xe49b69c19ef14ad2, 0xefbe4786384f25e3, 0x0fc19dc68b8cd5b5, 0x240ca1cc77ac9c65, 0x2de92c6f592b0275, 0x4a7484aa6ea6e483, 0x5cb0a9dcbd41fbd4, 0x76f988da831153b5] ++
  [0x983e5152ee66dfab, 0xa831c66d2db43210, 0xb00327c898fb213f, 0xbf597fc7beef0ee4, 0xc6e00bf33da88fc2, 0xd5a79147930aa725, 0x06ca6351e003826f, 0x142929670a0e6e70] ++
  [0x27b70a8546d22ffc, 0x2e1b21385c26c926, 0x4d2c6dfc5ac42aed, 0x53380d139d95b3df, 0x650a73548baf63de, 0x766a0abb3c77b2a8, 0x81c2c92e47edaee6, 0x92722c851482353b] ++
  [0xa2bfe8a14cf10364, 0xa81a664bbc423001, 0xc24b8b70d0f89791, 0xc76c51a30654be30, 0xd192e819d6ef5218, 0xd69906245565a910, 0xf40e35855771202a, 0x106aa07032bbd1b8] ++
  [0x19a4c116b8d2d0c8, 0x1e376c085141ab53, 0x2748774cdf8eeb99, 0x34b0bcb5e19b48a8, 0x391c0cb3c5c95a63, 0x4ed8aa4ae3418acb, 0x5b9cca4f7763e373, 0x682e6ff3d6b2b8a3] ++
  [0x748f82ee5defb2fc, 0x78a5636f43172f60, 0x84c87814a1f0ab72, 0x8cc702081a6439ec, 0x90befffa23631e28, 0xa4506cebde82bde9, 0xbef9a3f7b2c67915, 0xc67178f2e372532b] ++
  [0xca273eceea26619c, 0xd186b8c721c0c207, 0xeada7dd6cde0eb1e, 0xf57d4f7fee6ed178, 0x06f067aa72176fba, 0x0a637dc5a2c898a6, 0x113f9804bef90dae, 0x1b710b35131c471b] ++
  [0x28db77f523047d84, 0x32caab7b40c72493, 0x3c9ebe0a15c9bebc, 0x431d67c49c100d4c, 0x4cc5d4becb3e42b6, 0x597f299cfc657e2a, 0x5fcb6fab3ad6faec, 0x6c44198c4a475817]

/-- Starting words of SHA-256. -/
def sha256Init : List (BitVec 32) :=
  [0x6a09e667, 0xbb67ae85, 0x3c6ef372, 0xa54ff53a, 0x510e527f, 0x9b05688c, 0x1f83d9ab, 0x5be0cd19]

/-- Starting words of SHA-384. -/
def sha384Init : List (BitVec 64) :=
  [0xcbbb9d5dc1059ed8, 0x629a292a367cd507, 0x9159015a3070dd17, 0x152fecd8f70e5939, 0x67332667ffc00b31, 0x8eb44a8768581511, 0xdb0c2e0d64f98fa7, 0x47b5481dbefa4fa4]

/-- Starting words of SHA-512. -/
def sha512Init : List (BitVec 64) :=
  [0x6a09e667f3bcc908, 0xbb67ae8584caa73b, 0x3c6ef372fe94f82b, 0xa54ff53a5f1d36f1, 0x510e527fade682d1, 0x9b05688c2b3e6c1f, 0x1f83d9abfb41bd6b, 0x5be0cd19137e2179]

/-- The rotation and shift amounts of one SHA-2 variant: the big sigmas of the rounds, the small ones of the schedule. -/
structure ShaAmounts where
  bigA : Nat × Nat × Nat
  bigE : Nat × Nat × Nat
  smallA : Nat × Nat × Nat
  smallE : Nat × Nat × Nat
deriving DecidableEq, Repr

/-- Amounts of SHA-256. -/
def sha256Amounts : ShaAmounts := ⟨(2, 13, 22), (6, 11, 25), (7, 18, 3), (17, 19, 10)⟩

/-- Amounts of SHA-384 and SHA-512. -/
def sha512Amounts : ShaAmounts := ⟨(28, 34, 39), (14, 18, 41), (1, 8, 7), (19, 61, 6)⟩

/-- Three rotations combined. -/
def shaBig {w : Nat} (r : Nat × Nat × Nat) (x : BitVec w) : BitVec w :=
  x.rotateRight r.1 ^^^ x.rotateRight r.2.1 ^^^ x.rotateRight r.2.2

/-- Two rotations and a shift combined. -/
def shaSmall {w : Nat} (r : Nat × Nat × Nat) (x : BitVec w) : BitVec w :=
  x.rotateRight r.1 ^^^ x.rotateRight r.2.1 ^^^ x >>> r.2.2

/-- The message schedule: `n` words more, the window of the last 16 words held newest first. -/
def shaSchedule {w : Nat} (am : ShaAmounts) : Nat → List (BitVec w) → List (BitVec w) → List (BitVec w)
  | 0, _, acc => acc.reverse
  | n + 1, win, acc =>
    let x := shaSmall am.smallE (win.getD 1 0) + win.getD 6 0 + shaSmall am.smallA (win.getD 14 0) + win.getD 15 0
    shaSchedule am n ((x :: win).take 16) (x :: acc)

/-- One round on the eight working words. -/
def shaRound {w : Nat} (am : ShaAmounts) (h : List (BitVec w)) (kw : BitVec w) : List (BitVec w) :=
  match h with
  | [a, b, c, d, e, f, g, i] =>
    let t1 := i + shaBig am.bigE e + ((e &&& f) ^^^ (~~~e &&& g)) + kw
    let t2 := shaBig am.bigA a + ((a &&& b) ^^^ (a &&& c) ^^^ (b &&& c))
    [t1 + t2, a, b, c, d + t1, e, f, g]
  | _ => h

/-- One block of 16 words on a chaining state. -/
def shaBlock {w : Nat} (am : ShaAmounts) (k : List (BitVec w)) (h : List (BitVec w)) (blk : List (BitVec w)) :
    List (BitVec w) :=
  let ws := blk ++ shaSchedule am (k.length - 16) blk.reverse []
  List.zipWith (· + ·) h ((List.zipWith (· + ·) k ws).foldl (shaRound am) h)

/-- Big-endian words of `n` bytes. -/
def beWords (w n : Nat) (bs : Bytes) : List (BitVec w) := (chunks n bs).map (fun c => BitVec.ofNat w (beVal c))

/-- A message with its padding: one bit, zeros and the length in `lenB` bytes, in blocks of `blkB` bytes. -/
def shaPad (blkB lenB total : Nat) (msg : Bytes) : Bytes :=
  let rest := (total + 1 + lenB) % blkB
  msg ++ [0x80] ++ zeros ((blkB - rest) % blkB) ++ beNat lenB (8 * total)

/-- Whole blocks absorbed into a chaining state. -/
def shaAbsorb {w : Nat} (am : ShaAmounts) (k : List (BitVec w)) (blkB : Nat) (h : List (BitVec w)) (bs : Bytes) :
    List (BitVec w) :=
  (chunks blkB bs).foldl (fun h c => shaBlock am k h (beWords w (w / 8) c)) h

/-- The words of a state as bytes. -/
def shaOut {w : Nat} (h : List (BitVec w)) : Bytes := h.flatMap (fun x => beNat (w / 8) x.toNat)

/-- SHA-256 of a message. -/
def sha256 (m : Bytes) : Bytes :=
  shaOut (shaAbsorb sha256Amounts sha256K 64 sha256Init (shaPad 64 8 m.length m))

/-- SHA-512 of a message. -/
def sha512 (m : Bytes) : Bytes :=
  shaOut (shaAbsorb sha512Amounts sha512K 128 sha512Init (shaPad 128 16 m.length m))

/-- SHA-384 of a message. -/
def sha384 (m : Bytes) : Bytes :=
  (shaOut (shaAbsorb sha512Amounts sha512K 128 sha384Init (shaPad 128 16 m.length m))).take 48

/-- HMAC over a hash with blocks of `blkB` bytes (FIPS 198-1). -/
def hmac (hash : Bytes → Bytes) (blkB : Nat) (key msg : Bytes) : Bytes :=
  let k := fit blkB (if key.length > blkB then hash key else key)
  hash (k.map (· ^^^ 0x5c) ++ hash (k.map (· ^^^ 0x36) ++ msg))

/-- HMAC-SHA-384. -/
def hmac384 (key msg : Bytes) : Bytes := hmac sha384 128 key msg

/-- HMAC-SHA-256. -/
def hmac256 (key msg : Bytes) : Bytes := hmac sha256 64 key msg

/-- HMAC-SHA-512. -/
def hmac512 (key msg : Bytes) : Bytes := hmac sha512 128 key msg

/-- The derivation of R243: blocks HMAC-SHA-384(KI, [i] then Label then 0x00 then Context then [L]), cut to `bitLen` bits. -/
def kdf (ki label context : Bytes) (bitLen : Nat) : Bytes :=
  ((List.range ((bitLen + 383) / 384)).flatMap (fun i =>
    hmac384 ki (beNat 4 (i + 1) ++ label ++ [0] ++ context ++ beNat 4 bitLen))).take (bitLen / 8)

/-- The key check value of R239: 8 bytes of HMAC-SHA-384 under the material, over "OCN-KCV" and its length. -/
def keyCheckValueOf (m : Bytes) : Bytes := (hmac384 m (ascii "OCN-KCV" ++ leNat 2 m.length)).take 8

end Sys2Proof.Machine
end

