-- ==== Sys2Proof/Machine/Aes.lean ====
section
/-! DEFINITION. AES-256, XTS data units, GCM and GMAC, and the CRCs. PRESUMED: the spec names FIPS 197, IEEE 1619 and
SP 800-38D and gives no algorithm; the text here is those standards' (log 10). -/

namespace Sys2Proof.Machine

/-- The AES substitution (PRESUMED, FIPS 197). -/
def aesSbox : Bytes :=
  [0x63, 0x7c, 0x77, 0x7b, 0xf2, 0x6b, 0x6f, 0xc5, 0x30, 0x01, 0x67, 0x2b, 0xfe, 0xd7, 0xab, 0x76] ++
  [0xca, 0x82, 0xc9, 0x7d, 0xfa, 0x59, 0x47, 0xf0, 0xad, 0xd4, 0xa2, 0xaf, 0x9c, 0xa4, 0x72, 0xc0] ++
  [0xb7, 0xfd, 0x93, 0x26, 0x36, 0x3f, 0xf7, 0xcc, 0x34, 0xa5, 0xe5, 0xf1, 0x71, 0xd8, 0x31, 0x15] ++
  [0x04, 0xc7, 0x23, 0xc3, 0x18, 0x96, 0x05, 0x9a, 0x07, 0x12, 0x80, 0xe2, 0xeb, 0x27, 0xb2, 0x75] ++
  [0x09, 0x83, 0x2c, 0x1a, 0x1b, 0x6e, 0x5a, 0xa0, 0x52, 0x3b, 0xd6, 0xb3, 0x29, 0xe3, 0x2f, 0x84] ++
  [0x53, 0xd1, 0x00, 0xed, 0x20, 0xfc, 0xb1, 0x5b, 0x6a, 0xcb, 0xbe, 0x39, 0x4a, 0x4c, 0x58, 0xcf] ++
  [0xd0, 0xef, 0xaa, 0xfb, 0x43, 0x4d, 0x33, 0x85, 0x45, 0xf9, 0x02, 0x7f, 0x50, 0x3c, 0x9f, 0xa8] ++
  [0x51, 0xa3, 0x40, 0x8f, 0x92, 0x9d, 0x38, 0xf5, 0xbc, 0xb6, 0xda, 0x21, 0x10, 0xff, 0xf3, 0xd2] ++
  [0xcd, 0x0c, 0x13, 0xec, 0x5f, 0x97, 0x44, 0x17, 0xc4, 0xa7, 0x7e, 0x3d, 0x64, 0x5d, 0x19, 0x73] ++
  [0x60, 0x81, 0x4f, 0xdc, 0x22, 0x2a, 0x90, 0x88, 0x46, 0xee, 0xb8, 0x14, 0xde, 0x5e, 0x0b, 0xdb] ++
  [0xe0, 0x32, 0x3a, 0x0a, 0x49, 0x06, 0x24, 0x5c, 0xc2, 0xd3, 0xac, 0x62, 0x91, 0x95, 0xe4, 0x79] ++
  [0xe7, 0xc8, 0x37, 0x6d, 0x8d, 0xd5, 0x4e, 0xa9, 0x6c, 0x56, 0xf4, 0xea, 0x65, 0x7a, 0xae, 0x08] ++
  [0xba, 0x78, 0x25, 0x2e, 0x1c, 0xa6, 0xb4, 0xc6, 0xe8, 0xdd, 0x74, 0x1f, 0x4b, 0xbd, 0x8b, 0x8a] ++
  [0x70, 0x3e, 0xb5, 0x66, 0x48, 0x03, 0xf6, 0x0e, 0x61, 0x35, 0x57, 0xb9, 0x86, 0xc1, 0x1d, 0x9e] ++
  [0xe1, 0xf8, 0x98, 0x11, 0x69, 0xd9, 0x8e, 0x94, 0x9b, 0x1e, 0x87, 0xe9, 0xce, 0x55, 0x28, 0xdf] ++
  [0x8c, 0xa1, 0x89, 0x0d, 0xbf, 0xe6, 0x42, 0x68, 0x41, 0x99, 0x2d, 0x0f, 0xb0, 0x54, 0xbb, 0x16]

/-- Its inverse. -/
def aesInvSbox : Bytes :=
  [0x52, 0x09, 0x6a, 0xd5, 0x30, 0x36, 0xa5, 0x38, 0xbf, 0x40, 0xa3, 0x9e, 0x81, 0xf3, 0xd7, 0xfb] ++
  [0x7c, 0xe3, 0x39, 0x82, 0x9b, 0x2f, 0xff, 0x87, 0x34, 0x8e, 0x43, 0x44, 0xc4, 0xde, 0xe9, 0xcb] ++
  [0x54, 0x7b, 0x94, 0x32, 0xa6, 0xc2, 0x23, 0x3d, 0xee, 0x4c, 0x95, 0x0b, 0x42, 0xfa, 0xc3, 0x4e] ++
  [0x08, 0x2e, 0xa1, 0x66, 0x28, 0xd9, 0x24, 0xb2, 0x76, 0x5b, 0xa2, 0x49, 0x6d, 0x8b, 0xd1, 0x25] ++
  [0x72, 0xf8, 0xf6, 0x64, 0x86, 0x68, 0x98, 0x16, 0xd4, 0xa4, 0x5c, 0xcc, 0x5d, 0x65, 0xb6, 0x92] ++
  [0x6c, 0x70, 0x48, 0x50, 0xfd, 0xed, 0xb9, 0xda, 0x5e, 0x15, 0x46, 0x57, 0xa7, 0x8d, 0x9d, 0x84] ++
  [0x90, 0xd8, 0xab, 0x00, 0x8c, 0xbc, 0xd3, 0x0a, 0xf7, 0xe4, 0x58, 0x05, 0xb8, 0xb3, 0x45, 0x06] ++
  [0xd0, 0x2c, 0x1e, 0x8f, 0xca, 0x3f, 0x0f, 0x02, 0xc1, 0xaf, 0xbd, 0x03, 0x01, 0x13, 0x8a, 0x6b] ++
  [0x3a, 0x91, 0x11, 0x41, 0x4f, 0x67, 0xdc, 0xea, 0x97, 0xf2, 0xcf, 0xce, 0xf0, 0xb4, 0xe6, 0x73] ++
  [0x96, 0xac, 0x74, 0x22, 0xe7, 0xad, 0x35, 0x85, 0xe2, 0xf9, 0x37, 0xe8, 0x1c, 0x75, 0xdf, 0x6e] ++
  [0x47, 0xf1, 0x1a, 0x71, 0x1d, 0x29, 0xc5, 0x89, 0x6f, 0xb7, 0x62, 0x0e, 0xaa, 0x18, 0xbe, 0x1b] ++
  [0xfc, 0x56, 0x3e, 0x4b, 0xc6, 0xd2, 0x79, 0x20, 0x9a, 0xdb, 0xc0, 0xfe, 0x78, 0xcd, 0x5a, 0xf4] ++
  [0x1f, 0xdd, 0xa8, 0x33, 0x88, 0x07, 0xc7, 0x31, 0xb1, 0x12, 0x10, 0x59, 0x27, 0x80, 0xec, 0x5f] ++
  [0x60, 0x51, 0x7f, 0xa9, 0x19, 0xb5, 0x4a, 0x0d, 0x2d, 0xe5, 0x7a, 0x9f, 0x93, 0xc9, 0x9c, 0xef] ++
  [0xa0, 0xe0, 0x3b, 0x4d, 0xae, 0x2a, 0xf5, 0xb0, 0xc8, 0xeb, 0xbb, 0x3c, 0x83, 0x53, 0x99, 0x61] ++
  [0x17, 0x2b, 0x04, 0x7e, 0xba, 0x77, 0xd6, 0x26, 0xe1, 0x69, 0x14, 0x63, 0x55, 0x21, 0x0c, 0x7d]

/-- Substitution of one byte. -/
def subByte (b : Byte) : Byte := aesSbox.getD b.toNat 0

/-- Inverse substitution of one byte. -/
def invSubByte (b : Byte) : Byte := aesInvSbox.getD b.toNat 0

/-- Multiplication by x in the AES field. -/
def xtime (b : Byte) : Byte := (b <<< 1) ^^^ (if b.msb then 0x1b else 0)

/-- Multiplication by a small constant in the AES field. -/
def aesMul (c : Nat) (b : Byte) : Byte :=
  (if testBit c 0 then b else 0) ^^^ (if testBit c 1 then xtime b else 0) ^^^
  (if testBit c 2 then xtime (xtime b) else 0) ^^^ (if testBit c 3 then xtime (xtime (xtime b)) else 0)

/-- The words of the key schedule of AES-256, newest first, `n` more words after the first eight. -/
def aesExpand : Nat → Nat → Byte → List Bytes → List Bytes
  | 0, _, _, ws => ws
  | n + 1, i, rc, ws =>
    let prev := ws.headD []
    let t := if i % 8 = 0 then
        match prev with
        | [a, b, c, d] => [subByte b ^^^ rc, subByte c, subByte d, subByte a]
        | _ => prev
      else if i % 8 = 4 then prev.map subByte else prev
    aesExpand n (i + 1) (if i % 8 = 0 then xtime rc else rc) (xorBytes (ws.getD 7 []) t :: ws)

/-- The fifteen round keys of a 32-byte key. -/
def aesKeys (key : Bytes) : List Bytes :=
  chunks 16 ((aesExpand 52 8 1 (chunks 4 (fit 32 key)).reverse).reverse.flatten)

/-- The bytes of a state at the listed places. -/
def pick (idx : List Nat) (st : Bytes) : Bytes := idx.map (fun i => st.getD i 0)

/-- Row shift of the state held column by column. -/
def shiftRows : Bytes → Bytes := pick [0, 5, 10, 15, 4, 9, 14, 3, 8, 13, 2, 7, 12, 1, 6, 11]

/-- Inverse row shift. -/
def invShiftRows : Bytes → Bytes := pick [0, 13, 10, 7, 4, 1, 14, 11, 8, 5, 2, 15, 12, 9, 6, 3]

/-- One column times the circulant matrix with first row `m`. -/
def mixColumn (m : Nat × Nat × Nat × Nat) (c : Bytes) : Bytes :=
  match c with
  | [a, b, d, e] =>
    [aesMul m.1 a ^^^ aesMul m.2.1 b ^^^ aesMul m.2.2.1 d ^^^ aesMul m.2.2.2 e,
     aesMul m.2.2.2 a ^^^ aesMul m.1 b ^^^ aesMul m.2.1 d ^^^ aesMul m.2.2.1 e,
     aesMul m.2.2.1 a ^^^ aesMul m.2.2.2 b ^^^ aesMul m.1 d ^^^ aesMul m.2.1 e,
     aesMul m.2.1 a ^^^ aesMul m.2.2.1 b ^^^ aesMul m.2.2.2 d ^^^ aesMul m.1 e]
  | _ => c

/-- Column mixing of the whole state. -/
def mixColumns (m : Nat × Nat × Nat × Nat) (st : Bytes) : Bytes := (chunks 4 st).flatMap (mixColumn m)

/-- AES encryption of one block under expanded keys. -/
def aesEncWith (ks : List Bytes) (blk : Bytes) : Bytes :=
  let st := (ks.drop 1).take 13 |>.foldl
    (fun st k => xorBytes (mixColumns (2, 3, 1, 1) (shiftRows (st.map subByte))) k) (xorBytes blk (ks.headD []))
  xorBytes (shiftRows (st.map subByte)) (ks.getD 14 [])

/-- AES decryption of one block under expanded keys. -/
def aesDecWith (ks : List Bytes) (blk : Bytes) : Bytes :=
  let st := (ks.drop 1).take 13 |>.reverse.foldl
    (fun st k => mixColumns (14, 11, 13, 9) (xorBytes ((invShiftRows st).map invSubByte) k))
    (xorBytes blk (ks.getD 14 []))
  xorBytes ((invShiftRows st).map invSubByte) (ks.headD [])

/-- AES-256 encryption of one 16-byte block. -/
def aesEnc (key blk : Bytes) : Bytes := aesEncWith (aesKeys key) (fit 16 blk)

/-- AES-256 decryption of one 16-byte block. -/
def aesDec (key blk : Bytes) : Bytes := aesDecWith (aesKeys key) (fit 16 blk)

/-- Multiplication of an XTS tweak by the primitive element (IEEE 1619: little-endian, polynomial 0x87). -/
def xtsAlpha (t : Bytes) : Bytes :=
  let x := leVal t
  leNat 16 ((2 * x % 2 ^ 128) ^^^ (if testBit x 127 then 0x87 else 0))

/-- The blocks of an XTS data unit, each under its tweak. -/
def xtsBlocks (f : Bytes → Bytes) : Bytes → List Bytes → List Bytes
  | _, [] => []
  | t, b :: bs => xorBytes (f (xorBytes b t)) t :: xtsBlocks f (xtsAlpha t) bs

/-- XTS-AES-256 encryption of whole blocks (R90): data key `k1`, tweak key `k2`, tweak value `w`. -/
def xtsEnc (k1 k2 w data : Bytes) : Bytes :=
  let ks := aesKeys k1
  (xtsBlocks (aesEncWith ks) (aesEnc k2 w) (chunks 16 data)).flatten

/-- XTS-AES-256 decryption of whole blocks. -/
def xtsDec (k1 k2 w data : Bytes) : Bytes :=
  let ks := aesKeys k1
  (xtsBlocks (aesDecWith ks) (aesEnc k2 w) (chunks 16 data)).flatten

/-- Multiplication in the GCM field: `n` bits of `x` from the top, `v` the running multiple (SP 800-38D). -/
def gcmMulLoop : Nat → Nat → Nat → Nat → Nat
  | 0, _, _, z => z
  | n + 1, x, v, z =>
    gcmMulLoop n x (if v % 2 = 1 then (v / 2) ^^^ (0xe1 * 2 ^ 120) else v / 2) (if testBit x n then z ^^^ v else z)

/-- Product of two 128-bit field elements of GCM. -/
def gcmMul (x y : Nat) : Nat := gcmMulLoop 128 x y 0

/-- The GHASH of padded data under the hash key. -/
def ghash (h : Nat) (data : Bytes) : Nat :=
  (chunks 16 data).foldl (fun y b => gcmMul (y ^^^ beVal b) h) 0

/-- Zeros up to a whole number of 16-byte blocks. -/
def pad16 (bs : Bytes) : Bytes := bs ++ zeros ((16 - bs.length % 16) % 16)

/-- The counter-mode stream applied to a list of blocks, counter `c` for the first. -/
def ctrBlocks (ks : List Bytes) (iv : Bytes) : Nat → List Bytes → List Bytes
  | _, [] => []
  | c, b :: bs => xorBytes b (aesEncWith ks (iv ++ beNat 4 c)) :: ctrBlocks ks iv (c + 1) bs

/-- The GCM tag of a ciphertext and additional data. -/
def gcmTag (ks : List Bytes) (iv aad ct : Bytes) : Bytes :=
  let h := beVal (aesEncWith ks (zeros 16))
  let s := ghash h (pad16 aad ++ pad16 ct ++ beNat 8 (8 * aad.length) ++ beNat 8 (8 * ct.length))
  xorBytes (beNat 16 s) (aesEncWith ks (iv ++ beNat 4 1))

/-- AES-256-GCM sealing with a 12-byte IV: ciphertext and 16-byte tag. -/
def gcmSeal (key iv aad pt : Bytes) : Bytes × Bytes :=
  let ks := aesKeys key
  let ct := (ctrBlocks ks iv 2 (chunks 16 pt)).flatten
  (ct, gcmTag ks iv aad ct)

/-- AES-256-GCM opening: the plaintext, or none where the tag does not verify. -/
def gcmOpen (key iv aad ct tag : Bytes) : Option Bytes :=
  let ks := aesKeys key
  if gcmTag ks iv aad ct = tag then some ((ctrBlocks ks iv 2 (chunks 16 ct)).flatten) else none

/-- The GMAC tag: GCM over an empty plaintext. -/
def gmac (key iv aad : Bytes) : Bytes := gcmTag (aesKeys key) iv aad []

/-- `n` steps of a most-significant-bit-first CRC of width 16, polynomial 0x1021. -/
def crc16Bits : Nat → BitVec 16 → BitVec 16
  | 0, c => c
  | n + 1, c => crc16Bits n ((c <<< 1) ^^^ (if c.msb then 0x1021 else 0))

/-- CRC-16 with polynomial 0x1021 and initial value 0xFFFF, byte 0 first, most significant bit first (R234). -/
def crc16 (bs : Bytes) : BitVec 16 :=
  bs.foldl (fun (c : BitVec 16) (b : Byte) => crc16Bits 8 (c ^^^ (b.setWidth 16 <<< (8 : Nat)))) 0xffff

/-- `n` steps of the reflected CRC-32 of IEEE 802.3. -/
def crc32Bits : Nat → BitVec 32 → BitVec 32
  | 0, c => c
  | n + 1, c => crc32Bits n ((c >>> 1) ^^^ (if c.getLsbD 0 then 0xedb88320 else 0))

/-- CRC-32 of IEEE 802.3. -/
def crc32 (bs : Bytes) : BitVec 32 :=
  ~~~(bs.foldl (fun (c : BitVec 32) (b : Byte) => crc32Bits 8 (c ^^^ b.setWidth 32)) 0xffffffff)

end Sys2Proof.Machine
end

