-- ==== Sys2Proof/Machine/Intake.lean ====
section
/-! DEFINITION. Intake of host commands (R384 to R394) and of management commands (R316, R317): when a command is taken,
the checks made before the command's own, and the operand fields of Tables HOST-1 to HOST-3. -/

namespace Sys2Proof.Machine

/-! ## Operand fields -/

/-- Operand byte `i` of Table HOST-2, numbered from 20. -/
def opByte (h : HostCmd) (i : Nat) : Byte := byteAt h.ops (i - 20)
/-- Little-endian operand field at byte `i`. -/
def opNat (h : HostCmd) (i n : Nat) : Nat := leAt h.ops (i - 20) n

/-- How an opcode uses its buffer (Table HOST-3). -/
inductive BufUse where
  | none
  | list              -- optional frame list (R391)
  | exact (n : Nat)   -- a structure of fixed length
  | bundle            -- Table BELV-3
  | receives          -- a record is written
deriving DecidableEq, Repr

/-- A row of Table HOST-3: opcode, lowest and highest CID, buffer. -/
structure HostOp where
  code  : Nat
  cidLo : Nat
  cidHi : Nat
  buf   : BufUse
deriving DecidableEq, Repr

/-- CTX_CREATE. -/
def opCtxCreate : HostOp := ⟨0x01, 0, 254, .none⟩
/-- CTX_KEY_IMPORT. -/
def opCtxKeyImport : HostOp := ⟨0x02, 1, 254, .bundle⟩
/-- CTX_FRAME_BIND. -/
def opCtxFrameBind : HostOp := ⟨0x03, 1, 254, .list⟩
/-- CTX_FRAME_RELEASE. -/
def opCtxFrameRelease : HostOp := ⟨0x04, 1, 254, .list⟩
/-- CTX_PREFIX_SEAL. -/
def opCtxPrefixSeal : HostOp := ⟨0x05, 1, 254, .none⟩
/-- CTX_SCHEDULE. -/
def opCtxSchedule : HostOp := ⟨0x08, 1, 254, .none⟩
/-- CTX_DRAIN. -/
def opCtxDrain : HostOp := ⟨0x09, 1, 254, .none⟩
/-- CTX_DESTROY. -/
def opCtxDestroy : HostOp := ⟨0x0A, 1, 254, .none⟩
/-- ATTEST_EVIDENCE. -/
def opAttestEvidence : HostOp := ⟨0x10, 0, 254, .receives⟩
/-- VERIFY_POLICY. -/
def opVerifyPolicy : HostOp := ⟨0x18, 1, 254, .exact 4819⟩
/-- VERIFY_REPORT. -/
def opVerifyReport : HostOp := ⟨0x19, 1, 254, .receives⟩
/-- JOB_LINK_OPEN. -/
def opJobLinkOpen : HostOp := ⟨0x20, 0, 254, .exact 4819⟩
/-- JOB_LINK_CLOSE. -/
def opJobLinkClose : HostOp := ⟨0x21, 1, 254, .none⟩
/-- SCRUB_FRAMES. -/
def opScrubFrames : HostOp := ⟨0x28, 0, 0, .list⟩
/-- POWER_POLICY. -/
def opPowerPolicy : HostOp := ⟨0x30, 1, 254, .none⟩
/-- DEBUG_CONSENT. -/
def opDebugConsent : HostOp := ⟨0x38, 1, 254, .exact 4819⟩

/-- The rows of Table HOST-3. -/
def hostOps : List HostOp :=
  [opCtxCreate, opCtxKeyImport, opCtxFrameBind, opCtxFrameRelease, opCtxPrefixSeal, opCtxSchedule, opCtxDrain,
   opCtxDestroy] ++
  [opAttestEvidence, opVerifyPolicy, opVerifyReport, opJobLinkOpen, opJobLinkClose, opScrubFrames, opPowerPolicy,
   opDebugConsent]

/-- The operand bytes from 20 + `n` on are zero (unused operand bytes are res0, Table HOST-1). -/
def opsZeroFrom (h : HostCmd) (n : Nat) : Bool := allZero (h.ops.drop n)

/-- A map byte of CTX_SCHEDULE: unmapped, or a die of the build configuration. -/
def mapByteOk (b : Byte) : Bool := b == 0xff || decide (b.toNat < Config.dies)

/-- COUNT of a frame-list command. -/
def listCount (h : HostCmd) : Nat := opNat h 24 4

/-- The frame words of the command's list, inline or from the buffer's bytes (R391). -/
def frameWords (h : HostCmd) : List Nat :=
  let src : Bytes := if h.bufLen = 0 then h.ops.drop 8
    else match h.buf with
      | .data b => b
      | .error => []
      | .noAnswer => []
  (List.range (listCount h)).map (fun i => leAt src (4 * i) 4)

/-- Operand ranges of Table HOST-2 and its res0 bytes, by opcode (step 2 of R390). -/
def operandsOk (op : HostOp) (h : HostCmd) : Bool :=
  if op.code = 0x01 then decide (1 ≤ (opByte h 20).toNat) && decide ((opByte h 20).toNat ≤ 32) && opsZeroFrom h 1
  else if op.code = 0x03 then
    let c := (opByte h 20).toNat
    let k := (opByte h 21).toNat
    decide (c ≤ 2) && (if c = 2 then decide (1 ≤ k) && decide (k ≤ 3) else decide (k = 0)) &&
    opByte h 22 == 0 && opByte h 23 == 0
  else if op.code = 0x04 || op.code = 0x28 then decide (opNat h 20 4 = 0)
  else if op.code = 0x05 then
    decide (1 ≤ (opByte h 20).toNat) && decide ((opByte h 20).toNat ≤ 3) && opsZeroFrom h 1
  else if op.code = 0x08 then
    decide (100 ≤ opNat h 20 4) && decide (opNat h 20 4 ≤ 100000) &&
    (slice h.ops 4 32).all mapByteOk && opsZeroFrom h 36
  else if op.code = 0x10 then opsZeroFrom h 32
  else if op.code = 0x20 then decide ((opByte h 20).toNat ≤ 1) && opByte h 21 == 0 && opsZeroFrom h 4
  else if op.code = 0x21 then opsZeroFrom h 1
  else if op.code = 0x30 then
    decide (1 ≤ (opByte h 20).toNat) && decide ((opByte h 20).toNat ≤ 15) && decide ((opByte h 21).toNat ≤ 8) &&
    opsZeroFrom h 4
  else opsZeroFrom h 0

/-- A list's words have bits [31:19] zero (R391). -/
def listWordsOk (h : HostCmd) : Bool := (frameWords h).all (fun w => decide (w < Config.frames))

/-- Unused inline operand bytes are zero, and so are the res0 bits of an inline list's words, which stand in the descriptor. -/
def listRes0 (op : HostOp) (h : HostCmd) : Bool :=
  if op.buf = .list then
    if h.bufLen = 0 then opsZeroFrom h (8 + 4 * listCount h) && listWordsOk h else opsZeroFrom h 8
  else true

/-- Descriptors an inline list of `n` frames needs: 9 in the first, 16 in each extension (R391). -/
def chainFor (n : Nat) : Nat := if n ≤ 9 then 1 else 1 + (n - 9 + 15) / 16

/-- CHAIN that the operands ask for, where they ask for one (step 3 of R390). -/
def chainNeeded (op : HostOp) (h : HostCmd) : Option Nat :=
  if op.buf = .list then
    if 1 ≤ listCount h ∧ listCount h ≤ 16384 then
      if h.bufLen = 0 then (if listCount h ≤ 57 then some (chainFor (listCount h)) else none) else some 1
    else none
  else some 1

/-- Length a structure in the buffer declares for itself. -/
def structureLen (op : HostOp) (h : HostCmd) : Option Nat :=
  match op.buf with
  | .exact n => some n
  | .bundle =>
    match h.buf with
    | .data b => some (if h.bufLen < 1752 then 1768 else 1768 + leAt b 1748 4)
    | .error => none
    | .noAnswer => none
  | .none => none
  | .list => none
  | .receives => none

/-- Step 4 of R390 without the structure's length: BUF_LEN is 0 or not as the opcode asks, and a frame list obeys R391. -/
def bufLenOk (op : HostOp) (h : HostCmd) : Bool :=
  match op.buf with
  | .none => decide (h.bufLen = 0)
  | .list =>
    decide (1 ≤ listCount h) && decide (listCount h ≤ 16384) &&
    (if h.bufLen = 0 then decide (listCount h ≤ 57) else decide (h.bufLen = 4 * listCount h) && listWordsOk h)
  | .exact _ => decide (h.bufLen ≠ 0)
  | .bundle => decide (h.bufLen ≠ 0)
  | .receives => decide (h.bufLen ≠ 0)

/-- The checks of R390 in order; the first that fails gives the status. -/
def intakeCheck (op : HostOp) (h : HostCmd) (s : State) : Option Status :=
  if !gateOpen s 2 then some .busy
  else if !(decide (1 ≤ h.chain) && decide (h.chain ≤ 4) && decide (h.flags.toNat < 4) &&
      decide (op.cidLo ≤ h.cid.val) && decide (h.cid.val ≤ op.cidHi) && operandsOk op h && listRes0 op h) then
    some .badDescriptor
  else if (match chainNeeded op h with | some n => decide (h.chain < n) | none => false) then some .lengthShort
  else if (match chainNeeded op h with | some n => decide (n < h.chain) | none => false) then some .lengthLong
  else if !bufLenOk op h then some .badDescriptor
  else match structureLen op h with
    | some n => if h.bufLen < n then some .lengthShort else if n < h.bufLen then some .lengthLong else none
    | none => none

/-! ## Taking a host command -/

/-- Entries a command occupies in its ring. -/
def chainLen (h : HostCmd) : Nat := if 1 ≤ h.chain ∧ h.chain ≤ 4 then h.chain else 1

/-- The conditions of R385, with the suspension of R413, and at most one command of a ring in a tick (R386); a descriptor that
cannot be taken stays posted. -/
def canTake (h : HostCmd) (s : State) : Bool :=
  let r := ringOf s h.ring.val
  let c := cplOf s r.cpl.toNat
  s.pav.supply.isNone && r.enable && !r.stopped && c.enable && cplFree c && r.lastTake != some s.tick &&
  decide (s.host.inProg.length < 1024) && decide (chainLen h ≤ r.posted.length) &&
  (!h.flags.getLsbD 1 || s.host.inProg.all (fun x => x.ring != h.ring.val))

/-- A command taken: HEAD passes its descriptors, one completion entry is reserved, the class 6 pointer advances
(R384, R385, R21). -/
def takeHost (opcode : Nat) (u : UnitRef) (h : HostCmd) (s : State) : InProg × State :=
  let r := ringOf s h.ring.val
  let ip : InProg := {
    id := s.host.nextId, ring := h.ring.val, cpl := r.cpl.toNat, opcode := opcode, dead := false, cid := h.cid.val,
    tag := h.tag, noIrq := h.flags.getLsbD 0, unit := u, buf := h.bufAddr, bufLen := h.bufLen, write := h.buf }
  let s1 := updRing h.ring.val (fun r => { r with
    head := BitVec.ofNat 16 ((r.head.toNat + chainLen h) % ringSize r.log2), posted := r.posted.drop (chainLen h)
    lastTake := some s.tick }) s
  let s2 := updCpl r.cpl.toNat (fun c => { c with reserved := c.reserved + 1 }) s1
  (ip, { s2 with host := { s2.host with inProg := s2.host.inProg ++ [ip], nextId := s2.host.nextId + 1 },
                 sund := { s2.sund with hostPtr := s2.sund.hostPtr + 1 } })

/-- Unit named by the CID field. -/
def cidUnit (h : HostCmd) : UnitRef := if h.cid.val = 0 then .none else .ctx h.cid.val

/-- A host command through its intake: taken under R385, refused with TAMPER under R412, held off during an activation
(R326), checked under R390, and then judged by `body`. -/
def hostCommand (op : HostOp) (u : UnitRef) (h : HostCmd) (body : InProg → State → State) (s : State) : State :=
  if canTake h s then
    let (ip, s1) := takeHost op.code u h s
    if s1.pav.tamper then completeHost ip .tamper [] s1
    else if s1.updt.hold && decide (op.code ≠ 0x10) then completeHost ip .busy [] s1
    else match intakeCheck op h s1 with
      | some st => completeHost ip st [] s1
      | none => body ip s1
  else s

/-- The bytes of the host buffer (R394): an error response fails the command with BAD_DESCRIPTOR, no answer with TIMEOUT,
and a failed read leaves it without effect. -/
def withBuffer (h : HostCmd) (ip : InProg) (k : Bytes → State → State) (s : State) : State :=
  match h.buf with
  | .data b => k (fit h.bufLen b) s
  | .error => completeHost ip .badDescriptor [] s
  | .noAnswer => completeHost ip .timeout [] s

/-- A record written to the host buffer (R394): a failed write replaces the status. -/
def writeBuffer (ip : InProg) (data : Bytes) (st : Status) (s : State) : State :=
  match ip.write with
  | .data _ => completeHost ip st (leNat 4 data.length) (emit (.hostWrite ip.buf data) s)
  | .error => completeHost ip .badDescriptor [] s
  | .noAnswer => completeHost ip .timeout [] s

/-! ## Context commands (R60, R61) -/

/-- Commands of Table CTX-2. -/
inductive CtxCmd where
  | create
  | keyImport (priv : Bool)
  | frameBind
  | frameRelease
  | prefixSeal
  | schedule
  | drain
  | destroy
  | debugConsent
deriving DecidableEq, Repr

/-- Table CTX-2: the status of a command in a state, none where it is accepted. -/
def ctxTable (cmd : CtxCmd) (st : CtxState) : Option Status :=
  match st with
  | .free => if cmd = .create then none else some .ctxGone
  | .destroying => some .ctxGone
  | .fenced => if cmd = .destroy then none else some .ctxFenced
  | .created =>
    match cmd with
    | .keyImport true => none
    | .drain => none
    | .destroy => none
    | _ => some .ctxState
  | .keyed =>
    match cmd with
    | .create => some .ctxState
    | .keyImport true => some .ctxState
    | _ => none
  | .running =>
    match cmd with
    | .create => some .ctxState
    | .keyImport true => some .ctxState
    | _ => none
  | .draining =>
    match cmd with
    | .drain => some .busy
    | .destroy => none
    | _ => some .ctxState
  | .drained =>
    match cmd with
    | .frameRelease => none
    | .drain => none
    | .destroy => none
    | _ => some .ctxState

/-- Steps 2 and 3 of R60 for a context: generation, then Table CTX-2. -/
def ctxCheck (cmd : CtxCmd) (cid : Nat) (gen : BitVec 16) (s : State) : Option Status :=
  let c := ctxOf s cid
  if gen ≠ c.gen ∨ gen = 0 then some .staleGeneration else ctxTable cmd c.state

/-! ## Management commands -/

/-- A message on an MCTP tag is outstanding (R316): a command whose reply is owed, or an SPDM request that waits for its
signature. -/
def tagBusy (s : State) (t : Nat) : Bool :=
  s.mgmt.any (fun x => x.tag == t) ||
  s.belv.queue.any (fun r => match r with | .spdm (.mctp u _) _ _ _ _ => u.tag.val == t | _ => false)

/-- A queued signature serves a request of the DOE mailbox. -/
def forDoe (r : SignReq) : Bool := match r with | .spdm (.doe _) _ _ _ _ => true | _ => false

/-- A request that waits for a reseed serves a request of the DOE mailbox. -/
def drawsForDoe (g : GenReq) : Bool :=
  match g with
  | .spdm (.doe _) _ _ _ _ => true
  | .keyExchange (.doe _) _ _ => true
  | _ => false

/-- The DOE mailbox emptied, its request at Belvedere or at the DRBG with it (R398, R400). -/
def dropDoe (s : State) : State :=
  { s with
    host := { s.host with doe := {} }
    orng := { s.orng with queue := s.orng.queue.filter (fun q => !drawsForDoe q.2) }
    belv := { s.belv with queue := s.belv.queue.filter (fun r => !forDoe r) } }

/-- A record of a DTLS association (R315): the association's idle time starts again. A record of no association authenticates
nowhere and is no message. -/
def overDtls (a : Fin 4) (k : State → State) (s : State) : State :=
  if (mapGet none s.band.assocs a.val).isSome then
    k { s with band := { s.band with assocs := mapSet none s.band.assocs a.val (some s.tick) } }
  else s

/-- A management command through its intake (R315 to R317, R412, R413). A message of another enterprise is dropped. MGMT_PTR
advances for a message that is taken: one answered TAMPER, BUSY, BOOT_NO_IMAGE or OCNBOOT is no grant (DESIGN CHOICE, log 131). -/
def mgmtCommand (opcode : Nat) (u : UnitRef) (m : MgmtHdr) (body : MgmtProg → State → State) (s : State) : State :=
  let p : MgmtProg := ⟨m.tag.val, opcode, u⟩
  if s.pav.supply.isSome then s
  else if s.pav.tamper then
    if m.vendor then emit (.mgmtReply p.tag opcode .tamper (unitView s u).2 (unitView s u).1 []) s else s
  else if s.boot.phase = 7 then emit (.mgmtReply p.tag opcode .bootNoImage 0 0 []) s
  else if !gateOpen s 3 || s.belv.publicOnly then emit (.ocnBoot s.boot.phase) s
  else overDtls m.assoc (fun s =>
    if !m.vendor then s
    else if tagBusy s p.tag then emit (.mgmtReply p.tag opcode .busy (unitView s u).2 (unitView s u).1 []) s
    else
      let s1 := { s with mgmt := s.mgmt ++ [p], sund := { s.sund with mgmtPtr := s.sund.mgmtPtr + 1 } }
      body p s1) s

/-- How long an MCTP message may be (R316). -/
def mctpMost : Nat := 65536

/-- A management command whose operands are `n` bytes: LENGTH_LONG where its message, with type, enterprise number and header, is longer
than R316 allows (log 151). -/
def within (n : Nat) (k : MgmtProg → State → State) (p : MgmtProg) (s : State) : State :=
  if mctpMost < n + 13 then replyMgmt p .lengthLong [] s else k p s

/-- The context a management command names: its unit index, in the range of R60. -/
def mgmtCtx (m : MgmtHdr) : UnitRef :=
  if 1 ≤ m.unit.toNat ∧ m.unit.toNat ≤ 254 then .ctx m.unit.toNat else .none

/-- A context-private command is refused while a supply alarm holds its intake (R413); CTXQ_PTR advances by a grant. -/
def ctxqGrant (s : State) : State :=
  { s with sund := { s.sund with ctxqPtr := if s.sund.ctxqPtr.toNat + 1 = 254 then 0 else s.sund.ctxqPtr + 1 } }

end Sys2Proof.Machine
end

