-- ==== Sys2Proof/Machine/OrangeryOps.lean ====
section
/-! DEFINITION. The vault's shared operations (10_orangery_keys.md): shares and integrity codes, reading and loading slots,
zeroising, the attribute matrix, DRBG draws, key-bus messages. -/

namespace Sys2Proof.Machine

/-! ## Attributes (Table ORNG-4), as bits of blob header byte 2 -/

/-- ENC_ONLY. -/
def attrEnc : BitVec 5 := 1
/-- DEC_ONLY. -/
def attrDec : BitVec 5 := 2
/-- WRAP_ONLY. -/
def attrWrap : BitVec 5 := 4
/-- DERIVE_ONLY. -/
def attrDerive : BitVec 5 := 8
/-- ENGINE. -/
def attrEngine : BitVec 5 := 16
/-- None: a reference. -/
def attrRef : BitVec 5 := 0

/-! ## Slot map (Table ORNG-1) -/

/-- Slot of context `c` at offset `o` (Table ORNG-3). -/
def ctxSlot (c o : Nat) : Nat := 448 + 8 * (c - 1) + o
/-- K1 ∥ K2 slot of a group; KT is the next. -/
def groupSlot (g : Nat) : Nat := 2480 + 2 * g
/-- Key slot of a local job. -/
def jobSlot (j : Nat) : Nat := 2992 + j
/-- Hop-key slot of a link, phase and direction (0 transmit, 1 receive). -/
def hopSlot (link phase dir : Nat) : Nat := 64 + 4 * link + 2 * phase + dir
/-- Bus-key slot of a drop. -/
def busSlot (drop : Nat) : Nat := 17 + drop
/-- First working slot. -/
def workingBase : Nat := 3248

/-! ## Shares -/

/-- Integrity code of a share (R234). -/
def shareCode (slot half share : Nat) (v : BitVec 512) : BitVec 16 :=
  crc16 (leBv 64 v ++ leNat 2 slot ++ leNat 1 (2 * half + share))

/-- A key held as two shares under mask `m`. -/
def mkHalf (slot half : Nat) (key : Bytes) (m : BitVec 512) : Half :=
  let k : BitVec 512 := BitVec.ofNat 512 (leVal key)
  ⟨k ^^^ m, m, shareCode slot half 0 (k ^^^ m), shareCode slot half 1 m⟩

/-- Share `0` passes its code. -/
def share0Ok (slot half : Nat) (h : Half) : Bool := h.c0 == shareCode slot half 0 h.s0
/-- Share `1` passes its code. -/
def share1Ok (slot half : Nat) (h : Half) : Bool := h.c1 == shareCode slot half 1 h.s1
/-- Both shares of a half pass their codes. -/
def halfOk (slot half : Nat) (h : Half) : Bool := share0Ok slot half h && share1Ok slot half h

/-- The key of a half: the exclusive or of its shares, to its length (R232). -/
def halfKey (h : Half) (len : Nat) : Bytes := (leBv 64 (h.s0 ^^^ h.s1)).take len

/-! ## DRBG (R251): CTR_DRBG over AES-256 with the derivation function (SP 800-90A) -/

/-- `n` output blocks under a key schedule, from the value after V on; with the last value of V. -/
def ctrOut (ks : List Bytes) : Nat → Bytes → Bytes × Bytes
  | 0, v => ([], v)
  | n + 1, v =>
    let v1 := beNat 16 ((beVal v + 1) % 2 ^ 128)
    let (bs, w) := ctrOut ks n v1
    (aesEncWith ks v1 ++ bs, w)

/-- CTR_DRBG_Update: the new Key and V. -/
def drbgUpdate (data key v : Bytes) : Bytes × Bytes :=
  let t := xorBytes (ctrOut (aesKeys key) 3 v).1 (fit 48 data)
  (t.take 32, t.drop 32)

/-- BCC: the chained value of whole blocks from zero. -/
def bccOf (ks : List Bytes) (data : Bytes) : Bytes := (chunks 16 data).foldl (fun x b => aesEncWith ks (xorBytes x b)) (zeros 16)

/-- Block_Cipher_df to 48 bytes. -/
def seedMaterial (input : Bytes) : Bytes :=
  let body := pad16 (beNat 4 input.length ++ beNat 4 48 ++ input ++ [0x80])
  let ks := aesKeys ((List.range 32).map (fun i => BitVec.ofNat 8 i))
  let t := (List.range 3).flatMap (fun i => bccOf ks (beNat 4 i ++ zeros 12 ++ body))
  let k := aesKeys (t.take 32)
  let a := aesEncWith k (t.drop 32)
  let b := aesEncWith k a
  a ++ b ++ aesEncWith k b

/-- The DRBG instantiated from an entropy input, a nonce and a personalisation string. -/
def drbgInstantiate (entropy nonce pers : Bytes) (s : State) : State :=
  let (k, v) := drbgUpdate (seedMaterial (entropy ++ nonce ++ pers)) (zeros 32) (zeros 16)
  { s with orng := { s.orng with dkey := k, dv := v, requests := 0, lastSeed := s.tick } }

/-- The DRBG reseeded from an entropy input. -/
def drbgReseed (entropy : Bytes) (s : State) : State :=
  let (k, v) := drbgUpdate (seedMaterial entropy) s.orng.dkey s.orng.dv
  { s with orng := { s.orng with dkey := k, dv := v, requests := 0, lastSeed := s.tick, reseeds := s.orng.reseeds + 1 } }

/-- A generate request of the DRBG: `n` bytes. -/
def drbg (n : Nat) (s : State) : Bytes × State :=
  let (out, v1) := ctrOut (aesKeys s.orng.dkey) ((n + 15) / 16) s.orng.dv
  let (k, v) := drbgUpdate (zeros 48) s.orng.dkey v1
  (out.take n, { s with orng := { s.orng with dkey := k, dv := v, requests := s.orng.requests + 1 } })

/-- 512 bits drawn as a mask. -/
def drawMask (s : State) : BitVec 512 × State :=
  let (b, s1) := drbg 64 s
  (BitVec.ofNat 512 (leVal b), s1)

/-- A reseed is due. -/
def reseedDue (s : State) : Bool := decide (s.orng.requests ≥ 2 ^ 20) || decide (s.tick ≥ s.orng.lastSeed + 250000000)

/-- A reseed waits for a healthy block: generate requests queue (R252). -/
def genWaits (s : State) : Bool := reseedDue s && s.orng.pool.isEmpty

/-- An operation that makes a generate request (R252): refused while the DRBG does not serve, queued while a reseed waits for a
healthy block, else done. -/
def withDraw (g : GenReq) (refuse k : State → State) (s : State) : State :=
  if !s.orng.ready then refuse s
  else if genWaits s then { s with orng := { s.orng with queue := s.orng.queue ++ [(s.tick, g)] } }
  else k s

/-- A key written into a slot as two fresh shares, ACTIVE at once (boot and derivations). -/
def setSlot (n : Nat) (attr : BitVec 5) (cid : Nat) (group : Option Nat) (key : Bytes) (s : State) : State :=
  let (m, s1) := drawMask s
  updSlot n (fun _ => { state := .active, attr := attr, cid := cid, group := group, len := key.length,
                        active := mkHalf n 0 key m, pend := {}, pending := false }) s1

/-- A key written into the pending half of a slot (Table ORNG-8, tick t0). -/
def setPending (n : Nat) (key : Bytes) (s : State) : State :=
  let (m, s1) := drawMask s
  updSlot n (fun x => { x with pend := mkHalf n 1 key m, pending := true }) s1

/-! ## Bad slots and zeroising -/

/-- A failed code of a half (R236): both halves are zeroised, the slot is BAD, the record of Table ORNG-5 is posted, and for a
device slot a management event as well. -/
def halfFail (n half : Nat) (byRemask : Bool) (s : State) : State :=
  let x := slotOf s n
  let share := if share0Ok n half (if half = 0 then x.active else x.pend) then 1 else 0
  let body := leNat 2 n ++ leNat 1 x.cid ++ leNat 1 (share + 2 * half + 4 * bit byRemask)
  let s1 := updSlot n (fun x => { x with state := .bad, active := {}, pend := {}, pending := false }) s
  let s2 := postFaultRaw .keySlotBad 15 body { s1 with orng := { s1.orng with slotBad := raise s.tick s1.orng.slotBad } }
  if n < 64 then postRecord 1 15 (leBv 2 (statusCode .keySlotBad) ++ leNat 8 s.tick ++ fit 53 body) s2 else s2

/-- A failed code of the active half. -/
def slotFail (n : Nat) (byRemask : Bool) (s : State) : State := halfFail n 0 byRemask s

/-- An answer at the mailbox of the Gatehouse (R231). -/
def mailbox (st : Status) (b : Bytes) (s : State) : State := emit (.mailbox st b) s

/-- What waits for a load receives its end: a command, or the mailbox for a blob, with the slot of its key. -/
def answerLoad (l : KeyLoad) (st : Status) (detail : Bytes) (s : State) : State :=
  match l.for_ with
  | .priv cid => finish l.waiter st detail (updCtx cid (fun c => { c with importing := none }) s)
  | .team cid => finish l.waiter st detail (updCtx cid (fun c => { c with importing := none }) s)
  | .blob => mailbox st (detail ++ leNat 2 (l.slots.headD 0)) s

/-- The pending half of a slot zeroised; a working slot that was only reserved is EMPTY again. -/
def dropPending (n : Nat) (s : State) : State :=
  updSlot n (fun x => if x.state = .empty then {} else { x with pend := {}, pending := false }) s

/-- The load whose pending half is in slot `n`, ended with KEY_ZEROIZED (Table ORNG-11); its other pending halves go. -/
def dropLoads (n : Nat) (s : State) : State :=
  let gone := s.orng.loads.filter (fun l => l.slots.contains n)
  let s1 := { s with orng := { s.orng with loads := s.orng.loads.filter (fun l => !l.slots.contains n) } }
  gone.foldl (fun s l => answerLoad l .keyZeroized [] (l.slots.foldl (fun s m => if m = n then s else dropPending m s) s)) s1

/-- A slot zeroised: it becomes EMPTY (R237). -/
def zeroiseSlot (n : Nat) (s : State) : State := dropLoads n (updSlot n (fun _ => {}) s)

/-- A range of slots zeroised. -/
def zeroiseSlots (ns : List Nat) (s : State) : State := ns.foldl (fun s n => zeroiseSlot n s) s

/-! ## Use of a slot -/

/-- Steps 2 to 4 of R238 for an ACTIVE slot used under an attribute on behalf of a CID. -/
def slotCheck (n : Nat) (attr : BitVec 5) (cid : Nat) (s : State) : Status :=
  let x := slotOf s n
  if s.orng.zeroized then .keyZeroized
  else match x.state with
    | .bad => .keySlotBad
    | .empty => .notPermitted
    | .active => if x.attr = attr ∧ x.cid = cid then .ok else .keyAttrDenied

/-- A use of a slot (R238): the key where every check passes, else the status; a failed code makes the slot BAD. -/
def useSlot (n : Nat) (attr : BitVec 5) (cid : Nat) (s : State) : (Status × Bytes) × State :=
  match slotCheck n attr cid s with
  | .ok =>
    let x := slotOf s n
    if halfOk n 0 x.active then ((.ok, halfKey x.active x.len), s)
    else ((.keySlotBad, []), slotFail n false s)
  | st => ((st, []), s)

/-- The key an engine fill or push reads from a slot: none where it is EMPTY, BAD or fails a code (R236). -/
def engineKey (n : Nat) (s : State) : Option Bytes × State :=
  let x := slotOf s n
  if x.state = .active ∧ x.attr = attrEngine then
    if halfOk n 0 x.active then (some (halfKey x.active x.len), s) else (none, slotFail n false s)
  else (none, s)

/-- The key of a slot read by the vault itself: none where it is not ACTIVE or a code of it fails (R234). -/
def deviceKey (n : Nat) (s : State) : Option Bytes :=
  let x := slotOf s n
  if x.state = .active ∧ halfOk n 0 x.active = true then some (halfKey x.active x.len) else none

/-- The check of a slot that the vault is about to use (R234): a failed code makes it BAD (R236). -/
def checkSlot (n : Nat) (s : State) : State :=
  let x := slotOf s n
  if x.state = .active ∧ halfOk n 0 x.active = false then slotFail n false s else s

/-- The check of several slots. -/
def checkSlots (ns : List Nat) (s : State) : State := ns.foldl (fun s n => checkSlot n s) s

/-- Why the vault has no key of a slot (R238, steps 2, 3 and 5). -/
def noKeyStatus (n : Nat) (s : State) : Status :=
  if s.orng.zeroized then .keyZeroized
  else match (slotOf s n).state with
    | .bad => .keySlotBad
    | .empty => .notPermitted
    | .active => .keySlotBad

/-- Lowest EMPTY working slots, `k` of them (R233). -/
def freeWorking (k : Nat) (s : State) : List Nat :=
  (((List.range 848).map (· + workingBase)).filter (fun n => (slotOf s n).state == .empty && !(slotOf s n).pending)).take k

/-- A transient key put into the lowest EMPTY working slot, whose index is returned; none where none is free (R233). -/
def takeWorking (attr : BitVec 5) (cid : Nat) (key : Bytes) (s : State) : Option Nat × State :=
  match freeWorking 1 s with
  | [] => (none, s)
  | n :: _ => (some n, setSlot n attr cid none key s)

/-- Keys that pass through the lowest EMPTY working slots, which are EMPTY again when their use ends (Table ORNG-7). -/
def throughWorking (attr : BitVec 5) (cid : Nat) (keys : List Bytes) (s : State) : State :=
  let ns := freeWorking keys.length s
  zeroiseSlots ns ((ns.zip keys).foldl (fun s p => setSlot p.1 attr cid none p.2 s) s)

/-! ## Key bus (R245 to R249) -/

/-- Fence channel at a drop's local index (R11). -/
def localChan (drop unit : Nat) : Option Nat := if unit < 16 then some (16 * drop + unit) else none
/-- Link engine at a drop's local index. -/
def localEngine (drop unit : Nat) : Option Nat := if 16 ≤ unit ∧ unit < 19 then some (3 * drop + (unit - 16)) else none
/-- Drop and local index of a fence channel. -/
def chanUnit (ch : Nat) : Nat × Nat := (ch / 16, ch % 16)
/-- Drop and local index of a link engine. -/
def engineUnit (e : Nat) : Nat × Nat := (e / 3, 16 + e % 3)

/-- Header of a key-bus message without COUNTER: bytes 0 to 7 of Table ORNG-9. -/
def kbusHeader (kind cid ksel flags id sel unit : Nat) : Bytes :=
  leNat 1 kind ++ leNat 1 cid ++ leNat 1 ksel ++ leNat 1 flags ++ leNat 1 id ++ leNat 1 sel ++ leNat 2 unit

/-- A message sealed for a drop (R247). -/
def kbusSeal (key hdr : Bytes) (counter : Nat) (plain : Bytes) : Bytes :=
  let h := hdr ++ leNat 8 counter
  let r := gcmSeal key (zeros 4 ++ beNat 8 counter) h plain
  h ++ r.1 ++ r.2

/-- A message opened at a drop: its plaintext, or none where its tag fails or its COUNTER does not rise. -/
def kbusOpen (d : Drop) (msg : Bytes) : Option Bytes :=
  let counter := leAt msg 8 8
  let body := msg.drop 16
  let n := body.length - 16
  match d.key with
  | none => none
  | some k =>
    if msg.length < 32 ∨ counter ≤ d.last then none
    else gcmOpen k (zeros 4 ++ beNat 8 counter) (msg.take 16) (body.take n) (body.drop n)

/-- The next message to a drop, sent on the key bus under its bus key; none is sent without it. -/
def sendKbus (drop : Nat) (hdr plain : Bytes) (s : State) : State :=
  match deviceKey (busSlot drop) s with
  | none => checkSlot (busSlot drop) s
  | some key =>
    let c := (dropOf s drop).sent + 1
    emit (.kbus drop (kbusSeal key hdr c plain)) (updDrop drop (fun d => { d with sent := c }) s)

/-- A push (R249), held until its acknowledgement. -/
def sendPush (drop : Nat) (hdr plain : Bytes) (s : State) : State :=
  let s1 := sendKbus drop hdr plain s
  let p : Push := ⟨drop, (dropOf s1 drop).sent, leAt hdr 6 2, (hdr, plain), s.tick, false⟩
  { s1 with orng := { s1.orng with pushes := s1.orng.pushes ++ [p] } }

/-- The pinned entry of CID 0 or 255 at a fence channel, pushed from its two slots where both are there (R236, R249). -/
def pushPinnedEntry (cid n ch : Nat) (s : State) : State :=
  match deviceKey n s, deviceKey (n + 1) s with
  | some k, some kt =>
    let (d, u) := chanUnit ch
    sendPush d (kbusHeader 3 cid 0 8 cid 0 u) (k ++ kt) s
  | _, _ => s

/-- The pinned entries pushed to every fence channel when the key-distribution gate opens (R249, R256 step 6). -/
def pushPinned (s : State) : State :=
  forUpTo Config.channels (fun ch s => pushPinnedEntry 255 10 ch (pushPinnedEntry 0 8 ch s)) (checkSlots [8, 9, 10, 11] s)

/-! ## Derivations of contexts and groups (Table ORNG-7) -/

/-- Context bytes of KS and KE: CID and generation. -/
def cidGen (cid : Nat) (gen : BitVec 16) : Bytes := leNat 1 cid ++ leBv 2 gen

/-- Group keys derived from a team key and a digest: K1 ∥ K2 ∥ KT, 96 bytes. -/
def groupKeys (team digest : Bytes) : Bytes := kdf team (ascii "OCN-PREFIX") digest 768

end Sys2Proof.Machine
end

