-- ==== Sys2Proof/Machine/DigestOps.lean ====
section
/-! DEFINITION. The digest unit's shared operations (11_digest_engines.md): chaining values, HMAC states, the queue,
starting and ending requests, clearing, slots whose keys are gone. -/

namespace Sys2Proof.Machine

/-! ## Chaining values -/

/-- Words of a chaining value held as bytes. -/
def chainWords (w : Nat) (h : Bytes) : List (BitVec w) := beWords w (w / 8) h

/-- Initial chaining value of an algorithm. -/
def algInit (alg : Nat) : Bytes :=
  if alg = 0 then shaOut sha256Init else if alg = 1 then shaOut sha384Init else shaOut sha512Init

/-- Block length of an algorithm in bytes. -/
def algBlock (alg : Nat) : Nat := if alg = 0 then 64 else 128

/-- Digest length of an algorithm in bytes. -/
def algLen (alg : Nat) : Nat := if alg = 0 then 32 else if alg = 1 then 48 else 64

/-- Whole blocks absorbed into a chaining value. -/
def algAbsorb (alg : Nat) (h bs : Bytes) : Bytes :=
  if alg = 0 then shaOut (shaAbsorb sha256Amounts sha256K 64 (chainWords 32 h) bs)
  else shaOut (shaAbsorb sha512Amounts sha512K 128 (chainWords 64 h) bs)

/-- The digest of a message of `total` bytes whose last bytes are `tail`, from the chaining value of those before. -/
def algFinish (alg total : Nat) (h tail : Bytes) : Bytes :=
  (algAbsorb alg h (if alg = 0 then shaPad 64 8 total tail else shaPad 128 16 total tail)).take (algLen alg)

/-- The pair of chaining values after the key XOR ipad block and the key XOR opad block (R264). -/
def hmacStates (alg : Nat) (key : Bytes) : Bytes × Bytes :=
  let k := fit (algBlock alg) key
  (algAbsorb alg (algInit alg) (k.map (· ^^^ 0x36)), algAbsorb alg (algInit alg) (k.map (· ^^^ 0x5c)))

/-! ## Engines -/

/-- A digest engine. -/
def dgOf (s : State) (e : Nat) : DgEng := mapGet {} s.dgst.engines e
/-- `f` applied to a digest engine. -/
def updDg (e : Nat) (f : DgEng → DgEng) (s : State) : State :=
  { s with dgst := { s.dgst with engines := mapMod {} s.dgst.engines e f } }

/-- An engine cleared by an error or an alarm (R267). -/
def clearDg (e : Nat) (s : State) : State :=
  updDg e (fun x => { x with run := none, cmpA := 0, cmpB := 0, errClear := raise s.tick x.errClear }) s

/-- The status of a request written back to its descriptor, with the result bytes where there are any. -/
def answerDg (r : DgReq) (st : Status) (result : Bytes) (s : State) : State := emit (.digest r.requester r.desc st result) s

/-- A bus error ends a request (R267): nothing is written to the result address. -/
def failDg (e : Nat) (run : DgRun) (st : Status) (s : State) : State := answerDg run.req st [] (clearDg e s)

/-- The queue with a request at its place: by priority, then by submission (R260). -/
def enqueueDg (r : DgReq) : List DgReq → List DgReq
  | [] => [r]
  | x :: xs => if r.prio < x.prio then r :: x :: xs else x :: enqueueDg r xs

/-- Positions of the waiting requests written into their descriptors where they have changed. -/
def positionsDg (old new : List DgReq) (s : State) : State :=
  { s with outs := s.outs ++ (new.zipIdx.filterMap (fun (r, i) =>
      if old[i]? = some r then none else some (.digestPos r.requester r.desc (i + 1)))) }

/-- The queue replaced. -/
def setQueueDg (q : List DgReq) (s : State) : State :=
  positionsDg s.dgst.queue q { s with dgst := { s.dgst with queue := q } }

/-! ## HMAC state cache (R264) -/

/-- The HMAC states of a slot: from the cache, or computed by the vault on a miss and kept in least-recently-used order. -/
def cachedStates (n alg : Nat) (key : Bytes) (s : State) : (Bytes × Bytes) × State :=
  let rest := s.dgst.cache.filter (fun c => !(c.slot == n && c.alg == alg))
  match s.dgst.cache.find? (fun c => c.slot == n && c.alg == alg) with
  | some c => ((c.inner, c.outer), { s with dgst := { s.dgst with cache := c :: rest } })
  | none =>
    let (i, o) := hmacStates alg key
    ((i, o), { s with dgst := { s.dgst with cache := (⟨n, alg, i, o⟩ :: rest).take 64 } })

/-- Attribute a keyed request needs (R259). -/
def dgAttr (r : DgReq) : BitVec 5 := if r.op = 2 then attrEnc else attrDec

/-! ## Export records (R262, R263) -/

/-- Header of a blob (Table ORNG-6) without IV and check value. -/
def blobHead (attr : BitVec 5) (cid lc : Nat) (perBoot : Bool) (len epoch : Nat) : Bytes :=
  leNat 2 1 ++ leBv 1 attr ++ leNat 1 cid ++ leNat 1 (lc + 128 * bit perBoot) ++ [0] ++ leNat 2 len ++ leNat 2 epoch ++ zeros 2

/-- Life-cycle binding of a blob: the number of the current state. -/
def lcNumber (s : State) : Nat := s.otp.state
/-- Key-generation epoch count (counter 3). -/
def epochOf (s : State) : Nat := mapGet 0 s.otp.thermo 3

/-- Context of the DeviceID seeds, of KL, KWP and the record key: device class ID, epoch count, LC_CLASS. -/
def identContext (s : State) : Bytes := deviceClass s ++ leNat 2 (epochOf s) ++ leNat 1 (lcClass s)

/-- A key wrapped as a blob under a wrapping key, its IV drawn (R240). -/
def wrapBlob (kw : Bytes) (attr : BitVec 5) (cid : Nat) (perBoot : Bool) (key : Bytes) (s : State) : Bytes × State :=
  let (iv, s1) := drbg 12 s
  let head := blobHead attr cid (lcNumber s) perBoot key.length (epochOf s) ++ iv ++ keyCheckValueOf key
  let r := gcmSeal kw iv head key
  (head ++ r.1 ++ r.2, s1)

/-- The slot of a blob's wrapping key, by its DOMAIN. -/
def blobKeySlot (blob : Bytes) : Nat := if testBit (leAt blob 4 1) 7 then 13 else 12

/-- Steps 1 to 4 and 6 of R242 for a blob under the keys of slots 12 and 13; `target` is step 5. -/
def openBlob (blob : Bytes) (target : Nat → BitVec 5 → Nat → Bool) (s : State) : Status × Bytes :=
  let len := leAt blob 6 2
  let attr := (byteAt blob 2).setWidth 5
  let b4 := leAt blob 4 1
  let n := blob.length - 48
  if blob.length < 48 + len then (.lengthShort, [])
  else if 48 + len < blob.length then (.lengthLong, [])
  else if !(decide (leAt blob 0 2 = 1) && decide ((byteAt blob 2).toNat < 32) && decide (popCount 5 attr.toNat ≤ 1) &&
      decide (bits b4 3 4 = 0) && byteAt blob 5 == 0 && decide (leAt blob 10 2 = 0) &&
      decide (16 ≤ len) && decide (len ≤ 64) && decide (len % 8 = 0)) then (.keyBlobInvalid, [])
  else if bits b4 0 3 ≠ lcNumber s ∨ leAt blob 8 2 ≠ epochOf s then (.keyBlobInvalid, [])
  else match deviceKey (blobKeySlot blob) s with
    | none => (if noKeyStatus (blobKeySlot blob) s = .keySlotBad then .keySlotBad else .keyBlobInvalid, [])
    | some k =>
      match gcmOpen k (slice blob 12 12) (slice blob 0 32) (slice blob 32 n) (slice blob (32 + n) 16) with
      | none => (.keyBlobInvalid, [])
      | some key =>
        if !target (leAt blob 3 1) attr len then (.keyAttrDenied, [])
        else if keyCheckValueOf key ≠ slice blob 24 8 then (.keyKcvMismatch, [])
        else (.ok, key)

/-- An export record (Table DGST-3). -/
def exportRecord (run : DgRun) (state : Bytes) (stateLen : Nat) : Bytes :=
  let keyed := decide (run.req.op ≠ 1)
  let r := leNat 2 1 ++ leNat 1 run.req.alg ++ leNat 1 (bit keyed) ++ leNat 2 (if keyed then run.req.slot else 0) ++
    leNat 2 stateLen ++ leNat 8 run.done ++ fit 112 state ++ zeros 16
  r ++ (sha256 r).take 16

/-- Step 1 of R263; res0 bits are ignored (R9). A count that is no multiple of 128 fails it too, since a victim stops at no
other place (DESIGN CHOICE: log 53). -/
def recordOk (r : DgReq) : Bool :=
  let b := fit 160 r.record
  decide (slice b 144 16 = (sha256 (slice b 0 144)).take 16) && decide (leAt b 0 2 = 1) && decide (leAt b 2 1 = r.alg) &&
  testBit (leAt b 3 1) 0 == decide (r.op ≠ 1) && decide (leAt b 4 2 = if r.op = 1 then 0 else r.slot) &&
  decide (leAt b 8 8 ≤ r.len) && decide (leAt b 8 8 % 128 = 0)

/-- The chaining value and byte count a resumed request continues from, with the first failing status of R263. -/
def resumeFrom (r : DgReq) (s : State) : Status × Bytes × Nat :=
  let b := fit 160 r.record
  let want := if r.alg = 0 then 32 else 64
  if !recordOk r then (.badDescriptor, [], 0)
  else if r.op = 1 then
    if leAt b 6 2 = want then (.ok, slice b 16 want, leAt b 8 8) else (.badDescriptor, [], 0)
  else
    match openBlob (slice b 16 (leAt b 6 2)) (fun c a l => decide (c = (slotOf s r.slot).cid) && decide (a = 0) && decide (l = want)) s with
    | (.ok, k) => (.ok, k, leAt b 8 8)
    | (st, _) => (st, [], 0)

/-! ## Starting requests -/

/-- The source and result addresses lie within the requester's reach (R267): its own SRAM, or for an EXTERNAL source the
memory of the package. -/
def dgReachOk (r : DgReq) : Bool :=
  (if r.external then decide (r.source + r.len ≤ Config.frames * 2097152) else Config.sramReach r.requester r.source r.len) &&
  Config.sramReach r.requester r.result (algLen r.alg)

/-- A request takes an engine, its queue position now 0 (R260); an address out of reach is a bus error (R267). -/
def runDg (e : Nat) (r : DgReq) (chain outer : Bytes) (done : Nat) (s : State) : State :=
  let u : DgRun := ⟨r, s.dgst.started, chain, done, outer, none, s.tick⟩
  let s1 := updDg e (fun x => { x with run := some u }) { s with dgst := { s.dgst with started := s.dgst.started + 1 } }
  let s2 := emit (.digestPos r.requester r.desc 0) s1
  if dgReachOk r then s2 else failDg e u .notPermitted s2

/-- The compare pair of R266 after a compare. -/
def setPair (e : Nat) (same : Bool) (s : State) : State :=
  updDg e (fun x => if same then { x with cmpA := 0x5a, cmpB := 0xa5 }
    else { x with cmpA := 0xa5, cmpB := 0x5a, cmpFail := raise s.tick x.cmpFail }) s

/-- A request that finds an engine pre-empts none any more (R261). -/
def unmarkDg (r : DgReq) (s : State) : State :=
  { s with dgst := { s.dgst with engines := mapAll {} (fun _ x => { x with
      run := x.run.map (fun u => if u.preempt = some r then { u with preempt := none } else u) }) s.dgst.engines } }

/-- A request put on a free engine: its right to extend is judged again, as MR0 to MR8 may have frozen since (R268); its key is used
and, for RESUME, its record read; a failed check completes it. -/
def startDg (e : Nat) (r : DgReq) (s0 : State) : State :=
  let s := unmarkDg r s0
  if r.extend && s.belv.ready then answerDg r .notPermitted [] s
  else if r.op = 1 then
    if r.resume then
      match resumeFrom r s with
      | (.ok, c, n) => runDg e r c [] n s
      | (st, _, _) => answerDg r st [] s
    else runDg e r (algInit r.alg) [] 0 s
  else
    match useSlot r.slot (dgAttr r) r.cid s with
    | ((.ok, key), s1) =>
      let ((i, o), s2) := cachedStates r.slot r.alg key s1
      if r.resume then
        match resumeFrom r s2 with
        | (.ok, c, n) => runDg e r c o n s2
        | (st, _, _) => answerDg r st [] (checkSlots [12, 13] s2)
      else runDg e r i o 0 s2
    | ((st, _), s1) => answerDg r st [] s1

/-- The lowest free engine of DGST1 to DGST3. -/
def freeDg (s : State) : Option Nat := [1, 2, 3].find? (fun e => (dgOf s e).run.isNone)

/-- Free engines take the head of the queue (R260); `n` bounds the loop. -/
def pumpDg : Nat → State → State
  | 0, s => s
  | n + 1, s =>
    match freeDg s, s.dgst.queue with
    | some e, r :: rs => pumpDg n (startDg e r (setQueueDg rs s))
    | _, _ => s

/-- An engine that a request leaves (R262, Table DGST-4): it takes the submission that pre-empts that request where it still
waits, and free engines take the head of the queue. -/
def leaveDg (e : Nat) (run : DgRun) (s : State) : State :=
  pumpDg 16 (match run.preempt with
    | some q => if s.dgst.queue.contains q then startDg e q (setQueueDg (s.dgst.queue.erase q) s) else s
    | none => s)

/-- Which of two running requests is the victim: the lower priority, then the one that started last (R261). -/
def worseDg (a b : Nat × DgRun) : Nat × DgRun :=
  if b.2.req.prio > a.2.req.prio ∨ (b.2.req.prio = a.2.req.prio ∧ b.2.order > a.2.order) then b else a

/-- Requests running on DGST1 to DGST3. -/
def runningDg (s : State) : List (Nat × DgRun) :=
  [1, 2, 3].filterMap (fun e => (dgOf s e).run.map (fun r => (e, r)))

/-- A submission that finds no free engine pre-empts the victim of R261, where there is one not yet pre-empted. -/
def preemptFor (r : DgReq) (s : State) : State :=
  match (runningDg s).filter (fun x => decide (r.prio < x.2.req.prio) && x.2.preempt.isNone) with
  | [] => s
  | x :: xs =>
    let v := xs.foldl worseDg x
    updDg v.1 (fun y => { y with run := y.run.map (fun u => { u with preempt := some r }) }) s

/-- The key of a slot has been replaced or zeroised (R265): its cached states go. -/
def uncacheSlot (n : Nat) (s : State) : State :=
  { s with dgst := { s.dgst with cache := s.dgst.cache.filter (fun c => c.slot != n) } }

/-- A slot zeroised with its HMAC states (R265): requests running under it end with KEY_ZEROIZED. -/
def dropKey (n : Nat) (s : State) : State :=
  let s1 := uncacheSlot n (zeroiseSlot n s)
  let gone := (runningDg s1).filter (fun x => decide (x.2.req.op ≠ 1) && decide (x.2.req.slot = n))
  gone.foldl (fun s x => leaveDg x.1 x.2 (failDg x.1 x.2 .keyZeroized s)) s1

/-- Slots zeroised with their HMAC states. -/
def dropKeys (ns : List Nat) (s : State) : State := ns.foldl (fun s n => dropKey n s) s

/-- An alarm clears all four engines (R267): every running and queued request completes with its status; tamper also clears
the HMAC state cache. The image that DGST0 hashes meanwhile has lost its chaining value. -/
def alarmDg (st : Status) (cacheToo : Bool) (s : State) : State :=
  let running := runningDg s
  let queued := s.dgst.queue
  let s1 := [0, 1, 2, 3].foldl (fun s e => clearDg e s) s
  let s2 := { s1 with dgst := { s1.dgst with queue := [], cache := if cacheToo then [] else s1.dgst.cache, cut0 := decide (s.boot.phase = 3) } }
  let s3 := running.foldl (fun s x => answerDg x.2.req st [] s) s2
  queued.foldl (fun s r => answerDg r st [] s) s3

end Sys2Proof.Machine
end

