-- ==== Sys2Proof/Machine/FenceOps.lean ====
section
/-! DEFINITION. The fence channels' shared operations (04_memory_fence.md): line encryption and tags, key caches, parking,
refusals and records, locked changes, the scrub engine. -/

namespace Sys2Proof.Machine

/-! ## Line encryption (R89 to R92) -/

/-- The tweak block W of Table FENCE-1 as a number, HSEL and MSEL clear. -/
def tweakBlock (line id sel : Nat) : Nat := line % 2 ^ 52 + id % 256 * 2 ^ 52 + sel % 4 * 2 ^ 60

/-- The 32-bit line tag (R91). -/
def lineTag (kt : Bytes) (w : Nat) (ct : Bytes) : Bytes :=
  let h := beVal (aesEnc kt (leNat 16 (w + 2 ^ 126)))
  let m := beVal (aesEnc kt (leNat 16 (w + 2 ^ 127)))
  let x := (chunks 16 ct).foldl (fun x c => gcmMul (x ^^^ beVal c) h) 0
  (beNat 16 (x ^^^ m)).take 4

/-- A line under an entry: ciphertext and tag (R90 to R92; data and metadata are little-endian on the port). -/
def encryptLine (k : KcEntry) (line : Nat) (d : BitVec 512) : BitVec 512 × Word :=
  let w := tweakBlock line k.id k.sel
  let ct := xtsEnc k.k1 k.k2 (leNat 16 w) (leBv 64 d)
  (BitVec.ofNat 512 (leVal ct), BitVec.ofNat 32 (leVal (lineTag k.kt w ct)))

/-- A returned line decrypted, where its tag matches. -/
def decryptLine (k : KcEntry) (line : Nat) (ct : BitVec 512) (tag : Word) : Option (BitVec 512) :=
  let w := tweakBlock line k.id k.sel
  let c := leBv 64 ct
  if leVal (lineTag k.kt w c) = tag.toNat then some (BitVec.ofNat 512 (leVal (xtsDec k.k1 k.k2 (leNat 16 w) c))) else none

/-! ## Key caches (R94, R99) -/

/-- An entry serves requests sampled in tick `t`: no locked change has removed it before (R16). -/
def entryLive (t : Nat) (e : KcEntry) : Bool :=
  match e.dead with
  | none => true
  | some d => decide (t ≤ d)

/-- The entry of a pair. -/
def findEntry (t cid ksel : Nat) (es : List KcEntry) : Option KcEntry :=
  es.find? (fun e => e.cid == cid && e.ksel == ksel && entryLive t e)

/-- A used entry moved to the front (least-recently-used order, R94). -/
def touchEntry (e : KcEntry) (es : List KcEntry) : List KcEntry := e :: es.filter (fun x => x != e)

/-- Entries with dead ones dropped and, where 14 tenants are held, the least recently used tenant evicted. -/
def makeRoom (t : Nat) (es : List KcEntry) : List KcEntry :=
  let live := es.filter (entryLive t)
  let tenants := live.filter (fun e => !e.pinned)
  if tenants.length < 14 then live
  else match tenants.getLast? with
    | some v => live.filter (fun x => x != v)
    | none => live

/-- An entry installed (R96). -/
def installEntry (t : Nat) (e : KcEntry) (es : List KcEntry) : List KcEntry :=
  let rest := es.filter (fun x => !(x.cid == e.cid && x.ksel == e.ksel))
  if e.pinned then e :: rest.filter (entryLive t) else e :: makeRoom t rest

/-- A write under the entry is refused in tick `t` (R75, R16): its seal committed in an earlier tick. -/
def entrySealed (t : Nat) (e : KcEntry) : Bool :=
  match e.sealedAt with
  | none => false
  | some c => decide (c < t)

/-! ## Routing (R86, R88) -/

/-- Width of valid line addresses; values outside 28 to 52 act as the nearer limit (Table FENCE-14). -/
def addrBitsOf (s : State) : Nat := clamp 28 52 s.fence.addrBits.toNat

/-- The line belongs to the channel and lies below the bound. -/
def routeOk (s : State) (ch line : Nat) : Bool :=
  decide (line / 64 % Config.channels = ch) && decide (line < 2 ^ addrBitsOf s)

/-! ## Refusals and records (R103, R109, R114) -/

/-- The request is a write. -/
def isWrite (r : ChanReq) : Bool := r.data.isSome
/-- The request came on the internal port. -/
def isInternal (r : ChanReq) : Bool := match r.port with | .fabric => false | .internal _ => true

/-- Group of a pair: KSEL 1 to 3 of a tenant (R89). -/
def pairGroup (s : State) (cid ksel : Nat) : Option Nat :=
  if 1 ≤ ksel ∧ 1 ≤ cid ∧ cid ≤ 254 then mapGet none (ctxOf s cid).ksel ksel else none

/-- Group of the entry a line was read or written under (R104): its tweak ID where SEL is 1. -/
def entryGroup (e : KcEntry) : Option Nat := if e.sel = 1 then some e.id else none

/-- Bytes 10 to 23 of a fence record (Table FENCE-8), under the group `g`. -/
def fenceRecordBody (ch : Nat) (r : ChanReq) (g : Option Nat) (uerr : Bool) : Bytes :=
  leNat 2 ch ++ leNat 1 r.cid ++ leNat 1 r.ksel ++
  leNat 1 (bit uerr + 2 * bit (isWrite r) + 4 * bit g.isSome + 8 * bit (isInternal r)) ++
  leNat 1 (g.getD 0) ++ leNat 8 (r.line % 2 ^ 52)

/-- Key of the per-state record limit of R109: the state a tenant context passes through. -/
def recordState (s : State) (cid : Nat) : Nat := ctxCode (ctxOf s cid).state + 8 * (ctxOf s cid).gen.toNat

/-- A fence record, within the limits of R109: one per CID, status and state of the context (CID 0 and 255 pass through no
states: one per status, log 107), and the limits of NOT_PERMITTED and FENC_NO_KEY by time. -/
def fenceRecord (ch : Nat) (r : ChanReq) (g : Option Nat) (st : Status) (uerr : Bool) (s : State) : State :=
  let c := chanOf s ch
  let code := (statusCode st).toNat
  let once := decide (1 ≤ r.cid ∧ r.cid ≤ 254) || decide (st ≠ .notPermitted ∧ st ≠ .fencNoKey)
  let key := (r.cid, code, recordState s r.cid)
  let seen := once && c.recs.contains key
  let late := (decide (st = .notPermitted) && decide (s.tick < c.permNext)) ||
    (decide (st = .fencNoKey) && decide (s.tick < c.keyNext))
  if seen || late then s
  else
    let s1 := updChan ch (fun c => { c with
      recs := if once then key :: c.recs.filter (fun k => !(k.1 == r.cid && k.2.1 == code)) else c.recs
      permNext := if st = .notPermitted then s.tick + 250000 else c.permNext
      keyNext := if st = .fencNoKey then s.tick + 250000 else c.keyNext }) s
    postFaultRaw st 11 (fenceRecordBody ch r g uerr) s1

/-- The outstanding counter of a CID rises by one (R102). -/
def countRise (ch cid : Nat) (s : State) : State :=
  updChan ch (fun c => { c with counts := mapMod 0 c.counts cid (· + 1) }) s

/-- The outstanding counter of a CID falls by one; a fall to 0 is kept for the drain, which sees it afterwards (R102). -/
def countDown (ch cid : Nat) (s : State) : State :=
  let s1 := updChan ch (fun c => { c with counts := mapMod 0 c.counts cid (· - 1) }) s
  if mapGet 0 (chanOf s ch).counts cid = 1 then
    { s1 with fence := { s1.fence with zeroAt := mapSet 0 s1.fence.zeroAt cid (s.tick + 1) } }
  else s1

/-- Channel of a line in the full configuration (R86). -/
def lineChan (line : Nat) : Nat := line / 64 % Config.channels

/-- The order number, from 1 on, of the request whose line a digest engine reads; 0 for every other user. -/
def readOwner (s : State) (port : FencePort) : Nat :=
  match port with
  | .internal (.digest e) => (match (dgOf s e.val).run with | some run => run.order + 1 | none => 0)
  | _ => 0

/-- A refused read of a digest engine is a bus error of its request (R267); a line of a request that has ended is nobody's (log 141). -/
def digestBusError (r : ChanReq) (row : Nat) (s : State) : State :=
  let st : Status := if row = 4 then .fencNoKey else if row ≥ 6 then .fencTagFail else .notPermitted
  match r.port with
  | .internal (.digest e) =>
    match (dgOf s e.val).run with
    | some run => if run.order + 1 = r.owner then leaveDg e.val run (failDg e.val run st s) else s
    | none => s
  | _ => s

/-- A line of an operator's memory read has been answered (R319): the reply goes out with the data once every line has come,
or with the refusal's status and no data. -/
def memReadAnswer (r : ChanReq) (kind row : Nat) (d : BitVec 512) (s : State) : State :=
  let mine : MemRead → Bool := fun m => m.cid == r.cid && m.lines.any (fun l => l.1 == r.line && l.2.isNone)
  match r.port, s.fence.memReads.find? mine with
  | .internal .memoryRead, some m =>
    let rest := s.fence.memReads.filter (fun x => x != m)
    if kind = 2 then
      finish m.waiter (if row = 4 then .fencNoKey else if row ≥ 6 then .fencTagFail else .notPermitted) []
        { s with fence := { s.fence with memReads := rest } }
    else
      let ls := m.lines.map (fun l => if l.1 = r.line then (l.1, some d) else l)
      if ls.all (fun l => l.2.isSome) then
        finish m.waiter .ok (slice (ls.flatMap (fun l => leBv 64 (l.2.getD 0))) m.off m.len) { s with fence := { s.fence with memReads := rest } }
      else { s with fence := { s.fence with memReads := rest ++ [{ m with lines := ls }] } }
  | _, _ => s

/-- The request is a line of a frame in progress at the scrub engine. -/
def scrubLine (frame : Nat) (r : ChanReq) : Bool :=
  decide (r.port = .internal .scrub) && decide (r.line / 32768 = frame)

/-- The scrub jobs of the frames that satisfy `p` stop (R111): their frames stay not done, their lines that no channel has
accepted are not written, ABORTED is set, and a command that waits for such a job completes with `st` (log 21). -/
def stopScrub (p : ScrubFrame → Bool) (st : Status) (s : State) : State :=
  let nos : List Nat := (s.fence.scrub.filter p).map (·.job)
  if nos.isEmpty then s
  else
    let gone := s.fence.jobs.filter (fun j => nos.contains j.no)
    let frames := (s.fence.scrub.filter (fun x => x.started && nos.contains x.job)).map (·.frame)
    let s1 := { s with fence := { s.fence with
      scrub := s.fence.scrub.filter (fun x => !nos.contains x.job)
      jobs := s.fence.jobs.filter (fun j => !nos.contains j.no)
      chans := mapAll {} (fun _ c => { c with intQ := c.intQ.filter (fun r => !frames.any (fun f => scrubLine f r)) }) s.fence.chans
      aborted := raise s.tick s.fence.aborted } }
    gone.foldl (fun s j => finish j.waiter st [] s) s1

/-- Scrub frames under a key that has been zeroised stop with KEY_ZEROIZED (DEDUCED from R395, log 21). -/
def abortScrub (p : ScrubFrame → Bool) (s : State) : State := stopScrub p .keyZeroized s

/-- A refused scrub write stops its job: its key is gone (R111), or its CID is refused (log 108). -/
def scrubRefused (r : ChanReq) (row : Nat) (s : State) : State :=
  stopScrub (fun x => x.started && scrubLine x.frame r)
    (if row = 3 then .ctxFenced else if row = 4 then .keyZeroized else if row = 5 then .fencWriteSealed else .notPermitted) s

/-- A response on the request's port, and the fall of its count. -/
def respond (ch : Nat) (r : ChanReq) (kind row : Nat) (d : BitVec 512) (s : State) : State :=
  let s1 := countDown ch r.cid (emit (.fenceRsp ch r.port r.tag kind (if isInternal r then row else 0) d) s)
  memReadAnswer r kind row d (if kind = 2 then scrubRefused r row (digestBusError r row s1) else s1)

/-- A delayed block reset that is applied `delay` ticks from now (R106, R290, R326). -/
def raiseReset (delay : Nat) (c : ResetCause) (s : State) : State :=
  { s with pav := { s.pav with delayed := s.pav.delayed ++ [(s.tick + delay, c)] } }

/-- A tag failure or flagged read under CID 0 (R106): the channel refuses CID 0 from the next tick, the record of
the channel's first failure goes to the management events, and a block reset follows 2,500 ticks after the first failure. -/
def cid0Fault (ch : Nat) (r : ChanReq) (g : Option Nat) (st : Status) (uerr : Bool) (s : State) : State :=
  let s1 := updChan ch (fun c => { c with cid0From := some (c.cid0From.getD (s.tick + 1)) }) s
  let rec1 := leBv 2 (statusCode st) ++ leNat 8 s.tick ++ fit 53 (fenceRecordBody ch r g uerr)
  let s2 := if (chanOf s ch).cid0From.isNone then postRecord 1 11 rec1 s1 else s1
  if s.pav.cid0Failed then s2
  else raiseReset 2500 .cid0Integrity { s2 with pav := { s2.pav with cid0Failed := true } }

/-- An integrity fault of class 4 sampled (R108); it is applied by INTEGRITY_FAULT. -/
def sampleFault (unit cid cause : Nat) (s : State) : State :=
  { s with pav := { s.pav with integ := s.pav.integ ++ [⟨unit, cid, cause, s.tick⟩] } }

/-- The FAIL registers capture the first failure after both bits were clear (R114, Table FENCE-13). -/
def captureFail (ch : Nat) (r : ChanReq) (g : Option Nat) (uerr : Bool) (s : State) : State :=
  updChan ch (fun c =>
    if c.tagFail.isNone && c.uerr.isNone then
      { c with
        failAddr := BitVec.ofNat 52 r.line
        failInfo := word (r.cid + 256 * r.ksel + 2 ^ 10 * bit uerr + 2 ^ 11 * bit g.isSome +
          2 ^ 12 * bit (isInternal r) + 2 ^ 16 * g.getD 0)
        failTick := BitVec.ofNat 64 s.tick }
    else c) s

/-- What row 1 sets and counts. -/
def countReserved (ch : Nat) (s : State) : State :=
  updChan ch (fun c => { c with resCid := raise s.tick c.resCid, cntRefuse := satAdd c.cntRefuse 1 }) s

/-- What row 2 sets and counts. -/
def countRoute (ch : Nat) (s : State) : State :=
  updChan ch (fun c => { c with routeErr := raise s.tick c.routeErr, cntRefuse := satAdd c.cntRefuse 1 }) s

/-- What row 3 counts. -/
def countFenced (ch : Nat) (s : State) : State := updChan ch (fun c => { c with cntRefuse := satAdd c.cntRefuse 1 }) s

/-- Row 1: a reserved CID. -/
def refuseReserved (ch : Nat) (r : ChanReq) (s : State) : State :=
  fenceRecord ch r (pairGroup s r.cid r.ksel) .notPermitted false (respond ch r 2 1 0 (countReserved ch s))

/-- Row 2: routing or address bound. -/
def refuseRoute (ch : Nat) (r : ChanReq) (s : State) : State :=
  fenceRecord ch r (pairGroup s r.cid r.ksel) .notPermitted false (respond ch r 2 2 0 (countRoute ch s))

/-- Row 3: the CID is refused; no record. -/
def refuseFenced (ch : Nat) (r : ChanReq) (s : State) : State := respond ch r 2 3 0 (countFenced ch s)

/-- What row 4 counts. -/
def countNoKey (ch : Nat) (s : State) : State :=
  updChan ch (fun c => { c with noKey := raise s.tick c.noKey, cntNoKey := satAdd c.cntNoKey 1 }) s

/-- Row 4: no key. -/
def refuseNoKey (ch : Nat) (r : ChanReq) (s : State) : State :=
  fenceRecord ch r (pairGroup s r.cid r.ksel) .fencNoKey false (respond ch r 2 4 0 (countNoKey ch s))

/-- Row 5: a write under a sealed entry; the writer's CID becomes FENCED with CAUSE 2. -/
def refuseSealed (ch : Nat) (r : ChanReq) (e : KcEntry) (s : State) : State :=
  sampleFault ch r.cid 2 (fenceRecord ch r (entryGroup e) .fencWriteSealed false
    (respond ch r 2 5 0 (updChan ch (fun c => { c with sealedWrite := raise s.tick c.sealedWrite, cntRefuse := satAdd c.cntRefuse 1 }) s)))

/-- What a flagged read or a tag failure does beside its response (rows 6 and 7 of Table FENCE-7, R104 to R106, R114), for a
read under the group `g`, or under none. -/
def tagFault (ch : Nat) (r : ChanReq) (g : Option Nat) (uerr : Bool) (s : State) : State :=
  let s1 := captureFail ch r g uerr s
  let s2 := updChan ch (fun c => { c with
    tagFail := if uerr then c.tagFail else raise s.tick c.tagFail
    uerr := if uerr then raise s.tick c.uerr else c.uerr
    cntTag := satAdd c.cntTag 1 }) s1
  let s3 := fenceRecord ch r g .fencTagFail uerr s2
  if r.cid = 0 then cid0Fault ch r g .fencTagFail uerr s3
  else if r.cid ≤ 254 then sampleFault ch r.cid 1 s3 else s3

/-- Group that a line of a transfer is read under: that of the entry of its pair, where the channel holds one (R104). -/
def readGroup (ch : Nat) (r : ChanReq) (s : State) : Option Nat :=
  match findEntry s.tick r.cid r.ksel (chanOf s ch).entries with
  | some e => entryGroup e
  | none => pairGroup s r.cid r.ksel

/-- What the row of Table FENCE-7 that refused a line of a whole transfer does beside the response (R87, R88, R103): its sticky
bit, counter, record and fault. -/
def transferFault (st : FetchStatus) (r : ChanReq) (s : State) : State :=
  let ch := lineChan r.line
  let g := pairGroup s r.cid r.ksel
  match st with
  | .ok => s
  | .reserved => fenceRecord ch r g .notPermitted false (countReserved ch s)
  | .refused => fenceRecord ch r g .notPermitted false (countRoute ch s)
  | .fenced => countFenced ch s
  | .noKey => fenceRecord ch r g .fencNoKey false (countNoKey ch s)
  | .tagFail => tagFault ch r (readGroup ch r s) false s
  | .uerr => tagFault ch r (readGroup ch r s) true s

/-- Rows 6 and 7: a flagged read or a tag failure under the entry `e`. -/
def refuseTag (ch : Nat) (r : ChanReq) (e : KcEntry) (uerr : Bool) (s : State) : State :=
  respond ch r 2 (if uerr then 6 else 7) 0 (tagFault ch r (entryGroup e) uerr s)

/-! ## Acceptance, parking, issue (R96, R101) -/

/-- Row 3 applies to a CID at channel `ch`: from the second tick after the cause until the destroy of the context commits. -/
def cidRefused (s : State) (ch cid : Nat) : Bool :=
  let ended := match (if cid = 0 then none else (ctxOf s cid).fenceTo) with
    | some u => decide (u < s.tick)
    | none => false
  match (if cid = 0 then (chanOf s ch).cid0From else (ctxOf s cid).fenceFrom) with
  | some t => decide (t ≤ s.tick) && !ended
  | none => false

/-- A request whose key has been selected is issued to memory, or refused under row 5. -/
def issueReq (ch : Nat) (r : ChanReq) (e : KcEntry) (s : State) : State :=
  let s1 := updChan ch (fun c => { c with entries := touchEntry e c.entries, hit := satAdd c.hit 1 }) s
  match r.data with
  | none => emit (.mcReq ch false r.line 0 0) (updChan ch (fun c => { c with reads := c.reads ++ [⟨r, e, false⟩] }) s1)
  | some d =>
    if entrySealed s.tick e then refuseSealed ch r e s1
    else
      let (ct, tag) := encryptLine e r.line d
      emit (.mcReq ch true r.line ct tag) (updChan ch (fun c => { c with writes := c.writes ++ [r] }) s1)

/-- A fill raised for a pair (R96). -/
def raiseFill (ch cid ksel : Nat) (s : State) : State :=
  updChan ch (fun c => { c with fills := c.fills ++ [⟨cid, ksel, true, false, false, s.tick⟩], miss := satAdd c.miss 1 }) s

/-- A fill that still counts is outstanding for a pair. -/
def fillOutstanding (c : Chan) (cid ksel : Nat) : Bool :=
  c.fills.any (fun f => f.cid == cid && f.ksel == ksel && !f.cancelled)

/-- Fills that occupy one of the four places. -/
def liveFills (c : Chan) : Nat := (c.fills.filter (fun f => !f.cancelled)).length

/-- Row 1 of Table FENCE-7 applies: a reserved CID at the fabric port, or a read under CID 255 at the internal port. -/
def reservedReq (r : ChanReq) : Bool :=
  (!isInternal r && (decide (r.cid = 0) || decide (r.cid = 255))) || (isInternal r && !isWrite r && decide (r.cid = 255))

/-- The row of Table FENCE-7 by which a channel refuses a line at key select without asking for a key. -/
def selectRow (s : State) (ch : Nat) (r : ChanReq) : FetchStatus :=
  if reservedReq r then .reserved
  else if !routeOk s ch r.line then .refused
  else if cidRefused s ch r.cid then .fenced
  else if s.pav.tamper then .noKey
  else .ok

/-- A request at key select is refused under rows 1 to 3, or, after a zeroisation, under row 4. -/
def refusedAtSelect (s : State) (ch : Nat) (r : ChanReq) : Bool :=
  reservedReq r || !routeOk s ch r.line || cidRefused s ch r.cid || s.pav.tamper

/-- A request is held at its port (R96): the park buffer is full, or it would be the fifth distinct pair that misses. -/
def reqHeld (s : State) (ch : Nat) (r : ChanReq) : Bool :=
  let c := chanOf s ch
  decide (c.parked.length ≥ 64) ||
  (!refusedAtSelect s ch r && (findEntry s.tick r.cid r.ksel c.entries).isNone && !fillOutstanding c r.cid r.ksel &&
    decide (liveFills c ≥ 4))

/-- A request is held at its port, which sets PARK_FULL (R96). -/
def holdReq (ch : Nat) (s : State) : State := updChan ch (fun c => { c with parkFull := raise s.tick c.parkFull }) s

/-- A fill that meets zeroised keys reports KEY_ZEROIZED: the drop answers it locally with ZEROIZED in FLAGS (R98, Table
FENCE-9). -/
def reportZeroized (ch cid ksel : Nat) (s : State) : State :=
  let (d, u) := chanUnit ch
  emit (.kbusReply d (kbusHeader 0 cid ksel 4 0 0 u)) s

/-- Row 4 after a zeroisation: the request misses, and its fill reports KEY_ZEROIZED. -/
def refuseZeroized (ch : Nat) (r : ChanReq) (s : State) : State :=
  refuseNoKey ch r (reportZeroized ch r.cid r.ksel (updChan ch (fun c => { c with miss := satAdd c.miss 1 }) s))

/-- A request parked; PARK_FULL is set as the buffer fills (R96). -/
def park (ch : Nat) (r : ChanReq) (s : State) : State :=
  updChan ch (fun c => { c with
    parked := c.parked ++ [r]
    parkFull := if c.parked.length + 1 ≥ 64 then raise s.tick c.parkFull else c.parkFull }) s

/-- A request that misses: parked, and its pair's fill raised where none is outstanding (R96). -/
def missReq (ch : Nat) (r : ChanReq) (s : State) : State :=
  if fillOutstanding (chanOf s ch) r.cid r.ksel then park ch r s else raiseFill ch r.cid r.ksel (park ch r s)

/-- A request that no row up to 4 refuses at key select (Tables FENCE-4 to FENCE-6): it parks behind an earlier request to
its line (R101) or on a miss, else it is issued. -/
def selectReq (ch : Nat) (r : ChanReq) (s : State) : State :=
  let c := chanOf s ch
  match findEntry s.tick r.cid r.ksel c.entries with
  | none => missReq ch r s
  | some e => if c.parked.any (fun k => k.line == r.line) then park ch r s else issueReq ch r e s

/-- A request at a port (R87, R96, R103; Table PORT-4 keeps the fabric port's ready low before the key-distribution gate but
for the reserved CIDs): held, or accepted with its count and its outcome at key select. -/
def acceptReq (ch : Nat) (r : ChanReq) (s : State) : State :=
  if !isInternal r && !gateOpen s 1 && !reservedReq r then s
  else if reqHeld s ch r then holdReq ch s
  else
    let s1 := countRise ch r.cid s
    if reservedReq r then refuseReserved ch r s1
    else if !routeOk s ch r.line then refuseRoute ch r s1
    else if cidRefused s ch r.cid then refuseFenced ch r s1
    else if s.pav.tamper then refuseZeroized ch r s1
    else selectReq ch r s1

/-- A parked request whose entry is there re-enters key select: row 3 stands before its issue (R103, R107). -/
def reenter (ch : Nat) (r : ChanReq) (e : KcEntry) (s : State) : State :=
  if cidRefused s ch r.cid then refuseFenced ch r s else issueReq ch r e s

/-- The parked requests in acceptance order, each released where its pair's entry is there and no earlier request to its
line stays parked; `kept` holds those that stay, in order. -/
def unparkLoop (ch : Nat) : List ChanReq → List ChanReq → State → State × List ChanReq
  | [], kept, s => (s, kept)
  | r :: rs, kept, s =>
    if kept.any (fun k => k.line == r.line) then unparkLoop ch rs (kept ++ [r]) s
    else match findEntry s.tick r.cid r.ksel (chanOf s ch).entries with
      | some e => unparkLoop ch rs kept (reenter ch r e s)
      | none =>
        if fillOutstanding (chanOf s ch) r.cid r.ksel then unparkLoop ch rs (kept ++ [r]) s
        else if liveFills (chanOf s ch) < 4 then unparkLoop ch rs (kept ++ [r]) (raiseFill ch r.cid r.ksel s)
        else unparkLoop ch rs (kept ++ [r]) s

/-- The park buffer served again after a change of the key cache or of the fills. -/
def unpark (ch : Nat) (s : State) : State :=
  let (s1, kept) := unparkLoop ch (chanOf s ch).parked [] s
  updChan ch (fun c => { c with parked := kept }) s1

/-- A parked request whose fill brought no key: row 3 stands before row 4. -/
def refuseKeyless (ch : Nat) (r : ChanReq) (s : State) : State :=
  if cidRefused s ch r.cid then refuseFenced ch r s else refuseNoKey ch r s

/-- The parked requests of a pair refused, the rest served again. -/
def refuseParked (ch cid ksel : Nat) (s : State) : State :=
  let mine := (chanOf s ch).parked.filter (fun r => r.cid == cid && r.ksel == ksel)
  let s1 := updChan ch (fun c => { c with parked := c.parked.filter (fun r => !(r.cid == cid && r.ksel == ksel)) }) s
  unpark ch (mine.foldl (fun s r => refuseKeyless ch r s) s1)

/-! ## Locked changes (R16, R17, R99, R116) -/

/-- A locked change names a pair. -/
def lockNames (op : LockOp) (cid ksel id sel : Nat) : Bool :=
  match op with
  | .pairs c m => decide (c = cid) && m.getLsbD ksel
  | .ofCid c => decide (c = cid)
  | .ofGroup g => decide (sel = 1) && decide (id = g)
  | .sealGroup g => decide (sel = 1) && decide (id = g)
  | .all => decide (cid ≠ 0) && decide (cid ≠ 255)   -- entries 2 to 15: not the pinned pairs

/-- The effect of a change of commit tick `t` on an entry. -/
def lockEntry (op : LockOp) (t : Nat) (e : KcEntry) : KcEntry :=
  if !lockNames op e.cid e.ksel e.id e.sel then e
  else match op with
    | .sealGroup _ => { e with sealedAt := some (e.sealedAt.getD t) }
    | _ => { e with dead := some (e.dead.getD t) }

/-- The effect of a commit on one channel: its entries, and its fills in flight for named pairs, which are raised anew for the
tick after the commit and counted (R96, R99). -/
def lockChan (s : State) (op : LockOp) (c : Chan) : Chan :=
  let named : Fill → Bool := fun f =>
    match pairGroup s f.cid f.ksel with
    | some g => lockNames op f.cid f.ksel g 1
    | none => lockNames op f.cid f.ksel f.cid 0
  let hitFills := c.fills.filter (fun f => named f && !f.cancelled)
  { c with
    entries := c.entries.map (lockEntry op s.tick)
    fills := (c.fills.filter (fun f => !(named f && !f.cancelled && f.asked))).map
        (fun f => if named f then { f with cancelled := true } else f) ++
      hitFills.map (fun f => { f with asked := true, retried := false, cancelled := false, from_ := s.tick + 1 })
    miss := hitFills.foldl (fun n _ => satAdd n 1) c.miss }

/-- A commit on every channel of the named groups (channels that hold no state hold nothing to change). -/
def lockApply (l : Lock) (s : State) : State :=
  { s with fence := { s.fence with chans := mapAll {} (fun n c =>
      if l.groups.getLsbD (n / 32) then lockChan s l.op c else c) s.fence.chans } }

/-- A locked change of the Orangery or the Pavilion, over all 16 groups: it takes a place or waits for one (R116). -/
def issueLock (op : LockOp) (o : LockOwner) (s : State) : State :=
  let l : Lock := ⟨op, 0xffff, o, s.tick⟩
  if s.fence.locks.length < 8 ∧ s.fence.lockWait = [] then
    { s with fence := { s.fence with locks := s.fence.locks ++ [l] } }
  else { s with fence := { s.fence with lockWait := s.fence.lockWait ++ [l] } }

/-- A write of FENC_LOCK_CMD refused with ERR: 8 changes are pending, or its OP names no change (R116). -/
def refuseLock (s : State) : State := { s with fence := { s.fence with lockErr := raise s.tick s.fence.lockErr } }

/-- A locked change written to FENC_LOCK_CMD: refused with ERR while 8 are pending (R116). -/
def writeLock (op : LockOp) (s : State) : State :=
  if s.fence.locks.length < 8 then
    { s with fence := { s.fence with locks := s.fence.locks ++ [⟨op, s.fence.lockGroups, .firmware, s.tick⟩] } }
  else refuseLock s

/-! ## Scrub engine (R110, R111) -/

/-- A job of frames queued at the scrub engine, each with its identity and the pair its lines are written under; its number is
returned. -/
def queueScrub (frames : List Nat) (id : Nat → ScrubIdent) (cid ksel : Nat) (f : ScrubFor) (w : Waiter) (s : State) :
    Nat × State :=
  let n := s.fence.nextJob
  (n, { s with fence := { s.fence with
    nextJob := n + 1
    scrub := s.fence.scrub ++ frames.map (fun x => ⟨x, n, id x, cid, ksel, false⟩)
    jobs := if frames.isEmpty then s.fence.jobs else s.fence.jobs ++ [⟨n, frames.length, f, w⟩] } })

/-- The 64 lines of a frame that belong to a channel (R86), as writes of zeros at its internal port (R110). -/
def scrubLines (x : ScrubFrame) (ch : Nat) : List ChanReq :=
  (List.range 64).map (fun i => ⟨.internal .scrub, x.frame * 32768 + 64 * ch + i, x.cid, x.ksel, 0, some 0, 0⟩)

/-- The first of the entries equal to `x` marked as started. -/
def markStarted (x : ScrubFrame) : List ScrubFrame → List ScrubFrame
  | [] => []
  | y :: ys => if y = x then { y with started := true } :: ys else y :: markStarted x ys

/-- A queued frame started: every channel takes its lines. -/
def startFrame (x : ScrubFrame) (s : State) : State :=
  forUpTo Config.channels (fun ch s => updChan ch (fun c => { c with intQ := c.intQ ++ scrubLines x ch }) s)
    { s with fence := { s.fence with scrub := markStarted x s.fence.scrub } }

/-- The frames that may be in progress, up to 8 at once in queue order, started (R110). -/
def startFrames (s : State) : State :=
  ((s.fence.scrub.take 8).filter (fun x => !x.started)).foldl (fun s x => startFrame x s) s

/-- The waiting requests of a channel offered to its internal port in order, until one is held (`n` bounds the loop). -/
def offerLines (ch : Nat) : Nat → State → State
  | 0, s => s
  | n + 1, s =>
    match (chanOf s ch).intQ with
    | [] => s
    | r :: rs =>
      if reqHeld s ch r then holdReq ch s
      else offerLines ch n (acceptReq ch r (updChan ch (fun c => { c with intQ := rs }) s))

/-- An internal request presented: it waits where its port holds it or others wait before it. -/
def presentReq (ch : Nat) (r : ChanReq) (s : State) : State :=
  if !(chanOf s ch).intQ.isEmpty then updChan ch (fun c => { c with intQ := c.intQ ++ [r] }) s
  else if reqHeld s ch r then holdReq ch (updChan ch (fun c => { c with intQ := c.intQ ++ [r] }) s)
  else acceptReq ch r s

/-! ## Transfers of Ocenaip's own users whose lines are answered within one command (log 143) -/

/-- A line of such a transfer that no row refuses (R96, R102, R403): its counter rises and falls, a hit is counted, or the fill
that the line has waited for; a write under an entry at hand goes to memory. -/
def passLine (r : ChanReq) (s : State) : State :=
  let ch := lineChan r.line
  let s1 := countUp (bit (isWrite r)) r.cid 1 (countDown ch r.cid (countRise ch r.cid s))
  match findEntry s.tick r.cid r.ksel (chanOf s ch).entries, r.data with
  | none, _ => updChan ch (fun c => { c with miss := satAdd c.miss 1 }) s1
  | some e, some d =>
    let (ct, tag) := encryptLine e r.line d
    emit (.mcReq ch true r.line ct tag) (updChan ch (fun c => { c with entries := touchEntry e c.entries, hit := satAdd c.hit 1 }) s1)
  | some e, none =>
    emit (.mcReq ch false r.line 0 0) (updChan ch (fun c => { c with entries := touchEntry e c.entries, hit := satAdd c.hit 1 }) s1)

/-- A line that one of the rows 1 to 4 refuses is counted and recorded; any other passes. -/
def wholeLine (r : ChanReq) (s : State) : State :=
  let ch := lineChan r.line
  match selectRow s ch r with
  | .ok => passLine r s
  | st => transferFault st r (countDown ch r.cid (countRise ch r.cid s))

/-- The outcome of a transfer's reads: the first line that the channels refuse of themselves ends them, else what came back; a
transfer whose lines have all come with data has not failed. -/
def readsOutcome (s : State) (rs : List ChanReq) (x : LineReads) : LineReads :=
  match rs.findIdx? (fun r => decide (selectRow s (lineChan r.line) r ≠ .ok)) with
  | none => if x.served < rs.length then x else ⟨.ok, rs.length⟩
  | some i =>
    if x.status ≠ .ok ∧ x.served < i then x
    else ⟨match rs[i]? with | some r => selectRow s (lineChan r.line) r | none => x.status, i⟩

/-- The lines of a transfer read up to the first that is refused or fails, which has its row's effect. -/
def readLines (rs : List ChanReq) (x : LineReads) (s : State) : State :=
  if x.status = .ok then rs.foldl (fun s r => passLine r s) s
  else
    let s1 := (rs.take x.served).foldl (fun s r => passLine r s) s
    match rs[x.served]? with
    | some r => transferFault x.status r (countDown (lineChan r.line) r.cid (countRise (lineChan r.line) r.cid s1))
    | none => s1

/-- What the internal ports do in a tick: the scrub engine starts the frames that may be in progress, and what waits is
offered. -/
def scrubTick (s : State) : State :=
  let s1 := startFrames s
  (s1.fence.chans.filter (fun e => !e.2.intQ.isEmpty)).foldl (fun s e => offerLines e.1 (chanOf s e.1).intQ.length s) s1

/-- A frame in progress has no line left: none waits, none is parked, none is on its way to memory. -/
def frameWritten (s : State) (frame : Nat) : Bool :=
  s.fence.chans.all (fun e => !(e.2.intQ.any (scrubLine frame) || e.2.parked.any (scrubLine frame) || e.2.writes.any (scrubLine frame)))

/-- The outstanding counts of a CID over every channel and the scrub engine are all 0 (R102, R111). -/
def countsZero (cid : Nat) (s : State) : Bool :=
  s.fence.chans.all (fun (_, c) => mapGet 0 c.counts cid == 0) && s.fence.scrub.all (fun x => x.cid != cid)

end Sys2Proof.Machine
end

