-- ==== Sys2Proof/Machine/RegOps.lean ====
section
/-! DEFINITION. Reach of the masters into the register window (R415 to R418), refused writes, latches. -/

namespace Sys2Proof.Machine

/-- Control firmware: masters 1 to 4 (R416). -/
def isFirmware (m : Nat) : Bool := decide (1 ≤ m) && decide (m ≤ 4)

/-- Range of the window an offset lies in (Table REGS-1). -/
inductive Part where
  | pavilion | orangery | belvedere | digest | otp | boot | fence | link | greenhouse | pergola | spill | power | host
  | bandstand | lodge | sundial | reserved
deriving DecidableEq, Repr

/-- Part of an offset. -/
def partOf (off : Nat) : Part :=
  if off < 0x10000 then .pavilion
  else if off < 0x20000 then .orangery
  else if off < 0x30000 then .belvedere
  else if off < 0x40000 then .digest
  else if off < 0x50000 then .otp
  else if off < 0x60000 then .boot
  else if off < 0x80000 then .reserved
  else if off < 0xA0000 then .fence
  else if off < 0xC0000 then .link
  else if off < 0xD0000 then .greenhouse
  else if off < 0xE0000 then .pergola
  else if off < 0xF0000 then .spill
  else if off < 0x100000 then .power
  else if off < 0x140000 then .host
  else if off < 0x150000 then .bandstand
  else if off < 0x170000 then .lodge
  else if off < 0x180000 then .reserved
  else if off < 0x190000 then .sundial
  else .reserved

/-- Lodge master of the Lodge window or Pergola slice an offset lies in. -/
def ownLodge (off : Nat) : Nat :=
  match partOf off with
  | .lodge => 5 + (off - 0x150000) / 0x1000
  | .pergola => 5 + (off - 0xD0000) / 0x100
  | _ => 1000

/-- A master reaches an offset for writing (Table REGS-3, with the narrowings of the owning chapters). -/
def writeReach (m off : Nat) : Bool :=
  match partOf off with
  | .pavilion => isFirmware m
  | .orangery => decide (m ≤ 4)
  | .belvedere => decide (m ≤ 4)
  | .digest => if off = 0x30400 then decide (m ≤ 36) else decide (m = 0)
  | .otp => decide (m = 0)
  | .boot => isFirmware m && decide (off = 0x5002C)
  | .fence => isFirmware m
  | .link => isFirmware m
  | .greenhouse => isFirmware m
  | .spill => isFirmware m
  | .power => isFirmware m
  | .bandstand => isFirmware m
  | .pergola => isFirmware m || decide (m = ownLodge off)
  | .host => isFirmware m || decide (m = 37)
  | .lodge => if off % 0x1000 = 0x300 then decide (m = ownLodge off) else isFirmware m || decide (m = ownLodge off)
  | .sundial => isFirmware m && decide (off = 0x180008)
  | .reserved => false

/-- A master reaches an offset for reading (Table REGS-3); the test access port is judged apart (R423). -/
def readReach (m off : Nat) : Bool :=
  match partOf off with
  | .pavilion => decide (m ≤ 4)
  | .orangery => decide (m ≤ 4)
  | .belvedere => decide (m ≤ 4)
  | .digest => decide (m ≤ 36)
  | .otp => decide (m ≤ 4)
  | .boot => decide (m ≤ 4)
  | .fence => isFirmware m
  | .link => isFirmware m
  | .greenhouse => isFirmware m
  | .spill => isFirmware m
  | .power => isFirmware m
  | .bandstand => isFirmware m
  | .pergola => isFirmware m || decide (m = ownLodge off)
  | .host => isFirmware m || decide (m = 37)
  | .lodge => isFirmware m || decide (m = ownLodge off)
  | .sundial => decide (m ≤ 36)
  | .reserved => false

/-- The test access port reads as the life cycle lets it (R423, Table OTP-10): as control firmware in Maker and Returned, the
shadows and the life cycle in Integrator, nothing else. -/
def tapReach (s : State) (off : Nat) : Bool :=
  if !s.otp.sensed then false
  else if s.otp.state = 0 ∨ s.otp.state = 3 then readReach 1 off
  else if s.otp.state = 1 then decide (off = 0x40020) || decide (off = 0x40024) || (decide (0x42000 ≤ off) && decide (off < 0x44000))
  else false

/-- A read is within a master's reach (R417, R418, R423, Table PORT-4). -/
def readAllowed (s : State) (m off : Nat) : Bool :=
  if m = 38 then tapReach s off
  else readReach m off && !(decide (m = 37) && !gateOpen s 2)

/-- A write outside a master's reach (R418): no effect; a NOT_PERMITTED record, at most one per master and 1 ms. The host
target port and the test access port post nothing (R382, R423). -/
def refuseWrite (m off : Nat) (s : State) : State :=
  if m ≥ 37 ∨ s.tick < mapGet 0 s.pav.notPerm m then s
  else postFault .notPermitted 2 m (leNat 4 off)
    { s with pav := { s.pav with notPerm := mapSet 0 s.pav.notPerm m (s.tick + 250000) } }

/-- A register write: its effect within the master's reach, refused outside it. The host target port reaches nothing
before the host gate opens (Table PORT-4). -/
def guardWrite (m off : Nat) (k : State → State) (s : State) : State :=
  if m = 37 ∧ partOf off = .host ∧ gateOpen s 2 = false then s
  else if writeReach m off then k s else refuseWrite m off s

end Sys2Proof.Machine
end

