-- ==== Sys2Proof/Machine/PergolaOps.lean ====
section
/-! DEFINITION. Pergola's shared operations (15_pergola_semaphores.md): values, waiters and the pass of R346, faults, the
virtualised set, releases. -/

namespace Sys2Proof.Machine

/-- A slice. -/
def sliceOf (s : State) (d : Nat) : Slice := mapGet {} s.perg.slices d
/-- `f` applied to a slice. -/
def updSlice (d : Nat) (f : Slice → Slice) (s : State) : State :=
  { s with perg := { s.perg with slices := mapMod {} s.perg.slices d f } }

/-- Largest value of a semaphore. -/
def semMax : Nat := 1048575
/-- First virtual index (Table PERG-1). -/
def virtBase : Nat := 15360
/-- First reserved index. -/
def semReserved : Nat := 15872
/-- Number of waiter indices (R346). -/
def waiterCount : Nat := 1360

/-- pgl_op_code of an operation (Table PERG-2). -/
def pergCode : PCode → BitVec 3
  | .null => 0b000
  | .add => 0b001
  | .sub => 0b010
  | .waitGe => 0b011
  | .waitSub => 0b100
  | .read => 0b101
  | .set => 0b110
  | .realign => 0b111

/-- The operation that pgl_op_code names (Table PERG-2). -/
def pergNamed (c : BitVec 3) : PCode :=
  if c = 0b001 then .add else if c = 0b010 then .sub else if c = 0b011 then .waitGe else if c = 0b100 then .waitSub
  else if c = 0b101 then .read else if c = 0b110 then .set else if c = 0b111 then .realign else .null

/-- Every code names one operation (R343). -/
theorem pergNamed_pergCode (c : PCode) : pergNamed (pergCode c) = c := by cases c <;> rfl

/-! ## Faults (R353) -/

/-- A fault's sticky bit and counter. -/
def noteFault (tick : Nat) (st : Status) (x : Slice) : Slice :=
  match st with
  | .pergSaturated => { x with saturated := raise tick x.saturated, cntSat := satAdd x.cntSat 1 }
  | .pergUnderflow => { x with underflow := raise tick x.underflow, cntUnder := satAdd x.cntUnder 1 }
  | .pergDrift => { x with drift := raise tick x.drift, cntDrift := satAdd x.cntDrift 1 }
  | .pergWaitTimeout => { x with timeout := raise tick x.timeout, cntTimeout := satAdd x.cntTimeout 1 }
  | .pergLeftover => { x with leftover := raise tick x.leftover }
  | _ => { x with badOp := raise tick x.badOp }

/-- CODE of PERG_LAST_FAULT: the low nibble of the status, 0 for a refusal (Table PERG-10). -/
def faultNibble (st : Status) : Nat :=
  let c := (statusCode st).toNat
  if c / 256 = 10 then c % 16 else 0

/-- Core field of a record: 0xFFFF for an operation of the internal port. -/
def issuerCore : Issuer → Nat
  | .core _ c => c
  | .internal _ => 0xffff

/-- The value that an operation's index names, as its record shows it: for a virtual index the value in the context's own set, 0
where it names none. -/
def opValue (s : State) (d cid sem : Nat) : Nat :=
  if sem < 15360 then mapGet 0 (sliceOf s d).sems sem
  else if 15872 ≤ sem then 0
  else match (ctxOf s cid).home with
    | some h => mapGet 0 (sliceOf s h).sems sem
    | none => mapGet 0 (ctxOf s cid).backing (sem - 15360)

/-- A fault or a refused posted operation (R353): sticky bit, counter, PERG_LAST_FAULT, and a record within its limit. -/
def pergFault (d : Nat) (st : Status) (cid : Nat) (who : Issuer) (sem value : Nat) (s : State) : State :=
  let code := (statusCode st).toNat
  let x := sliceOf s d
  let s1 := updSlice d (fun x => { noteFault s.tick st x with
    lastFault := word (sem % 16384 + 2 ^ 16 * faultNibble st + 2 ^ 20 * cid) }) s
  if s.tick < mapGet 0 x.recs code then s1
  else postFaultRaw st 14 (leNat 1 d ++ leNat 1 cid ++ leNat 2 (issuerCore who) ++ leNat 2 sem ++ leNat 3 value)
    (updSlice d (fun x => { x with recs := mapSet 0 x.recs code (s.tick + 250000) }) s1)

/-! ## Wakes -/

/-- A wait's outcome on the issuer's wake, or at the slice whose internal port brought it (R345). -/
def wakeWait (cid : Nat) (who : Issuer) (st : Status) (s : State) : State :=
  match who with
  | .core die c => emit (.wake die c (statusCode st)) s
  | .internal d => emit (.internalWake d cid (statusCode st) 0) s

/-- The two cycles of a READ's answer (R345). -/
def wakeRead (cid : Nat) (who : Issuer) (v : Nat) (s : State) : State :=
  match who with
  | .core die c => emit (.wake die c (BitVec.ofNat 16 (v / 65536))) (emit (.wake die c (BitVec.ofNat 16 v)) s)
  | .internal d => emit (.internalWake d cid 0 (BitVec.ofNat 20 v)) s

/-- A refused answered operation: its status on the wake; for a READ, bit 15 of the second cycle is set. -/
def refuseAnswered (d cid : Nat) (who : Issuer) (isRead : Bool) (st : Status) (s : State) : State :=
  let s1 := wakeWait cid who st (updSlice d (fun x => { x with badOp := raise s.tick x.badOp }) s)
  match who, isRead with
  | .core die c, true => emit (.wake die c 0x8000) s1
  | _, _ => s1

/-- The operation is answered on the wake (R343). -/
def isAnswered : PCode → Bool
  | .waitGe => true
  | .waitSub => true
  | .read => true
  | .null => false
  | .add => false
  | .sub => false
  | .set => false
  | .realign => false

/-- A refused operation: on the wake where it is answered, under R353 where it is posted. -/
def refuseOp (d cid : Nat) (who : Issuer) (code : PCode) (sem : Nat) (st : Status) (s : State) : State :=
  if isAnswered code then refuseAnswered d cid who (decide (code = .read)) st s
  else pergFault d st cid who sem (opValue s d cid sem) s

/-! ## Values and the pass of R346 -/

/-- Value of a semaphore held in a slice. -/
def semValue (s : State) (d i : Nat) : Nat := mapGet 0 (sliceOf s d).sems i
/-- A value written without evaluating waiters. -/
def setSem (d i v : Nat) (s : State) : State := updSlice d (fun x => { x with sems := mapSet 0 x.sems i v }) s

/-- Insertion of a wait by the order of the pass that starts at `p`. -/
def insertWait (p : Nat) (w : PWait) : List PWait → List PWait
  | [] => [w]
  | x :: xs =>
    if (w.idx + waiterCount - p) % waiterCount < (x.idx + waiterCount - p) % waiterCount then w :: x :: xs
    else x :: insertWait p w xs

/-- The waits on a semaphore in the order of a pass: ascending waiter index from the pointer, wrapping. -/
def passOrder (x : Slice) (i : Nat) : List PWait :=
  (x.waits.filter (fun w => w.sem == i)).foldl (fun l w => insertWait x.ptr w l) []

/-- One waiter of a pass: satisfied where N is at most the value; a grant of WAIT_SUB lowers the value and advances the
pointer. -/
def passStep (d i : Nat) (s : State) (w : PWait) : State :=
  let v := semValue s d i
  if w.n ≤ v then
    let s1 := updSlice d (fun x => { x with
      waits := x.waits.filter (fun y => y != w)
      sems := if w.sub then mapSet 0 x.sems i (v - w.n) else x.sems
      ptr := if w.sub then (x.ptr + 1) % waiterCount else x.ptr }) s
    wakeWait w.cid w.from_ .ok s1
  else s

/-- The waiters of a semaphore evaluated in one pass after a change of its value. -/
def evalWaits (d i : Nat) (s : State) : State := (passOrder (sliceOf s d) i).foldl (passStep d i) s

/-- A value changed, then its waiters evaluated. -/
def changeSem (d i v : Nat) (s : State) : State := evalWaits d i (setSem d i v s)

/-! ## Waits -/

/-- Some wait of a core is held, on its slice, on a home slice or on the ring (R344). -/
def coreWaits (s : State) (die core : Nat) : Bool :=
  s.perg.slices.any (fun (_, x) => x.waits.any (fun w => decide (w.from_ = .core die core))) ||
  s.perg.ring.any (fun m => decide (m.from_ = .core die core) && (decide (m.code = .waitGe) || decide (m.code = .waitSub)))

/-- Lowest free waiter index for a wait (R344, R346): the core's own on its slice, 320 to 335 for this slice's internal port,
336 to 1,359 for one that came over the ring. -/
def waiterIndex (x : Slice) (d : Nat) (who : Issuer) : Option Nat :=
  let free := fun k => x.waits.all (fun w => w.idx != k)
  match who with
  | .core die c => if die = d then some c else ((List.range 1024).map (· + 336)).find? free
  | .internal k => ((List.range (if k = d then 16 else 1024)).map (· + if k = d then 320 else 336)).find? free

/-- A wait at the slice that holds its semaphore. -/
def applyWait (d i n : Nat) (sub : Bool) (cid : Nat) (who : Issuer) (s : State) : State :=
  let x := sliceOf s d
  if n ≤ semValue s d i then
    let s1 := if sub then
        evalWaits d i (updSlice d (fun x => { x with
          sems := mapSet 0 x.sems i (semValue s d i - n), ptr := (x.ptr + 1) % waiterCount }) s)
      else s
    wakeWait cid who .ok s1
  else match waiterIndex x d who with
    | none => wakeWait cid who .busy s
    | some k => updSlice d (fun x => { x with waits := x.waits ++ [⟨k, i, n, sub, cid, who, s.tick⟩] }) s

/-! ## Operations at the slice that holds the semaphore -/

/-- ADD (Table PERG-2). -/
def applyAdd (d i n cid : Nat) (who : Issuer) (s : State) : State :=
  let v := semValue s d i
  let s1 := if v + n > semMax then pergFault d .pergSaturated cid who i semMax s else s
  if n = 0 then s1 else changeSem d i (min (v + n) semMax) s1

/-- SUB (Table PERG-2). -/
def applySub (d i n cid : Nat) (who : Issuer) (s : State) : State :=
  let v := semValue s d i
  let s1 := if n > v then pergFault d .pergUnderflow cid who i 0 s else s
  if n = 0 then s1 else changeSem d i (v - n) s1

/-- Two indices name semaphores of one slice and one set (R347). -/
def sameSet (p c : Nat) : Bool :=
  (decide (p < virtBase) && decide (c < virtBase)) ||
  (decide (virtBase ≤ p) && decide (virtBase ≤ c) && decide (c < semReserved))

/-- REALIGN (Table PERG-3): one cycle, then the waiters of P and those of C. -/
def applyRealign (d p n cid : Nat) (who : Issuer) (s : State) : State :=
  let ci := n % 16384
  let b := bits n 14 5
  if !sameSet p ci then refuseOp d cid who .realign p .badDescriptor s
  else
    let vp := semValue s d p
    let vc := semValue s d ci
    let np := if vc ≤ vp then vp - vc else 0
    let drift := decide (vc > vp) || (decide (b < 20) && decide (vp - vc > 2 ^ b))
    let s1 := setSem d ci 0 (setSem d p np s)
    let s2 := if drift then pergFault d .pergDrift cid who p np s1 else s1
    evalWaits d ci (evalWaits d p s2)

/-- An operation at the slice that holds its semaphore. -/
def applyLocal (d : Nat) (code : PCode) (i n cid : Nat) (who : Issuer) (s : State) : State :=
  match code with
  | .null => refuseOp d cid who code i .badDescriptor s
  | .add => applyAdd d i n cid who s
  | .sub => applySub d i n cid who s
  | .waitGe => applyWait d i n false cid who s
  | .waitSub => applyWait d i n true cid who s
  | .read => wakeRead cid who (semValue s d i) s
  | .set => changeSem d i n s
  | .realign => applyRealign d i n cid who s

/-- An operation of the internal port on an unbound set: the same effects on the backing block (R342); no wait stays. -/
def applyBacking (d : Nat) (code : PCode) (i n cid : Nat) (who : Issuer) (s : State) : State :=
  let v := mapGet 0 (ctxOf s cid).backing (i - virtBase)
  let put := fun (k x : Nat) (s : State) => updCtx cid (fun c => { c with backing := mapSet 0 c.backing (k - virtBase) x }) s
  match code with
  | .null => refuseOp d cid who code i .badDescriptor s
  | .add => put i (min (v + n) semMax) (if v + n > semMax then pergFault d .pergSaturated cid who i semMax s else s)
  | .sub => put i (v - n) (if n > v then pergFault d .pergUnderflow cid who i 0 s else s)
  | .waitGe => wakeWait cid who (if n ≤ v then .ok else .busy) s
  | .waitSub => if n ≤ v then wakeWait cid who .ok (put i (v - n) s) else wakeWait cid who .busy s
  | .read => wakeRead cid who v s
  | .set => put i n s
  | .realign =>
    let ci := n % 16384
    let b := bits n 14 5
    if !sameSet i ci then refuseOp d cid who code i .badDescriptor s
    else
      let vc := mapGet 0 (ctxOf s cid).backing (ci - virtBase)
      let np := if vc ≤ v then v - vc else 0
      let drift := decide (vc > v) || (decide (b < 20) && decide (v - vc > 2 ^ b))
      let s1 := put ci 0 (put i np s)
      if drift then pergFault d .pergDrift cid who i np s1 else s1

/-! ## Operations at a port (R338, R339, R341, R344) -/

/-- An operation judged and applied, or forwarded to its home slice. -/
def pergOperate (d : Nat) (code : PCode) (i n cid : Nat) (who : Issuer) (s : State) : State :=
  let isWait := decide (code = .waitGe) || decide (code = .waitSub)
  let holds := match who with
    | .core die c => isWait && coreWaits s die c
    | .internal _ => false
  let fromDie := match who with | .core _ _ => true | .internal _ => false
  if code = .null then refuseOp d cid who code i .badDescriptor s
  else if i ≥ semReserved then refuseOp d cid who code i .badDescriptor s
  else if fromDie && decide (code = .set) then refuseOp d cid who code i .notPermitted s
  else if holds then refuseOp d cid who code i .badDescriptor s
  else if i < virtBase then applyLocal d code i n cid who s
  else if cid = 0 ∨ cid = 255 then refuseOp d cid who code i .notPermitted s
  else match (ctxOf s cid).home with
    | none => applyBacking d code i n cid who s
    | some h =>
      if h = d then applyLocal d code i n cid who s
      else { s with perg := { s.perg with ring := s.perg.ring ++ [⟨h, d, code, i, n, cid, who, s.tick⟩] } }

/-- The die port is discarding between the rise of ctx_clear and ldg_stamp_done for the incoming context (R351). -/
def stampGap (s : State) (d : Nat) : Bool := (dieOf s d).stampGap

/-- An operation as a command gives it: from the die port under the issuing core's stamp (R338, R351, R355), or from the
internal port under the CID it names. -/
def pergOp (code : PCode) (op : PergOp) (s : State) : State :=
  let d := op.die.val
  match op.port with
  | .internal cid => pergOperate d code op.sem.val op.n.toNat cid.val (.internal d) (grantEngine s)
  | .core c =>
    if !(dieOf s d).rstN then s
    else if stampGap s d then
      updSlice d (fun x => { x with cntDrop := satAdd x.cntDrop 1, stampDrop := raise s.tick x.stampDrop }) s
    else pergOperate d code op.sem.val op.n.toNat (dieOf s d).stampCid (.core d c.val) (grantEngine s)

/-- A status added to a semaphore of a context's virtualised set (R73): 0x1_0000 + status. -/
def deliverStatus (cid sem : Nat) (st : Status) (s : State) : State :=
  let d := (ctxOf s cid).home.getD 0
  pergOperate d .add (virtBase + sem) (0x10000 + (statusCode st).toNat) cid (.internal d) s

/-! ## Releases and the virtualised set (R341, R350) -/

/-- Every wait that satisfies `p` released with a status, on every slice; waits still on the ring as well. -/
def releaseWaits (p : Nat → Issuer → Bool) (st : Status) (s : State) : State :=
  let gone := s.perg.slices.flatMap (fun (d, x) => (x.waits.filter (fun w => p w.cid w.from_)).map (fun w => (d, w)))
  let isW : RingMsg → Bool := fun m => (decide (m.code = .waitGe) || decide (m.code = .waitSub)) && p m.cid m.from_
  let onRing := s.perg.ring.filter isW
  let s1 := forUpTo Config.dies (fun d s => updSlice d (fun x => { x with waits := x.waits.filter (fun w => !p w.cid w.from_) }) s) s
  let s2 := { s1 with perg := { s1.perg with ring := s1.perg.ring.filter (fun m => !isW m) } }
  let s3 := gone.foldl (fun s (_, w) => wakeWait w.cid w.from_ st s) s2
  onRing.foldl (fun s m => wakeWait m.cid m.from_ st s) s3

/-- The waits of a die's cores, or of one core, cancelled without a wake (R350). -/
def cancelWaits (p : Issuer → Bool) (s : State) : State :=
  let s1 := forUpTo Config.dies (fun d s => updSlice d (fun x => { x with waits := x.waits.filter (fun w => !p w.from_) }) s) s
  { s1 with perg := { s1.perg with ring := s1.perg.ring.filter (fun m =>
      !((decide (m.code = .waitGe) || decide (m.code = .waitSub)) && p m.from_)) } }

/-- An issuer is a core of a die. -/
def ofDie (d : Nat) : Issuer → Bool
  | .core die _ => decide (die = d)
  | .internal _ => false

/-- The entries of a slice's privileged semaphores as a set indexed from 0. -/
def privSet (x : Slice) : NMap Nat :=
  (x.sems.filter (fun e => decide (virtBase ≤ e.1))).map (fun e => (e.1 - virtBase, e.2))

/-- A set copied into a slice's privileged semaphores. -/
def loadPriv (b : NMap Nat) (x : Slice) : Slice :=
  { x with sems := x.sems.filter (fun e => decide (e.1 < virtBase)) ++ b.map (fun e => (e.1 + virtBase, e.2)) }

/-- Binding of a context's set (R341): this die's slice where it is free, else the lowest free slice. -/
def bindSet (cid die : Nat) (s : State) : State :=
  if (ctxOf s cid).home.isSome then s
  else
    let h := if (sliceOf s die).home.isNone then some die
      else leastBelow Config.dies (fun d => (sliceOf s d).home.isNone)
    match h with
    | none => s
    | some d => updCtx cid (fun c => { c with home := some d })
        (updSlice d (fun x => { loadPriv (ctxOf s cid).backing x with home := some cid }) s)

/-- The waits on the virtualised set that a slice holds are released with BUSY: none can exist on an unbound set (R342). -/
def freeSetWaits (d : Nat) (s : State) : State :=
  let onSet : PWait → Bool := fun w => decide (virtBase ≤ w.sem)
  ((sliceOf s d).waits.filter onSet).foldl (fun s w => wakeWait w.cid w.from_ .busy s)
    (updSlice d (fun x => { x with waits := x.waits.filter (fun w => !onSet w) }) s)

/-- Unbinding with copy-back (R341). -/
def unbindSet (cid : Nat) (s : State) : State :=
  match (ctxOf s cid).home with
  | none => s
  | some d => freeSetWaits d (updSlice d (fun x => { loadPriv [] x with home := none })
      (updCtx cid (fun c => { c with home := none, backing := privSet (sliceOf s d) }) s))

/-- The set of a destroyed context: unbound without copy-back, its block zeroed (Table PERG-5). -/
def dropSet (cid : Nat) (s : State) : State :=
  let s1 := match (ctxOf s cid).home with
    | none => s
    | some d => updSlice d (fun x => { loadPriv [] x with home := none }) s
  updCtx cid (fun c => { c with home := none, backing := [] }) s1

/-- The lowest non-zero semaphore of a core's 48 (R352). -/
def leftoverOf (s : State) (d c : Nat) : Option Nat :=
  ((sliceOf s d).sems.find? (fun e => decide (48 * c ≤ e.1) && decide (e.1 < 48 * c + 48) && decide (e.2 ≠ 0))).map (·.1)

/-- The judgement of R352 over a die's cores, in normal service. -/
def judgeLeftovers (d cid : Nat) (s : State) : State :=
  if (sliceOf s d).service then
    forUpTo 320 (fun c s =>
      match leftoverOf s d c with
      | some i => pergFault d .pergLeftover cid (.core d c) i (semValue s d i) s
      | none => s) s
  else s

/-- The core semaphores of a slice replaced, as the Lodge's SETs do: those of `vals`, all others 0; the waiters of each are then
evaluated, in the order in which the waits stand (R346). -/
def setCoreSems (d : Nat) (vals : NMap Nat) (s : State) : State :=
  let s1 := updSlice d (fun x => { x with sems := vals ++ x.sems.filter (fun e => decide (virtBase ≤ e.1)) }) s
  ((((sliceOf s d).waits.map (·.sem)).filter (fun i => decide (i < virtBase))).eraseDups).foldl (fun s i => evalWaits d i s) s1

end Sys2Proof.Machine
end

