-- ==== Sys2Proof/Machine/GrnhOps.lean ====
section
/-! DEFINITION. Greenhouse's shared operations (08_greenhouse_verification.md): pins, counters, mismatches, drops, open
operations, sampling. -/

namespace Sys2Proof.Machine

/-- A verification engine. -/
def grEngOf (s : State) (d : Nat) : GrEng := mapGet {} s.grnh.engines d
/-- `f` applied to a verification engine. -/
def updGrEng (d : Nat) (f : GrEng → GrEng) (s : State) : State :=
  { s with grnh := { s.grnh with engines := mapMod {} s.grnh.engines d f } }

/-- A coverage counter of a context raised (Table GRNH-9): 0 seen, 1 selected, 2 checked, 3 dropped, 4 in progress,
5 mismatches, 6 receipts missing, 7 operations untracked. -/
def covUp (cid i k : Nat) (s : State) : State := updCtx cid (fun c => { c with cov := mapMod 0 c.cov i (· + k) }) s
/-- A coverage counter lowered by one. -/
def covDown (cid i : Nat) (s : State) : State := updCtx cid (fun c => { c with cov := mapMod 0 c.cov i (· - 1) }) s

/-- The answer of a pin or retire semaphore (R191): discarded where the core's stamp no longer carries the CID; a PIN
above 47 names no semaphore (R186). -/
def answerPin (die core cid pin : Nat) (s : State) : State :=
  if pin ≤ 47 ∧ core < 320 ∧ (dieOf s die).stampCid = cid then
    pergOperate die .add (48 * core + pin) 1 cid (.internal die) s
  else s

/-- The pin of a receipt answered by its engine. -/
def answerRcpt (die : Nat) (r : Rcpt) (s : State) : State := answerPin die r.core r.cid r.pin s

/-- What a lost receipt answers: the PIN of its accepted header (R185, R368), on the die of the receipt queue. -/
def answerLost (q : Nat) (r : QResult) (s : State) : State :=
  match r with
  | .overrun (some p) => if 2 ≤ q ∧ q ≤ 33 then answerPin (q - 2) p.1 (dieOf s (q - 2)).stampCid p.2 s else s
  | .short (some p) => if 2 ≤ q ∧ q ≤ 33 then answerPin (q - 2) p.1 (dieOf s (q - 2)).stampCid p.2 s else s
  | .long (some p) => if 2 ≤ q ∧ q ≤ 33 then answerPin (q - 2) p.1 (dieOf s (q - 2)).stampCid p.2 s else s
  | .overrun none => s
  | .short none => s
  | .long none => s
  | .accepted => s
  | .committed => s
  | .ignored => s

/-- The policy that governs receipts of decision tick `t` (R189). -/
def policyAt (c : Ctx) (t : Nat) : VPolicy := if t > c.policyAt then c.policy else c.policyOld

/-- rate_eff in units of 2^−16 (R189). -/
def rateEff (s : State) (p : VPolicy) : Nat := min 4096 (max p.rate (rateFloor s))

/-- A mismatch (R198, R199): counters, MISMATCH, the notice on the management-event queue, and under FENCE a class 4
event of unit 512 + die. Reasons: 0 DATA, 1 STATUS, 2 BOTH, 3 MALFORMED, 4 OVERCOUNT. -/
def mismatch (die : Nat) (r : Rcpt) (reason : Nat) (fence : Bool) (s : State) : State :=
  let s1 := updGrEng die (fun e => { e with
    mismatch := raise s.tick e.mismatch
    cntMismatch := satAdd e.cntMismatch 1
    lastSdc := word (r.core % 512 + 2 ^ 16 * (r.kind % 256) + 2 ^ 24 * reason) }) s
  let s2 := postFaultEventRaw .grnhMismatch 13 (leNat 1 die ++ leNat 2 r.core ++ leNat 1 r.kind ++ leNat 1 reason)
    (covUp r.cid 5 1 s1)
  if fence then sampleFault (512 + die) r.cid 3 s2 else s2

/-- A dropped sample counted (R200). -/
def countDrop (die cid : Nat) (s : State) : State :=
  covUp cid 3 1 (updGrEng die (fun e => { e with drop := raise s.tick e.drop, cntDropped := satAdd e.cntDropped 1 }) s)

/-- The checks of an engine, with their slots. -/
def checksOf (s : State) (d : Nat) : List (Nat × Check) :=
  (grEngOf s d).slots.filterMap (fun (i, c) => c.map (fun c => (i, c)))

/-- A selected check of an operation has not ended its fetch (R195). -/
def fetchesPending (s : State) (cid vdie opseq : Nat) : Bool :=
  s.grnh.engines.any (fun (_, e) => e.slots.any (fun (_, c) => match c with
    | some c => c.rcpt.cid == cid && c.rcpt.vdie == vdie && c.rcpt.opseq == opseq && !c.fetched
    | none => false))

/-- Retire answers that no longer wait are given (R195). -/
def settleRetires (s : State) : State :=
  let due := s.grnh.retires.filter (fun r => !fetchesPending s r.cid r.vdie r.opseq)
  let s1 := { s with grnh := { s.grnh with retires := s.grnh.retires.filter (fun r => fetchesPending s r.cid r.vdie r.opseq) } }
  due.foldl (fun s r => answerPin r.die r.core r.cid r.pin s) s1

/-- A slot freed. -/
def freeSlot (d i : Nat) (s : State) : State := updGrEng d (fun e => { e with slots := mapSet none e.slots i none }) s

/-- A check dropped (R200): its pin answered if it has not been, its slot freed, its fetch counted as ended. -/
def dropCheck (d i : Nat) (c : Check) (s : State) : State :=
  let s1 := countDrop d c.rcpt.cid (covDown c.rcpt.cid 4 (freeSlot d i s))
  settleRetires (if c.copied then s1 else answerRcpt d c.rcpt s1)

/-- Every check that satisfies `p` dropped. -/
def dropChecks (p : Nat → Check → Bool) (s : State) : State :=
  forUpTo Config.dies (fun d s =>
    ((checksOf s d).filter (fun x => p d x.2)).foldl (fun s x => dropCheck d x.1 x.2 s) s) s

/-- Greenhouse has reads of a context outstanding (R194, R204). -/
def grnhBusy (cid : Nat) (s : State) : Bool :=
  s.grnh.engines.any (fun (_, e) => e.slots.any (fun (_, c) => match c with
    | some c => c.rcpt.cid == cid && !(c.copied && c.fetched)
    | none => false))

/-- The end of a context at Greenhouse (R204): its checks are dropped, its open operations and keys discarded. -/
def grnhForget (cid : Nat) (s : State) : State :=
  let s1 := dropChecks (fun _ c => c.rcpt.cid == cid) s
  { s1 with
    grnh := { s1.grnh with
      opens := s1.grnh.opens.filter (fun o => o.cid != cid)
      untracked := s1.grnh.untracked.filter (fun u => u.cid != cid)
      early := s1.grnh.early.filter (fun x => x.1 != cid)
      retires := s1.grnh.retires.filter (fun r => r.cid != cid)
      engines := mapAll {} (fun _ e =>
        { e with keys := e.keys.filter (fun k => k.1 != cid), fills := e.fills.filter (fun f => f.1 != cid) }) s1.grnh.engines }
    grnhFills := s1.grnhFills.filter (fun f => f.2 != cid) }

/-- A receipt at the head of a die's receipt queue. -/
def headRcpt (s : State) (d : Nat) : Option (Nat × Rcpt) :=
  (peekPacket (qOf s (2 + d))).map (fun es => (es.length, parseRcpt (es.map (·.payload))))

/-- What the receipt at the head of a queue meets now. -/
def headNow (s : State) (p : Nat) (r : Rcpt) : HeadRcpt :=
  ⟨p, s.tick, decide ((ctxOf s r.cid).state = .running), policyAt (ctxOf s r.cid) s.tick⟩

/-- A receipt that has reached the head noted, with its decision tick (R188). -/
def noteHead (d : Nat) (s : State) : State :=
  match (qOf s (2 + d)).order, headRcpt s d with
  | p :: _, some (_, r) =>
    if (grEngOf s d).head.any (fun h => h.pkt == p) then s
    else updGrEng d (fun e => { e with head := some (headNow s p r) }) s
  | _, _ => s

/-- A context has left RUNNING in tick `t`. -/
def leftRunning (c : Ctx) (t : Nat) : Bool :=
  decide (c.state ≠ .running) && decide (c.leftAt = t)

/-- What the decision on the receipt at the head is judged by (R188, R190, R204): the context's state and the policy of its
decision tick; a context that left RUNNING in that tick was not RUNNING in it (Table GRNH-10). -/
def headDecision (s : State) (d : Nat) (r : Rcpt) : Bool × VPolicy :=
  let p := (qOf s (2 + d)).order.headD 0
  let h := match (grEngOf s d).head with
    | some h => if h.pkt = p then h else headNow s p r
    | none => headNow s p r
  (h.running && !leftRunning (ctxOf s r.cid) h.tick, h.policy)

/-- The receipt at the head removed; the next one reaches the head. -/
def takeRcpt (d : Nat) (s : State) : State := noteHead d (putQ (2 + d) (popPacket s.tick (qOf s (2 + d))).2 s)

/-- The engines act (R206): the microcode is verified and the key-distribution gate is open. -/
def enginesOn (s : State) : Bool := s.grnh.verified && gateOpen s 1

/-- Frame of a slot's staging (R193): the first 512 frames that control firmware reserves, 16 per engine (log 116). -/
def stagingFrame (d i : Nat) : Nat := Config.bootFrames.getD (16 * d + i) 0

/-- Lines of a span of bytes that a channel holds (R86). -/
def spanLines (ch : Nat) (sp : Nat × Nat) : Nat :=
  let below : Nat → Nat := fun n => n / 32768 * 64 + min 64 (n % 32768 - 64 * ch)
  if sp.2 = 0 then 0 else below ((sp.1 + sp.2 - 1) / 64 + 1) - below (sp.1 / 64)

/-- Spans that a check copies, with their CID: the outputs read, the staging frame written (R193). -/
def copySpans (d i : Nat) (c : Check) : List (Nat × Nat × Nat) :=
  (c.rcpt.ops.zipIdx.flatMap (fun (o, k) => if o.role = 3 then (elemSpans c.rcpt k o).map (fun sp => (c.rcpt.cid, sp)) else [])) ++
  [(0, stagingFrame d i * 2097152, outBytes c.rcpt)]

/-- Spans that a check fetches (R194). -/
def fetchSpans (c : Check) : List (Nat × Nat × Nat) :=
  c.rcpt.ops.zipIdx.flatMap (fun (o, k) =>
    ((if o.role = 3 then [] else elemSpans c.rcpt k o) ++ scaleSpans c.rcpt o).map (fun sp => (c.rcpt.cid, sp)))

/-- Lines that the running copy or fetch of a check has outstanding at a channel under a CID (R102, R194). -/
def checkLines (ch cid d i : Nat) (c : Check) : Nat :=
  let spans := if !c.copied then copySpans d i c else if !c.fetched then fetchSpans c else []
  ((spans.filter (fun x => x.1 == cid)).map (fun x => spanLines ch x.2)).foldl (· + ·) 0

/-- Lines that Greenhouse has outstanding at a channel under a CID. -/
def grnhLines (s : State) (ch cid : Nat) : Nat :=
  (s.grnh.engines.flatMap (fun (d, e) => e.slots.map (fun (i, c) => match c with
    | some c => checkLines ch cid d i c
    | none => 0))).foldl (· + ·) 0

/-- Receipts of a context posted on a die whose answers are still owed (R196). -/
def answersOwed (s : State) (d cid : Nat) : Bool :=
  let q := qOf s (2 + d)
  q.order.any (fun p =>
    let r := parseRcpt ((q.items.filter (fun i => i.pkt == p)).map (·.payload))
    r.cid == cid && decide (r.pin ≤ 47)) ||
  (checksOf s d).any (fun x => x.2.rcpt.cid == cid && !x.2.copied) ||
  s.grnh.retires.any (fun r => r.die == d && r.cid == cid)

/-- The sampling block of a receipt (R188). -/
def sampleBlock (r : Rcpt) : Nat :=
  r.cid % 256 + r.opseq * 2 ^ 8 + r.tileRow * 2 ^ 72 + r.tileCol * 2 ^ 88

/-- u under a sampling key. -/
def sampleU (ks : Bytes) (r : Rcpt) : Nat := leVal ((aesEnc ks (leNat 16 (sampleBlock r))).take 4)

end Sys2Proof.Machine
end

