-- ==== Sys2Proof/Machine/Fence.lean ====
section
/-! DEFINITION. The commands of the memory fence (04_memory_fence.md): requests, memory responses, fills and pushes at the
drops, scrub frames, locked changes. -/

namespace Sys2Proof.Machine

/-- The outcome of a command that ends in a next state; no command of the block ends otherwise. -/
abbrev Result := Host.Outcome State Fault Refusal

/-- A read request at a channel (R100, R103). -/
def fenceReadEffect (r : FenceReq) (s : State) : State :=
  acceptReq r.ch.val ⟨r.port, r.line.toNat, r.cid.val, r.ksel.val, r.tag.toNat, none, readOwner s r.port⟩ s
/-- FENCE_READ_REQUEST. -/
def execFenceReadRequest (r : FenceReq) (s : State) : Result := .next (fenceReadEffect r s)

/-- A write request at a channel (R100, R103). -/
def fenceWriteEffect (r : FenceReq) (d : BitVec 512) (s : State) : State :=
  acceptReq r.ch.val ⟨r.port, r.line.toNat, r.cid.val, r.ksel.val, r.tag.toNat, some d, 0⟩ s
/-- FENCE_WRITE_REQUEST. -/
def execFenceWriteRequest (r : FenceReq) (d : BitVec 512) (s : State) : Result := .next (fenceWriteEffect r d s)

/-- The outcome of a returned line (rows 3 to 8 of Table FENCE-7): under a refused CID zeros (R107), after a zeroisation zeros
(Table FENCE-9; row 4 with its counter and record, DESIGN CHOICE, log 109), then the flag, then the tag. -/
def readOutcome (ch : Nat) (f : ReadFlight) (d : BitVec 512) (tag : Word) (uerr : Bool) (s : State) : State :=
  if f.refused || cidRefused s ch f.req.cid then refuseFenced ch f.req s
  else if s.pav.tamper then refuseNoKey ch f.req s
  else if uerr then refuseTag ch f.req f.key true s
  else match decryptLine f.key f.req.line d tag with
    | none => refuseTag ch f.req f.key false s
    | some p => countUp 0 f.req.cid 1 (respond ch f.req 0 8 p s)

/-- Ciphertext and tag return (cycle 1 + D of Table FENCE-4, R92, R103 to R107). mc_rsp carries no tag in Table PORT-2: a
response belongs to the oldest read in flight, in the order of mc_req (DESIGN CHOICE, log 110). -/
def mcResponseEffect (ch : Nat) (d : BitVec 512) (tag : Word) (uerr : Bool) (s : State) : State :=
  match (chanOf s ch).reads with
  | [] => s
  | f :: fs => readOutcome ch f d tag uerr (updChan ch (fun c => { c with reads := fs }) s)
/-- MC_RESPONSE. -/
def execMcResponse (ch : Fin 512) (d : BitVec 512) (tag : Word) (uerr : Bool) (s : State) : Result :=
  .next (mcResponseEffect ch.val d tag uerr s)

/-- A write acknowledgement for the request at position `pos` among the writes in flight (R102, Table PORT-2). -/
def mcWackEffect (ch pos : Nat) (s : State) : State :=
  match (chanOf s ch).writes[pos]? with
  | none => s
  | some r => countUp 1 r.cid 1
      (respond ch r 1 8 0 (updChan ch (fun c => { c with writes := c.writes.eraseIdx pos }) s))
/-- MC_WACK. -/
def execMcWack (ch : Fin 512) (pos : Nat) (s : State) : Result := .next (mcWackEffect ch.val pos s)

/-! ## Fills (R96 to R99, R247, R248) -/

/-- Slots, tweak ID and SEL of a fence pair (R248); none where the pair has no binding. -/
def resolvePair (s : State) (cid ksel : Nat) : Option (Nat × Nat × Nat × Nat) :=
  if cid = 0 then (if ksel = 0 then some (8, 9, 0, 0) else none)
  else if cid = 255 then (if ksel = 0 then some (10, 11, 255, 0) else none)
  else if ksel = 0 then some (ctxSlot cid 0, ctxSlot cid 1, cid, 0)
  else match pairGroup s cid ksel with
    | some g => some (groupSlot g, groupSlot g + 1, g, 1)
    | none => none

/-- SEALED of a fill: a locked change has sealed the group (R99). -/
def fillSealed (s : State) (sel id : Nat) : Bool := decide (sel = 1) && (groupOf s id).fillSealed.isSome

/-- The joiner's own key of a KSEL bound on equal check values of unequal keys, derived anew from its team key. -/
def oddKey (s : State) (cid ksel : Nat) : Option Bytes :=
  if mapGet false (ctxOf s cid).oddKsel ksel then
    match pairGroup s cid ksel with
    | some g => (deviceKey (ctxSlot cid 5) s).map (fun team => groupKeys team (groupOf s g).digest)
    | none => none
  else none

/-- The keys of a fence pair from its slots; a KSEL bound on equal check values of unequal keys fills with the joiner's own
key, under which the group's lines fail their tags (R76). -/
def pairKeys (cid ksel n1 n2 : Nat) (s : State) : Option Bytes × State :=
  let (a, s1) := engineKey n1 s
  let (b, s2) := engineKey n2 s1
  match a, b with
  | some ka, some kb => (some ((oddKey s cid ksel).getD (fit 64 ka ++ fit 32 kb)), s2)
  | _, _ => (none, s2)

/-- A fence fill answered: the message carries the keys, or NO_KEY (R236, R248). -/
def answerFenceFill (ch cid ksel : Nat) (s : State) : State :=
  let (d, u) := chanUnit ch
  let s0 := { s with orng := { s.orng with fillCnt := satAdd s.orng.fillCnt 1 } }
  match resolvePair s cid ksel with
  | none => sendKbus d (kbusHeader 0 cid ksel 2 0 0 u) [] s0
  | some (n1, n2, id, sel) =>
    match pairKeys cid ksel n1 n2 s0 with
    | (some k, s1) => sendKbus d (kbusHeader 0 cid ksel (bit (fillSealed s sel id)) id sel u) k s1
    | (none, s1) => sendKbus d (kbusHeader 0 cid ksel 2 id sel u) [] s1

/-- A link job key fill answered; the key stands in the job's slot. -/
def answerJobFill (e j : Nat) (s : State) : State :=
  let (d, u) := engineUnit e
  let (k, s1) := engineKey (jobSlot j) { s with orng := { s.orng with fillCnt := satAdd s.orng.fillCnt 1 } }
  match k with
  | some key => sendKbus d (kbusHeader 1 (jobOf s j).cid 0 0 j 0 u) (fit 32 key) s1
  | none => sendKbus d (kbusHeader 1 (jobOf s j).cid 0 2 j 0 u) [] s1

/-- A sampling-key fill answered from the context's slot at offset 3. -/
def answerSamplingFill (die cid : Nat) (s : State) : State :=
  let (k, s1) := if 1 ≤ cid ∧ cid ≤ 254 then engineKey (ctxSlot cid 3) s else (none, s)
  let s2 := { s1 with orng := { s1.orng with fillCnt := satAdd s1.orng.fillCnt 1 } }
  match k with
  | some key => sendKbus die (kbusHeader 2 cid 0 0 cid 0 19) (fit 32 key) s2
  | none => sendKbus die (kbusHeader 2 cid 0 2 cid 0 19) [] s2

/-- A fence fill of a pair may be served: it is raised, and its tick has come (R99). -/
def fillDue (s : State) (cid ksel : Nat) (x : Fill) : Bool := x.cid == cid && x.ksel == ksel && x.asked && decide (x.from_ ≤ s.tick)

/-- The Orangery serves a fill that its requester has raised, not before the key-distribution gate opens (R256); a
zeroisation has ended every one of them (R98). -/
def fillRequestEffect (f : FillReq) (s : State) : State :=
  if !gateOpen s 1 then s
  else if s.orng.zeroized then s
  else match f with
    | .fence ch cid ksel =>
      if (chanOf s ch.val).fills.any (fillDue s cid.val ksel.val) then
        answerFenceFill ch.val cid.val ksel.val (updChan ch.val (fun c => { c with
          fills := c.fills.map (fun x => if fillDue s cid.val ksel.val x then { x with asked := false } else x) }) (grantEngine s))
      else s
    | .job e j =>
      if (engOf s e.val).jobFills.any (fun p => decide (p.1 = j.val) && p.2.1) then
        answerJobFill e.val j.val (updEng e.val (fun x => { x with
          jobFills := x.jobFills.map (fun p => if p.1 = j.val then (p.1, false, p.2.2) else p) }) { s with sund := { s.sund with linkFillPtr := (s.sund.linkFillPtr + 1) % 96 } })
      else s
    | .sampling die cid =>
      if s.grnhFills.contains (die.val, cid.val) then
        answerSamplingFill die.val cid.val { s with
          grnhFills := s.grnhFills.filter (fun p => p != (die.val, cid.val))
          sund := { s.sund with grnhFillPtr := (s.sund.grnhFillPtr + 1) % 32 } }
      else s
/-- FILL_REQUEST. -/
def execFillRequest (f : FillReq) (s : State) : Result := .next (fillRequestEffect f s)

/-- The first fill of a pair whose message is on its way. -/
def takeFill (cid ksel : Nat) : List Fill → Option (Fill × List Fill)
  | [] => none
  | f :: fs =>
    if f.cid = cid ∧ f.ksel = ksel ∧ f.asked = false then some (f, fs)
    else match takeFill cid ksel fs with
      | some (g, r) => some (g, f :: r)
      | none => none

/-- A fill whose message failed its checks at the drop (R98): retried once, then its parked requests are refused,
KBUS_ERR is set and KEY_BLOB_INVALID is logged. -/
def fillFailed (ch cid ksel : Nat) (f : Fill) (rest : List Fill) (s : State) : State :=
  if f.cancelled then updChan ch (fun c => { c with fills := rest }) s
  else if !f.retried then
    updChan ch (fun c => { c with fills := rest ++ [{ f with asked := true, retried := true, from_ := s.tick }] }) s
  else
    let s1 := updChan ch (fun c => { c with fills := rest, kbusErr := raise s.tick c.kbusErr }) s
    refuseParked ch cid ksel (fenceRecord ch ⟨.fabric, 0, cid, ksel, 0, none, 0⟩ (pairGroup s cid ksel) .keyBlobInvalid false s1)

/-- A fence fill message at a drop (R98, R247): it must open under the bus key with a rising COUNTER. -/
def fenceFillMessageEffect (drop : Nat) (msg : Bytes) (s : State) : State :=
  let cid := leAt msg 1 1
  let ksel := leAt msg 2 1
  let flags := leAt msg 3 1
  match localChan drop (leAt msg 6 2) with
  | none => s
  | some ch =>
    if leAt msg 0 1 ≠ 0 then s
    else if s.pav.tamper then s
    else match takeFill cid ksel (chanOf s ch).fills with
      | none => s
      | some (f, rest) =>
        match kbusOpen (dropOf s drop) msg with
        | none => fillFailed ch cid ksel f rest s
        | some plain =>
          let s1 := updDrop drop (fun d => { d with last := leAt msg 8 8 }) s
          let s2 := updChan ch (fun c => { c with fills := rest }) s1
          if f.cancelled then s2
          else if testBit flags 1 || testBit flags 2 then refuseParked ch cid ksel s2
          else
            let e : KcEntry := { cid := cid, ksel := ksel, k1 := slice plain 0 32, k2 := slice plain 32 32, kt := slice plain 64 32, id := leAt msg 4 1, sel := leAt msg 5 1, pinned := decide (cid = 0 ∨ cid = 255), sealedAt := if testBit flags 0 then some ((groupOf s (leAt msg 4 1)).fillSealed.getD 0) else none, dead := none }
            unpark ch (updChan ch (fun c => { c with entries := installEntry s.tick e c.entries }) s2)
/-- FENCE_FILL_MESSAGE. -/
def execFenceFillMessage (drop : Fin 32) (msg : Bytes) (s : State) : Result :=
  .next (fenceFillMessageEffect drop.val msg s)

/-- An unacknowledged push 250 ticks on (R249): resent once; then KBUS_FAIL and a management event. -/
def pushAckTimeoutEffect (drop : Nat) (s : State) : State :=
  match s.orng.pushes.find? (fun p => p.drop == drop && decide (p.tick + 250 ≤ s.tick)) with
  | none => s
  | some p =>
    let s1 := { s with orng := { s.orng with pushes := s.orng.pushes.filter (fun q => q != p) } }
    if p.resent then
      postFaultEvent .timeout 16 drop [] { s1 with orng := { s1.orng with kbusFail := raise s.tick s1.orng.kbusFail } }
    else
      let s2 := sendKbus drop p.plain.1 p.plain.2 s1
      { s2 with orng := { s2.orng with
        pushes := s2.orng.pushes ++ [{ p with counter := (dropOf s2 drop).sent, tick := s.tick, resent := true }] } }
/-- PUSH_ACK_TIMEOUT. -/
def execPushAckTimeout (drop : Fin 32) (s : State) : Result := .next (pushAckTimeoutEffect drop.val s)

/-! ## Scrub frames (R110) -/

/-- The frame table's record of a frame whose scrub is done: a released frame, one of a destroyed context and one of a retired
group return to owner 255. -/
def frameScrubbed (f : ScrubFor) (x : Frame) : Frame :=
  match f with
  | .bind => { x with zeroing := false }
  | .scrub => x
  | .release c => if x.owner = c ∧ x.zeroing = false then {} else x
  | .destroy c => if x.owner = c ∧ x.cls ≠ .shared then {} else x
  | .retire g => if x.cls = .shared ∧ x.group = g then {} else x

/-- The first frame job for frame `n` among those in progress (a channel takes up to 8 frames at once). -/
def scrubInProgress (s : State) (n : Nat) : Option ScrubFrame := s.fence.scrub.find? (fun x => x.frame == n && x.started)

/-- The tick in which the last frame so far of a destroy or of a retirement was done (Us of Table CTX-10, R77). -/
def noteScrubbed (f : ScrubFor) (s : State) : State :=
  match f with
  | .destroy cid => updCtx cid (fun c => { c with destroy := c.destroy.map (fun d => { d with us := s.tick }) }) s
  | .retire g => updGroup g (fun x => { x with endAt := s.tick }) s
  | .bind => s
  | .release _ => s
  | .scrub => s

/-- The last of a frame's 32,768 lines has been acknowledged (R110): the frame is reported done; a job whose frames are all
done completes what waits for it. -/
def scrubFrameDoneEffect (n : Nat) (s : State) : State :=
  match scrubInProgress s n with
  | none => s
  | some x =>
    if !frameWritten s n then s else
    let s1 := { s with fence := { s.fence with scrub := s.fence.scrub.erase x } }
    match s1.fence.jobs.find? (fun j => j.no == x.job) with
    | none => s1
    | some j =>
      let s2 := countUp 6 x.cid 1 (updFrame n (frameScrubbed j.for_) (noteScrubbed j.for_ s1))
      if j.left ≤ 1 then
        finish j.waiter .ok [] { s2 with fence := { s2.fence with jobs := s2.fence.jobs.filter (fun y => y.no != j.no) } }
      else { s2 with fence := { s2.fence with
        jobs := s2.fence.jobs.map (fun y => if y.no = j.no then { y with left := y.left - 1 } else y) } }
/-- SCRUB_FRAME_DONE. -/
def execScrubFrameDone (frame : Fin 524288) (s : State) : Result := .next (scrubFrameDoneEffect frame.val s)

/-! ## FENC_LOCK_CMD (R116, Table FENCE-15) -/

/-- Offset of FENC_LOCK_CMD. -/
def lockCmdOff : Nat := 0x80088

/-- OP 1: invalidate the selected pairs. -/
def execLockInvalidatePairs (m : Fin 39) (id : Fin 256) (mask : BitVec 4) (s : State) : Result :=
  .next (guardWrite m.val lockCmdOff (writeLock (.pairs id.val mask)) s)
/-- OP 2: invalidate every pair of a CID. -/
def execLockInvalidateCid (m : Fin 39) (id : Fin 256) (s : State) : Result :=
  .next (guardWrite m.val lockCmdOff (writeLock (.ofCid id.val)) s)
/-- OP 3: invalidate every entry of a group. -/
def execLockInvalidateGroup (m : Fin 39) (id : Fin 256) (s : State) : Result :=
  .next (guardWrite m.val lockCmdOff (writeLock (.ofGroup id.val)) s)
/-- OP 4: seal a group. -/
def execLockSealGroup (m : Fin 39) (id : Fin 256) (s : State) : Result :=
  .next (guardWrite m.val lockCmdOff (writeLock (.sealGroup id.val)) s)
/-- OP 5: invalidate entries 2 to 15. -/
def execLockInvalidateAll (m : Fin 39) (s : State) : Result :=
  .next (guardWrite m.val lockCmdOff (writeLock .all) s)

end Sys2Proof.Machine
end

