-- ==== Sys2Proof/Machine/Orangery.lean ====
section
/-! DEFINITION. The commands of the key vault (10_orangery_keys.md) that the security monitor issues at its mailbox, the
re-masking, the entropy source and DRBG, and the establishment of bus keys. -/

namespace Sys2Proof.Machine

/-- A mailbox operation (R238, steps 1 and 2): held while the key-use gate is closed (Table BOOT-8), refused where an index is
out of its range, and after a zeroisation. -/
def vaultOp (inRange : Bool) (k : State → State) (s : State) : State :=
  if !gateOpen s 0 && !s.orng.zeroized then s
  else if !inRange then mailbox .notPermitted [] s
  else if s.orng.zeroized then mailbox .keyZeroized [] s
  else k s

/-! ## Re-masking (R235) -/

/-- Ticks since slot `n` fell due in the current period; four KCLK cycles fall in a tick. -/
def remaskLate (s : State) (start n : Nat) : Nat := (s.tick + 16384 - start % 16384 + 16384 - 4 * n) % 16384

/-- A half under a fresh mask. -/
def remaskHalf (n : Nat) (h : Half) (r : BitVec 512) : Half :=
  ⟨h.s0 ^^^ r, h.s1 ^^^ r, shareCode n 0 0 (h.s0 ^^^ r), shareCode n 0 1 (h.s1 ^^^ r)⟩

/-- The slot has been re-masked since it fell due `late` ticks ago. -/
def remasked (s : State) (x : Slot) (late : Nat) : Bool :=
  match x.maskedAt with
  | some u => decide (s.tick ≤ u + late)
  | none => false

/-- A slot whose turn in the period has come re-masked; the longest deferral is kept, saturating. -/
def remaskNow (n : Nat) (s : State) : State :=
  match s.orng.maskStart with
  | none => s
  | some t =>
    let x := slotOf s n
    let late := remaskLate s t n
    if x.state ≠ .active ∨ remasked s x late = true then s
    else
      let s0 := { s with orng := { s.orng with maxDefer := BitVec.ofNat 11 (max s.orng.maxDefer.toNat (min 2047 (4 * late))) } }
      if halfOk n 0 x.active then
        let (r, s1) := drawMask s0
        updSlot n (fun x => { x with active := remaskHalf n x.active r, maskedAt := some s.tick }) s1
      else slotFail n true s0

/-- A slot re-masked once in its period, at most 1,024 KCLK cycles late; while a reseed waits for a healthy block its draw queues
(R252). -/
def remaskEffect (n : Nat) (s : State) : State :=
  match s.orng.maskStart with
  | none => s
  | some t =>
    let late := remaskLate s t n
    if late > 256 ∨ (slotOf s n).state ≠ .active ∨ remasked s (slotOf s n) late = true ∨ s.orng.queue.any (fun q => decide (q.2 = .remask n)) = true then s
    else withDraw (.remask n) id (remaskNow n) s
/-- REMASK. -/
def execRemask (n : Fin 4096) (s : State) : Result := .next (remaskEffect n.val s)

/-! ## Entropy source and DRBG (R250 to R252) -/

/-- Raw bits of a block, byte 0 first, least significant bit first. -/
def rawBits (raw : Bytes) : List Bool := raw.flatMap (fun b => (List.range 8).map (fun i => b.getLsbD i))

/-- The repetition count test over a block (cutoff 41): the run it ends with, and whether a run reached the cutoff. -/
def rctRun : List Bool → Bool → Nat → Bool → (Bool × Nat × Bool)
  | [], b, n, f => (b, n, f)
  | x :: xs, b, n, f =>
    let n' := if x = b ∧ n > 0 then n + 1 else 1
    rctRun xs x n' (f || decide (n' ≥ 41))

/-- The adaptive proportion test over one window of 1,024 bits (cutoff 793). -/
def aptFail : List Bool → Bool
  | [] => false
  | x :: xs => decide (1 + (xs.filter (fun y => y == x)).length ≥ 793)

/-- A block of 1,024 raw bits tested and conditioned (R250); the third failure in succession puts the DRBG in ERROR
(R252). -/
def entropyEffect (raw : Bytes) (s : State) : State :=
  if raw.length ≠ 128 ∨ s.orng.zeroized then s
  else
    let bs := rawBits raw
    let (b, n, rct) := rctRun bs s.orng.runBit s.orng.runLen false
    let apt := aptFail bs
    let s1 := { s with orng := { s.orng with runBit := b, runLen := n } }
    if rct || apt then
      let s2 := { s1 with orng := { s1.orng with
        entFail := raise s.tick s1.orng.entFail
        rctFails := if rct then satAdd s1.orng.rctFails 1 else s1.orng.rctFails
        aptFails := if apt then satAdd s1.orng.aptFails 1 else s1.orng.aptFails
        failRun := s1.orng.failRun + 1 } }
      if s2.orng.failRun ≥ 3 ∧ s2.orng.error = false then
        postFaultEvent .notPermitted 16 0 [] { s2 with orng := { s2.orng with
          ready := false, error := true, maskStop := some s.tick } }
      else s2
    else { s1 with orng := { s1.orng with
      failRun := 0, pool := keepBlock (if s1.orng.ready then 1 else 2) (hmac384 (zeros 48) raw) s1.orng.pool } }
where
  /-- The newest conditioned blocks kept in hand: two before the instantiation, one in reserve after it (R251). -/
  keepBlock (room : Nat) (b : Bytes) (pool : List Bytes) : List Bytes := (pool ++ [b]).drop (pool.length + 1 - room)

/-! ## Blobs (R240 to R242) -/

/-- A working slot wrapped out (R241, R238): only working slots may be exported; `g` is the request that draws the IV. -/
def blobExportEffect (g : GenReq) (n cid : Nat) (perBoot : Bool) (s : State) : State :=
  vaultOp (decide (workingBase ≤ n)) (fun s =>
    let x := slotOf s n
    let w := if perBoot then 13 else 12
    if x.state = .bad then mailbox .keySlotBad [] s
    else if x.state = .empty then mailbox .notPermitted [] s
    else if x.cid ≠ cid then mailbox .keyAttrDenied [] s
    else if !halfOk n 0 x.active then mailbox .keySlotBad [] (slotFail n false s)
    else match deviceKey w s with
      | none => mailbox (noKeyStatus w s) [] (checkSlot w s)
      | some kw => withDraw g (mailbox .notPermitted []) (fun s =>
          let (b, s1) := wrapBlob kw x.attr cid perBoot (halfKey x.active x.len) s
          mailbox .ok b s1) s) s
/-- BLOB_EXPORT. -/
def execBlobExport (n : Fin 4096) (cid : Fin 256) (perBoot : Bool) (s : State) : Result :=
  .next (blobExportEffect (.exportBlob n cid perBoot) n.val cid.val perBoot s)

/-- A load held until its verification ends (Table ORNG-8). -/
def addLoad (l : KeyLoad) (s : State) : State := { s with orng := { s.orng with loads := s.orng.loads ++ [l] } }

/-- A blob taken for target slot `n` under an attribute, CID and length requirement: the new key is written to the pending
half, and the outcome of R242 shows when its verification ends. A blob carries no GROUP binding, so it replaces no group's key
(R244). -/
def takeBlob (n cid : Nat) (attr : BitVec 5) (len : Option Nat) (blob : Bytes) (s : State) : State :=
  let want := fun (c : Nat) (a : BitVec 5) (l : Nat) =>
    decide (c = cid) && decide (a = attr) && (match len with | some m => decide (l = m) | none => true) && (slotOf s n).group.isNone
  let (st, key) := openBlob blob want s
  addLoad { slots := [n], lens := [key.length], attrs := [attr], for_ := .blob, result := st, commitS := none, waiter := .none, consent := ([], []) }
    (setPending n key (if len.isNone then updSlot n (fun x => { x with cid := cid }) (checkSlot (blobKeySlot blob) s) else checkSlot (blobKeySlot blob) s))

/-- A blob load (R242): into a free working slot, lowest first, or into the pending half of a replacement (R244), which may
replace a BAD slot (R236). `g` is the request that draws the mask of the shares. -/
def blobLoadEffect (g : GenReq) (t : LoadTarget) (blob : Bytes) (s : State) : State :=
  vaultOp true (fun s =>
    match t with
    | .working cid attr =>
      match freeWorking 1 s with
      | [] => mailbox .busy [] s
      | n :: _ => withDraw g (mailbox .notPermitted []) (takeBlob n cid.val attr none blob) s
    | .pending slot =>
      let n := slot.val
      let x := slotOf s n
      if x.state = .empty then mailbox .notPermitted [] s
      else if x.state = .active ∧ halfOk n 0 x.active = false then mailbox .keySlotBad [] (slotFail n false s)
      else if x.pending then mailbox .busy [] s
      else withDraw g (mailbox .notPermitted []) (takeBlob n x.cid x.attr (some x.len) blob) s) s
/-- BLOB_LOAD. -/
def execBlobLoad (t : LoadTarget) (blob : Bytes) (s : State) : Result :=
  .next (blobLoadEffect (.load t blob) t blob s)

/-! ## Derivation, zeroising, compare, check values (R237 to R243) -/

/-- The output cut to the targets: 64 bytes each where it is longer than one slot, else the same value in every target. -/
def deriveParts (out : Bytes) (k : Nat) : List Bytes :=
  if out.length > 64 then (chunks 64 out).take k else List.replicate k out

/-- A working slot. -/
def isWorking (n : Nat) : Bool := decide (workingBase ≤ n)
/-- A slot of a context at an offset of Table ORNG-3. -/
def isCtxSlot (o n : Nat) : Bool := decide (448 ≤ n) && decide (n < 2480) && decide ((n - 448) % 8 = o)
/-- A hop-key slot. -/
def isHopSlot (n : Nat) : Bool := decide (64 ≤ n) && decide (n < 448)
/-- The two slots of a group. -/
def isGroupPair (ns : List Nat) : Bool :=
  match ns with
  | [a, b] => decide (2480 ≤ a) && decide (a < 2992) && decide (a % 2 = 0) && decide (b = a + 1)
  | _ => false

/-- What a derivation's label asks of it (Table ORNG-7, R274): its targets, its output length in bits where the row fixes one, the
length of a context the caller gives, its key input, and the attribute of its first target. -/
structure DeriveRow where
  targets : List Nat → Bool
  bits    : Option Nat
  context : Option Nat
  ki      : Nat → Nat → Bool
  attr    : Option (BitVec 5)

/-- One target that satisfies a test. -/
def oneTarget (p : Nat → Bool) (ns : List Nat) : Bool :=
  match ns with
  | [n] => p n
  | _ => false

/-- The row of a label. A label that no table gives takes any key and fills working slots (DESIGN CHOICE, log 147). The derivations of
Table BELV-1 run in the sequence of R230 alone: no target is theirs. -/
def deriveRow (label : Bytes) : DeriveRow :=
  let transient : Nat → Nat → Bool := fun _ ki => isWorking ki
  let fromUds : Nat → Nat → Bool := fun c ki => decide (c = 0) && decide (ki = 0)
  if label = ascii "OCN-OWNER" then ⟨oneTarget isWorking, none, none, fromUds, some attrDerive⟩
  else if label = ascii "OCN-BLOB-WRAP" then ⟨oneTarget (· == 12), some 256, none, fromUds, some attrWrap⟩
  else if label = ascii "OCN-RECORD" then ⟨fun ns => ns == [14, 15], some 384, none, fromUds, some attrEnc⟩
  else if label = ascii "OCN-IMPORT" then ⟨oneTarget isWorking, some 256, some 48, transient, some attrWrap⟩
  else if label = ascii "GRNH-SAMPLE" then ⟨oneTarget (isCtxSlot 3), some 256, none, fun c ki => decide (ki = ctxSlot c 2), some attrEngine⟩
  else if label = ascii "OCN-EVIDENCE" then ⟨oneTarget (isCtxSlot 6), some 256, none, fun c ki => decide (ki = ctxSlot c 2), some attrEnc⟩
  else if label = ascii "OCN-PREFIX" then
    ⟨fun ns => isGroupPair ns || (decide (ns.length = 2) && ns.all isWorking), some 768, some 48, fun c ki => decide (ki = ctxSlot c 5), some attrEngine⟩
  else if label = ascii "OCN-KBUS" then ⟨oneTarget (fun n => decide (17 ≤ n) && decide (n < 49)), some 256, none, transient, some attrWrap⟩
  else if label = ascii "OCN-HOP-AB" ∨ label = ascii "OCN-HOP-BA" then ⟨oneTarget isHopSlot, some 256, some 48, transient, some attrEngine⟩
  else if label = ascii "OCN-HOP-FIN" then ⟨oneTarget isWorking, some 384, some 48, transient, some attrEnc⟩
  else if label = ascii "OCN-GRANT" then ⟨oneTarget isWorking, some 256, some 48, transient, some attrWrap⟩
  else if label = ascii "OCN-DEVICEID" ∨ label = ascii "OCN-LAYER1" ∨ label = ascii "OCN-ALIAS" then ⟨fun _ => false, none, none, fun _ _ => true, none⟩
  else ⟨fun ns => ns.all isWorking, none, none, fun _ _ => true, none⟩

/-- The context of a derivation: where its row names values that the device holds, those (R274: the kill count, counter 2 as sensed);
else what the caller gives. -/
def deriveContext (d : DeriveReq) (s : State) : Bytes :=
  let target := (d.targets.headD 0).val
  if d.label = ascii "OCN-OWNER" then leNat 2 (mapGet 0 s.otp.thermo 2)
  else if d.label = ascii "OCN-BLOB-WRAP" ∨ d.label = ascii "OCN-RECORD" then identContext s
  else if d.label = ascii "GRNH-SAMPLE" ∨ d.label = ascii "OCN-EVIDENCE" then cidGen d.cid.val (ctxOf s d.cid.val).gen
  else if d.label = ascii "OCN-KBUS" then leNat 1 (target - 17) ++ fit 32 s.belv.nonce
  else d.context

/-- Every target receives a key of 16 to 64 bytes in multiples of 8 (R232): the output whole, or cut into 64-byte parts. -/
def deriveLength (bits k : Nat) : Bool :=
  decide (bits % 64 = 0) && decide (128 ≤ bits) &&
  (decide (bits ≤ 512) || (decide (k = (bits + 511) / 512) && (decide (bits % 512 = 0) || decide (128 ≤ bits % 512))))

/-- Step 1 of R238 for a derivation: it has targets, no two of them equal, and they, the output's length and that of a given context are
its row's. -/
def deriveRange (d : DeriveReq) : Bool :=
  let row := deriveRow d.label
  let ns : List Nat := d.targets.map (fun t => t.val)
  !ns.isEmpty && decide ns.Nodup && row.targets ns && deriveLength d.bits ns.length && (row.bits == none || row.bits == some d.bits) &&
  (row.context == none || row.context == some d.context.length)

/-- The attribute of each target: the record key goes into one slot for generating and one for checking (Table ORNG-2). -/
def targetAttr (d : DeriveReq) (n : Nat) : BitVec 5 := if n = 15 then attrDec else d.attr

/-- A key of a slot is for one attribute or is a reference (R232). -/
def attrValid (a : BitVec 5) : Bool := [attrRef, attrEnc, attrDec, attrWrap, attrDerive, attrEngine].contains a

/-- The CID that a target is bound to (Table ORNG-1) is that of the derivation; a group's slots serve the members bound to it (R237). -/
def targetBound (d : DeriveReq) (s : State) (n : Nat) : Bool :=
  if n < 448 then decide (d.cid.val = 0)
  else if n < 2480 then decide (d.cid.val = (n - 448) / 8 + 1)
  else if n < 2992 then (ctxOf s d.cid.val).ksel.any (fun e => decide (e.2 = some ((n - 2480) / 2)))
  else if n < 3248 then decide (d.cid.val = (jobOf s (n - 2992)).cid)
  else true

/-- Step 4 of R238 for a derivation: its key input, attribute and CID are its row's, and it acts for the CID its targets are bound to. -/
def deriveForm (d : DeriveReq) (s : State) : Bool :=
  let row := deriveRow d.label
  row.ki d.cid.val d.ki.val && (row.attr == none || row.attr == some d.attr) && attrValid d.attr &&
  d.targets.all (fun t => targetBound d s t.val)

/-- Step 3 of R238 for a derivation: the key input ACTIVE, the targets EMPTY. -/
def deriveStates (d : DeriveReq) (s : State) : Status :=
  match (slotOf s d.ki.val).state with
  | .bad => .keySlotBad
  | .empty => .notPermitted
  | .active =>
    match d.targets.find? (fun t => (slotOf s t.val).state != .empty || (slotOf s t.val).pending) with
    | some t => if (slotOf s t.val).state = .bad then .keySlotBad else .notPermitted
    | none => .ok

/-- A target filled: a group's slots are bound to CID 0 and to their group (Table ORNG-1). -/
def fillTarget (d : DeriveReq) (n : Nat) (key : Bytes) (s : State) : State :=
  if 2480 ≤ n ∧ n < 2992 then setSlot n (targetAttr d n) 0 (some ((n - 2480) / 2)) key s
  else setSlot n (targetAttr d n) d.cid.val none key s

/-- A derivation (R243), its checks in the order of R238; `g` is the request that draws the masks. -/
def deriveEffect (g : GenReq) (d : DeriveReq) (s : State) : State :=
  vaultOp (deriveRange d) (fun s =>
    match deriveStates d s with
    | .ok =>
      if !deriveForm d s then mailbox .keyAttrDenied [] s
      else match useSlot d.ki.val attrDerive d.cid.val s with
      | ((.ok, ki), s1) => withDraw g (mailbox .notPermitted []) (fun s =>
          let parts := deriveParts (kdf ki d.label (deriveContext d s) d.bits) d.targets.length
          mailbox .ok [] ((d.targets.zip parts).foldl (fun s p => fillTarget d p.1.val p.2 s) s)) s1
      | ((st, _), s1) => mailbox st [] s1
    | st => mailbox st [] s) s
/-- DERIVE. -/
def execDerive (d : DeriveReq) (s : State) : Result := .next (deriveEffect (.derive d) d s)

/-- A slot zeroised (R237): ACTIVE or BAD, on behalf of its CID. -/
def zeroiseEffect (n cid : Nat) (s : State) : State :=
  vaultOp true (fun s =>
    let x := slotOf s n
    if x.state = .empty ∧ x.pending = false then mailbox .notPermitted [] s
    else if x.cid ≠ cid then mailbox .keyAttrDenied [] s
    else mailbox .ok [] (dropKey n s)) s
/-- ZEROISE. -/
def execZeroise (n : Fin 4096) (cid : Fin 256) (s : State) : Result := .next (zeroiseEffect n.val cid.val s)

/-- A reference compared with a supplied value (Table ORNG-4). -/
def compareEffect (n cid : Nat) (v : Bytes) (s : State) : State :=
  vaultOp true (fun s =>
    match useSlot n attrRef cid s with
    | ((.ok, key), s1) => mailbox (if key = v then .ok else .dgstCompareFail) [] s1
    | ((st, _), s1) => mailbox st [] s1) s
/-- COMPARE. -/
def execCompare (n : Fin 4096) (cid : Fin 256) (v : Bytes) (s : State) : Result := .next (compareEffect n.val cid.val v s)

/-- The slot opens a private set or a group's keys, whose check value covers the next slot as well (R239). -/
def opensSet (n : Nat) : Bool :=
  (decide (448 ≤ n) && decide (n < 2480) && decide ((n - 448) % 8 = 0)) ||
  (decide (2480 ≤ n) && decide (n < 2992) && decide (n % 2 = 0))

/-- A key check value (R239), of any ACTIVE slot. -/
def kcvEffect (n : Nat) (s : State) : State :=
  vaultOp true (fun s =>
    let x := slotOf s n
    match useSlot n x.attr x.cid s with
    | ((.ok, key), s1) =>
      if opensSet n then
        let y := slotOf s1 (n + 1)
        match useSlot (n + 1) y.attr y.cid s1 with
        | ((.ok, kt), s2) => mailbox .ok (keyCheckValueOf (key ++ kt)) s2
        | ((st, _), s2) => mailbox st [] s2
      else mailbox .ok (keyCheckValueOf key) s1
    | ((st, _), s1) => mailbox st [] s1) s
/-- KEY_CHECK_VALUE. -/
def execKeyCheckValue (n : Fin 4096) (s : State) : Result := .next (kcvEffect n.val s)

/-! ## Bus keys (R245) -/

/-- Gates that may open in the device's life-cycle state (R300, R309). -/
def gatesAllowed (s : State) : BitVec 8 :=
  if s.otp.state ≥ 4 then 0x0c
  else if s.belv.publicOnly && decide (s.otp.state ≠ 0) then 0x0c
  else 0xff

/-- Gates opened. -/
def openGates (m : BitVec 8) (s : State) : State := { s with gates := s.gates ||| (m &&& gatesAllowed s) }

/-- Both BOOT_VERIFIED registers hold their pass values (R306). -/
def isVerified (s : State) : Bool := s.boot.verA == 0x5a && s.boot.verB == 0xa5

/-- The ephemeral key pair of an establishment drawn into slot 16; its public key goes to every drop. -/
def sendKbusPub (s : State) : State :=
  let (sec, s1) := drbg 48 s
  let pub := Config.ecdhPublic sec
  let s2 := setSlot 16 attrWrap 0 none sec s1
  forUpTo Config.dies (fun d s => emit (.kbus d pub) s) { s2 with orng := { s2.orng with kbusPub := pub, booting := true } }

/-- Establishment begins (R245 step 1): after verification and the Belvedere derivations (R256). -/
def kbusEstablishEffect (s : State) : State :=
  if isVerified s && s.boot.belvDone && !s.orng.booting && !s.orng.kbusReady && !s.orng.zeroized then
    withDraw .kbus id sendKbusPub s
  else s
/-- KBUS_ESTABLISH. -/
def execKbusEstablish (s : State) : Result := .next (kbusEstablishEffect s)

/-- Confirmation of a bus key: 8 bytes of AES-256 over "KBUS", the drop and zeros. -/
def kbusConf (key : Bytes) (n : Nat) : Bytes := (aesEnc key (ascii "KBUS" ++ leNat 1 n ++ zeros 11)).take 8

/-- A TYPE 5 part for the die is still to be checked: the die stays HELD (R308). -/
def heldBack (s : State) (d : Nat) : Bool := s.boot.dieParts.any (fun p => p.2.contains d)

/-- Dies released (Table ARCH-7, Table BOOT-8): each HELD die that no part holds back, once the compute-die release gate and the
key-distribution gate are open. -/
def releaseDies (s : State) : State :=
  if gateOpen s 7 && gateOpen s 1 then
    forUpTo Config.dies (fun d s =>
      if heldBack s d then s
      else updDie d (fun x => if x.state = .held ∧ x.releasedAt.isNone then { x with releasedAt := some s.tick } else x) s) s
  else s

/-- Every drop is up: slot 16 is zeroised, KBUS_READY rises, the key-distribution gate opens and the pinned entries go out
(R245, R249). -/
def kbusAllUp (s : State) : State :=
  let s1 := dropKey 16 { s with orng := { s.orng with kbusReady := true, booting := false } }
  if isVerified s1 && (gatesAllowed s1).getLsbD 1 then releaseDies (pushPinned (openGates 0x02 s1)) else s1

/-- A drop's public key and confirmation (R245 steps 3 to 5): compared; a drop that fails is tried once more. The bus key's shares are
drawn (R252). -/
def kbusConfEffect (n : Nat) (pub conf : Bytes) (s : State) : State :=
  if !s.orng.booting || s.orng.zeroized || s.orng.kbusUp.getLsbD n || decide ((dropOf s n).attempts ≥ 2) then s
  else withDraw (.kbusConf n pub conf) id (judgeConf n pub conf) s
where
  /-- The confirmation compared. -/
  judgeConf (n : Nat) (pub conf : Bytes) (s : State) : State :=
    match (deviceKey 16 s).bind (fun sec => Config.ecdhShared sec pub) |>.map (fun x => kdf x (ascii "OCN-KBUS") (leNat 1 n ++ fit 32 s.belv.nonce) 256) with
    | some k =>
      if kbusConf k n = conf then
        let s1 := updDrop n (fun d => { d with key := some k, last := 0, sent := 0 }) (setSlot (busSlot n) attrWrap 0 none k s)
        let s2 := { s1 with orng := { s1.orng with kbusUp := s1.orng.kbusUp ||| (1#32 <<< n) } }
        if s2.orng.kbusUp = BitVec.allOnes 32 then kbusAllUp s2 else s2
      else kbusFailed n s
    | none => kbusFailed n (checkSlot 16 s)
  /-- A failed comparison: the exchange is offered once more, then KBUS_FAIL. -/
  kbusFailed (n : Nat) (s : State) : State :=
    let a := (dropOf s n).attempts + 1
    let s1 := updDrop n (fun d => { d with attempts := a }) s
    if a ≥ 2 then { s1 with orng := { s1.orng with kbusFail := raise s.tick s1.orng.kbusFail } }
    else emit (.kbus n s1.orng.kbusPub) s1
/-- KBUS_CONFIRMATION. -/
def execKbusConfirmation (drop : Fin 32) (pub conf : Bytes) (s : State) : Result :=
  .next (kbusConfEffect drop.val pub conf s)

end Sys2Proof.Machine
end

