-- ==== Sys2Proof/Machine/BelvOps.lean ====
section
/-! DEFINITION. Belvedere's shared operations (09_belvedere_attestation.md): measurement registers and log, the signing
queue, evidence records, certificates. -/

namespace Sys2Proof.Machine

/-! ## Measurement registers (R216, R217) -/

/-- A measurement register. -/
def mrOf (s : State) (r : Nat) : Bytes := mapGet (zeros 48) s.belv.mr r

/-- An extend and its log entry (Table BELV-6); sources: 0 Gatehouse ROM, 1 security monitor, 2 operator. -/
def extendMr (r src : Nat) (d : Bytes) (s : State) : State :=
  { s with belv := { s.belv with
    mr := mapSet (zeros 48) s.belv.mr r (sha384 (mrOf s r ++ fit 48 d))
    log := s.belv.log ++ [leNat 1 r ++ leNat 1 src ++ zeros 6 ++ leNat 8 s.tick ++ fit 48 d] } }

/-- A device extend under Table BELV-5: MR0 to MR8 until READY. -/
def extendDevice (r src : Nat) (d : Bytes) (s : State) : State :=
  if s.belv.ready then s else extendMr r src d s

/-- A context measurement register extended with a 48-byte input. -/
def extendCmr (cid r : Nat) (d : Bytes) (s : State) : State :=
  updCtx cid (fun c => { c with cmr := mapSet (zeros 48) c.cmr r (sha384 (mapGet (zeros 48) c.cmr r ++ d)) }) s

/-- A context measurement register extended by Ocenaip with the digest of what it accepted (Table BELV-7). -/
def measureCmr (cid r : Nat) (m : Bytes) (s : State) : State := extendCmr cid r (sha384 m) s

/-! ## Signing (R219, R221) -/

/-- A signing request queued; a seventeenth is refused, and SIGN_BUSY is set. -/
def queueSign (r : SignReq) (s : State) : Bool × State :=
  if s.belv.queue.length < 16 then (true, { s with belv := { s.belv with queue := s.belv.queue ++ [r] } })
  else (false, { s with belv := { s.belv with signBusy := raise s.tick s.belv.signBusy } })

/-- The hybrid signature of bytes under the alias keys of slots 4 and 5 (R221): 96 and 4,627 bytes. -/
def hybridSign (msg : Bytes) (s : State) : Bytes :=
  fit 96 (Config.ecdsaSign ((deviceKey 4 s).getD []) msg) ++ fit 4627 (Config.mldsaSign ((deviceKey 5 s).getD []) msg)

/-- The alias keys are there and pass their codes. -/
def signReady (s : State) : Bool := (deviceKey 4 s).isSome && (deviceKey 5 s).isSome

/-- Why they are not. -/
def signStatus (s : State) : Status := if (deviceKey 4 s).isNone then noKeyStatus 4 s else noKeyStatus 5 s

/-- The alias keys checked for a use (R234). -/
def checkAlias (s : State) : State := checkSlots [4, 5] s

end Sys2Proof.Machine
end

