-- ==== Sys2Proof/Machine/OtpOps.lean ====
section
/-! DEFINITION. The OTP array's shared operations (12_otp_and_lifecycle.md): word coding, regions, thermometer counters,
policy values in force, burns and their completion. -/

namespace Sys2Proof.Machine

/-! ## Word coding (R271) -/

/-- Column of data bit `i`: the (i + 1)th smallest 8-bit value with exactly three bits set. -/
def otpColumn (i : Nat) : BitVec 8 := BitVec.ofNat 8 (((List.range 256).filter (fun v => popCount 8 v == 3)).getD i 0)

/-- P(data): each check bit is the exclusive or of the data bits whose column has it set. -/
def otpParity (d : Word) : BitVec 8 :=
  (List.range 32).foldl (fun p i => if d.getLsbD i then p ^^^ otpColumn i else p) 0

/-- The 40 bits of an ECC word. -/
def otpEncode (d : Word) : BitVec 40 := (otpParity d ^^^ 0x5a) ++ d

/-- Data bits of a word. -/
def otpData (w : BitVec 40) : Word := w.setWidth 32
/-- Check bits of a word. -/
def otpCheck (w : BitVec 40) : BitVec 8 := (w >>> 32).setWidth 8

/-- An ECC word decoded by its syndrome; none where it is uncorrectable. -/
def otpDecode (w : BitVec 40) : Option Word :=
  let d := otpData w
  let s := otpParity d ^^^ otpCheck w ^^^ 0x5a
  if s = 0 ∨ popCount 8 s.toNat = 1 then some d
  else match (List.range 32).find? (fun i => otpColumn i == s) with
    | some i => some (d ^^^ (1#32 <<< i))
    | none => none

/-! ## The array map (Table OTP-1) -/

/-- Lock words. -/
def isLockWord (w : Nat) : Bool := [7, 63, 127, 143, 159].contains w
/-- Words of the thermometer counters. -/
def isThermoWord (w : Nat) : Bool := decide (8 ≤ w) && decide (w ≤ 55)
/-- Words whose marginal reads make them invalid outright (Table OTP-3). -/
def isIdentityWord (w : Nat) : Bool :=
  (decide (64 ≤ w) && decide (w ≤ 95)) || (decide (144 ≤ w) && decide (w ≤ 156))
/-- ECC words of POLICY. -/
def isPolicyWord (w : Nat) : Bool := decide (128 ≤ w) && decide (w ≤ 130)
/-- Listed words. -/
def isListed (w : Nat) : Bool := decide (w ≤ 4) || isLockWord w || isThermoWord w || isIdentityWord w || isPolicyWord w

/-- A word of the array. -/
def arrayWord (s : State) (w : Nat) : BitVec 40 := mapGet 0 s.otp.array w

/-- The regions that R278 judges: content words, digest word, lock word; IDENT, POLICY and MGMT in order. -/
structure OtpRegion where
  first  : Nat
  count  : Nat
  digest : Nat
  lock   : Nat
deriving DecidableEq, Repr

/-- A region by the number LOCK names it with. -/
def otpRegion (i : Nat) : OtpRegion :=
  if i = 0 then ⟨64, 31, 95, 127⟩ else if i = 1 then ⟨128, 2, 130, 143⟩ else ⟨144, 12, 156, 159⟩

/-- Region of a word that PROGRAM may name (Table OTP-6). -/
def regionOfWord (w : Nat) : Option Nat :=
  if 80 ≤ w ∧ w ≤ 95 then some 0 else if 128 ≤ w ∧ w ≤ 130 then some 1 else if 144 ≤ w ∧ w ≤ 156 then some 2 else none

/-- Content words of a region. -/
def contentWords (r : OtpRegion) : List Nat := (List.range r.count).map (· + r.first)

/-- The region digest: 4 bytes of SHA-384 over the content words, as a little-endian value (R278). -/
def regionDigest (vals : List Word) : Word := word (leAt (sha384 (vals.flatMap (leBv 4))) 0 4)

/-- A sensed word as R278 uses it. -/
def shadowVal (x : ShadowWord) : Option Word := if x.valid && !x.blank then some x.data else none

/-- Every value of a list is there. -/
def allSome {α : Type} : List (Option α) → Option (List α)
  | [] => some []
  | none :: _ => none
  | some x :: xs => (allSome xs).map (x :: ·)

/-- A region is complete, its words read by `get`. -/
def regionComplete (get : Nat → Option Word) (r : OtpRegion) : Bool :=
  match allSome ((contentWords r).map get), get r.digest with
  | some vs, some d => decide (d = regionDigest vs)
  | _, _ => false

/-- The array's own value of an ECC word, read at both margins. -/
def arrayVal (s : State) (w : Nat) : Option Word := if arrayWord s w = 0 then none else otpDecode (arrayWord s w)

/-- The two reads of a word: those a command names, else the array's bits. -/
def readsOf (reads : List SensedWord) (s : State) (w : Nat) : BitVec 40 × BitVec 40 :=
  match reads.find? (fun r => decide (r.word.val = w)) with
  | some r => (r.low, r.high)
  | none => (arrayWord s w, arrayWord s w)

/-- A word's shadow from its two reads (R276, Table OTP-3). An ECC word shows the value that both reads decode to, a marginal identity or
key word too, which is invalid all the same; where they decode to no one value it shows 0. -/
def senseWord (w : Nat) (lo hi : BitVec 40) : ShadowWord :=
  let marg := decide (lo ≠ hi)
  let both := lo ||| hi
  if w ≤ 4 then { data := otpData both, valid := !marg, blank := decide (both = 0), marginal := marg }
  else if isLockWord w || isThermoWord w then { data := otpData both, valid := true, blank := decide (both = 0), marginal := marg }
  else
    match (if otpDecode lo = otpDecode hi then otpDecode lo else none) with
    | some d => { data := if both = 0 then 0 else d, valid := !(marg && isIdentityWord w), blank := decide (both = 0), marginal := marg }
    | none => { data := 0, valid := decide (both = 0), blank := decide (both = 0), marginal := marg }

/-- A word re-read at both margins, as R278 uses it (R280). -/
def rereadVal (reads : List SensedWord) (s : State) (w : Nat) : Option Word :=
  shadowVal (senseWord w (readsOf reads s w).1 (readsOf reads s w).2)

/-- A lock word's data read as locked (R275). -/
def lockedData (d : Word) : Bool := decide (popCount 32 d.toNat ≥ 16)
/-- A region is locked in the array. -/
def arrayLocked (s : State) (w : Nat) : Bool := lockedData (otpData (arrayWord s w))

/-- Value of a thermometer counter whose words are read by `get` (R273). -/
def thermoValue (get : Nat → Word) (c : Nat) : Nat :=
  let burned := fun b =>
    decide (2 ≤ ((List.range 3).filter (fun p => (get (8 + 12 * c + 4 * p + b / 32)).getLsbD (b % 32))).length)
  forUpTo 128 (fun b v => if burned b then b + 1 else v) 0

/-- Value of a counter as the array stands. -/
def thermoNow (s : State) (c : Nat) : Nat := thermoValue (fun w => otpData (arrayWord s w)) c

/-- SHA-384 digest of the unit ID. -/
def unitDigest (s : State) : Bytes := sha384 (shadowBytes s 81 2)
/-- IDENT is complete as sensed. -/
def identComplete (s : State) : Bool := s.otp.region.getLsbD 0
/-- The Ehrov root digest that the ROM holds (R299). -/
def trustAnchor (s : State) : Bytes := if identComplete s then shadowBytes s 83 12 else Config.romAnchor
/-- The management credential anchor digest. -/
def mgmtAnchor (s : State) : Bytes := (List.range 12).flatMap (fun i => leBv 4 (wordInForce s (144 + i)))

/-- The code of a life-cycle state (Table OTP-7). -/
def lcCode (n : Nat) : Word :=
  if n = 0 then 0 else if n = 1 then 0xff else if n = 2 then 0xffff else if n = 3 then 0xffffff else 0xffffffff

/-- Highest state named by the intent field of a copy's reads; 0 where no bit is burned. -/
def intentOf (w : BitVec 40) : Nat :=
  if w.getLsbD 35 then 4 else if w.getLsbD 34 then 3 else if w.getLsbD 33 then 2 else if w.getLsbD 32 then 1 else 0

/-- The bits of a copy that has advanced to state `x` (R287): its intent bit and the code. -/
def copyTarget (x : Nat) : BitVec 40 := (1#40 <<< (31 + x)) ||| (lcCode x).setWidth 40

/-! ## Burns (R283, R284) -/

/-- Both supplies lie in their windows (R283). -/
def suppliesOk (v : Supplies) : Bool :=
  decide (1746 ≤ v.progMv) && decide (v.progMv ≤ 1854) && decide (950 ≤ v.coreMil) && decide (v.coreMil ≤ 1050)

/-- Status of a controller command without a pulse. -/
def otpStatus (st : Status) (w : Waiter) (s : State) : State :=
  finish w st [] { s with otp := { s.otp with cmdStatus := statusCode st, cmdPulses := 0 } }

/-- A vote's number of a code among valid copies. -/
def copyHolds (s : State) (c n : Nat) : Bool :=
  let x := shadowOf s c
  x.valid && decide (x.data = lcCode n)

/-- The vote of R286 over the sensed copies: state number and copies agreeing. -/
def lcVote (s : State) : Nat × Nat :=
  let count := fun n => ((List.range 5).filter (fun c => copyHolds s c n)).length
  match (List.range 5).find? (fun n => decide (count n ≥ 3)) with
  | some n => (n, count n)
  | none => (5, (List.range 5).foldl (fun m n => max m (count n)) 0)

/-- The fuse status record of Table OTP-9. -/
def fuseRecord (s : State) : Bytes :=
  leBv 4 s.otp.code ++ leNat 1 s.otp.state ++ leNat 1 s.otp.agree ++ leBv 1 s.otp.region ++
  leNat 1 (bit (decide (s.otp.state = 5)) + 2 * bit s.otp.repaired) ++ leNat 2 s.otp.margCount ++
  leNat 2 (if s.otp.margCount = 0 then 0xffff else s.otp.margFirst) ++
  (List.range 4).flatMap (fun c => leNat 1 (mapGet 0 s.otp.thermo c)) ++ zeros 32

/-- The vote and what follows it (R286, R291, R277): state, code, MR1, the records. -/
def finishSensing (s : State) : State :=
  let (n, a) := lcVote s
  let s1 := { s with
    otp := { s.otp with state := n, agree := a, sensed := true, repairAt := none, code := if n = 5 then 0xffffffff else lcCode n }
    boot := { s.boot with phase := 2 } }
  let s2 := extendDevice 1 0 (fuseRecord s1) s1
  let s3 := if s2.otp.margCount > 0 then
      postFault .otpMarginal 5 0 (leNat 2 s2.otp.margCount ++ leNat 2 s2.otp.margFirst) s2 else s2
  if n = 5 then postFaultEvent .lcycInvalid 5 0 [] s3 else s3

/-- The end of a controller command with its status. -/
def endOtp (c : OtpCmd) (st : Status) (s : State) : State :=
  let s1 := { s with otp := { s.otp with cmd := none, cmdStatus := statusCode st, cmdPulses := BitVec.ofNat 2 c.pulses } }
  match s1.otp.repairAt with
  | some copy =>
    -- the ROM's repair: re-sensed where it succeeded, every burned bit now reading burned, then the vote (R288)
    let (lo, hi) := s1.otp.repairReads
    let t := copyTarget (intentOf (lo ||| hi))
    let s2 := if st = .ok then { s1 with otp := { s1.otp with
        repaired := true
        shadow := mapSet {} s1.otp.shadow copy (senseWord copy (lo ||| t) (hi ||| t)) } }
      else s1
    finishSensing s2
  | none =>
    let s2 := match c.for_, st with
      | .advance t, .ok => raiseReset 2500 .lifeCycle { s1 with otp := { s1.otp with pending := t } }
      | _, _ => s1
    finish c.waiter st [] s2

/-- The burns of a command with the bits already burned taken away; words with nothing left are skipped. -/
def neededBurns (s : State) (bs : List (Nat × BitVec 40)) : List (Nat × BitVec 40) :=
  (bs.map (fun b => (b.1, b.2 &&& ~~~(arrayWord s b.1)))).filter (fun b => b.2 != 0)

/-- A command whose checks have passed begins (R283): refused where a supply is out of its window, done where nothing is
left to burn. -/
def beginBurn (bs : List (Nat × BitVec 40)) (v : Supplies) (f : OtpFor) (w : Waiter) (s : State) : State :=
  let c : OtpCmd := ⟨neededBurns s bs, 0, f, w⟩
  if s.pav.supply.isSome || !suppliesOk v then
    otpStatus .otpSupplyWindow w { s with otp := { s.otp with supplyAbort := raise s.tick s.otp.supplyAbort } }
  else if c.burns.isEmpty then endOtp c .ok s
  else { s with otp := { s.otp with cmd := some c } }

/-- A pulse stopped (R283, R293): the bits it has burned stay burned, and the command ends. -/
def stopBurn (burned : BitVec 40) (st : Status) (s : State) : State :=
  match s.otp.cmd with
  | none => s
  | some c =>
    let s1 := match c.burns with
      | [] => s
      | (w, b) :: _ => { s with otp := { s.otp with array := mapMod 0 s.otp.array w (· ||| (b &&& burned)) } }
    endOtp c st s1

/-- A controller command (R282): held while the OTP-programming gate is closed, refused while another runs. -/
def otpCommand (w : Waiter) (k : State → State) (s : State) : State :=
  if !gateOpen s 5 then (match w with | .none => s | _ => finish w .notPermitted [] s)
  else if s.pav.tamper then otpStatus .tamper w s
  else if s.otp.cmd.isSome then otpStatus .busy w s
  else k s

/-- The burns of THERMO_ADVANCE: logical bit `value` in all three copies. -/
def thermoBurns (s : State) (c : Nat) : List (Nat × BitVec 40) :=
  let b := thermoNow s c
  (List.range 3).map (fun p => (8 + 12 * c + 4 * p + b / 32, 1#40 <<< (b % 32)))

/-- THERMO_ADVANCE (R273). -/
def thermoAdvance (c : Nat) (v : Supplies) (w : Waiter) (s : State) : State :=
  if s.otp.state ≥ 4 ∨ c > 3 ∨ thermoNow s c ≥ 128 ∨ arrayLocked s 63 = true then otpStatus .notPermitted w s
  else beginBurn (thermoBurns s c) v .command w s

end Sys2Proof.Machine
end

