-- ==== Sys2Proof/Machine/FlashOps.lean ====
section
/-! DEFINITION. Flash and what stands in it (13_gatehouse_boot.md, 14_update_and_bandstand.md): bytes, the directory, the
record log, slot headers and their checks. -/

namespace Sys2Proof.Machine

/-! ## Bytes -/

/-- `n` bytes of a sorted map from `off` on, whose entries before `off` have been dropped. -/
def readRun : Nat → Nat → NMap Byte → Bytes
  | 0, _, _ => []
  | n + 1, off, [] => 0xff :: readRun n (off + 1) []
  | n + 1, off, (k, v) :: m => if k = off then v :: readRun n (off + 1) m else 0xff :: readRun n (off + 1) ((k, v) :: m)

/-- Flash bytes `off` to `off + n - 1`; erased bytes read 0xFF. -/
def flashRead (s : State) (off n : Nat) : Bytes := readRun n off (s.flash.dropWhile (fun e => decide (e.1 < off)))

/-- Bytes programmed at `off`, in order. -/
def flashPut : Nat → Bytes → NMap Byte → NMap Byte
  | _, [], m => m
  | off, b :: bs, m => flashPut (off + 1) bs (mapSet 0xff m off b)

/-- A program operation on the xSPI port (R43). -/
def flashWrite (off : Nat) (bs : Bytes) (s : State) : State := emit (.flash off bs) { s with flash := flashPut off bs s.flash }

/-- An erase operation on the xSPI port. -/
def flashErase (off n : Nat) (s : State) : State :=
  { s with flash := s.flash.filter (fun e => decide (e.1 < off) || decide (off + n ≤ e.1)) }

/-! ## Regions (Table BOOT-1) -/

/-- First byte of a log half. -/
def halfBase (h : Nat) : Nat := if h = 0 then 0x2000 else 0x81000
/-- Bytes of a log half. -/
def halfSize : Nat := 520192
/-- First byte of an image slot. -/
def slotBase (n : Nat) : Nat := if n = 0 then 0x100000 else 0x4100000
/-- Bytes of an image slot. -/
def slotSize : Nat := 0x4000000
/-- First byte of the settings region. -/
def settingsBase : Nat := 0x8100000

/-- The rows of Table BOOT-1 as the directory holds them: offset and size; regions are numbered from 0 in its order
(DEDUCED: log 129). -/
def flashMap : List (Nat × Nat) :=
  [(0, 0x1000), (0x1000, 0x1000), (0x2000, 520192), (0x81000, 520192), (0x100000, 0x4000000)] ++
  [(0x4100000, 0x4000000), (0x8100000, 0x400000), (0x8500000, 0x100000), (0x8600000, 0x7A00000)]

/-- A directory's nine rows, 16 bytes each, equal Table BOOT-1; their res0 bytes are ignored (R9). -/
def rowsOk (b : Bytes) : Bool :=
  flashMap.zipIdx.all (fun (r, i) =>
    decide (leAt b (16 + 16 * i) 4 = r.1) && decide (leAt b (20 + 16 * i) 4 = r.2) && decide (leAt b (24 + 16 * i) 4 = i))

/-- A directory copy qualifies by its CRC and its rows (R294). -/
def directoryOk (s : State) (off : Nat) : Bool :=
  rowsOk (flashRead s off 160) &&
  (let b := flashRead s off 4096
   decide (leAt b 4092 4 = (crc32 (b.take 4092)).toNat))

/-- The directory copy that the ROM uses (R294). -/
def directoryCopy (s : State) : Option Nat := [0, 0x1000].find? (directoryOk s)

/-- The read opcode and the dummy cycles in use: the copy's, else 0xEE and 20 (R294). -/
def xspiMode (s : State) : Nat × Nat :=
  match directoryCopy s with
  | some off => (leAt (flashRead s off 9) 6 2, leAt (flashRead s off 9) 8 1)
  | none => (0xEE, 20)

/-! ## Records (R295, Table BOOT-2) -/

/-- A record's bytes under the flash record key. -/
def recordBytes (key : Bytes) (r : LogRec) : Bytes :=
  let b := leNat 2 0x4C52 ++ leNat 1 r.kind ++ leNat 1 1 ++ leNat 4 r.payload.length ++ leNat 8 r.seq ++ r.payload
  let c := b ++ leBv 4 (crc32 b)
  c ++ hmac384 key c

/-- A valid record at the head of `b`; none where it is torn. -/
def parseRecord (key b : Bytes) (lastSeq : Nat) : Option LogRec :=
  let p := leAt b 4 4
  let n := 16 + p
  if leAt b 0 2 = 0x4C52 ∧ leAt b 3 1 = 1 ∧ p ≤ 65536 ∧ n + 52 ≤ b.length ∧ lastSeq < leAt b 8 8 ∧
      leAt b n 4 = (crc32 (b.take n)).toNat ∧ slice b (n + 4) 48 = hmac384 key (b.take (n + 4)) then
    some ⟨leAt b 2 1, leAt b 8 8, slice b 16 p⟩
  else none

/-- `n` rounded up to a multiple of `k`. -/
def roundUp (n k : Nat) : Nat := (n + k - 1) / k * k

/-- The scan of a half from position `pos` (R295): its valid records and where it stops; `fuel` bounds the positions. -/
def scanHalf (key half : Bytes) : Nat → Nat → Nat → List LogRec × Nat
  | 0, pos, _ => ([], pos)
  | f + 1, pos, lastSeq =>
    if halfSize ≤ pos ∨ leAt half pos 2 = 0xffff then ([], pos)
    else match parseRecord key (half.drop pos) lastSeq with
      | some r =>
        let (rs, e) := scanHalf key half f (roundUp (pos + 68 + r.payload.length) 16) r.seq
        (r :: rs, e)
      | none => scanHalf key half f ((pos / 4096 + 1) * 4096) lastSeq

/-- The sequence of a half's first record where that is a valid COMPACT record. -/
def compactSeq (s : State) (key : Bytes) (h : Nat) : Option Nat :=
  if flashRead s (halfBase h) 2 = [0xff, 0xff] then none
  else match parseRecord key (flashRead s (halfBase h) 65604) 0 with
    | some r => if r.kind = 8 then some r.seq else none
    | none => none

/-- The active half (R295). -/
def activeHalf (s : State) (key : Bytes) : Option Nat :=
  match compactSeq s key 0, compactSeq s key 1 with
  | some a, some b => some (if a ≥ b then 0 else 1)
  | some _, none => some 0
  | none, some _ => some 1
  | none, none => none

/-- The log as its scan finds it (R295, R296). -/
def scanLog (s : State) : LogView :=
  let key := (deviceKey 15 s).getD []
  match activeHalf s key with
  | none => {}
  | some h =>
    let (rs, e) := scanHalf key (flashRead s (halfBase h) halfSize) 32513 0 0
    { half := some h, pos := e, next := ((rs.map (·.seq)).getLastD 0) + 1, recs := rs }

/-- Record key for generating; none after a zeroisation. -/
def recordKey (s : State) : Option Bytes := deviceKey 14 s

/-- A record written at the log's next position. -/
def putRecord (key : Bytes) (h : Nat) (kind : Nat) (payload : Bytes) (s : State) : State :=
  let r : LogRec := ⟨kind, s.logv.next, payload⟩
  let b := recordBytes key r
  flashWrite (halfBase h + s.logv.pos) b { s with logv := { s.logv with
    pos := roundUp (s.logv.pos + b.length) 16, next := s.logv.next + 1, recs := s.logv.recs ++ [r] } }

/-- A COMPACT record padded with 4,020 zero bytes at the start of a half. -/
def putCompact (key : Bytes) (h seq n : Nat) (s : State) : State :=
  flashWrite (halfBase h) (recordBytes key ⟨8, seq, leNat 8 n⟩ ++ zeros 4020) s

/-- The log initialised (R296). -/
def initLog (key : Bytes) (s : State) : State :=
  let s1 := putCompact key 0 1 0 (flashErase (halfBase 0) halfSize s)
  { s1 with logv := { half := some 0, pos := 0x1000, next := 2, recs := [⟨8, 1, leNat 8 0⟩] } }

/-- Two records compete for being in force: one kind, and for the kinds that name a slot, one slot. -/
def sameForce (a b : LogRec) : Bool :=
  decide (a.kind = b.kind) && (!(decide (a.kind = 1) || decide (a.kind = 3) || decide (a.kind = 4) || decide (a.kind = 5)) ||
    decide (leAt a.payload 0 1 = leAt b.payload 0 1))

/-- Records that a compaction copies (R332). -/
def compactKeep (s : State) : List LogRec → List LogRec
  | [] => []
  | r :: rs =>
    let inF := !rs.any (fun x => sameForce r x)
    let keep := decide (r.kind ≠ 8) && (inF || decide (r.kind = 6) ||
      (decide (r.kind = 3) && slotInTrial s (leAt r.payload 0 1)))
    if keep then r :: compactKeep s rs else compactKeep s rs

/-- The log compacted into the other half (R332). -/
def compactLog (key : Bytes) (h : Nat) (s : State) : State :=
  let o := 1 - h
  let top := s.logv.next - 1
  let keep := compactKeep s s.logv.recs
  let s1 := flashErase (halfBase o) halfSize s
  let s2 := { s1 with logv := { half := some o, pos := 0x1000, next := top + 2, recs := [⟨8, top + 1, leNat 8 top⟩] } }
  putCompact key o (top + 1) top (keep.foldl (fun s r => putRecord key o r.kind r.payload s) s2)

/-- Control firmware runs: a compaction is its (R332), and the ROM makes none (R303). -/
def firmwareRuns (s : State) : Bool := decide (4 ≤ s.boot.phase) && decide (s.boot.phase ≤ 5)

/-- A record appended and read back (R295, R296, R332); nothing is appended once the record key is gone, nor where the half has no room
left for the record. -/
def appendRecord (kind : Nat) (payload : Bytes) (s : State) : State :=
  match recordKey s with
  | none => checkSlot 14 s
  | some key =>
    let s0 := checkSlot 15 s
    let s1 := if s0.logv.half.isNone then initLog key s0 else s0
    let h := s1.logv.half.getD 0
    let s2 := if halfSize - s1.logv.pos < 65536 ∧ firmwareRuns s = true then compactLog key h s1 else s1
    if halfSize < s2.logv.pos + 68 + payload.length then s2 else putRecord key (s2.logv.half.getD 0) kind payload s2

/-- Why no record can be appended (R295, R238): the status of slot 14 or 15 where its key is not there. -/
def recordStatus (s : State) : Option Status :=
  if (deviceKey 14 s).isNone then some (noKeyStatus 14 s)
  else if (deviceKey 15 s).isNone then some (noKeyStatus 15 s)
  else none

/-- An operation that appends records: refused with the status of the record key where that is not there. -/
def withRecords (refuse : Status → State → State) (k : State → State) (s : State) : State :=
  match recordStatus s with
  | some st => refuse st (checkSlots [14, 15] s)
  | none => k s

/-- A SLOT_STATE payload. -/
def slotPayload (n state seq : Nat) (digest : Bytes) : Bytes :=
  leNat 1 n ++ leNat 1 state ++ zeros 2 ++ leNat 8 seq ++ fit 48 digest

/-- A SLOT_STATE record appended; the slot's generation advances (Table ARCH-6). -/
def markSlot (n state seq : Nat) (digest : Bytes) (s : State) : State :=
  if (recordKey s).isNone then checkSlot 14 s
  else
    let s1 := appendRecord 1 (slotPayload n state seq digest) s
    { s1 with updt := { s1.updt with gens := mapMod 0 s1.updt.gens n genNext } }

/-- A TRIAL_ATTEMPT or CONFIRM payload. -/
def trialPayload (n seq : Nat) : Bytes := leNat 1 n ++ zeros 3 ++ leNat 8 seq

/-! ## Slot headers (R297, R298) -/

/-- A part entry (Table BOOT-5). -/
structure PartEntry where
  type     : Nat
  die      : Nat
  offset   : Nat
  length   : Nat
  resident : Nat
  digest   : Bytes
  defer    : Bytes
deriving DecidableEq, Repr

/-- Part entry `i` of a header. -/
def partEntry (h : Bytes) (i : Nat) : PartEntry :=
  let b := slice h (96 + 112 * i) 112
  ⟨leAt b 0 1, leAt b 1 1, leAt b 4 4, leAt b 8 4, leAt b 12 4, slice b 16 48, slice b 64 48⟩

/-- The parts of a header in entry order. -/
def partsOf (h : Bytes) : List PartEntry := (List.range (min 16 (leAt h 80 2))).map (partEntry h)

/-- The part of a type. -/
def partOfType (h : Bytes) (t : Nat) : Option PartEntry := (partsOf h).find? (fun p => decide (p.type = t))

/-- Largest LENGTH and RESIDENT of a type (Table BOOT-6). -/
def partLimits (p : PartEntry) : Nat × Nat :=
  if p.type = 1 then (0x40000, p.length)
  else if p.type = 2 then (0x600000, 0x300000)
  else if p.type = 3 then (0x100000, 0x60000)
  else if p.type = 4 then (0x80000, p.length)
  else (0x1000000, 0)

/-- A part entry is well formed; its res0 bytes are ignored (R9). -/
def imgPartOk (p : PartEntry) : Bool :=
  decide (1 ≤ p.type) && decide (p.type ≤ 5) &&
  (if p.type = 5 then decide (p.die < 32) || decide (p.die = 255) else decide (p.die = 0)) &&
  decide (32768 ≤ p.offset) && decide (p.offset + p.length ≤ slotSize) && decide (p.length ≤ (partLimits p).1) &&
  decide (p.resident ≤ (partLimits p).2) && decide (p.resident ≤ p.length) &&
  (decide (p.resident ≠ p.length) || allZero p.defer)

/-- UNIT_BOUND of a header. -/
def unitBound (h : Bytes) : Bool := testBit (leAt h 12 4) 0
/-- Slot sequence number of a header. -/
def headerSeq (h : Bytes) : Nat := leAt h 16 8
/-- Security version of a header. -/
def headerSvn (h : Bytes) : Nat := leAt h 24 4
/-- Version of a header. -/
def headerVersion (h : Bytes) : Nat := leAt h 28 4
/-- Manifest digest of a header (R297). -/
def manifestDigest (h : Bytes) : Bytes := sha384 (slice h 0 1888)

/-- A header is well formed under R297 and R298; res0 fields are ignored (R9), and the fields that must be zero are checked. -/
def headerOk (h : Bytes) : Bool :=
  decide (slice h 0 4 = ascii "OCNH") && decide (leAt h 4 2 = 1) &&
  (unitBound h || allZero (slice h 32 48)) && decide (4 ≤ leAt h 80 2) && decide (leAt h 80 2 ≤ 16) &&
  allZero (slice h (96 + 112 * leAt h 80 2) (112 * (16 - leAt h 80 2))) &&
  decide (leAt h 6612 4 ≤ 24576) &&
  (partsOf h).all imgPartOk &&
  [1, 2, 3, 4].all (fun t => decide (((partsOf h).filter (fun p => decide (p.type = t))).length = 1))

/-- A certificate verifies under its issuer: both signatures (R212). -/
def certOk (issuer c : CertView) : Bool :=
  Config.ecdsaVerify issuer.ecdsaKey c.tbs c.ecdsaSig && Config.mldsaVerify issuer.mldsaKey c.zeroed c.mldsaSig

/-- Each certificate verifies under the one before it; the last one of the chain. -/
def chainLeaf (ok : CertView → CertView → Bool) (issuer : CertView) : List CertView → Option CertView
  | [] => some issuer
  | c :: cs => if ok issuer c then chainLeaf ok c cs else none

/-- The leaf of a chain that begins with the certificate of the anchor's digest; a self-issued anchor verifies under itself. -/
def anchoredLeaf (ok : CertView → CertView → Bool) (anchor : Bytes) (cs : List CertView) : Option CertView :=
  match cs with
  | [] => none
  | r :: rest => if sha384 r.text = anchor && (!r.selfIssued || ok r r) then chainLeaf ok r rest else none

/-- The hybrid public keys of the leaf of a chain that verifies to the anchor of a SHA-384 digest (R212, R299). -/
def chainVerify (anchor chain : Bytes) : Option (Bytes × Bytes) :=
  ((Config.derChain chain).bind (anchoredLeaf certOk anchor)).map (fun c => (c.ecdsaKey, c.mldsaKey))

/-- The signer chain, root, firmware CA and signing certificate, verifies to the trust anchor and both header signatures verify (R297, R306). -/
def headerSigned (s : State) (h : Bytes) : Bool :=
  let msg := slice h 0 1888
  let chain := slice h 8192 (leAt h 6612 4)
  decide ((Config.derChain chain).map (·.length) = some 3) && match chainVerify (trustAnchor s) chain with
  | some (e, m) => Config.ecdsaVerify e msg (slice h 1888 96) && Config.mldsaVerify m msg (slice h 1984 4627)
  | none => false

/-- The hardware type equals the device class ID; the check is skipped while the anchor comes from the ROM (R299). -/
def hardwareOk (s : State) (h : Bytes) : Bool := !identComplete s || decide (slice h 8 4 = deviceClass s)

/-- The unit binding holds (R299: a bound image is refused while the anchor comes from the ROM). -/
def bindingOk (s : State) (h : Bytes) : Bool :=
  !unitBound h || (identComplete s && decide (slice h 32 48 = unitDigest s))

/-- Header bytes of a slot. -/
def slotHeader (s : State) (n : Nat) : Bytes := flashRead s (slotBase n) 32768

/-- Bytes of a part in its slot. -/
def imgPartBytes (s : State) (n : Nat) (p : PartEntry) : Bytes := flashRead s (slotBase n + p.offset) p.length

/-- The floor (R301): 512 × counter 0, raised by a MIN_SVN record that is not below it; the record's value; whether one was
ignored. -/
def floorOf (s : State) : Nat × Nat × Bool :=
  let f := 512 * mapGet 0 s.otp.thermo 0
  match inForce s 2 (fun _ => true) with
  | some r => let v := leAt r.payload 0 4; if f ≤ v then (v, v, false) else (f, v, true)
  | none => (f, 0, false)

end Sys2Proof.Machine
end

