-- ==== Sys2Proof/Machine/ResetOps.lean ====
section
/-! DEFINITION. Block reset, cold reset and boot restart (19_faults_and_recovery.md R407, R408; 13_gatehouse_boot.md
R307), what a boot attempt's failure does, and the seeding of generations (R23). -/

namespace Sys2Proof.Machine

/-- The engines as a reset leaves them: only the pin lnk_up keeps its level (R141, log 69). No rise of it is seen after the reset, so the
50 ms of R123 count from tick 0 of the reset (DESIGN CHOICE, log 123). -/
def resetEngines (s : State) : NMap Engine := (s.link.engines.filter (fun x => x.2.up)).map (fun x => (x.1, { up := true }))

/-- The array and the model's counter of free values at a reset: a pulse that it stops has burned some of its bits, which the
spec leaves open (R293, Table OTP-11; log 128). -/
def stoppedArray (s : State) : NMap (BitVec 40) × Nat :=
  match s.otp.cmd with
  | some { burns := (w, b) :: _, .. } =>
    (mapMod 0 s.otp.array w (· ||| (b &&& (Config.freeBits s.free).setWidth 40)), s.free + 1)
  | _ => (s.otp.array, s.free)

/-- A rebuild of the inactive slot runs (R325): its writes are under way until it is checked. -/
def rebuilding (s : State) : Bool :=
  match s.updt.current with
  | some u => decide (u.phase = 3)
  | none => false

/-- Flash as an interruption leaves it, with the model's counter of free values (R331, R413, Table UPDT-5): of a slot that is being
rebuilt, what had not been programmed is still erased; how far the writes had come is left open (log 65). -/
def stoppedFlash (s : State) : NMap Byte × Nat :=
  let n := (stoppedArray s).2
  if rebuilding s then
    let cut := slotBase (1 - s.boot.slot.getD 0) + (Config.freeBits n).toNat % slotSize
    let stop := slotBase (1 - s.boot.slot.getD 0) + slotSize
    (s.flash.filter (fun e => decide (e.1 < cut) || decide (stop ≤ e.1)), n + 1)
  else (s.flash, n)

/-- A supply alarm stops the writes of a rebuild (R413), and the update is lost (Table UPDT-5). -/
def stopFlash (s : State) : State :=
  if rebuilding s then { s with flash := (stoppedFlash s).1, free := (stoppedFlash s).2, updt := { s.updt with current := none } } else s

/-- The state a block reset leaves (Table FAULT-3): OTP, flash, ORNG_ZERO_TICK and PAV_RESET_CAUSE stay, with the model's
own fields; all else is as after reset, and the later events of the tick are discarded (Table ARCH-5). -/
def blockResetState (cause : ResetCause) (s : State) : State :=
  { pending := afterReset s.pending, outs := s.outs, free := (stoppedFlash s).2, flash := (stoppedFlash s).1
    otp := { array := (stoppedArray s).1 }
    orng := { zeroTick := s.orng.zeroTick }
    link := { engines := resetEngines s }
    pav := { cause := cause, count := satAdd s.pav.count 1, tamperSeen := s.pav.tamperSeen } }

/-- The state a cold reset leaves: OTP and flash stay. -/
def coldResetState (s : State) : State :=
  { pending := afterReset s.pending, outs := s.outs, free := (stoppedFlash s).2, flash := (stoppedFlash s).1
    otp := { array := (stoppedArray s).1 }
    link := { engines := resetEngines s } }

/-- A boot restart (R307): as a block reset, but BOOT_ATTEMPT is kept with the failed attempt in it, and BOOT_READY_TIME
keeps counting from the original release. -/
def bootRestart (b : Boot) (s : State) : State :=
  { blockResetState .bootRestart s with
    boot := { excluded := b.excluded, attempts := b.attempts, fails := b.fails, lastFail := b.lastFail, failSlot := b.failSlot
              before := s.boot.before + s.tick, restarted := true, fallback := some 0 } }

/-- No restart is made: after a tamper (Table BOOT-13), and where the DRBG has failed during an attempt (R309). -/
def noRestart (s : State) : Bool := s.pav.tamper || (s.orng.error && !s.belv.ready)

/-- A failed attempt (R307): status and slot recorded, the slot excluded, the boot restarted where a restart is made. -/
def failAttempt (st : Status) (s : State) : State :=
  if noRestart s then s
  else
    let n := s.boot.slot.getD 0
    bootRestart { s.boot with
      excluded := s.boot.excluded ||| (1#2 <<< n)
      attempts := min 2 (s.boot.attempts + 1)
      lastFail := statusCode st
      fails := mapSet .ok s.boot.fails n st
      failSlot := n } s

/-- Both verification registers cleared and the failure noted, in the tick it is found (R306). -/
def noteFailure (st : Status) (s : State) : State :=
  { s with boot := { s.boot with verA := 0, verB := 0, failed := some (s.boot.failed.getD st) } }

/-- A seeded generation drawn. -/
def drawGen (s : State) : BitVec 16 × State :=
  let (b, s1) := drbg 2 s
  (genSeed (leAt b 0 2), s1)

/-- Generations of contexts, jobs, dies and image slots seeded from the DRBG (R23). -/
def seedUnits (s : State) : State :=
  let s1 := forUpTo 254 (fun c s => let (g, s) := drawGen s; updCtx (c + 1) (fun x => { x with gen := g }) s) s
  let s2 := forUpTo 256 (fun j s => let (g, s) := drawGen s; updJob j (fun x => { x with gen := g }) s) s1
  let s3 := forUpTo 32 (fun d s => let (g, s) := drawGen s; updDie d (fun x => { x with gen := g }) s) s2
  forUpTo 2 (fun n s =>
    let (g, s) := drawGen s
    { s with updt := { s.updt with gens := mapSet 0 s.updt.gens n g } }) s3

end Sys2Proof.Machine
end

