-- ==== Sys2Proof/Machine/Identity.lean ====
section
/-! DEFINITION. The device's identity (09_belvedere_attestation.md, Table BELV-1, Table BELV-2): keys loaded and derived at
boot, certificate chains, the alias layer, encapsulation keys. -/

namespace Sys2Proof.Machine

/-- Order n of the P-384 group (FIPS 186-5). -/
def p384Order : Nat :=
  0xFFFFFFFFFFFFFFFFFFFFFFFFFFFFFFFFFFFFFFFFFFFFFFFFC7634D81F4372DDF581A0DB248B0A77AECEC196ACCC52973

/-- ECDSA private key of 56 seed bytes by the extra-random-bits method (R209): (c mod (n − 1)) + 1. -/
def ecdsaScalar (c : Bytes) : Bytes := beNat 48 (beVal c % (p384Order - 1) + 1)

/-- Why Belvedere runs in public-only mode (R211): 0 it does not, 1 life cycle, 2 IDENT, 3 marginal secret. -/
def publicReason (s : State) : Nat :=
  if s.otp.state ≥ 4 then 1
  else if identComplete s then 0
  else if (List.range 16).any (fun i => (shadowOf s (64 + i)).marginal) then 3
  else 2

/-- Steps 2 and 3 of R256 and the DeviceID layer of R230: the keys in place once the DRBG serves. -/
def loadDeviceKeys (s : State) : State :=
  let usable := identComplete s
  let uds := shadowBytes s 64 16
  let ctx := identContext s
  let reason := publicReason s
  let s1 := { s with belv := { s.belv with identOk := usable, publicOnly := decide (reason ≠ 0), reason := reason } }
  let s2 := if usable then setSlot 0 attrDerive 0 none uds s1 else s1
  let (kwb, s3) := drbg 32 s2
  let s4 := setSlot 13 attrWrap 0 none kwb s3
  let (c0, s5) := drbg 96 s4
  let s6 := setSlot 9 attrEngine 0 none (c0.drop 64) (setSlot 8 attrEngine 0 none (c0.take 64) s5)
  let (c255, s7) := drbg 96 s6
  let s8 := setSlot 11 attrEngine 0 none (c255.drop 64) (setSlot 10 attrEngine 0 none (c255.take 64) s7)
  let s9 := if usable then setSlot 12 attrWrap 0 none (kdf uds (ascii "OCN-BLOB-WRAP") ctx 256) s8 else s8
  let rk := kdf (if usable then uds else zeros 64) (ascii "OCN-RECORD") ctx 384
  let s10 := setSlot 15 attrDec 0 none rk (setSlot 14 attrEnc 0 none rk s9)
  let (nonce, s11) := drbg 32 s10
  let s12 := { s11 with belv := { s11.belv with nonce := nonce } }
  if reason ≠ 0 then s12
  else
    let seeds := kdf uds (ascii "OCN-DEVICEID") ctx 704
    setSlot 3 attrEnc 0 none (seeds.drop 56) (setSlot 2 attrEnc 0 none (ecdsaScalar (seeds.take 56))
      (setSlot 1 attrDerive 0 none (kdf uds (ascii "OCN-LAYER1") ctx 384) s12))

/-- Public keys of an identity layer: ECDSA then ML-DSA. -/
def layerKeys (s : State) (slot : Nat) : Bytes × Bytes :=
  (Config.ecdsaPublic ((deviceKey slot s).getD []), Config.mldsaPublic ((deviceKey (slot + 1) s).getD []))

/-- The certificate an IDENTITY record in force holds for a level. -/
def identityCert (s : State) (level : Nat) : Option Bytes :=
  (inForce s 6 (fun r => decide (leAt r.payload 0 1 = level))).map (fun r => r.payload.drop 4)

/-- A stored chain up to a DeviceID-level certificate: root, product CA, then the given levels; none where one is missing. -/
def storedChain (s : State) (levels : List Nat) : Option Bytes :=
  (allSome (levels.map (identityCert s))).map (fun cs => Config.rootCertificate (trustAnchor s) ++ cs.flatten)

/-- Levels of certificate slots 0 and 1 below the alias (Table BELV-2). -/
def slotLevels (n : Nat) : List Nat := if n = 0 then [2, 3] else [2, 0x10, 0x13]

/-- A certificate slot is provisioned (R213): its chain verifies and names the derived DeviceID keys; in public-only mode, it
verifies. -/
def slotProvisioned (s : State) (n : Nat) (keys : Option (Bytes × Bytes)) : Bool :=
  match storedChain s (slotLevels n) with
  | none => false
  | some c =>
    match chainVerify (trustAnchor s) c, keys with
    | some k, some own => decide (k = own)
    | some _, none => true
    | none, _ => false

/-- The chain of a certificate slot as it is served: with the alias certificate, or ending at the DeviceID certificate in
public-only mode. -/
def servedChain (s : State) (n : Nat) : Bytes :=
  (storedChain s (slotLevels n)).getD [] ++ (if s.belv.publicOnly then [] else s.belv.aliasCert)

/-- The chain the device presents to its peers (R122, R129, R315): slot 0. -/
def deviceChain (s : State) : Bytes := servedChain s 0

/-- H_TCB (Table BELV-1). -/
def hTcb (s : State) : Bytes :=
  sha384 (mrOf s 0 ++ mrOf s 2 ++ mrOf s 3 ++ mrOf s 4 ++ mrOf s 5 ++ leBv 4 s.otp.code)

/-- Fields of the alias certificate beyond its keys (Table BELV-2). -/
def aliasFields (s : State) : Bytes :=
  leBv 4 s.otp.code ++ (List.range 9).flatMap (mrOf s) ++ leNat 4 s.boot.svn ++ leNat 8 s.boot.seq ++ s.belv.nonce ++
  ascii "9999-12-31"

/-- A certificate with the Ehrov hybrid extension (R212): the issuer's ML-DSA-87 signature covers the TBSCertificate with its
own octets filled with zeros, its ECDSA signature the finished TBSCertificate. -/
def certificate (ecdsaSeed mldsaSeed : Bytes) (subject : Bytes × Bytes) (fields : Bytes) : Bytes :=
  let key := fit 2592 subject.2
  let hybrid := fit 4627 (Config.mldsaSign mldsaSeed (Config.derTbs subject.1 fields (key ++ zeros 4627)))
  let tbs := Config.derTbs subject.1 fields (key ++ hybrid)
  Config.derCert tbs (fit 96 (Config.ecdsaSign ecdsaSeed tbs))

/-- The alias certificate signed under the DeviceID keys as MR0 to MR8 freeze, so that it carries the values the evidence shows
(Table BELV-2, R222, log 114); the DeviceID keys and KL are zeroised (R210). -/
def signAlias (s : State) : State :=
  if s.belv.publicOnly then s
  else
    let s1 := checkSlots [2, 3, 4, 5] s
    match deviceKey 2 s, deviceKey 3 s with
    | some e, some m => dropKeys [1, 2, 3] { s1 with belv := { s1.belv with aliasCert := certificate e m (layerKeys s 4) (aliasFields s) } }
    | _, _ => dropKeys [1, 2, 3] s1

/-- The alias layer (R230): alias keys, stored certificates checked, the encapsulation keys drawn (R214). -/
def aliasLayer (s : State) : State :=
  let seeds := kdf ((deviceKey 1 s).getD []) (ascii "OCN-ALIAS") (hTcb s) 704
  let own := layerKeys s 2
  let s0 := checkSlots [1, 2, 3] s
  let s1 := if (deviceKey 1 s).isNone then s0
    else setSlot 5 attrEnc 0 none (seeds.drop 56) (setSlot 4 attrEnc 0 none (ecdsaScalar (seeds.take 56)) s0)
  let s2 := { s1 with belv := { s1.belv with
    slot0 := slotProvisioned s1 0 (some own), slot1 := slotProvisioned s1 1 (some own) } }
  let (e, s4) := drbg 48 s2
  let (k, s5) := drbg 64 s4
  let s6 := setSlot 7 attrWrap 0 none k (setSlot 6 attrWrap 0 none e s5)
  { s6 with belv := { s6.belv with ecdhPub := fit 97 (Config.ecdhPublic e), kemPub := fit 1568 (Config.kemPublic k) } }

/-- The settings block named by the SETTINGS record in force, where its digest matches (Table BOOT-3). -/
def settingsNow (s : State) : Option Bytes :=
  match inForce s 7 (fun _ => true) with
  | none => none
  | some r =>
    let b := flashRead s (settingsBase + leAt r.payload 0 4) (leAt r.payload 4 4)
    if leAt r.payload 4 4 ≤ 262144 ∧ sha384 b = slice r.payload 8 48 then some b else none

/-- The settings in force in this boot: the block that MR7 has measured (R320). -/
def settingsInForce (s : State) : Option Bytes := s.boot.settings

/-- The attestation status record of Table BOOT-9. -/
def attestRecord (s : State) : Bytes :=
  [2] ++ leNat 1 s.belv.reason ++ leNat 1 (bit s.belv.slot0 + 2 * bit s.belv.slot1) ++
  leNat 1 (bit (settingsInForce s).isNone) ++ zeros 44

/-- Static route to a destination endpoint by the settings in force (R32). -/
def routeTo (s : State) (ep : BitVec 16) : Option Nat := Config.routeOf (s.boot.ownSettings.getD []) ep

end Sys2Proof.Machine
end

