-- ==== Sys2Proof/Machine/Boot.lean ====
section
/-! DEFINITION. The commands of the boot (13_gatehouse_boot.md) up to READY, and the Potting Shed (14_update_and_bandstand.md
R333 to R335). READY itself stands in Ready.lean. -/

namespace Sys2Proof.Machine

/-- Reset release (R312): the ROM extends MR0 with its own digest and arms the sensing. -/
def romStartEffect (s : State) : State :=
  if s.boot.romDone then s
  else extendDevice 0 0 Config.romDigest { s with boot := { s.boot with romDone := true, phase := 1 } }
/-- BOOT_ROM_START. -/
def execBootRomStart (s : State) : Result := .next (romStartEffect s)

/-- The DRBG is instantiated from two conditioned blocks and the digest of the unit ID (R251), re-masking starts, slot 0 and the device keys are loaded
(R256), and generations are seeded (R23). -/
def drbgReadyEffect (s : State) : State :=
  if s.otp.sensed && decide (s.orng.blocks ≥ 2) && !s.orng.ready && !s.orng.error && !s.orng.zeroized then
    loadDeviceKeys (seedUnits (drbgInstantiate (s.orng.pool.headD []) (s.orng.pool.getD 1 []) (unitDigest s)
      { s with orng := { s.orng with ready := true, pool := s.orng.pool.drop 2, maskStart := some s.tick } }))
  else s
/-- DRBG_READY. -/
def execDrbgReady (s : State) : Result := .next (drbgReadyEffect s)

/-! ## Selection (R301 to R303) -/

/-- Status of an image slot under Table BOOT-7. -/
def slotStatus (s : State) (n : Nat) : Status :=
  let h := slotHeader s n
  if s.boot.excluded.getLsbD n then
    if mapGet .ok s.boot.fails n = .ok then .bootSlotInvalid else mapGet .ok s.boot.fails n
  else match slotRecord s n with
    | none => .bootSlotInvalid
    | some (st, seq, dg) =>
      if st ≠ 2 then .bootSlotInvalid
      else if !headerOk h then .bootSlotInvalid
      else if manifestDigest h ≠ dg ∨ headerSeq h ≠ seq then .bootSlotInvalid
      else if !(hardwareOk s h && bindingOk s h) then .bootSlotInvalid
      else if headerSvn h < (floorOf s).1 then .bootSvnLow
      else if !isConfirmed s n seq ∧ trialCount s n seq ≥ 3 then .updtTrialFailed
      else .ok

/-- The rank of a slot in R302: sequence, then security version, then version. -/
def slotRank (s : State) (n : Nat) : Nat × Nat × Nat :=
  let h := slotHeader s n
  (headerSeq h, headerSvn h, headerVersion h)

/-- Slot B is better than slot A. -/
def betterB (a b : Nat × Nat × Nat) : Bool :=
  decide (b.1 > a.1) || (decide (b.1 = a.1) && (decide (b.2.1 > a.2.1) || (decide (b.2.1 = a.2.1) && decide (b.2.2 > a.2.2))))

/-- The choice of R302. -/
def chooseSlot (s : State) (a b : Status) : Option Nat :=
  if a = .ok ∧ b = .ok then some (if betterB (slotRank s 0) (slotRank s 1) then 1 else 0)
  else if a = .ok then some 0 else if b = .ok then some 1 else none

/-- Sequence number of a slot as the decision record shows it: zero where the header is unreadable, which the model reads
as not well formed (DEDUCED: log 129). -/
def shownSeq (s : State) (n : Nat) : Nat := if headerOk (slotHeader s n) then headerSeq (slotHeader s n) else 0

/-- The boot decision record of Table BOOT-10. -/
def decisionRecord (s : State) (tie dir ignored : Bool) : Bytes :=
  let b := s.boot
  [1] ++ leNat 1 (b.slot.getD 255) ++
  leNat 1 (bit tie + 2 * bit b.trial + 4 * bit dir + 8 * bit b.rootFromRom + 16 * bit ignored + 32 * bit b.restarted) ++
  leNat 1 b.trials ++ leBv 2 (statusCode b.statusA) ++ leBv 2 (statusCode b.statusB) ++
  leNat 8 (shownSeq s 0) ++ leNat 8 (shownSeq s 1) ++ leNat 4 b.floor ++ leNat 4 b.minSvn ++
  leBv 2 b.lastFail ++ leNat 1 b.failSlot ++ leNat 1 (mapGet 0 s.otp.thermo 0) ++ zeros 12

/-- The directory and the log read, both slots checked, the choice made (R294 to R303). -/
def selectionEffect (s : State) : State :=
  if s.boot.phase ≠ 2 ∨ s.orng.ready = false ∨ s.orng.error = true ∨ s.boot.noImage = true ∨ s.pav.tamper = true then s
  else
    let dir := (directoryCopy s).isNone
    let s1 := { checkSlot 15 s with logv := scanLog s }
    let (floor, minv, ignored) := floorOf s1
    let a := slotStatus s1 0
    let b := slotStatus s1 1
    let pick := chooseSlot s1 a b
    let tie := decide (a = .ok) && decide (b = .ok) && decide (headerSeq (slotHeader s1 0) = headerSeq (slotHeader s1 1))
    let h := match pick with | some n => slotHeader s1 n | none => []
    let n := pick.getD 0
    let trial := pick.isSome && slotInTrial s1 n
    let s2 := if trial then appendRecord 3 (trialPayload n (headerSeq h)) s1 else s1
    let mark := fun (c : Bool) (x : Sticky) => if c then raise s.tick x else x
    let s3 := { s2 with boot := { s2.boot with
      slot := pick, trial := trial, trials := if pick.isSome then trialCount s2 n (headerSeq h) else 0
      seq := headerSeq h, svn := headerSvn h, version := headerVersion h, floor := floor, minSvn := minv
      statusA := a, statusB := b, rootFromRom := !identComplete s, noImage := pick.isNone, xspi := some (xspiMode s)
      tied := tie, phase := if pick.isSome then 3 else 2, attemptAt := s.tick, parts := [], failed := none
      tie := mark tie s2.boot.tie, dirDefault := mark dir s2.boot.dirDefault
      minSvnIgnored := mark ignored s2.boot.minSvnIgnored
      svnLow := mark (decide (a = .bootSvnLow) || decide (b = .bootSvnLow)) s2.boot.svnLow
      trialRetired := mark (decide (a = .updtTrialFailed) || decide (b = .updtTrialFailed)) s2.boot.trialRetired } }
    let s4 := extendDevice 1 0 (decisionRecord s3 tie dir ignored) s3
    let s5 := if tie then postFault .bootSlotTie 6 0 [] s4 else s4
    if pick.isNone then postFault .bootNoImage 6 0 [] s5 else s5
/-- SLOT_SELECTION. -/
def execSlotSelection (s : State) : Result := .next (selectionEffect s)

/-! ## Streaming and verification (R304 to R308) -/

/-- The next part has streamed (R258, R298): its resident bytes stand in their place, its digest goes into its register and
is compared. Where an alarm has cleared DGST0 meanwhile its request has ended (R267): nothing is extended, the pair holds no result, and
the part has not matched. Where the DRBG has failed the attempt has stopped (R309). -/
def imageEndEffect (s : State) : State :=
  if s.boot.phase ≠ 3 ∨ s.boot.parts.length ≥ 4 ∨ s.boot.failed.isSome ∨ s.orng.error = true then s
  else if s.dgst.cut0 then noteFailure .dgstCompareFail s
  else
    let n := s.boot.slot.getD 0
    let t := s.boot.parts.length + 1
    match partOfType (slotHeader s n) t with
    | none => noteFailure .bootSlotInvalid s
    | some p =>
      let dg := sha384 (imgPartBytes s n p)
      let same := decide (dg = p.digest)
      let s1 := setPair 0 same (extendDevice (t + 1) 0 dg s)
      let s2 := { s1 with
        boot := { s1.boot with
          parts := s1.boot.parts ++ [same]
          images := mapSet [] s1.boot.images t ((imgPartBytes s n p).take p.resident) }
        grnh := { s1.grnh with loaded := s1.grnh.loaded || decide (t = 4) } }
      if same then s2 else noteFailure .dgstCompareFail s2
/-- DGST0_IMAGE_END. -/
def execDgst0ImageEnd (s : State) : Result := .next (imageEndEffect s)

/-- Part entries whose check is deferred (R308): parts 2 and 3 with bytes that are not resident, and every TYPE 5 part. -/
def deferredParts (h : Bytes) : List Nat :=
  ((partsOf h).zipIdx.filter (fun (p, _) =>
    decide (p.type = 5) || ((decide (p.type = 2) || decide (p.type = 3)) && decide (p.resident < p.length)))).map (·.2)

/-- Dies a TYPE 5 part is for. -/
def targetDies (p : PartEntry) : List Nat := if p.die = 255 then List.range 32 else [p.die]

/-- The TYPE 5 entries of a header with the dies they are for. -/
def heldParts (h : Bytes) : List (Nat × List Nat) :=
  ((partsOf h).zipIdx.filter (fun (p, _) => decide (p.type = 5))).map (fun (p, i) => (i, targetDies p))

/-- An attempt has run for 25 ms (R307). -/
def attemptLate (s : State) : Bool := decide (s.boot.attemptAt + 6250000 ≤ s.tick)

/-- All parts, the chain and both signatures have passed (R306): VERIFIED is set, MR6 and MR7 are extended, the key-use gate
opens, and the key-distribution gate where the bus keys are up. A chain or signature that fails is the attempt's failure, and so is
the end of its 25 ms, in that very tick too (Table BOOT-13). -/
def verifiedEffect (s : State) : State :=
  if s.boot.phase ≠ 3 ∨ s.boot.failed.isSome ∨ s.boot.parts.length ≠ 4 ∨ noRestart s = true then s
  else
    let h := slotHeader s (s.boot.slot.getD 0)
    if !headerSigned s h then noteFailure .bootSlotInvalid s
    else if attemptLate s then noteFailure .timeout s
    else
      let b := settingsNow s
      let s1 := { s with
        boot := { s.boot with verA := 0x5a, verB := 0xa5, phase := 4, deferred := deferredParts h, dieParts := heldParts h
                              settings := b, ownSettings := b }
        grnh := { s.grnh with verified := true } }
      let s2 := ((partsOf h).filter (fun p => decide (p.type = 5))).foldl (fun s p => extendDevice 6 1 p.digest s) s1
      let d7 := match b with | some b => sha384 b | none => zeros 48
      let s3 := openGates 0x01 (extendDevice 7 1 d7 s2)
      if s3.orng.kbusReady && (gatesAllowed s3).getLsbD 1 then pushPinned (openGates 0x02 s3) else s3
/-- VERIFIED. -/
def execVerified (s : State) : Result := .next (verifiedEffect s)

/-- A failed attempt restarts the boot (R307). -/
def attemptFailEffect (s : State) : State :=
  match s.boot.failed with
  | some st => failAttempt st s
  | none => s
/-- BOOT_ATTEMPT_FAIL. -/
def execBootAttemptFail (s : State) : Result := .next (attemptFailEffect s)

/-- Flash reads of the boot may be out: while the parts stream, while control firmware boots, and while a deferred part is to be
read. -/
def readsFlash (s : State) : Bool :=
  decide (s.boot.phase = 3) || decide (s.boot.phase = 4) || (decide (s.boot.phase = 5) && !s.boot.deferred.isEmpty)

/-- An attempt that does not reach VERIFIED in 25 ms, or whose flash read goes unanswered for 2,500 ticks, fails with TIMEOUT
(R307): the earliest tick is that of a read issued as the attempt began (log 153). A failure found before keeps its own status. -/
def attemptTimeoutEffect (s : State) : State :=
  if readsFlash s = true ∧ s.boot.attemptAt + 2500 ≤ s.tick then failAttempt (s.boot.failed.getD .timeout) s else s
/-- BOOT_ATTEMPT_TIMEOUT. -/
def execBootAttemptTimeout (s : State) : Result := .next (attemptTimeoutEffect s)

/-- The general digest engine that takes a check of control firmware: the lowest free one, else DGST1 when it comes free (log 143). -/
def checkEngine (s : State) : Nat := (freeDg s).getD 1

/-- Parts of a slot hashed by engine `e` in order, each against its DIGEST, up to the first that differs; the compare pair of each is
read (R266, R308). Whether all have passed. -/
def checkParts (e n : Nat) : List PartEntry → State → Bool × State
  | [], s => (true, s)
  | p :: ps, s =>
    let same := decide (sha384 (imgPartBytes s n p) = p.digest)
    if same then checkParts e n ps (setPair e true s) else (false, setPair e false s)

/-- A deferred part as control firmware reads it into DEVICE frames: the bytes that are not resident, or all of a TYPE 5 part. -/
def deferredBytes (s : State) (p : PartEntry) : Bytes :=
  let bs := imgPartBytes s (s.boot.slot.getD 0) p
  if p.type = 5 then bs else bs.drop p.resident

/-- A deferred check ends (R308): a general digest engine has compared the part, and its pair decides. A mismatch of part 2 or 3 fails the
attempt, even after READY; one of a TYPE 5 part withholds it and its dies become FAILED. A part that matches is kept, and the dies that a
TYPE 5 part has held back are released. -/
def deferredEffect (i : Nat) (s : State) : State :=
  if !gateOpen s 1 || !s.boot.deferred.contains i || s.pav.tamper || !s.dgst.enabled then s
  else
    let p := partEntry (slotHeader s (s.boot.slot.getD 0)) i
    let bs := deferredBytes s p
    let same := decide (sha384 bs = (if p.type = 5 then p.digest else p.defer))
    let s1 := setPair (checkEngine s) same { s with boot := { s.boot with
      deferred := s.boot.deferred.filter (· != i), dieParts := s.boot.dieParts.filter (fun x => x.1 != i) } }
    if same then
      let s2 := { s1 with boot := { s1.boot with copies := mapSet [] s1.boot.copies i bs } }
      if p.type = 5 then releaseDies s2 else s2
    else if p.type = 5 then
      (targetDies p).foldl (fun s d => updDie d (fun x => { x with state := .failed, rstN := false, releasedAt := none }) s) s1
    else noteFailure .dgstCompareFail s1
/-- DEFERRED_CHECK_DONE. -/
def execDeferredCheckDone (i : Fin 16) (s : State) : Result := .next (deferredEffect i.val s)

/-! ## FREEZE and the Belvedere sequence (R311, R230) -/

/-- Four link classes in a byte. -/
def classByte (s : State) (k : Nat) : Nat :=
  (List.range 4).foldl (fun x i => x + (engOf s (4 * k + i)).cls.toNat * 4 ^ i) 0

/-- The policy record of Table BOOT-11. -/
def policyRecord (s : State) : Bytes :=
  (List.range 24).flatMap (fun k => leNat 1 (classByte s k)) ++
  leNat 1 ((trustedInForce s).toNat + 16 * bit (plainInForce s)) ++
  leNat 1 (bit (shedOff s) + 2 * bit (slot1Off s) + 4 * bit (noPlainOperator s) + 8 * bit (noTrustedLinks s)) ++
  leNat 2 (rateFloor s) ++ leBv 2 s.link.endpoint ++ [16, 0] ++ leNat 2 8 ++ zeros 2 ++
  leNat 4 250000 ++ leNat 4 2500000 ++ zeros 4

/-- FREEZE (R311): the first write closes the configuration registers and extends MR8. Control firmware writes it, which starts at the
end of its own stream (R304). -/
def freezeEffect (v : Word) (s : State) : State :=
  if s.boot.frozen || !v.getLsbD 0 || decide (s.boot.parts.length < 2) then s
  else extendDevice 8 1 (policyRecord s) { s with
    boot := { s.boot with frozen := true }, link := { s.link with frozen := some (trustedInForce s, plainInForce s) } }
/-- FREEZE. -/
def execFreeze (m : Fin 39) (v : Word) (s : State) : Result := .next (guardWrite m.val 0x5002C (freezeEffect v) s)

/-- FREEZE not written 35 ms after the attempt began. -/
def freezeTimeoutEffect (s : State) : State :=
  if (s.boot.phase = 3 ∨ s.boot.phase = 4) ∧ s.boot.frozen = false ∧ s.boot.attemptAt + 8750000 ≤ s.tick then
    failAttempt .timeout s
  else s
/-- FREEZE_TIMEOUT. -/
def execFreezeTimeout (s : State) : Result := .next (freezeTimeoutEffect s)

/-- The sequence is done: the attestation status record goes into MR1. -/
def endSequence (s : State) : State :=
  extendDevice 1 1 (attestRecord s) { s with boot := { s.boot with belvDone := true } }

/-- The Belvedere sequence of R230 ends, once MR5 has been extended. Its use of slots 1 to 7 waits for the key-use gate (Table BOOT-8), and
the encapsulation keys that it draws for the DRBG (R252, R255); in public-only mode it derives nothing (R211). -/
def belvedereEffect (s : State) : State :=
  if s.boot.parts.length ≠ 4 ∨ s.boot.belvDone = true ∨ s.orng.zeroized = true ∨ s.belv.ready = true then s
  else if s.belv.publicOnly then
    endSequence { s with belv := { s.belv with slot0 := slotProvisioned s 0 none } }
  else if !gateOpen s 0 then s
  else withDraw .belvedere id (fun s => endSequence (aliasLayer s)) s
/-- BELVEDERE_SEQUENCE_DONE. -/
def execBelvedereSequenceDone (s : State) : Result := .next (belvedereEffect s)

/-! ## Potting Shed (R333 to R335) -/

/-- No slot is OK: the Potting Shed, or HALT. -/
def pottingShedEffect (s : State) : State :=
  if s.boot.phase ≠ 2 ∨ s.boot.noImage = false then s
  else if shedOff s ∨ s.otp.state ≥ 4 then { s with boot := { s.boot with phase := 7 } }
  else { s with boot := { s.boot with phase := 6, shed := { active := true, announced := s.tick } } }
/-- POTTING_SHED. -/
def execPottingShed (s : State) : Result := .next (pottingShedEffect s)

/-- A Potting Shed frame payload (Table UPDT-6). -/
def shedFrame (type seq off : Nat) (dataLen : Nat) (body : Bytes) : Bytes :=
  ascii "PS" ++ leNat 1 type ++ [0] ++ leNat 4 seq ++ leNat 4 off ++ leNat 2 dataLen ++ zeros 2 ++ body

/-- EtherType of the Potting Shed's frames (R314). -/
def shedType : BitVec 16 := 0x88B5
/-- The Ethernet broadcast address, to which ANNOUNCE goes (R333). -/
def broadcastMac : BitVec 48 := 0xFFFFFFFFFFFF

/-- A frame sent from the Potting Shed, padded to the Ethernet minimum: to the sender of the transfer where one runs (log 154), else to
the broadcast address. -/
def sendShed (type off : Nat) (body : Bytes) (s : State) : State :=
  let p := shedFrame type s.boot.shed.seq off 0 body
  emit (.ethernet (s.boot.shed.mac.getD broadcastMac) shedType (p ++ zeros (46 - p.length)))
    { s with boot := { s.boot with shed := { s.boot.shed with seq := s.boot.shed.seq + 1 } } }

/-- ANNOUNCE every second while no transfer runs. -/
def announceEffect (s : State) : State :=
  let sh := s.boot.shed
  if s.boot.phase = 6 ∧ sh.mac = none ∧ sh.announced + 250000000 ≤ s.tick then
    sendShed 1 0 (unitDigest s ++ deviceClass s ++ leNat 4 s.boot.floor ++ leBv 2 (statusCode s.boot.statusA) ++
      leBv 2 (statusCode s.boot.statusB)) { s with boot := { s.boot with shed := { sh with announced := s.tick } } }
  else s
/-- ANNOUNCE. -/
def execAnnounce (s : State) : Result := .next (announceEffect s)

/-- A frame dropped at Bandstand (R314). -/
def dropFrame (s : State) : State :=
  { s with band := { s.band with cntDrop := satAdd s.band.cntDrop 1, rxDrop := raise s.tick s.band.rxDrop } }

/-- The first DATA frame fixes the sender: slot A is erased and its record says so (R333). -/
def shedOpen (mac : BitVec 48) (s : State) : State :=
  let s1 := markSlot 0 0 0 [] (flashErase (slotBase 0) slotSize s)
  { s1 with boot := { s1.boot with shed := { s1.boot.shed with mac := some mac, written := 0, last := s.tick } } }

/-- A DATA frame (R334): written where it starts at the highest contiguous offset, and acknowledged. -/
def shedDataEffect (mac : BitVec 48) (off : Nat) (data : Bytes) (s : State) : State :=
  if s.pav.tamper = true ∨ s.pav.supply.isSome then s
  else if s.boot.phase ≠ 6 then dropFrame s
  else if (match s.boot.shed.mac with | some m => decide (m ≠ mac) | none => false) then dropFrame s
  else
    let s1 := if s.boot.shed.mac.isNone then shedOpen mac s else s
    let sh := s1.boot.shed
    let s2 := { s1 with boot := { s1.boot with shed := { sh with last := s.tick } } }
    if off ≠ sh.written ∨ data.length > 1024 ∨ off + data.length > slotSize then s2
    else
      let s3 := flashWrite (slotBase 0 + off) data s2
      sendShed 3 (off + data.length) [] { s3 with boot := { s3.boot with shed := { s3.boot.shed with written := off + data.length } } }
/-- DATA. -/
def execPottingData (mac : BitVec 48) (off : Nat) (data : Bytes) (s : State) : Result :=
  .next (shedDataEffect mac off data s)

/-- The checks of R323 on a new header; `seqOk` judges the sequence number. -/
def updateHeaderCheck (h : Bytes) (seqOk : Bool) (s : State) : Status :=
  if !headerOk h then .updtHeaderReject
  else if !hardwareOk s h then .updtHeaderReject
  else if !bindingOk s h then .updtBinding
  else if headerSvn h < s.boot.floor ∨ seqOk = false then .updtHeaderReject
  else if !headerSigned s h then .updtHeaderReject
  else .ok

/-- The checks of R335 at END on slot A, with DGST0's compare pair as they leave it (R258). -/
def shedCheck (length : Nat) (s : State) : Status × State :=
  let h := slotHeader s 0
  let total := 32768 + ((partsOf h).map (·.length)).foldl (· + ·) 0
  match updateHeaderCheck h (decide (headerSeq h ≠ 0)) s with
  | .ok =>
    match checkParts 0 0 (partsOf h) s with
    | (true, s1) => (if length < total then .lengthShort else if total < length then .lengthLong else .ok, s1)
    | (false, s1) => (.dgstCompareFail, s1)
  | st => (st, s)

/-- END (R335): a good image is STAGED, VALID and CONFIRMed and the boot restarts; a bad one is reported. -/
def shedEndEffect (mac : BitVec 48) (length : Nat) (s : State) : State :=
  if s.pav.tamper = true ∨ s.pav.supply.isSome then s
  else if s.boot.phase ≠ 6 ∨ s.boot.shed.mac ≠ some mac then dropFrame s
  else
    let h := slotHeader s 0
    let s0 := (shedCheck length s).2
    match (shedCheck length s).1 with
    | .ok =>
      let mark := fun (st : Nat) => markSlot 0 st (headerSeq h) (manifestDigest h)
      let s1 := appendRecord 4 (trialPayload 0 (headerSeq h)) (mark 2 (mark 1 s0))
      let s2 := sendShed 5 0 (leBv 2 (statusCode .ok)) s1
      bootRestart s2.boot s2
    | st =>
      let s1 := sendShed 5 0 (leBv 2 (statusCode st)) s0
      { s1 with boot := { s1.boot with shed := { s1.boot.shed with mac := none, written := 0 } } }
/-- END. -/
def execPottingEnd (mac : BitVec 48) (length : Nat) (s : State) : Result := .next (shedEndEffect mac length s)

/-- No frame for 10 s: the transfer is discarded (R334). -/
def shedTimeoutEffect (s : State) : State :=
  if s.boot.phase = 6 ∧ s.boot.shed.mac.isSome ∧ s.boot.shed.last + 2500000000 ≤ s.tick then
    { s with boot := { s.boot with shed := { s.boot.shed with mac := none, written := 0 } } }
  else s
/-- POTTING_SHED_TRANSFER_TIMEOUT. -/
def execPottingShedTransferTimeout (s : State) : Result := .next (shedTimeoutEffect s)

end Sys2Proof.Machine
end

