-- ==== Sys2Proof/Machine/Evidence.lean ====
section
/-! DEFINITION. Evidence records and coverage records (09_belvedere_attestation.md Table BELV-8, Table BELV-9;
08_greenhouse_verification.md Table GRNH-9), and the update conditions they show. -/

namespace Sys2Proof.Machine

/-! ## Update conditions -/

/-- The slot that is not running. -/
def otherSlot (s : State) : Nat := 1 - s.boot.slot.getD 0

/-- The STAGED image: its slot, sequence number and manifest digest. -/
def stagedImage (s : State) : Option (Nat × Nat × Bytes) :=
  match slotRecord s (otherSlot s) with
  | some (1, seq, dg) => some (otherSlot s, seq, dg)
  | _ => none

/-- The pending ACTIVATION record (R326): in force, and its slot is STAGED with its sequence number and digest. -/
def pendingActivation (s : State) : Option LogRec :=
  [0, 1].findSome? (fun n =>
    match inForce s 5 (fun r => decide (leAt r.payload 0 1 = n)), slotRecord s n with
    | some r, some (1, seq, dg) => if seq = leAt r.payload 4 8 ∧ dg = slice r.payload 12 48 then some r else none
    | _, _ => none)

/-- An activation record is committed and its reboot is still to come. -/
def activationPending (s : State) : Bool := s.updt.activating || (pendingActivation s).isSome

/-! ## Coverage (Table GRNH-9) -/

/-- The coverage record of a context under the policy last accepted (Table BELV-13: a later command of a tick sees the earlier);
`quant` selects the coarsened counters of R84. -/
def coverageRecord (s : State) (cid : Nat) (quant : Bool) : Bytes :=
  let c := ctxOf s cid
  let val := fun i => if quant && decide (i < 5) then mapGet 0 c.covShown i else mapGet 0 c.cov i
  leNat 2 1 ++ leNat 1 cid ++ leNat 1 (bit c.policy.fence) ++ leBv 2 c.gen ++ leNat 2 (rateEff s c.policy) ++
  leNat 8 s.tick ++ (List.range 8).flatMap (fun i => leNat 8 (val i))

/-! ## Evidence (Table BELV-8) -/

/-- FENCE_STATUS of a context by its CAUSE. -/
def fenceStatus (c : Ctx) : Nat :=
  if c.cause = 1 then (statusCode .fencTagFail).toNat
  else if c.cause = 2 then (statusCode .fencWriteSealed).toNat
  else if c.cause = 3 then (statusCode .grnhMismatch).toNat
  else if c.cause = 4 then (statusCode .belvDieResetting).toNat
  else 0

/-- Group states as Table CTX-7 numbers them. -/
def groupCode : GroupState → Nat
  | .free => 0
  | .open_ => 1
  | .sealed_ => 2
  | .retiring => 3

/-- Record bytes 0 to 2,703. LENGTH is filled in by the caller. -/
def deviceEvidence (s : State) (kind len : Nat) (nonce : Bytes) : Bytes :=
  leNat 2 1 ++ leNat 1 kind ++ [0] ++ leNat 4 len ++ fit 32 nonce ++ leNat 8 s.tick ++ fit 32 s.belv.nonce ++ unitDigest s ++
  leBv 4 s.otp.code ++
  leNat 2 (bit (decide (s.otp.margCount > 0)) + 2 * bit (overridden s 0 2047) + 4 * bit s.boot.tied + 8 * bit s.boot.trial) ++
  leNat 1 (s.boot.slot.getD 0) ++ [0] ++ leNat 8 s.boot.seq ++ leNat 4 s.boot.svn ++ leNat 4 s.boot.floor ++
  (List.range 16).flatMap (mrOf s) ++ [1, 32, 0, 1] ++
  leNat 1 ((trustedInForce s).toNat + 16 * bit (plainInForce s)) ++
  [0] ++ zeros 2 ++ [16, 0] ++ leNat 2 8 ++ leNat 4 250000 ++ leNat 4 2500000 ++
  leNat 2 (rateFloor s) ++ zeros 2 ++
  (List.range 32).flatMap (fun d => leNat 1 (dieCode (dieOf s d).state + 4 * bit (dieOf s d).mr4)) ++
  leNat 4 (bit (stagedImage s).isSome + 2 * bit (activationPending s)) ++
  (match stagedImage s with | some (_, _, dg) => fit 48 dg | none => zeros 48) ++ zeros 4 ++
  fit 97 s.belv.ecdhPub ++ zeros 7 ++ fit 1568 s.belv.kemPub

/-- Bytes 2,704 to 2,735 of a KIND 1 record. -/
def contextEvidence (s : State) (cid : Nat) : Bytes :=
  let c := ctxOf s cid
  leNat 1 cid ++ leNat 1 (ctxCode c.state) ++ leBv 2 c.gen ++ leNat 2 (fenceStatus c) ++
  leNat 1 (bit c.forced + 2 * bit c.privSet) ++ [0] ++ leBv 8 c.sealCnt ++ leNat 4 (if c.privSet then 576 else 0) ++ zeros 12

/-- Open jobs of a context. -/
def openJobs (s : State) (cid : Nat) : Nat :=
  (s.link.jobs.filter (fun e => decide (e.2.cid = cid) && decide (e.2.state ≠ .free))).length

/-- Group number and state of a KSEL, 0xFF twice where it is unbound. -/
def kselBytes (s : State) (c : Ctx) (k : Nat) : Bytes :=
  match mapGet none c.ksel k with
  | some g => leNat 1 g ++ leNat 1 (groupCode (groupStateAt s g))
  | none => [0xff, 0xff]

/-- The sealed context section's plaintext (Table BELV-9). -/
def sealedPlain (s : State) (cid : Nat) : Bytes :=
  let c := ctxOf s cid
  let p := c.policy
  (List.range 8).flatMap (fun i => mapGet (zeros 48) c.cmr i) ++ coverageRecord s cid false ++ fit 32 p.nonce ++
  leNat 8 p.seq ++ (match consentNow s cid with | some k => leBv 1 k.scope | none => [0]) ++ zeros 7 ++
  leNat 8 (match consentNow s cid with | some k => k.expiry | none => 0) ++
  fit 32 (match consentNow s cid with | some k => k.nonce | none => []) ++
  kselBytes s c 1 ++ kselBytes s c 2 ++ kselBytes s c 3 ++ leNat 2 (openJobs s cid) ++ zeros 16

/-- LENGTH of a record (R219): KIND 0, KIND 1 without and with a sealed section. -/
def evidenceLen (s : State) (cid : Nat) : Nat :=
  if cid = 0 then 7427 else if (ctxOf s cid).privSet then 8051 else 7459

/-- The status with which a record is refused for want of the context's sealing key (R236); OK where it needs none. -/
def sealStatus (s : State) (cid : Nat) : Status :=
  if cid ≠ 0 ∧ (ctxOf s cid).privSet = true ∧ (deviceKey (ctxSlot cid 6) s).isNone = true then noKeyStatus (ctxSlot cid 6) s else .ok

/-- Record bytes 0 to B − 1 of a snapshot taken now, and the state whose seal counter has risen where a section was
sealed (R220). -/
def evidenceBody (cid : Nat) (nonce : Bytes) (s : State) : Bytes × State :=
  let len := evidenceLen s cid
  if cid = 0 then (deviceEvidence s 0 len nonce, s)
  else
    let head := deviceEvidence s 1 len nonce ++ contextEvidence s cid
    let c := ctxOf s cid
    if c.privSet then
      let ke := (deviceKey (ctxSlot cid 6) s).getD []
      let r := gcmSeal ke (zeros 4 ++ beNat 8 c.sealCnt.toNat) head (sealedPlain s cid)
      (head ++ r.1 ++ r.2, updCtx cid (fun c => { c with sealCnt := c.sealCnt + 1 }) s)
    else (head, s)

end Sys2Proof.Machine
end

