-- ==== Sys2Proof/Machine/LinkOps.lean ====
section
/-! DEFINITION. The link fence's shared operations (05_link_fence.md): frames of both layers, records and thresholds,
hop-key exchanges, the opening, suspension and closing of jobs. -/

namespace Sys2Proof.Machine

/-! ## Links -/

/-- lnk_en may be up: the link gate is open, the endpoint ID is in range, no zeroisation is in force (R141, Table LINK-18,
Table LINK-11). -/
def linkAllowed (s : State) : Bool := gateOpen s 4 && !s.pav.tamper && decide (s.link.endpoint.toNat ≤ 20479)

/-- The class of an engine is authenticated (R126). -/
def authClass (s : State) (e : Nat) : Bool := !(trustedInForce s).getLsbD (engOf s e).cls.toNat

/-- Index of a hop key in an engine: phase and direction (0 transmit, 1 receive). -/
def hopIdx (phase : Bool) (dir : Nat) : Nat := 2 * bit phase + dir
/-- A hop key held by an engine. -/
def hopKey (x : Engine) (phase : Bool) (dir : Nat) : Bytes := mapGet [] x.keys (hopIdx phase dir)

/-- The link state lets job frames pass (Table LINK-6). -/
def linkOpen (x : Engine) : Bool := decide (x.state = .ready) || decide (x.state = .rekeying)

/-- The engine can send under the current phase: its class is rack-trusted, or the push of the transmit key has reached it
(R249, log 51). -/
def txKeyed (s : State) (e : Nat) : Bool := !authClass s e || decide (hopKey (engOf s e) (engOf s e).kphase 0 ≠ [])

/-- Job frames pass on a link. -/
def linkCarries (s : State) (e : Nat) : Bool := linkOpen (engOf s e) && txKeyed s e

/-! ## Hop layer (R120, R123) -/

/-- A hop header (Table LINK-2). -/
def hopHeader (seq : Nat) (auth phase : Bool) (type : Nat) : Bytes :=
  leNat 6 seq ++ leNat 2 (bit auth + 2 * bit phase + 4 * type)

/-- A hop tag: the first 8 bytes of the GMAC over every frame byte before it. -/
def hopTag (key : Bytes) (seq : Nat) (frame : Bytes) : Bytes := (gmac key (zeros 6 ++ beNat 6 seq) frame).take 8

/-! ## Records and thresholds (R137, R138) -/

/-- A record of an engine, at most one per status code and 1 ms. -/
def linkRecord (e : Nat) (st : Status) (job ep hseq : Nat) (s : State) : State :=
  let code := (statusCode st).toNat
  if s.tick < mapGet 0 (engOf s e).recs code then s
  else postFaultRaw st 12 (leNat 1 e ++ [0] ++ leNat 2 job ++ leNat 2 ep ++ leNat 8 hseq)
    (updEng e (fun x => { x with recs := mapSet 0 x.recs code (s.tick + 250000) }) s)

/-- The bytes of an engine's record used in a management event. -/
def linkEventBody (e job ep : Nat) : Bytes := leNat 1 e ++ [0] ++ leNat 2 job ++ leNat 2 ep

/-- The failure in tick `t` meets a threshold of `n`: the failure `n` − 1 places earlier lies after t − 250,000. -/
def thresholdMet (n t : Nat) (earlier : List Nat) : Bool :=
  match earlier[n - 2]? with
  | some u => decide (t < u + 250000)
  | none => false

/-- A bad hop tag counted toward the threshold of its link. -/
def noteBadHop (e : Nat) (s : State) : State :=
  updEng e (fun x => { x with
    badHop := (s.tick :: x.badHop).take 64
    hopDue := if thresholdMet 64 s.tick x.badHop then some s.tick else x.hopDue }) s

/-- A bad job tag counted toward the threshold of its job. -/
def noteBadJob (j : Nat) (s : State) : State :=
  updJob j (fun x => { x with
    bad := (s.tick :: x.bad).take 16
    badDue := if thresholdMet 16 s.tick x.bad then some s.tick else x.badDue }) s

/-- A frame dropped and counted in CNT_DROP. -/
def countLinkDrop (e : Nat) (s : State) : State := updEng e (fun x => { x with cntDrop := satAdd x.cntDrop 1 }) s

/-! ## Failure and sending (R123, R124) -/

/-- What an engine has accepted to send or to check and no longer may: data and acknowledgements are dropped and counted, a
JOB_CLOSE waits for READY (R139). -/
def stopTraffic (x : Engine) : Engine :=
  { x with
    cntDrop := satAdd x.cntDrop ((x.txPark.filter (fun p => p.2.1 != 1)).length + x.rxPark.length + bit x.egress.isSome)
    closeDue := x.closeDue ++ (x.txPark.filter (fun p => p.2.1 == 1)).map (·.1)
    txPark := [], rxPark := [], egress := none }

/-- The working slots of an exchange zeroised. -/
def dropExchange (x : Option Exchange) (s : State) : State :=
  match x with
  | none => s
  | some y => dropKeys ([y.ecdhSlot, y.kemSlot] ++ y.ownSlot.toList ++ y.finSlot.toList) s

/-- A link becomes FAILED with a status (R123, R124); a management event is posted. -/
def failLink (e : Nat) (st : Status) (s : State) : State :=
  postFaultEventRaw st 12 (linkEventBody e 0 (engOf s e).peerEp.toNat)
    (updEng e (fun x => { stopTraffic x with state := .failed, failedAt := s.tick, exch := none, hopAsm := [], retryAt := none, attempts := 0 })
      (dropExchange (engOf s e).exch s))

/-- The 256-byte beats of a frame, the last one padded with zeros (R117). -/
def linkBeats (f : Bytes) : List Bytes := (chunks 256 f).map (fit 256)

/-- A frame under its hop layer: the first establishment has a sequence space of its own and no tag. A link whose HSEQ has
reached 2^47 − 1 becomes FAILED (R124; its status TIMEOUT is a DESIGN CHOICE, log 119); one that is DOWN or FAILED sends nothing. -/
def sendHop (e type : Nat) (body : Bytes) (s : State) : State :=
  let x := engOf s e
  if x.state = .keying then
    let f := hopHeader x.txEst false false type ++ body
    emit (.linkFrame e (linkBeats (f ++ zeros 8))) (updEng e (fun x => { x with txEst := x.txEst + 1 }) s)
  else if x.state = .down ∨ x.state = .failed then countLinkDrop e s
  else
    let auth := authClass s e
    let f := hopHeader x.txSeq auth x.kphase type ++ body
    let s1 := emit (.linkFrame e (linkBeats (f ++ (if auth then hopTag (hopKey x x.kphase 0) x.txSeq f else zeros 8))))
      (updEng e (fun x => { x with txSeq := x.txSeq + 1 }) s)
    if 2 ^ 47 - 1 ≤ x.txSeq then failLink e .timeout s1 else s1

/-- A hop-control message of a type (1 HELLO, 2 CERT, 3 ENCAP, 4 FINISH: DESIGN CHOICE, log 120) sent in fragments of up to 4,090
data bytes. -/
def sendControl (e type : Nat) (msg : Bytes) (s : State) : State :=
  let fs := if msg.isEmpty then [[]] else chunks 4090 msg
  fs.zipIdx.foldl (fun s (d, i) =>
    sendHop e 1 (leNat 1 type ++ leNat 1 i ++ leNat 1 (bit (decide (i + 1 = fs.length))) ++ [0] ++ leNat 2 d.length ++ d) s) s

/-! ## Job layer (R117 to R119) -/

/-- The local job with an ID. -/
def jobById (s : State) (id : BitVec 16) : Option Nat :=
  (s.link.jobs.find? (fun e => decide (e.2.id = id) && decide (e.2.state ≠ .free))).map (·.1)

/-- A job header of a fragment (Table LINK-3, Table LINK-4). -/
def fragHeader (id ep : BitVec 16) (jseq len dir eng : Nat) (plain : Bool) (frag : Nat) (last : Bool) : Bytes :=
  leBv 2 id ++ leBv 2 ep ++ leNat 8 jseq ++
  leNat 4 (len + 2 ^ 16 * dir + 2 ^ 20 * eng + 2 ^ 27 * bit plain + 2 ^ 28 * frag + 2 ^ 31 * bit last)

/-- A job header of a frame that is no fragment: FRAG 0, LAST 1. -/
def jobHeader (id ep : BitVec 16) (jseq len dir eng : Nat) (plain : Bool) : Bytes := fragHeader id ep jseq len dir eng plain 0 true

/-- The job-layer nonce (Table LINK-5). -/
def jobNonce (ep : BitVec 16) (dir eng jseq : Nat) : Bytes :=
  beNat 12 (ep.toNat * 2 ^ 80 + dir * 2 ^ 76 + eng * 2 ^ 69 + jseq)

/-- Payload and job tag of a frame (R118). -/
def sealJob (key nonce hdr payload : Bytes) (plain : Bool) : Bytes :=
  if plain then payload ++ (gcmSeal key nonce (hdr ++ payload) []).2
  else
    let r := gcmSeal key nonce hdr payload
    r.1 ++ r.2

/-- The payload of a received frame, where its job tag holds. -/
def openJob_ (key nonce hdr payload tag : Bytes) (plain : Bool) : Option Bytes :=
  if plain then (gcmOpen key nonce (hdr ++ payload) [] tag).map (fun _ => payload)
  else gcmOpen key nonce hdr payload tag

/-- The job key cached at an engine. -/
def cachedJobKey (s : State) (e j : Nat) : Option Bytes := ((engOf s e).jobKeys.find? (fun k => k.1 == j)).map (·.2)

/-- A job key put first in an engine's cache of 32. -/
def touchJobKey (e j : Nat) (key : Bytes) (s : State) : State :=
  updEng e (fun x => { x with jobKeys := ((j, key) :: x.jobKeys.filter (fun k => k.1 != j)).take 32 }) s

/-- A fill of a job key raised where none is outstanding. -/
def raiseJobFill (e j : Nat) (s : State) : State :=
  updEng e (fun x => if x.jobFills.any (fun f => f.1 == j) then x else { x with jobFills := x.jobFills ++ [(j, true, false)] }) s

/-- A link has carried a frame of a job (R131). -/
def addLink (e j : Nat) (s : State) : State :=
  updJob j (fun b => { b with links := if b.links.contains e then b.links else b.links ++ [e] }) s

/-- A frame of a job sealed and sent, its payload counted (R403); one whose JSEQ would reach 2^64 − 1 is dropped (R119). -/
def sealFrame (e j dir : Nat) (payload key : Bytes) (s : State) : State :=
  let b := jobOf s j
  let n := mapGet 0 b.jseq e
  if n ≥ 2 ^ 64 - 1 then
    countLinkDrop e (updEng e (fun x => { x with egressRefused := raise s.tick x.egressRefused }) s)
  else
    let hdr := jobHeader b.id s.link.endpoint n payload.length dir e b.plain
    let body := sealJob key (jobNonce s.link.endpoint dir e n) hdr payload b.plain
    sendHop e 0 (hdr ++ body) (countUp 2 b.cid payload.length (touchJobKey e j key (addLink e j
      (updJob j (fun b => { b with jseq := mapSet 0 b.jseq e (n + 1) }) s))))

/-- A frame of a job: sent under the cached key, or parked behind a fill. -/
def submitFrame (e j dir : Nat) (payload : Bytes) (s : State) : State :=
  match cachedJobKey s e j with
  | some key => sealFrame e j dir payload key s
  | none => raiseJobFill e j (updEng e (fun x => { x with txPark := x.txPark ++ [(j, dir, payload)] }) s)

/-- A frame may be submitted: its key is cached, or a place to park is free. -/
def canSubmit (s : State) (e j : Nat) : Bool :=
  (cachedJobKey s e j).isSome || decide ((engOf s e).txPark.length < 8)

/-- The frame being assembled at an engine is closed and submitted (R121). -/
def closeEgress (e : Nat) (s : State) : State :=
  match (engOf s e).egress with
  | none => s
  | some g => submitFrame e g.job 0 g.data (updEng e (fun x => { x with egress := none }) s)

/-! ## Hop-key exchange (R122 to R124) -/

/-- A HELLO message as its bytes. -/
def helloBytes (m : HelloMsg) : Bytes := leBv 2 m.ep ++ fit 32 m.random ++ fit 97 m.ecdh ++ fit 1568 m.kem

/-- This side's HELLO. -/
def ownHello (s : State) (x : Exchange) : HelloMsg :=
  ⟨s.link.endpoint, x.random, x.ecdhPub, x.kemPub⟩

/-- This side is side A: the lower endpoint ID. -/
def isSideA (s : State) (m : HelloMsg) : Bool := decide (s.link.endpoint.toNat < m.ep.toNat)

/-- The key phase that an exchange gives its keys (R122, R124). -/
def nextPhase (x : Engine) (rekey : Bool) : Bool := if rekey then !x.kphase else false

/-- Two values in the order of sides A and B. -/
def sideOrder (a : Bool) (own peer : Bytes) : Bytes := if a then own ++ peer else peer ++ own

/-- Transcript of steps 1 and 2, side A's messages first (log 50). -/
def transcript2 (s : State) (x : Exchange) (m : HelloMsg) (peerChain : Bytes) : Bytes :=
  let a := isSideA s m
  sideOrder a (helloBytes (ownHello s x)) (helloBytes m) ++ sideOrder a (deviceChain s) peerChain

/-- Hop slots of a link and phase in the Orangery. -/
def hopSlots (e : Nat) (phase : Bool) : List Nat := [hopSlot e (bit phase) 0, hopSlot e (bit phase) 1]

/-- The keys of a failed exchange zeroised: its working slots, and the hop slots where they had been derived. -/
def dropAttempt (e : Nat) (s : State) : State :=
  let x := engOf s e
  let s1 := dropExchange x.exch s
  match x.exch with
  | none => s1
  | some y => if y.finSlot.isSome then dropKeys (hopSlots e (nextPhase x y.rekey)) s1 else s1

/-- A failed exchange: the first establishment makes the link FAILED; a rekey leaves READY under the old phase and is
retried; the third failed attempt of a quarantined link makes it FAILED. What has come of the peer's messages is gone with it. -/
def failExchange (e : Nat) (st : Status) (s : State) : State :=
  let s0 := updEng e (fun x => { x with hopAsm := [] }) <| dropAttempt e
    (if st = .notPermitted then updEng e (fun x => { x with keyFail := raise s.tick x.keyFail }) s else s)
  let x := engOf s e
  if x.state = .keying then failLink e st (updEng e (fun x => { x with exch := none }) s0)
  else if x.state = .quarantined then
    if x.attempts + 1 ≥ 3 then failLink e st (updEng e (fun x => { x with exch := none }) s0)
    else updEng e (fun x => { x with exch := none, attempts := x.attempts + 1, retryAt := some (s.tick + 250000) }) s0
  else updEng e (fun x => { x with exch := none, state := .ready, retryAt := some (s.tick + 250000) }) s0

/-- The ephemeral keys of an exchange drawn into working slots, and HELLO (R122, R237); BUSY where no slot is free (R233). -/
def sendHello (e : Nat) (rekey : Bool) (s : State) : State :=
  if (freeWorking 2 s).length < 2 then failExchange e .busy s
  else
    let (r, s1) := drbg 32 s
    let (a, s2) := drbg 48 s1
    let (k, s3) := drbg 64 s2
    let (n, s4) := takeWorking attrWrap 0 a s3
    let (m, s5) := takeWorking attrWrap 0 k s4
    let x : Exchange := { rekey := rekey, start := s.tick, random := r, ecdhSlot := n.getD 0, kemSlot := m.getD 0,
                          ecdhPub := Config.ecdhPublic a, kemPub := Config.kemPublic k }
    sendControl e 1 (helloBytes (ownHello s5 x)) (updEng e (fun y => { y with exch := some x, retryAt := none }) s5)

/-- An exchange begins with HELLO; without a serving DRBG it fails at once, and it queues for a reseed (R252). -/
def startExchange (e : Nat) (rekey : Bool) (s : State) : State :=
  withDraw (.hello e rekey) (failExchange e .notPermitted) (sendHello e rekey) s

/-- A link enters KEYING (R122). -/
def beginKeying (e : Nat) (s : State) : State :=
  startExchange e false (updEng e (fun x => { x with
    state := .keying, txEst := 1, rxSeq := [], keys := [], phases := [], kphase := false, rxPhase := false, oldUntil := none
    attempts := 0, retryAt := none, badHop := [], hopDue := none, exch := none, hopAsm := [] }) (dropExchange (engOf s e).exch s))

/-- A rekey begins (R124): the link carries its frames under the current phase meanwhile. Where the push of the current key is
still on its way it is tried again (log 51). -/
def beginRekey (e : Nat) (s : State) : State :=
  if txKeyed s e then
    startExchange e true (updEng e (fun x => { x with state := if x.state = .ready then .rekeying else x.state }) s)
  else updEng e (fun x => { x with retryAt := some (s.tick + 250000) }) s

/-- The push of a hop key from its slot (R249). -/
def pushHopKey (e : Nat) (phase : Bool) (dir : Nat) (s : State) : State :=
  let n := hopSlot e (bit phase) dir
  match deviceKey n s with
  | none => checkSlot n s
  | some key =>
    let (d, u) := engineUnit e
    sendPush d (kbusHeader 3 0 (hopIdx phase dir) 0 0 0 u) key s

/-- Places in the park of frames to send. -/
def parkRoom (s : State) (e : Nat) : Nat := 8 - (engOf s e).txPark.length

/-- The egress of an engine is a frame of a job. -/
def egressOf (s : State) (e j : Nat) : Bool :=
  match (engOf s e).egress with
  | some g => decide (g.job = j)
  | none => false

/-- A JOB_CLOSE or CLOSE_ACK of a job can go now, after the frames accepted before it: the link carries frames, and the key is
cached or the park has the places (R121, R139). -/
def closeRoom (s : State) (e j : Nat) : Bool :=
  linkCarries s e && ((cachedJobKey s e j).isSome || decide (1 + bit (egressOf s e j) ≤ parkRoom s e))

/-- The frame of a job being assembled at an engine is submitted. -/
def closeEgressOf (e j : Nat) (s : State) : State := if egressOf s e j then closeEgress e s else s

/-- A JOB_CLOSE on a link: after the frames already accepted, or due later where it cannot go now (R132, R139). -/
def sendClose (e : Nat) (s : State) (j : Nat) : State :=
  if closeRoom s e j then submitFrame e j 1 [] (closeEgressOf e j s)
  else updEng e (fun x => { x with closeDue := x.closeDue ++ [j] }) s

/-- The JOB_CLOSE frames that are due on a link, sent in order as far as they can go (R139). -/
def sendDueCloses (e : Nat) (s : State) : State :=
  let due := (engOf s e).closeDue
  due.foldl (sendClose e) (updEng e (fun x => { x with closeDue := [] }) s)

/-- The parked frames of a job sent under its key, in order, where the link carries frames. -/
def sendParked (e j : Nat) (key : Bytes) (s : State) : State :=
  if linkCarries s e then
    let tx := (engOf s e).txPark.filter (fun p => p.1 == j)
    tx.foldl (fun s p => sealFrame e j p.2.1 p.2.2 key s) (updEng e (fun x => { x with txPark := x.txPark.filter (fun p => p.1 != j) }) s)
  else s

/-- A link can send again: the parked frames whose keys are cached, then the JOB_CLOSE frames that are due. -/
def resumeLink (e : Nat) (s : State) : State :=
  sendDueCloses e (((engOf s e).txPark.map (·.1)).eraseDups.foldl (fun s j =>
    match cachedJobKey s e j with
    | some key => sendParked e j key s
    | none => s) s)

/-- The exchange completes: both hop keys of the new phase are pushed, HSEQ starts at 1, the link is READY. -/
def finishExchange (e : Nat) (x : Exchange) (m : HelloMsg) (s : State) : State :=
  let old := engOf s e
  let phase := nextPhase old x.rekey
  let s1 := pushHopKey e phase 1 (pushHopKey e phase 0 (dropExchange (some x) s))
  let s2 := updEng e (fun y => { y with
    state := .ready, kphase := phase, txSeq := 1, peerEp := m.ep, exch := none, hopAsm := [], attempts := 0, retryAt := none
    rxSeq := mapSet 0 y.rxSeq (bit phase) 0, rxPhase := if x.rekey then y.rxPhase else false, oldUntil := none
    phases := if x.rekey then [old.kphase, phase] else [phase]
    keys := mapSet [] (mapSet [] y.keys (hopIdx phase 0) []) (hopIdx phase 1) []
    rekeys := if x.rekey then y.rekeys + 1 else y.rekeys, badHop := [], hopDue := none }) s1
  let s3 := if old.state = .quarantined then postEventRaw 0x04 12 (linkEventBody e 0 m.ep.toNat) s2 else s2
  resumeLink e s3

/-! ## Jobs (R129 to R134) -/

/-- An endpoint lies in a job's member ranges. -/
def inRanges (ep : BitVec 16) (rs : List (Nat × Nat)) : Bool := rs.any (fun r => decide (r.1 ≤ ep.toNat) && decide (ep.toNat ≤ r.2))

/-- Every engine forgets a job: its key, fills and parked frames (R134). -/
def forgetJob (j : Nat) (s : State) : State :=
  { s with link := { s.link with
    ctl := s.link.ctl.filter (fun c => c.job != j)
    engines := mapAll {} (fun _ x => { x with
      jobKeys := x.jobKeys.filter (fun k => k.1 != j), jobFills := x.jobFills.filter (fun f => f.1 != j)
      txPark := x.txPark.filter (fun p => p.1 != j), rxPark := x.rxPark.filter (fun p => p.1 != j)
      closeDue := x.closeDue.filter (· != j)
      egress := (match x.egress with | some g => if g.job = j then none else some g | none => none) }) s.link.engines } }

/-- A job is FREE (R134): the key is gone, the generation advances, and what waits for it completes. -/
def freeJob (j : Nat) (s : State) : State :=
  let b := jobOf s j
  let s1 := updJob j (fun b => { gen := genNext b.gen }) (forgetJob j (dropKeys ([jobSlot j] ++ b.ecdhSlot.toList ++ b.kemSlot.toList) s))
  let s2 := finish b.closeW (if b.timedOut then .lnkfCloseTimeout else .ok) [] s1
  finish b.openW (b.failWith.getD .ctxState) [] s2

/-- A closing job whose links have all answered or timed out becomes FREE. -/
def settleClose (j : Nat) (s : State) : State :=
  if (jobOf s j).state = .closing ∧ (jobOf s j).awaiting = [] then freeJob j s else s

/-- JOB_CLOSE on one link of the set, with its timer (R132). -/
def closeOnLink (j : Nat) (s : State) (e : Nat) : State :=
  updJob j (fun b => { b with awaiting := b.awaiting ++ [(e, s.tick + 500000)] }) (sendClose e s j)

/-- Links that have accepted a frame of a job which they have not yet sent. -/
def linksHolding (s : State) (j : Nat) : List Nat :=
  (s.link.engines.filter (fun x => egressOf s x.1 j || x.2.txPark.any (fun p => p.1 == j))).map (·.1)

/-- A job begins to close (R132), on the links of its set and on those that still have to send what they have accepted. -/
def beginClose (j : Nat) (s : State) : State :=
  let b := jobOf s j
  if b.state = .free ∨ b.state = .closing then s
  else
    let s1 := updJob j (fun b => { b with state := .closing }) s
    settleClose j ((b.links ++ (linksHolding s j).filter (fun e => !b.links.contains e)).foldl (closeOnLink j) s1)

/-- A job closed at once without acknowledgements (R134, R79). -/
def forceClose (j : Nat) (s : State) : State :=
  if (jobOf s j).state = .free then s
  else freeJob j (updJob j (fun b => { b with timedOut := b.timedOut || !b.awaiting.isEmpty }) s)

/-- The data of a job that its engines have accepted and not sent, dropped and counted (Table LINK-8). -/
def dropJobData (j : Nat) (s : State) : State :=
  let data : Nat × Nat × Bytes → Bool := fun p => p.1 == j && p.2.1 == 0
  { s with link := { s.link with engines := mapAll {} (fun e x => { x with
      cntDrop := satAdd x.cntDrop ((x.txPark.filter data).length + bit (egressOf s e j))
      txPark := x.txPark.filter (fun p => !data p), egress := if egressOf s e j then none else x.egress }) s.link.engines } }

/-- A job becomes SUSPENDED (R135, R137): its data is dropped; its open, where it is still pending, completes with a status. -/
def suspendJob (j : Nat) (st : Status) (s : State) : State :=
  let b := jobOf s j
  if b.state = .open_ then updJob j (fun b => { b with state := .suspended }) (dropJobData j s)
  else if b.state = .keying then finish b.openW st [] (updJob j (fun b => { b with state := .suspended, openW := .none }) s)
  else s

/-- Jobs of a context that are not FREE. -/
def jobsOf (s : State) (cid : Nat) : List Nat :=
  (s.link.jobs.filter (fun e => decide (e.2.cid = cid) && decide (e.2.state ≠ .free))).map (·.1)

/-! ## JOIN and GRANT (R129, R130) -/

/-- The bytes of a JOIN or GRANT message: the destination endpoint (R130), then its parts, each under a 4-byte length
(DESIGN CHOICE, log 121). -/
def jobMsgBytes (m : JobMsg) : Bytes :=
  leBv 2 m.destEp ++ [m.chain, m.ecdh, m.kem, m.wrapped, m.digest, m.sig].flatMap (fun f => leNat 4 f.length ++ f)

/-- One fragment of a message of a local job, sent by an engine (R118, R130): PLAIN = 1, a job tag of 16 zero bytes. -/
def sendFragment (e j dir : Nat) (id : BitVec 16) (frag : Nat) (last : Bool) (d : Bytes) (s : State) : State :=
  let n := mapGet 0 (jobOf s j).jseq e
  if n ≥ 2 ^ 64 - 1 then countLinkDrop e s
  else sendHop e 0 (fragHeader id s.link.endpoint n d.length dir e true frag last ++ d ++ zeros 16)
    (addLink e j (updJob j (fun b => { b with jseq := mapSet 0 b.jseq e (n + 1) }) s))

/-- A message of a local job sent toward its destination by the route table, in up to 8 fragments; without a route, on a link
that carries no frames, or beyond 8 fragments it is discarded, counted at the engine the answered message came on. -/
def sendJobMsg (arrived : Option Nat) (j dir : Nat) (m : JobMsg) (s : State) : State :=
  let drop := match arrived with | some e => countLinkDrop e s | none => s
  let fs := chunks 4096 (jobMsgBytes m)
  match routeTo s m.destEp with
  | none => drop
  | some e =>
    if e < Config.engines ∧ linkCarries s e = true ∧ fs.length ≤ 8 then
      fs.zipIdx.foldl (fun s (d, i) => sendFragment e j dir m.jobId i (decide (i + 1 = fs.length)) d s) s
    else drop

/-- A message that has arrived whole at a device that is not its destination: its frames go on unchanged under a new hop header
on the link that the route table names, or it is discarded and counted (R130). That link has then carried frames of the job, where it
is in the local table (R131). -/
def relayJobMsg (m : JobMsg) (frames : List Bytes) (s : State) : State :=
  match routeTo s m.destEp with
  | none => countLinkDrop m.engine.val s
  | some e =>
    if e < Config.engines ∧ linkCarries s e = true then
      frames.foldl (fun s f => sendHop e 0 f s) (match jobById s m.jobId with | some j => addLink e j s | none => s)
    else countLinkDrop m.engine.val s

/-- What a JOIN's signature covers: job ID, token digest, both keys. -/
def joinSigned (m : JobMsg) : Bytes := leBv 2 m.jobId ++ fit 48 m.digest ++ m.ecdh ++ m.kem

/-- A hybrid signature verified. -/
def hybridOk (keys : Bytes × Bytes) (msg sig : Bytes) : Bool :=
  Config.ecdsaVerify keys.1 msg (slice sig 0 96) && Config.mldsaVerify keys.2 msg (slice sig 96 4627)

/-- A member's JOIN (R129): its ephemeral keys drawn into working slots, the job KEYING until its GRANT. -/
def sendJoin (j : Nat) (b : Job) (w : Waiter) (s : State) : State :=
  let (a, s1) := drbg 48 s
  let (k, s2) := drbg 64 s1
  let (n, s3) := takeWorking attrWrap b.cid a s2
  let (p, s4) := takeWorking attrWrap b.cid k s3
  let m : JobMsg := { engine := 0, destEp := b.leaderEp, srcEp := s.link.endpoint, jobId := b.id, chain := deviceChain s, ecdh := Config.ecdhPublic a, kem := Config.kemPublic k, wrapped := [], digest := b.digest, sig := [] }
  let s5 := updJob j (fun old => { b with
    gen := old.gen, state := .keying, ecdhSlot := n, kemSlot := p, ecdhPub := m.ecdh, kemPub := m.kem, openW := w
    deadline := s.tick + 25000000 }) s4
  sendJobMsg none j 3 { m with sig := hybridSign (joinSigned m) s5 } s5

/-- A job opened at the lowest FREE entry (R129): the leader draws the job key, a member sends JOIN. Its index is returned. -/
def openLocalJob (b : Job) (w : Waiter) (s : State) : Option Nat × State :=
  match leastBelow 256 (fun j => decide ((jobOf s j).state = .free)) with
  | none => (none, s)
  | some j =>
    if b.leader then
      let (k, s1) := drbg 32 s
      (some j, updJob j (fun old => { b with gen := old.gen, state := .open_ }) (setSlot (jobSlot j) attrEngine b.cid none k s1))
    else (some j, sendJoin j b w s)

/-- Why a job cannot be opened now although its checks pass: no entry or, for a member, no working slots are free, or the alias
keys that sign JOIN are gone. -/
def openBlocked (leader : Bool) (s : State) : Option Status :=
  if (leastBelow 256 (fun j => decide ((jobOf s j).state = .free))).isNone then some .busy
  else if !leader && decide ((freeWorking 2 s).length < 2) then some .busy
  else if !leader && !signReady s then some (signStatus s)
  else none

end Sys2Proof.Machine
end

