-- ==== Sys2Proof/Machine/LodgeOps.lean ====
section
/-! DEFINITION. The Lodges' shared operations: service requests (16_spill_queues.md R359), the residents of a die and their
rotation, the save area and the steps of the context switch (03_tenant_contexts.md R70 to R72, R425). -/

namespace Sys2Proof.Machine

/-! ## Service requests (R359, Tables SPLQ-8 to SPLQ-10) -/

/-- CODE of SCHEDULE. -/
def svcSchedule : Nat := 1
/-- CODE of DRAIN. -/
def svcDrain : Nat := 2
/-- CODE of FENCE. -/
def svcFence : Nat := 3
/-- CODE of DESTROY. -/
def svcDestroy : Nat := 4
/-- CODE of RELOAD. -/
def svcReload : Nat := 5

/-- The semaphore on which control firmware waits for a Lodge's answers: the last core semaphore of the slice (log 60). -/
def svcSem : Nat := 15359

/-- A resident record (Table SPLQ-9). -/
def residentBytes (r : Resident) : Bytes := leNat 1 r.cid ++ leNat 1 r.vdie ++ leBv 2 r.gen ++ leNat 4 r.slice

/-- Resident records of an entry, unused ones all ones. -/
def residentField (n : Nat) (rs : List Resident) : Bytes :=
  let b := (rs.take n).flatMap residentBytes
  b ++ List.replicate (8 * n - b.length) 0xff

/-- Later entries of a SCHEDULE request: seven residents each. -/
def laterEntries : Nat → List Resident → List Bytes
  | 0, _ => []
  | n + 1, rs => if rs.isEmpty then [] else (residentField 7 rs ++ zeros 7) :: laterEntries n (rs.drop 7)

/-- The entries of a service request. -/
def svcRequest (s : State) (code cid : Nat) (gen : BitVec 16) (rs : List Resident) : List Bytes :=
  let more := laterEntries 31 (rs.drop 5)
  let first := leNat 1 (1 + more.length) ++ leNat 1 code ++ leNat 1 cid ++ [0] ++ leBv 2 gen ++ leNat 2 svcSem ++
    leNat 8 s.tick ++ (if code = svcSchedule then residentField 5 rs else zeros 40) ++ zeros 7
  first :: more

/-- Port of the Pavilion at the Lodge service queues. -/
def svcPort : Nat := 900

/-- A request's entries written at a Lodge's queue. -/
def writeSvc (d : Nat) : List Bytes → State → State
  | [], s => s
  | [b], s => (writeQ (34 + d) svcPort none 0 true b s).1
  | b :: bs, s => writeSvc d bs (writeQ (34 + d) svcPort none 0 false b s).1

/-- A service request of the Pavilion: posted, or held until the Lodge has answered the last one. -/
def postLodge (d : Nat) (req : List Bytes) (s : State) : State :=
  if (dieOf s d).asking then updDie d (fun x => { x with backlog := x.backlog ++ [req] }) s
  else writeSvc d req (updDie d (fun x => { x with asking := true }) s)

/-- The next held request posted once the Lodge has answered. -/
def nextRequest (d : Nat) (s : State) : State :=
  match (dieOf s d).backlog with
  | [] => updDie d (fun x => { x with asking := false }) s
  | r :: rs => writeSvc d r (updDie d (fun x => { x with backlog := rs }) s)

/-- A Lodge's answer: 0x1_0000 + status added to the semaphore the request names. Control firmware, which waits on its own
semaphore, takes the value off it again and may then post the next request (log 60). -/
def answerSvc (d sem : Nat) (st : Status) (s : State) : State :=
  let v := 0x10000 + (statusCode st).toNat
  let s1 := pergOperate d .add sem v 0 (.internal d) s
  if sem = svcSem ∧ (dieOf s d).asking = true then
    nextRequest d (pergOperate d .sub sem v 0 (.internal d) (emit (.internalWake d 0 0 (BitVec.ofNat 20 v)) s1))
  else s1

/-- The packet at the head of a Lodge's queue, as its payloads. -/
def headSvc (s : State) (d : Nat) : Option (List Bytes) := (peekPacket (qOf s (34 + d))).map (fun es => es.map (·.payload))

/-- The packet at the head of a Lodge's queue removed. -/
def takeSvc (d : Nat) (s : State) : State := putQ (34 + d) (popPacket s.tick (qOf s (34 + d))).2 s

/-- The checks of R359 on a request that names a context, or none. -/
def svcOk (s : State) (es : List Bytes) : Bool :=
  let e := es.headD []
  let code := leAt e 1 1
  let cid := leAt e 2 1
  let plain := decide (code = svcSchedule) || decide (code = svcReload)
  decide (leAt e 0 1 = es.length) && decide (1 ≤ code) && decide (code ≤ 5) && byteAt e 3 == 0 && allZero (slice e 56 7) &&
  (if code = svcSchedule then (es.drop 1).all (fun b => allZero (slice b 56 7)) else decide (es.length = 1) && allZero (slice e 16 40)) &&
  (if plain then decide (cid = 0) && decide (leAt e 4 2 = 0)
    else decide (1 ≤ cid) && decide (cid ≤ 254) && decide (leAt e 4 2 = (ctxOf s cid).gen.toNat))

/-- Residents a SCHEDULE request carries, unused records left out. -/
def svcResidents (es : List Bytes) : List Resident :=
  let recs := (match es with
    | [] => []
    | e :: more => chunks 8 (slice e 16 40) ++ more.flatMap (fun b => chunks 8 (slice b 0 56)))
  (recs.filter (fun b => !b.all (· == 0xff))).map (fun b => ⟨leAt b 0 1, leAt b 1 1, BitVec.ofNat 16 (leAt b 2 2), leAt b 4 4⟩)

/-- A Lodge takes the request at the head of its queue where its CODE is `code`: refused with BAD_DESCRIPTOR where a check of
R359 fails, else judged by `k`, which is given the entries and the answer semaphore. -/
def lodgeTake (d code : Nat) (k : List Bytes → Nat → State → State) (s : State) : State :=
  match headSvc s d with
  | none => s
  | some es =>
    let e := es.headD []
    let sem := leAt e 6 2
    if (dieOf s d).state ≠ .running then s
    else if svcOk s es then (if leAt e 1 1 = code then k es sem (takeSvc d s) else s)
    else answerSvc d sem .badDescriptor (takeSvc d s)

/-! ## Residents and rotation (R71) -/

/-- Two residents are the same virtual die of the same context. -/
def sameResident (a b : Resident) : Bool := decide (a.cid = b.cid) && decide (a.vdie = b.vdie) && decide (a.gen = b.gen)

/-- Order of the rotation: CID, then virtual die. -/
def resKey (r : Resident) : Nat := 256 * r.cid + r.vdie

/-- A resident may be brought in: its context is RUNNING under its generation with no empty map pending (R70), and its cores are
on no other die. -/
def eligible (s : State) (d : Nat) (r : Resident) : Bool :=
  decide ((ctxOf s r.cid).state = .running) && decide ((ctxOf s r.cid).gen = r.gen) && (ctxOf s r.cid).schedWait.isNone &&
  s.dies.all (fun e => decide (e.1 = d) || (match e.2.current with | some c => !sameResident c r | none => true))

/-- The lowest resident of a list in rotation order. -/
def lowestRes : List Resident → Option Resident
  | [] => none
  | r :: rs => match lowestRes rs with
    | none => some r
    | some x => if resKey r ≤ resKey x then some r else some x

/-- The next resident of a die's rotation. -/
def nextResident (s : State) (d : Nat) : Option Resident :=
  let x := dieOf s d
  let rs := x.residents.filter (eligible s d)
  match x.last with
  | none => lowestRes rs
  | some p => match lowestRes (rs.filter (fun r => decide (resKey r > 256 * p.1 + p.2))) with
    | some r => some r
    | none => lowestRes rs

/-- KSEL_EN of a stamp: KSEL 0, and each KSEL bound to a group (log 61). -/
def kselEn (s : State) (cid : Nat) : BitVec 4 :=
  BitVec.ofNat 4 (1 + ([1, 2, 3].map (fun k => if (mapGet none (ctxOf s cid).ksel k).isSome then 2 ^ k else 0)).foldl (· + ·) 0)

/-- The stamp writes of a die: one for each of its 320 cores, with the core index, the CID and KSEL_EN (R39). -/
def stampCores (d cid : Nat) (k : BitVec 4) (s : State) : State :=
  { s with outs := s.outs ++ (List.range 320).map (fun i => Out.stamp d i cid k.toNat) }

/-- Step 5 of Table CTX-6: the stamps of the incoming resident are written to every core; its cores are resident from here. -/
def writeStamps (d : Nat) (r : Resident) (s : State) : State :=
  let k := kselEn s r.cid
  stampCores d r.cid k (updDie d (fun x => { x with
    current := some r, step := .stamping, coresRun := false, stampCid := r.cid, stampKsel := k, stampVdie := r.vdie }) s)

/-- Stamps of a die cleared. -/
def clearStamps (d : Nat) (s : State) : State :=
  stampCores d 0 0 (updDie d (fun x => { x with stampCid := 0, stampKsel := 0, stampVdie := 0 }) s)

/-- An idle die brings in the next resident of its rotation. -/
def startNext (d : Nat) (s : State) : State :=
  let x := dieOf s d
  if x.state = .running ∧ x.step = .idle ∧ x.current.isNone then
    match nextResident s d with
    | some r => writeStamps d r s
    | none => s
  else s

/-- Every idle die looks again for a resident it may bring in. -/
def kickDies (s : State) : State := forUpTo Config.dies startNext s

/-- Pre-emption bound in ticks (Table CTX-17). -/
def preemptTicks (x : Die) : Nat := 250 * clamp 10 5000 x.bound.toNat

/-- Step 1 of Table CTX-6: pre-emption is requested, and every wait of the die's cores is released with BUSY (R350). -/
def requestPreempt (d : Nat) (s : State) : State :=
  releaseWaits (fun _ w => ofDie d w) .busy (updDie d (fun x => { x with step := .preempting (s.tick + preemptTicks x) }) s)

/-- Step 4 of Table CTX-6: ctx_clear rises and the acknowledgement is awaited for 2 µs (R38). -/
def raiseClear (d : Nat) (switching : Bool) (s : State) : State :=
  updDie d (fun x => { x with step := .clearing (s.tick + 500) switching, ctxClear := true, stampGap := true, coresRun := false }) s

/-- A die has passed step 3 of Table CTX-6 for its resident: its cores have left, and only the clear is awaited. -/
def pastSave (x : Die) : Bool :=
  match x.step with
  | .clearing _ _ => true
  | .unstamping _ _ => true
  | .idle => false
  | .preempting _ => false
  | .awaiting => false
  | .stamping => false
  | .evicting _ _ _ _ => false

/-- A context's cores leave a die (step 3 of Table CTX-6): no wait of the die's cores remains (Table PERG-5), and where the
context has cores on no other die that has not passed that step, its set is copied back to the backing block (R341). -/
def settleHome (cid d : Nat) (s : State) : State :=
  let s1 := releaseWaits (fun _ w => ofDie d w) .busy s
  if s1.dies.any (fun e => decide (e.1 ≠ d) && !pastSave e.2 && (match e.2.current with | some c => decide (c.cid = cid) | none => false))
  then s1 else unbindSet cid s1

/-! ## Save area (Table CTX-5, R425) -/

/-- SAVE frames of a context, ascending. -/
def saveFrames (s : State) (cid : Nat) : List Nat :=
  (s.frames.filter (fun e => decide (e.2.owner = cid) && decide (e.2.cls = .save))).map (·.1)

/-- KiB of one core slot on a die. -/
def slotKib (s : State) (d : Nat) : Nat := (dieOf s d).saveKib.toNat + 1

/-- Frame and byte offset of a core slot; none where it lies wholly or partly beyond the end of the save area. -/
def slotPlace (s : State) (d cid v k : Nat) : Option (Nat × Nat) :=
  let size := 1024 * slotKib s d
  let off := (v * 320 + k) * size
  let fr := saveFrames s cid
  if off + size ≤ fr.length * 2097152 then (fr[off / 2097152]?).map (fun f => (f, off % 2097152)) else none

/-- First line of a place in the save area. -/
def placeLine (p : Nat × Nat) : Nat := p.1 * 32768 + p.2 / 64

/-- Bytes 0 to 255 of a core slot header with saved state. -/
def slotHeaderBytes (s : State) (d k : Nat) : Bytes :=
  [1] ++ zeros 7 ++ leNat 8 s.tick ++ zeros 48 ++ (List.range 48).flatMap (fun i => leNat 4 (semValue s d (48 * k + i)))

/-- The four lines of a core slot header at a place, at the internal port of a Lodge (R87): a read, or a write of its bytes. -/
def headerLines (d cid : Nat) (header : Option Bytes) (p : Nat × Nat) : List ChanReq :=
  (List.range 4).map (fun i => ⟨.internal (.lodge (Fin.ofNat 32 d)), placeLine p + i, cid, 0, 0,
    header.map (fun b => BitVec.ofNat 512 (leVal (slice b (64 * i) 64))), 0⟩)

/-- Step 3 of Table CTX-6: the headers of every core slot that has a place, written through the fence under the context's CID;
SAVE_SHORT where one has none. -/
def writeHeaders (d : Nat) (r : Resident) (s : State) : State :=
  let outs := (List.range 320).filterMap (fun k =>
    (slotPlace s d r.cid r.vdie k).map (fun p => Out.slotHeader d r.cid r.vdie k p (slotHeaderBytes s d k)))
  let lines := (List.range 320).flatMap (fun k =>
    ((slotPlace s d r.cid r.vdie k).map (headerLines d r.cid (some (slotHeaderBytes s d k)))).getD [])
  let s1 := lines.foldl (fun s l => wholeLine l s) { s with outs := s.outs ++ outs }
  if outs.length < 320 then updDie d (fun x => { x with saveShort := raise s.tick x.saveShort }) s1 else s1

/-- The reads of step 6: the headers of every core slot of a resident that has a place. -/
def headerReads (s : State) (d : Nat) (r : Resident) : List ChanReq :=
  (List.range 320).flatMap (fun k => ((slotPlace s d r.cid r.vdie k).map (headerLines d r.cid none)).getD [])

/-- Values the restore of step 6 gives the core semaphores of a die: those of each slot with VALID set and a place, in normal
service only. -/
def restoredSems (s : State) (d : Nat) (r : Resident) (hs : List SlotHeader) : NMap Nat :=
  if (sliceOf s d).service then
    (List.range 320).flatMap (fun k =>
      match slotPlace s d r.cid r.vdie k, hs[k]? with
      | some _, some h =>
        if h.valid then
          (List.range 48).filterMap (fun i =>
            let v := ((h.sems[i]?).getD 0).toNat
            if v = 0 then none else some (48 * k + i, v))
        else []
      | _, _ => [])
  else []

/-! ## Drains at a Lodge (Table CTX-9, R63) -/

/-- A Lodge has reported for the drain of a context; when every Lodge has, the counts are awaited. -/
def reportDrained (d cid : Nat) (s : State) : State :=
  updCtx cid (fun c => { c with drain := c.drain.map (fun k =>
    let ls := k.lodges.filter (· != d)
    if ls.isEmpty ∧ k.phase = .lodges then { k with lodges := ls, phase := .counts, since := s.tick } else { k with lodges := ls }) }) s

/-- The Lodge has drained or fenced a context: it reports, and answers the request (log 82). -/
def reportEvicted (d cid ans : Nat) (s : State) : State := answerSvc d ans .ok (reportDrained d cid s)

/-- ctx_clear rises for a context whose stamps have been cleared, and the Lodge reports. -/
def endEvict (d cid ans : Nat) (s : State) : State := reportEvicted d cid ans (raiseClear d false s)

/-- The stamps of a context's cores are cleared, and the Lodge waits for ldg_stamp_done (Table CTX-9, R39). -/
def unstamp (d cid ans : Nat) (s : State) : State :=
  clearStamps d (settleHome cid d (updDie d (fun x => { x with step := .unstamping cid ans, coresRun := false }) s))

/-- The cores of a context that is evicted have reached their switch point: leftovers are judged where it is drained, and not
where it has become FENCED, be it DESTROYING by now (R352). -/
def evicted (d cid : Nat) (judge : Bool) (ans : Nat) (s : State) : State :=
  unstamp d cid ans (if judge && (ctxOf s cid).fenceFrom.isNone then judgeLeftovers d cid s else s)

/-- A context's cores leave a die without being saved (Table CTX-9, R63): they are pre-empted under step 1 of Table CTX-6, or
their stamps are cleared at once where they do not run or have reached their switch point; the context is no longer among the die's residents. Where it holds no
cores of the die, or ctx_clear is already high for them, the Lodge reports at once. -/
def evict (d cid : Nat) (judge : Bool) (ans : Nat) (s : State) : State :=
  let s1 := updDie d (fun x => { x with residents := x.residents.filter (fun r => r.cid != cid) }) s
  let x := dieOf s1 d
  let here := match x.current with | some r => decide (r.cid = cid) | none => false
  let clearing := match x.step with
    | .idle => false
    | .preempting _ => false
    | .awaiting => false
    | .stamping => false
    | .clearing _ _ => true
    | .evicting _ _ _ _ => false
    | .unstamping _ _ => false
  if !here || clearing then reportEvicted d cid ans s1
  else if x.step = .awaiting then evicted d cid judge ans s1
  else if x.coresRun then
    let limit := match x.step with | .preempting t => t | _ => s.tick + preemptTicks x
    releaseWaits (fun _ w => ofDie d w) .busy (updDie d (fun x => { x with step := .evicting limit cid judge ans }) s1)
  else unstamp d cid ans s1

end Sys2Proof.Machine
end

