-- ==== Sys2Proof/Machine/CtxOps.lean ====
section
/-! DEFINITION. The shared operations of contexts and prefix groups (03_tenant_contexts.md): fencing, drain, destroy, the end
of groups. -/

namespace Sys2Proof.Machine

/-! ## Schedules -/

/-- Residents of a die under the maps of the RUNNING contexts, in rotation order. -/
def mappedResidents (s : State) (d : Nat) : List Resident :=
  s.ctxs.flatMap (fun e =>
    if e.2.state = .running then
      e.2.map.zipIdx.filterMap (fun p => if p.1 = some d then some ⟨e.1, p.2, e.2.gen, e.2.slice⟩ else none)
    else [])

/-- A SCHEDULE request for a die, from the maps as they stand; a request carries at most 222 residents (log 62). -/
def scheduleDie (d : Nat) (s : State) : State :=
  postLodge d (svcRequest s svcSchedule 0 0 ((mappedResidents s d).take 222)) s

/-- Dies that a context is mapped to or whose cores it holds (R71). -/
def diesOf (s : State) (cid : Nat) : List Nat :=
  (List.range Config.dies).filter (fun d => decide (some d ∈ (ctxOf s cid).map) ||
    (match (dieOf s d).current with | some r => decide (r.cid = cid) | none => false))

/-- A pending empty map ends, its command completing with a status (R70). -/
def endSchedule (cid : Nat) (st : Status) (s : State) : State :=
  match (ctxOf s cid).schedWait with
  | none => s
  | some w => finish w st [] (updCtx cid (fun c => { c with schedWait := none, saved := [] }) s)

/-! ## Fencing (R62, R63) -/

/-- Table CTX-3: a cause fences a context in a state. -/
def fences (cause : Nat) (st : CtxState) : Bool :=
  match st with
  | .running => true
  | .draining => true
  | .keyed => decide (cause ≤ 2)
  | .drained => decide (cause = 1)
  | .free => false
  | .created => false
  | .fenced => false
  | .destroying => false

/-- The status a CAUSE shows (Table BELV-8). -/
def causeStatus (cause : Nat) : Status :=
  if cause = 1 then .fencTagFail else if cause = 2 then .fencWriteSealed else if cause = 3 then .grnhMismatch else .belvDieResetting

/-- A service request that names a context, to each of its dies. -/
def askDies (ds : List Nat) (code cid : Nat) (s : State) : State :=
  ds.foldl (fun s d => postLodge d (svcRequest s code cid (ctxOf s cid).gen []) s) s

/-- A context becomes FENCED with a CAUSE in the tick of the cause `t` (R63). -/
def fenceContext (cid cause t : Nat) (s : State) : State :=
  let c := ctxOf s cid
  let ds := diesOf s cid
  let s1 := updCtx cid (fun c => { c with
    state := .fenced, cause := BitVec.ofNat 4 cause, fenceFrom := some (t + 2), fenceTo := none, fencedAt := s.tick, drain := none, map := []
    leftAt := if c.state = .running then s.tick else c.leftAt }) s
  let s2 := endSchedule cid .ctxFenced s1
  let s3 := match c.drain with
    | some k => finishAll k.waiters .ctxFenced [] s2
    | none => s2
  let s4 := (jobsOf s3 cid).foldl (fun s j => suspendJob j .ctxFenced s) s3
  let s5 := releaseWaits (fun w _ => w == cid) .ctxFenced s4
  askDies ds svcFence cid (postHostEvent c.ring (causeStatus cause) (.ctx cid) (leNat 1 cid) s5)

/-- A fault of a cause applied to a context: FENCED where Table CTX-3 says so, else logged only. -/
def applyFault (cid cause t : Nat) (s : State) : State :=
  if fences cause (ctxOf s cid).state then fenceContext cid cause t s else s

/-! ## Drain (R78, R79) -/

/-- Limit of a drain. -/
def drainLimit : Nat := 2500000

/-- A drain starts (Table CTX-9, tick T); its DRAIN requests are posted in the next tick. -/
def startDrain (cid : Nat) (w : Waiter) (s : State) : State :=
  let ds := diesOf s cid
  let k : Drain := ⟨if ds.isEmpty then .counts else .lodges, ds, s.tick + drainLimit, (match w with | .none => [] | w => [w]), s.tick, !ds.isEmpty⟩
  endSchedule cid .ctxState (updCtx cid (fun c => { c with state := .draining, drain := some k, map := [], forced := false, leftAt := s.tick }) s)

/-- A drain has requests to post. -/
def drainUnposted (c : Ctx) : Bool :=
  match c.drain with
  | some k => k.toPost
  | none => false

/-- The DRAIN requests of a context posted to the Lodge service queues (Table CTX-9, tick T + 1). -/
def postDrain (cid : Nat) (s : State) : State :=
  match (ctxOf s cid).drain with
  | none => s
  | some k => askDies k.lodges svcDrain cid (updCtx cid (fun c => { c with drain := some { k with toPost := false } }) s)

/-- The context enters DESTROYING from DRAINED, or its wait has ended (Table CTX-10, tick U). -/
def beginDestroy (cid : Nat) (s : State) : State :=
  updCtx cid (fun c => { c with
    state := .destroying, drain := none, destroy := some ⟨s.tick, false, none, none, s.tick⟩ }) s

/-- A drain ends, finished or forced: DRAINED, or DESTROYING where a destroy is pending. -/
def endDrain (cid : Nat) (st : Status) (s : State) : State :=
  let c := ctxOf s cid
  let ws := match c.drain with | some k => k.waiters | none => []
  let s1 := updCtx cid (fun c => { c with state := .drained, drain := none }) s
  finishAll ws st [] (if c.destroyPending then updCtx cid (fun c => { c with destroyPending := false }) (beginDestroy cid s1) else s1)

/-- Greenhouse's fetches and every channel and scrub count of a context have ended (R102, R204). -/
def quiet (cid : Nat) (s : State) : Bool := countsZero cid s && !grnhBusy cid s

/-- A context enters DESTROYING from FENCED (R80): first the counts and the job closes, within its own limit. -/
def destroyFenced (cid : Nat) (s : State) : State :=
  updCtx cid (fun c => { c with state := .destroying, drain := some ⟨.counts, [], s.tick + drainLimit, [], s.tick, false⟩ }) s

/-- A wait for the conditions of a drain ends: a drain finishes, or a destroy goes on. -/
def endWait (cid : Nat) (st : Status) (s : State) : State :=
  if (ctxOf s cid).state = .draining then endDrain cid st s
  else if (ctxOf s cid).state = .destroying then beginDestroy cid s
  else s

/-- A drain or wait forced at its limit (R79, R80). -/
def forceWait (cid : Nat) (s : State) : State :=
  let s1 := updCtx cid (fun c => { c with forced := true }) ((jobsOf s cid).foldl (fun s j => forceClose j s) s)
  endWait cid .ctxDrainForced s1

/-! ## Prefix groups (R77) -/

/-- A group becomes RETIRING: its key is zeroised, its scrubs under that key stop, and one locked change invalidates it. -/
def retireGroup (g : Nat) (s : State) : State :=
  let s1 := updGroup g (fun x => { x with state := .retiring, invDone := false }) s
  let s2 := abortScrub (fun x => decide (x.ident = .group g)) (dropKeys [groupSlot g, groupSlot g + 1] s1)
  issueLock (.ofGroup g) (.retire g) s2

/-- A member leaves the group under a KSEL; the last one retires it. -/
def leaveGroup (cid k : Nat) (s : State) : State :=
  match mapGet none (ctxOf s cid).ksel k with
  | none => s
  | some g =>
    let s1 := updCtx cid (fun c => { c with ksel := mapSet none c.ksel k none, oddKsel := mapSet false c.oddKsel k false }) s
    let s2 := updGroup g (fun x => { x with members := x.members - 1 }) s1
    if (groupOf s2 g).members = 0 then retireGroup g s2 else s2

/-- PREFIX frames of a group that have not returned to CID 255. -/
def groupFrames (s : State) (g : Nat) : List Nat :=
  (s.frames.filter (fun e => decide (e.2.cls = .shared) && decide (e.2.group = g))).map (·.1)

/-- PRIVATE and SAVE frames of a context. -/
def ownFrames (s : State) (cid : Nat) : List Nat :=
  (s.frames.filter (fun e => decide (e.2.owner = cid) && (decide (e.2.cls = .priv) || decide (e.2.cls = .save)))).map (·.1)

/-! ## Destroy (R80, Table CTX-10) -/

/-- Pergola's and the Lodges' part of tick U+1. -/
def destroyWaits (cid : Nat) (s : State) : State :=
  let ds := (List.range Config.dies).filter (fun d =>
    (sliceOf s d).waits.any (fun w => w.cid == cid) || decide ((ctxOf s cid).home = some d))
  askDies ds svcDestroy cid (dropSet cid (releaseWaits (fun w _ => w == cid) .ctxGone s))

/-- A private-set import that a destroy has overtaken completes with CTX_STATE (R66). -/
def endImport (cid : Nat) (s : State) : State :=
  match (ctxOf s cid).importing with
  | none => s
  | some i =>
    let s1 := updCtx cid (fun c => { c with importing := none }) s
    if i.priv then finish i.waiter .ctxState [] s1 else s1

/-- Table CTX-10, tick U+1. -/
def zeroiseContext (cid : Nat) (s : State) : State :=
  let s1 := updCtx cid (fun c => { c with destroy := c.destroy.map (fun d => { d with zeroised := true }), consent := none, privSet := false, ecdsaPub := [], mldsaPub := [] }) s
  let s2 := dropKeys ((List.range 8).map (ctxSlot cid)) (endImport cid s1)
  let s3 := abortScrub (fun x => decide (x.ident = .ctx cid)) (grnhForget cid s2)
  let s4 := issueLock (.pairs cid 0xf) (.destroy cid) s3
  let s5 := [1, 2, 3].foldl (fun s k => leaveGroup cid k s) (destroyWaits cid s4)
  putQ (65 + cid) (discardQueue (qOf s5 (65 + cid))) s5

/-- The end of a destroy (Table CTX-10, tick Us+1): FREE, the next generation, cool-down; every destroy completes. -/
def freeContext (cid uc : Nat) (s : State) : State :=
  let ws := (ctxOf s cid).destroyWaiters
  let s1 := updCtx cid (fun c => { gen := genNext c.gen, cooldown := some (s.tick + 2500000), cause := c.cause, forced := c.forced }) s
  finishAll ws .ok (leNat 8 uc) s1

end Sys2Proof.Machine
end

