-- ==== Sys2Proof/Machine/Link.lean ====
section
/-! DEFINITION. The commands of the link fence (05_link_fence.md): egress and ingress, job-key fills, thresholds, link states
and hop-key exchanges, jobs. -/

namespace Sys2Proof.Machine

/-! ## Egress (R121) -/

/-- A beat refused: dropped, counted, EGRESS_REFUSED, NOT_PERMITTED in the fault log. -/
def refuseBeat (e : Nat) (job : BitVec 16) (s : State) : State :=
  linkRecord e .notPermitted job.toNat s.link.endpoint.toNat 0
    (countLinkDrop e (updEng e (fun x => { x with egressRefused := raise s.tick x.egressRefused }) s))

/-- New egress of a job is accepted: the job is OPEN under the stamped CID, whose context is KEYED or RUNNING, or has begun to drain
in this tick: the engines accept no new egress from the tick after (Table CTX-9). -/
def egressOpen (s : State) (j cid : Nat) : Bool :=
  let b := jobOf s j
  let c := ctxOf s cid
  decide (b.state = .open_) && decide (b.cid = cid) &&
  (decide (cid = 0) || decide (c.state = .keyed) || decide (c.state = .running) || (decide (c.state = .draining) && decide (c.leftAt = s.tick)))

/-- A beat appended to the frame of its job, which closes after 16 beats. -/
def appendBeat (e j : Nat) (data : Bytes) (s : State) : State :=
  let d := match (engOf s e).egress with | some g => g.data | none => []
  let s1 := updEng e (fun x => { x with egress := some ⟨j, d ++ fit 256 data, s.tick⟩ }) s
  if d.length + 256 ≥ 4096 then closeEgress e s1 else s1

/-- A fabric beat of the frame being assembled, or of none: refused, dropped, held where its frame would be whole and has no place to
park, or taken. -/
def takeBeat (e cid : Nat) (job : BitVec 16) (data : Bytes) (s : State) : State :=
  match jobById s job with
  | none => refuseBeat e job s
  | some j =>
    if !egressOpen s j cid then refuseBeat e job s
    else if (jobOf s j).closed.contains e then countLinkDrop e s
    else match (engOf s e).egress with
      | none => appendBeat e j data s
      | some g => if g.data.length + 256 ≥ 4096 && !canSubmit s e j then s else appendBeat e j data s

/-- The job whose frame an engine assembles, where a beat names another one. -/
def changesJob (s : State) (e : Nat) (job : BitVec 16) : Option Nat :=
  match (engOf s e).egress with
  | some g => if jobById s job = some g.job then none else some g.job
  | none => none

/-- A fabric beat: held where no job frame may pass or no place is left to park. A change of job on lnk_req_job closes the open frame
first, whatever becomes of the beat. -/
def egressBeatEffect (e cid : Nat) (job : BitVec 16) (data : Bytes) (s : State) : State :=
  if !linkAllowed s || !linkCarries s e then s
  else match changesJob s e job with
    | none => takeBeat e cid job data s
    | some j =>
      if !canSubmit s e j then s
      else if linkCarries (closeEgress e s) e then takeBeat e cid job data (closeEgress e s)
      else closeEgress e s
/-- LINK_EGRESS_BEAT. -/
def execLinkEgressBeat (e : Fin 96) (cid : Fin 256) (job : BitVec 16) (data : Bytes) (s : State) : Result :=
  .next (egressBeatEffect e.val cid.val job data s)

/-- 64 XCLK cycles (8 ticks) without a further beat close a frame. -/
def egressCloseEffect (e : Nat) (s : State) : State :=
  match (engOf s e).egress with
  | none => s
  | some g => if g.last + 8 ≤ s.tick ∧ linkCarries s e = true ∧ canSubmit s e g.job = true then closeEgress e s else s
/-- EGRESS_FRAME_CLOSE. -/
def execEgressFrameClose (e : Fin 96) (s : State) : Result := .next (egressCloseEffect e.val s)

/-! ## Ingress (R136, Table LINK-9) -/

/-- The fields of a received frame. -/
structure RxFrame where
  seq   : Nat
  auth  : Bool
  phase : Bool
  type  : Nat
  res   : Nat
  len   : Nat
  job   : BitVec 16
  ep    : BitVec 16
  jseq  : Nat
  dir   : Nat
  eng   : Nat
  plain : Bool
  jres  : Nat
  frag  : Nat
  last  : Bool
deriving DecidableEq, Repr

/-- A frame's fields read from its bytes. -/
def parseFrame (f : Bytes) : RxFrame :=
  let hf := leAt f 6 2
  let jf := leAt f 20 4
  { seq := leAt f 0 6, auth := testBit hf 0, phase := testBit hf 1, type := bits hf 2 2, res := hf / 16
    len := if bits hf 2 2 = 0 then jf % 8192 else leAt f 12 2
    job := BitVec.ofNat 16 (leAt f 8 2), ep := BitVec.ofNat 16 (leAt f 10 2), jseq := leAt f 12 8
    dir := bits jf 16 4, eng := bits jf 20 7, plain := testBit jf 27, jres := bits jf 13 3
    frag := bits jf 28 3, last := testBit jf 31 }

/-- Bytes of a frame by its length field: 48 more for a job frame, 22 more for a hop-control frame. -/
def frameLen (r : RxFrame) : Nat := if r.type = 0 then 48 + r.len else 22 + r.len

/-- Rows 1 and 2: LNKF_HOP_TAG. JOB and SRC_EP of the record are frame bytes 8 to 11, of a hop-control frame too, which has no
job header (DESIGN CHOICE, log 122). -/
def failHop (e : Nat) (r : RxFrame) (s : State) : State :=
  linkRecord e .lnkfHopTag r.job.toNat r.ep.toNat r.seq (noteBadHop e
    (updEng e (fun x => { x with hopTag := raise s.tick x.hopTag, cntHopTag := satAdd x.cntHopTag 1 }) s))

/-- Row 3: the frame's length. -/
def failLength (e : Nat) (r : RxFrame) (st : Status) (s : State) : State :=
  linkRecord e st r.job.toNat r.ep.toNat r.seq
    (updEng e (fun x => { x with length := raise s.tick x.length, cntLength := satAdd x.cntLength 1 }) s)

/-- Rows 4 and 7: LNKF_JOB_TAG, counted toward the job's threshold. -/
def failJobTag (e : Nat) (r : RxFrame) (s : State) : State :=
  let s1 := updEng e (fun x => { x with jobTag := raise s.tick x.jobTag, cntJobTag := satAdd x.cntJobTag 1 }) s
  linkRecord e .lnkfJobTag r.job.toNat r.ep.toNat r.seq (match jobById s r.job with | some j => noteBadJob j s1 | none => s1)

/-- Row 5: LNKF_UNKNOWN_JOB. -/
def failUnknown (e : Nat) (r : RxFrame) (s : State) : State :=
  linkRecord e .lnkfUnknownJob r.job.toNat r.ep.toNat r.seq
    (updEng e (fun x => { x with unknownJob := raise s.tick x.unknownJob, cntUnknown := satAdd x.cntUnknown 1 }) s)

/-- Row 6: LNKF_NOT_MEMBER. -/
def failMember (e : Nat) (r : RxFrame) (s : State) : State :=
  linkRecord e .lnkfNotMember r.job.toNat r.ep.toNat r.seq
    (updEng e (fun x => { x with notMember := raise s.tick x.notMember, cntMember := satAdd x.cntMember 1 }) s)

/-- The frame belongs to the first establishment's sequence space. -/
def isEstablishing (s : State) (e : Nat) (r : RxFrame) : Bool :=
  decide ((engOf s e).state = .keying) && decide (r.type = 1) && !r.auth

/-- Row 1. -/
def row1 (s : State) (e : Nat) (r : RxFrame) : Bool :=
  decide (r.type < 2) && decide (r.res = 0) && (r.auth == authClass s e || isEstablishing s e r)

/-- Sequence space of a frame. -/
def seqSpace (s : State) (e : Nat) (r : RxFrame) : Nat := if isEstablishing s e r then 2 else bit r.phase

/-- Row 2. -/
def row2 (s : State) (e : Nat) (r : RxFrame) (f : Bytes) : Bool :=
  let x := engOf s e
  let key := hopKey x r.phase 1
  let n := frameLen r - 8
  decide (mapGet 0 x.rxSeq (seqSpace s e r) < r.seq) && (isEstablishing s e r || x.phases.contains r.phase) &&
  (!r.auth || (decide (key ≠ []) && decide (slice f n 8 = hopTag key r.seq (slice f 0 n))))

/-- A frame that has passed the hop layer (R125): its HSEQ is the last accepted; the first in a new phase starts the old one's
last 250,000 ticks (R124). -/
def acceptHop (e : Nat) (r : RxFrame) (s : State) : State :=
  let space := seqSpace s e r
  let fresh := !isEstablishing s e r && r.phase == (engOf s e).kphase && (engOf s e).rxPhase != r.phase
  updEng e (fun x => { x with
    rxSeq := mapSet 0 x.rxSeq space r.seq
    rxPhase := if fresh then r.phase else x.rxPhase
    oldUntil := if fresh then some (s.tick + 250000) else x.oldUntil }) s

/-- Row 4: PLAIN as the job allows it; JOIN and GRANT carry it. -/
def plainOk (s : State) (r : RxFrame) : Bool :=
  if 3 ≤ r.dir then r.plain
  else !r.plain || (match jobById s r.job with | some j => (jobOf s j).plain | none => true)

/-- Rows 7 and 8 with the job key at hand: the frame is delivered whole, its payload counted (R403), or it is a JOB_CLOSE or CLOSE_ACK
that passes on. A job that is CLOSING delivers DATA until the link's CLOSE_ACK, one that was SUSPENDED before too (DEDUCED, log 79).
A frame dropped under row 8 has been carried by its link all the same (R131). -/
def deliverFrame (e j : Nat) (f key : Bytes) (s : State) : State :=
  let r := parseFrame f
  let hdr := slice f 8 16
  match openJob_ key (jobNonce r.ep r.dir r.eng r.jseq) hdr (slice f 24 r.len) (slice f (24 + r.len) 16) r.plain with
  | none => failJobTag e r (touchJobKey e j key s)
  | some p =>
    let b := jobOf s j
    let s1 := addLink e j (touchJobKey e j key s)
    if r.dir = 0 then
      if b.state = .open_ ∨ (b.state = .closing ∧ (b.awaiting.any (fun a => a.1 == e)) = true) then
        emit (.linkDeliver e r.job.toNat (linkBeats p)) (countUp 3 b.cid p.length s1)
      else countLinkDrop e s1
    else { s1 with link := { s1.link with ctl := s1.link.ctl ++ [⟨e, j, decide (r.dir = 2), r.ep⟩] } }

/-- Rows 5 to 8 for a frame of a job. One of a job still KEYING has no key to be checked under and is dropped under row 8, a JOB_CLOSE
or CLOSE_ACK too (DESIGN CHOICE, log 79). -/
def jobRows (e : Nat) (r : RxFrame) (f : Bytes) (s : State) : State :=
  match jobById s r.job with
  | none => failUnknown e r s
  | some j =>
    if (jobOf s j).closed.contains e then failUnknown e r s
    else if !inRanges r.ep (jobOf s j).ranges then failMember e r s
    else if (jobOf s j).state = .keying then countLinkDrop e s
    else match cachedJobKey s e j with
      | some key => deliverFrame e j f key s
      | none => raiseJobFill e j (updEng e (fun x => { x with rxPark := x.rxPark ++ [(j, f)] }) s)

/-- The push of the receive key of a frame's phase is on its way (R249, log 51): the frame is held on lnk_rx. -/
def keyOnItsWay (s : State) (e : Nat) (r : RxFrame) : Bool :=
  let (d, u) := engineUnit e
  r.auth && (engOf s e).phases.contains r.phase && decide (hopKey (engOf s e) r.phase 1 = []) &&
  s.orng.pushes.any (fun p => decide (p.drop = d) && decide (p.unit = u) && decide (leAt p.plain.1 2 1 = hopIdx r.phase 1))

/-- The frame would have to park and no place is left: it is held on lnk_rx. -/
def ingressHeld (s : State) (e : Nat) (r : RxFrame) : Bool :=
  decide (r.type = 0) && decide (r.dir < 3) && decide ((engOf s e).rxPark.length ≥ 8) &&
  (match jobById s r.job with | some j => (cachedJobKey s e j).isNone | none => false)

/-- A fragment of a JOIN or GRANT message (R130): kept in the order of FRAG until the last one has come, at most 8; any other is
dropped and counted (log 121). A local job's link has carried it (R131). -/
def takeFragment (e : Nat) (r : RxFrame) (f : Bytes) (s : State) : State :=
  let mine : JobAsm → Bool := fun a => (a.grant == decide (r.dir = 4)) && decide (a.job = r.job) && decide (a.ep = r.ep) && !a.done
  let body := slice f 8 (32 + r.len)
  let put := fun (frames : List Bytes) (s : State) => updEng e (fun x => { x with
    asm := x.asm.filter (fun a => !mine a) ++ [⟨decide (r.dir = 4), r.job, r.ep, frames ++ [body], r.last⟩] }) s
  let s1 := match jobById s r.job with | some j => addLink e j s | none => s
  match (engOf s e).asm.find? mine with
  | none => if r.frag = 0 then put [] s1 else countLinkDrop e s1
  | some a =>
    if r.frag = a.frames.length ∧ (r.last = true ∨ r.frag < 7) then put a.frames s1
    else if r.frag = 0 then put [] (countLinkDrop e s1)
    else countLinkDrop e s1

/-- A hop-control frame that has passed rows 1 to 3 (R123): its data join the message of its type, in the order of the fragment index;
index 0 starts the message anew. A frame that continues no message is dropped and counted (DESIGN CHOICE, log 120). -/
def takeControl (e : Nat) (r : RxFrame) (f : Bytes) (s : State) : State :=
  let type := leAt f 8 1
  let idx := leAt f 9 1
  let put := fun (d : Bytes) => updEng e (fun x => { x with
    hopAsm := x.hopAsm.filter (fun a => a.type != type) ++ [⟨type, d ++ slice f 14 r.len, idx + 1, decide (leAt f 10 1 = 1)⟩] }) s
  if type < 1 ∨ 4 < type then countLinkDrop e s
  else if idx = 0 then put []
  else match (engOf s e).hopAsm.find? (fun a => a.type == type && !a.done && a.got == idx) with
    | some a => put a.data
    | none => countLinkDrop e s

/-- Rows 3 to 8 of a frame that has passed rows 1 and 2. A hop-control frame holds up to 4,090 data bytes (R123). -/
def laterRows (e beats : Nat) (r : RxFrame) (f : Bytes) (s : State) : State :=
  let want := (frameLen r + 255) / 256
  if beats < want then failLength e r .lengthShort s
  else if want < beats ∨ (r.type = 0 ∧ 4096 < r.len) ∨ (r.type = 1 ∧ 4090 < r.len) then failLength e r .lengthLong s
  else if r.type = 1 then takeControl e r f s
  else if 4 < r.dir ∨ r.jres ≠ 0 ∨ plainOk s r = false then failJobTag e r s
  else if 3 ≤ r.dir then takeFragment e r f s
  else jobRows e r f s

/-- A received frame. -/
def ingressEffect (e beats : Nat) (f : Bytes) (s : State) : State :=
  let x := engOf s e
  let r := parseFrame f
  if !linkAllowed s || decide (x.state = .down) || decide (x.state = .failed) then s
  else if x.state = .quarantined ∧ r.type = 0 then countLinkDrop e s
  else if !row1 s e r then failHop e r s
  else if keyOnItsWay s e r then s
  else if !row2 s e r f then failHop e r s
  else if ingressHeld s e r then s
  else if isEstablishing s e r = false ∧ 2 ^ 47 - 1 ≤ r.seq then failLink e .timeout (countLinkDrop e (acceptHop e r s))
  else laterRows e beats r f (acceptHop e r s)
/-- LINK_INGRESS_FRAME. -/
def execLinkIngressFrame (e : Fin 96) (beats : Nat) (f : Bytes) (s : State) : Result := .next (ingressEffect e.val beats f s)

/-! ## Job-key fills (R98, R121, R247) -/

/-- The parked frames of a job dropped and counted. -/
def dropParked (e j : Nat) (s : State) : State :=
  updEng e (fun x => { x with
    cntDrop := satAdd x.cntDrop ((x.txPark.filter (fun p => p.1 == j)).length + (x.rxPark.filter (fun p => p.1 == j)).length)
    txPark := x.txPark.filter (fun p => p.1 != j), rxPark := x.rxPark.filter (fun p => p.1 != j) }) s

/-- The parked frames of a job go on under its key, in order, and after them what is due. -/
def serveParked (e j : Nat) (key : Bytes) (s : State) : State :=
  let rx := (engOf s e).rxPark.filter (fun p => p.1 == j)
  let s1 := sendParked e j key (updEng e (fun x => { x with rxPark := x.rxPark.filter (fun p => p.1 != j) }) s)
  sendDueCloses e (rx.foldl (fun s p => deliverFrame e j p.2 key s) s1)

/-- A fill that failed its checks: retried once; then its parked frames are dropped and KEY_BLOB_INVALID is logged. -/
def jobFillFailed (e j : Nat) (retried : Bool) (s : State) : State :=
  let rest := fun (x : Engine) => x.jobFills.filter (fun f => f.1 != j)
  if !retried then updEng e (fun x => { x with jobFills := rest x ++ [(j, true, true)] }) s
  else linkRecord e .keyBlobInvalid (jobOf s j).id.toNat 0 0 (sendDueCloses e (dropParked e j (updEng e (fun x => { x with jobFills := rest x }) s)))

/-- A job-key message at a drop. -/
def jobFillEffect (drop : Nat) (msg : Bytes) (s : State) : State :=
  let j := leAt msg 4 1
  let flags := leAt msg 3 1
  match localEngine drop (leAt msg 6 2) with
  | none => s
  | some e =>
    if leAt msg 0 1 ≠ 1 ∨ s.pav.tamper = true then s
    else match (engOf s e).jobFills.find? (fun f => f.1 == j && !f.2.1) with
      | none => s
      | some f =>
        match kbusOpen (dropOf s drop) msg with
        | none => jobFillFailed e j f.2.2 s
        | some plain =>
          let s1 := updEng e (fun x => { x with jobFills := x.jobFills.filter (fun f => f.1 != j) })
            (updDrop drop (fun d => { d with last := leAt msg 8 8 }) s)
          if testBit flags 1 || testBit flags 2 then sendDueCloses e (dropParked e j s1)
          else serveParked e j (fit 32 plain) (touchJobKey e j (fit 32 plain) s1)
/-- JOB_FILL_MESSAGE. -/
def execJobFillMessage (drop : Fin 32) (msg : Bytes) (s : State) : Result := .next (jobFillEffect drop.val msg s)

/-! ## Pushes (R249) -/

/-- The acknowledgement of a push reaches the Orangery (R249). -/
def ackPush (drop counter : Nat) (s : State) : State :=
  { s with orng := { s.orng with pushes := s.orng.pushes.filter (fun p => !(p.drop == drop && p.counter == counter)) } }

/-- A push at a drop (R249): a pinned entry at a fence channel, or a hop key at a link engine; accepted under R247 and
acknowledged. -/
def pushMessageEffect (drop : Nat) (msg : Bytes) (s : State) : State :=
  let unit := leAt msg 6 2
  if leAt msg 0 1 ≠ 3 ∨ s.pav.tamper then s
  else match kbusOpen (dropOf s drop) msg with
    | none => s
    | some plain =>
      let counter := leAt msg 8 8
      let s1 := emit (.kbusReply drop (leNat 8 counter)) (ackPush drop counter
        (updDrop drop (fun d => { d with last := counter }) s))
      match localChan drop unit with
      | some ch =>
        let e : KcEntry := { cid := leAt msg 1 1, ksel := leAt msg 2 1, k1 := slice plain 0 32, k2 := slice plain 32 32, kt := slice plain 64 32, id := leAt msg 4 1, sel := leAt msg 5 1, pinned := true, sealedAt := none, dead := none }
        unpark ch (updChan ch (fun c => { c with
          entries := installEntry s.tick e c.entries
          fills := c.fills.filter (fun f => !(f.cid == e.cid && f.ksel == e.ksel)) }) s1)
      | none =>
        match localEngine drop unit with
        | some en => resumeLink en (updEng en (fun x => { x with keys := mapSet [] x.keys (leAt msg 2 1 % 4) (fit 32 plain) }) s1)
        | none => s1
/-- PUSH_MESSAGE. -/
def execPushMessage (drop : Fin 32) (msg : Bytes) (s : State) : Result := .next (pushMessageEffect drop.val msg s)

/-! ## Thresholds (R137) -/

/-- The threshold of a job applied at the start of the tick after it was met. A job that is already SUSPENDED or CLOSING gets no action
and no event (DESIGN CHOICE, log 79). -/
def jobThresholdEffect (j : Nat) (s : State) : State :=
  match (jobOf s j).badDue with
  | none => s
  | some t =>
    if t < s.tick then
      let b := jobOf s j
      let s1 := updJob j (fun b => { b with badDue := none, bad := [] }) s
      if b.state = .open_ ∨ b.state = .keying then
        let s2 := suspendJob j .lnkfJobTag s1
        let s3 := postFaultEventRaw .lnkfJobTag 12 (linkEventBody 0 b.id.toNat 0) s2
        postHostEvent b.ring .lnkfJobTag (.job j) (leNat 1 j ++ leNat 1 b.cid) s3
      else s1
    else s
/-- JOB_TAG_THRESHOLD. -/
def execJobTagThreshold (j : Fin 256) (s : State) : Result := .next (jobThresholdEffect j.val s)

/-- The threshold of a link: QUARANTINED, and a rekey starts. -/
def hopThresholdEffect (e : Nat) (s : State) : State :=
  match (engOf s e).hopDue with
  | none => s
  | some t =>
    if t < s.tick then
      let x := engOf s e
      let s1 := updEng e (fun x => { x with hopDue := none, badHop := [] }) s
      if x.state = .ready ∨ x.state = .rekeying then
        let s2 := updEng e (fun x => { stopTraffic x with state := .quarantined, attempts := 0, quarantine := raise s.tick x.quarantine }) s1
        if x.exch.isSome then s2 else beginRekey e s2
      else s1
    else s
/-- HOP_TAG_THRESHOLD. -/
def execHopTagThreshold (e : Fin 96) (s : State) : Result := .next (hopThresholdEffect e.val s)

/-! ## Link states and exchanges (R122 to R124) -/

/-- lnk_up rises: the tick is noted for the limit of R123, and the link enters KEYING once the link gate is open. -/
def linkUpEffect (e : Nat) (s : State) : State :=
  let x := engOf s e
  if x.up then s
  else
    let s1 := updEng e (fun x => { x with up := true, upAt := s.tick }) s
    if linkAllowed s then beginKeying e s1 else s1
/-- LNK_UP_RISE. -/
def execLnkUpRise (e : Fin 96) (s : State) : Result := .next (linkUpEffect e.val s)

/-- lnk_up falls: DOWN; frames under way are dropped and counted. -/
def linkDownEffect (e : Nat) (s : State) : State :=
  updEng e (fun x => { stopTraffic x with
    up := false, state := .down, exch := none, hopAsm := [], keys := [], phases := [], retryAt := none, oldUntil := none, attempts := 0
    asm := [], badHop := [], hopDue := none }) (dropExchange (engOf s e).exch s)
/-- LNK_UP_FALL. -/
def execLnkUpFall (e : Fin 96) (s : State) : Result := .next (linkDownEffect e.val s)

/-- The whole hop-control message of a type and with given data has come on an engine. -/
def hopCame (s : State) (e type : Nat) (msg : Bytes) : Bool :=
  (engOf s e).hopAsm.any (fun a => a.type == type && a.done && decide (a.data = msg))

/-- A hop-control message taken from its engine. -/
def takeHop (e type : Nat) (s : State) : State := updEng e (fun x => { x with hopAsm := x.hopAsm.filter (fun a => a.type != type) }) s

/-- This side's HELLO waits for a reseed (R252). -/
def helloQueued (s : State) (e : Nat) : Bool :=
  s.orng.queue.any (fun q => match q.2 with | .hello n _ => n == e | _ => false)

/-- The peer alone has started a rekey: this side's exchange begins with it (R124, Table LINK-7). -/
def answerRekey (e : Nat) (m : HelloMsg) (s : State) : State :=
  let x := engOf s e
  if x.exch.isNone && (decide (x.state = .ready) || decide (x.state = .quarantined)) && hopCame s e 1 (helloBytes m) && linkAllowed s &&
      !helloQueued s e then beginRekey e s
  else s

/-- HELLO: the peer's endpoint ID differs, and its ephemeral key is a point; CERT follows. -/
def takeHello (e : Nat) (m : HelloMsg) (s0 : State) : State :=
  match (engOf s0 e).exch with
  | none => s0
  | some x =>
    let s := takeHop e 1 s0
    if x.peer.isSome || !linkAllowed s0 || !hopCame s0 e 1 (helloBytes m) then s0
    else match deviceKey x.ecdhSlot s with
      | none => failExchange e (noKeyStatus x.ecdhSlot s) (checkSlot x.ecdhSlot s)
      | some sec =>
        if m.ep = s.link.endpoint ∨ (Config.ecdhShared sec m.ecdh).isNone then failExchange e .notPermitted s
        else sendControl e 2 (deviceChain s) (updEng e (fun y => { y with exch := some { x with peer := some m } }) s)
/-- A HELLO that has come: where no exchange runs here, one begins. -/
def helloEffect (e : Nat) (m : HelloMsg) (s : State) : State := takeHello e m (answerRekey e m s)
/-- HOP_HELLO. -/
def execHopHello (e : Fin 96) (m : HelloMsg) (s : State) : Result := .next (helloEffect e.val m s)

/-- The hash an ENCAP signature covers: steps 1 and 2 and the sender's ciphertext (DEDUCED, log 50). -/
def encapHash (s : State) (x : Exchange) (m : HelloMsg) (peerChain ct : Bytes) : Bytes :=
  sha384 (transcript2 s x m peerChain ++ ct)

/-- ENCAP sent: a ciphertext to the peer's key, whose secret goes into a working slot (R237), and both signatures. -/
def sendEncap (e : Nat) (x : Exchange) (m : HelloMsg) (keys : Bytes × Bytes) (chain : Bytes) (s : State) : State :=
  let (r, s1) := drbg 32 s
  let (ct, k) := Config.kemEncap m.kem r
  match takeWorking attrDerive 0 k s1 with
  | (none, _) => failExchange e .busy s
  | (some n, s2) =>
    let x1 := { x with peerKeys := some keys, peerChain := chain, ownCt := ct, ownSlot := some n }
    sendControl e 3 (ct ++ hybridSign (encapHash s x1 m chain ct) s2) (updEng e (fun y => { y with exch := some x1 }) s2)

/-- The checks of CERT: the chain verifies to the Ehrov certificate named by IDENT, and the peer's life-cycle state equals this device's;
ENCAP follows. -/
def checkCert (e : Nat) (x : Exchange) (m : HelloMsg) (chain : Bytes) (s : State) : State :=
  match chainVerify (trustAnchor s) chain with
  | none => failExchange e .notPermitted s
  | some keys =>
    if Config.chainLifecycle chain ≠ s.otp.code then failExchange e .notPermitted s
    else if !signReady s then failExchange e (signStatus s) (checkAlias s)
    else withDraw (.encap e chain) (failExchange e .notPermitted) (sendEncap e x m keys chain) s

/-- CERT once HELLO has come and before the peer's keys are known. -/
def certEffect (e : Nat) (chain : Bytes) (came : Bool) (s : State) : State :=
  match (engOf s e).exch with
  | none => s
  | some x =>
    match x.peer with
    | none => s
    | some m => if x.peerKeys.isSome || !linkAllowed s || !came then s else checkCert e x m chain (takeHop e 2 s)
/-- HOP_CERT. -/
def execHopCert (e : Fin 96) (chain : Bytes) (s : State) : Result := .next (certEffect e.val chain (hopCame s e.val 2 chain) s)

/-- Transcript of the exchange: steps 1 and 2 and both ciphertexts; the signatures over it are no part of it (DEDUCED, log 50). -/
def exchangeTranscript (s : State) (x : Exchange) (m : HelloMsg) : Bytes :=
  transcript2 s x m x.peerChain ++ sideOrder (isSideA s m) x.ownCt x.peerCt

/-- Transcript hash of the exchange. -/
def exchangeHash (s : State) (x : Exchange) (m : HelloMsg) : Bytes := sha384 (exchangeTranscript s x m)

/-- The keys of an exchange derived from Z into their slots (R122, Table ORNG-7); FINISH follows. -/
def deriveHop (e : Nat) (x : Exchange) (m : HelloMsg) (s : State) : State :=
  match deviceKey x.ecdhSlot s, deviceKey x.kemSlot s, x.ownSlot.bind (fun n => deviceKey n s) with
  | some sec, some seed, some own =>
    let z := (Config.ecdhShared sec m.ecdh).getD [] ++ sideOrder (isSideA s m) own (Config.kemDecap seed x.peerCt)
    let h := exchangeHash s x m
    let ab := kdf z (ascii "OCN-HOP-AB") h 256
    let ba := kdf z (ascii "OCN-HOP-BA") h 256
    let fin := kdf z (ascii "OCN-HOP-FIN") h 384
    let slot := hopSlot e (bit (nextPhase (engOf s e) x.rekey))
    let a := isSideA s m
    let s1 := setSlot (slot 1) attrEngine 0 none (if a then ba else ab) (setSlot (slot 0) attrEngine 0 none (if a then ab else ba) s)
    match takeWorking attrEnc 0 fin s1 with
    | (none, _) => failExchange e .busy s
    | (some n, s2) => sendControl e 4 (hmac384 fin (exchangeTranscript s x m)) (updEng e (fun y => { y with exch := some { x with finSlot := some n } }) s2)
  | _, _, _ => failExchange e .keySlotBad (checkSlots ([x.ecdhSlot, x.kemSlot] ++ x.ownSlot.toList) s)

/-- The keys of an exchange still under way, of which ENCAP has passed its checks. -/
def hopKeysEffect (e : Nat) (ct : Bytes) (s : State) : State :=
  match (engOf s e).exch with
  | none => s
  | some x =>
    match x.peer with
    | none => s
    | some m => if x.finSlot.isSome then s else deriveHop e { x with peerCt := ct } m s

/-- ENCAP: both signatures; FINISH follows. -/
def encapEffect (e : Nat) (ct sig : Bytes) (s0 : State) : State :=
  match (engOf s0 e).exch with
  | none => s0
  | some x =>
    match x.peer, x.peerKeys with
    | some m, some keys =>
      let s := takeHop e 3 s0
      if x.finSlot.isSome || !linkAllowed s0 || !hopCame s0 e 3 (ct ++ sig) then s0
      else if !hybridOk keys (encapHash s x m x.peerChain ct) sig then failExchange e .notPermitted s
      else withDraw (.hopKeys e ct) (failExchange e .notPermitted) (hopKeysEffect e ct) s
    | _, _ => s0
/-- HOP_ENCAP. -/
def execHopEncap (e : Fin 96) (ct sig : Bytes) (s : State) : Result := .next (encapEffect e.val ct sig s)

/-- FINISH: the link becomes READY under the new keys. -/
def finishEffect (e : Nat) (mac : Bytes) (s0 : State) : State :=
  match (engOf s0 e).exch with
  | none => s0
  | some x =>
    match x.peer, x.finSlot with
    | some m, some n =>
      let s := takeHop e 4 s0
      if !linkAllowed s0 || !hopCame s0 e 4 mac then s0
      else match deviceKey n s with
        | none => failExchange e (noKeyStatus n s) (checkSlot n s)
        | some fin => if mac = hmac384 fin (exchangeTranscript s x m) then finishExchange e x m s else failExchange e .notPermitted s
    | _, _ => s0
/-- HOP_FINISH. -/
def execHopFinish (e : Fin 96) (mac : Bytes) (s : State) : Result := .next (finishEffect e.val mac s)

/-- 50 ms without the end of an exchange (R123): from the rise of lnk_up in the first establishment; a rekey, for which no limit is
stated, from its start (DESIGN CHOICE, log 123). -/
def keyingTimeoutEffect (e : Nat) (s : State) : State :=
  let x := engOf s e
  if x.state = .keying then (if x.upAt + 12500000 ≤ s.tick then failExchange e .timeout s else s)
  else match x.exch with
    | some y => if y.start + 12500000 ≤ s.tick then failExchange e .timeout s else s
    | none => s
/-- KEYING_TIMEOUT. -/
def execKeyingTimeout (e : Fin 96) (s : State) : Result := .next (keyingTimeoutEffect e.val s)

/-- A FAILED link is retried 1 s after it failed; the limit of R123 then runs from the retry (DEDUCED, log 123). -/
def linkRetryEffect (e : Nat) (s : State) : State :=
  let x := engOf s e
  if x.state = .failed ∧ x.up = true ∧ linkAllowed s = true ∧ x.failedAt + 250000000 ≤ s.tick then
    beginKeying e (updEng e (fun x => { x with upAt := s.tick }) s) else s
/-- LINK_RETRY_TIMER. -/
def execLinkRetryTimer (e : Fin 96) (s : State) : Result := .next (linkRetryEffect e.val s)

/-- Highest HSEQ of either direction in the current phase. -/
def hopSeqTop (x : Engine) : Nat := max (x.txSeq - 1) (mapGet 0 x.rxSeq (bit x.kphase))

/-- HSEQ has reached 2^46. -/
def hseqThresholdEffect (e : Nat) (s : State) : State :=
  let x := engOf s e
  if x.state = .ready ∧ x.exch = none ∧ x.retryAt = none ∧ 2 ^ 46 ≤ hopSeqTop x then beginRekey e s else s
/-- HSEQ_REKEY_THRESHOLD. -/
def execHseqRekeyThreshold (e : Fin 96) (s : State) : Result := .next (hseqThresholdEffect e.val s)

/-- LINK_REKEY: the unit index names the engine. -/
def linkRekeyBody (e : Nat) (p : MgmtProg) (s : State) : State :=
  let x := engOf s e
  if e ≥ Config.engines then replyMgmt p .badDescriptor [] s
  else if x.exch.isSome then replyMgmt p .busy [] s
  else if x.state = .ready then replyMgmt p .ok [] (beginRekey e s)
  else replyMgmt p .notPermitted [] s
/-- LINK_REKEY. -/
def execLinkRekey (m : MgmtHdr) (s : State) : Result :=
  .next (mgmtCommand 0x22 (if m.unit.toNat < Config.engines then .link m.unit.toNat else .none) m (linkRekeyBody m.unit.toNat) s)

/-- A failed rekey is retried; the link fails once HSEQ has reached 2^47 − 1. -/
def rekeyRetryEffect (e : Nat) (s : State) : State :=
  let x := engOf s e
  match x.retryAt with
  | none => s
  | some t =>
    if t ≤ s.tick ∧ x.exch = none then
      if 2 ^ 47 - 1 ≤ hopSeqTop x then failLink e .timeout s else beginRekey e s
    else s
/-- REKEY_RETRY_TIMER. -/
def execRekeyRetryTimer (e : Fin 96) (s : State) : Result := .next (rekeyRetryEffect e.val s)

/-- 1 ms after the first frame in the new phase the old one ends: its keys go. -/
def oldPhaseEffect (e : Nat) (s : State) : State :=
  let x := engOf s e
  match x.oldUntil with
  | none => s
  | some t =>
    if t ≤ s.tick then
      let old := !x.rxPhase
      dropKeys (hopSlots e old) (updEng e (fun x => { x with
        oldUntil := none, phases := x.phases.filter (· != old), keys := mapSet [] (mapSet [] x.keys (hopIdx old 0) []) (hopIdx old 1) [] }) s)
    else s
/-- OLD_PHASE_EXPIRY. -/
def execOldPhaseExpiry (e : Fin 96) (s : State) : Result := .next (oldPhaseEffect e.val s)

/-! ## Jobs (R127 to R134) -/

/-- Member ranges of a job token. -/
def tokenRanges (t : Bytes) : List (Nat × Nat) :=
  (List.range (min 16 (leAt t 6 1))).map (fun i => (leAt t (16 + 4 * i) 2, leAt t (18 + 4 * i) 2))

/-- How JOB_LINK_OPEN is judged by the state of its context: CTX_FENCED in the tick in which it became FENCED (Table ARCH-5), else
CTX_STATE where it is neither KEYED nor RUNNING (R127). -/
def jobOpenState (s : State) (c : Ctx) : Option Status :=
  if c.state = .keyed ∨ c.state = .running then none
  else if c.state = .fenced ∧ c.fencedAt = s.tick then some .ctxFenced
  else some .ctxState

/-- The tenant's two consent keys verify a token over bytes 0 to 95. -/
def consentSigned (c : Ctx) (t : Bytes) : Bool :=
  Config.ecdsaVerify c.ecdsaPub (slice t 0 96) (slice t 96 96) && Config.mldsaVerify c.mldsaPub (slice t 0 96) (slice t 192 4627)

/-- This device may open a job of given ranges in a role. -/
def mayOpen (s : State) (leader : Bool) (leaderEp : BitVec 16) (rs : List (Nat × Nat)) : Bool :=
  inRanges s.link.endpoint rs && (!leader || decide (s.link.endpoint = leaderEp))

/-- A host command's completion names a unit from now on; a context it has created counts it. -/
def nameUnit (id : Nat) (u : UnitRef) (s : State) : State :=
  { s with host := { s.host with inProg := s.host.inProg.map (fun x => if x.id = id then { x with unit := u, cid := match u with | .ctx c => c | _ => x.cid } else x) } }

/-- A management command's reply names a unit from now on. -/
def nameMgmtUnit (tag : Nat) (u : UnitRef) (s : State) : State :=
  { s with mgmt := s.mgmt.map (fun x => if x.tag = tag then { x with unit := u } else x) }

/-- The job of a token that has passed every check. -/
def openTokenJob (h : HostCmd) (ip : InProg) (t : Bytes) (s : State) : State :=
  let cid := h.cid.val
  let leader := decide ((opByte h 20).toNat = 1)
  let b : Job := { id := BitVec.ofNat 16 (leAt t 2 2), cid := cid, leader := leader, ranges := tokenRanges t, digest := sha384 t, leaderEp := BitVec.ofNat 16 (leAt t 4 2), ring := some (h.ring.val, (ringOf s h.ring.val).epoch) }
  match openLocalJob b (.host ip.id) s with
  | (none, s1) => completeHost ip .busy [] s1
  | (some j, s1) =>
    let s2 := nameUnit ip.id (.job j) (measureCmr cid 5 (slice t 0 96) s1)
    if leader then finish (.host ip.id) .ok (leNat 1 j) s2 else s2

/-- The checks of R127 on a token, then the job. -/
def jobOpenToken (h : HostCmd) (ip : InProg) (t : Bytes) (s : State) : State :=
  let leader := decide ((opByte h 20).toNat = 1)
  if !consentSigned (ctxOf s h.cid.val) t then completeHost ip .notPermitted [] s
  else if !mayOpen s leader (BitVec.ofNat 16 (leAt t 4 2)) (tokenRanges t) then completeHost ip .lnkfNotMember [] s
  else if (jobById s (BitVec.ofNat 16 (leAt t 2 2))).isSome then completeHost ip .busy [] s
  else match openBlocked leader s with
    | some st => completeHost ip st [] (checkAlias s)
    | none => withDraw (.jobOpen h ip) (completeHost ip .notPermitted []) (openTokenJob h ip t) s

/-- JOB_LINK_OPEN (R127 to R129, R392). -/
def jobOpenBody (h : HostCmd) (ip : InProg) (s : State) : State :=
  let c := ctxOf s h.cid.val
  if h.cid.val = 0 then completeHost ip .notPermitted [] s
  else if opNat h 22 2 ≠ c.gen.toNat ∨ opNat h 22 2 = 0 then completeHost ip .staleGeneration [] s
  else match jobOpenState s c with
    | some st => completeHost ip st [] s
    | none => withBuffer h ip (jobOpenToken h ip) s
/-- JOB_LINK_OPEN. -/
def execJobLinkOpen (h : HostCmd) (s : State) : Result :=
  .next (hostCommand opJobLinkOpen (cidUnit h) h (jobOpenBody h) s)

/-- A close of a job that its unit allows: none, or the status that refuses it: LNKF_UNKNOWN_JOB for a FREE entry, NOT_PERMITTED for
another context's job, BUSY for one already CLOSING (DESIGN CHOICE, log 124). A context that is FENCED keeps its jobs until CTX_DESTROY
(R63): the command is then refused with CTX_FENCED (Table ARCH-5). -/
def jobCloseCheck (j cid : Nat) (gen : BitVec 16) (s : State) : Option Status :=
  let b := jobOf s j
  if gen ≠ b.gen ∨ gen = 0 then some .staleGeneration
  else if cid ≠ 0 ∧ (ctxOf s cid).state = .fenced then some .ctxFenced
  else if b.state = .free then some .lnkfUnknownJob
  else if b.cid ≠ cid then some .notPermitted
  else if b.state = .closing then some .busy
  else none

/-- JOB_LINK_CLOSE (R132). -/
def jobCloseBody (h : HostCmd) (ip : InProg) (s : State) : State :=
  let j := (opByte h 20).toNat
  match jobCloseCheck j h.cid.val h.gen s with
  | some st => completeHost ip st [] s
  | none => beginClose j (updJob j (fun b => { b with closeW := .host ip.id }) s)
/-- JOB_LINK_CLOSE. -/
def execJobLinkClose (h : HostCmd) (s : State) : Result :=
  .next (hostCommand opJobLinkClose (.job (opByte h 20).toNat) h (jobCloseBody h) s)

/-- The token bytes an operator job stands for: its fields in the layout of Table LINK-9A, epoch 0 (log 52). -/
def operatorToken (id leaderEp : BitVec 16) (rs : List EpRange) : Bytes :=
  fit 96 (leNat 2 1 ++ leBv 2 id ++ leBv 2 leaderEp ++ leNat 1 rs.length ++ zeros 9 ++ rs.flatMap (fun r => leBv 2 r.1 ++ leBv 2 r.2))

/-- The operator job of a command that has passed every check. -/
def openOperatorJob (id : BitVec 16) (leader : Bool) (lep : BitVec 16) (plain : Bool) (rs : List EpRange) (p : MgmtProg)
    (s : State) : State :=
  let b : Job := { id := id, leader := leader, plain := plain, ranges := rs.map (fun r => (r.1.toNat, r.2.toNat)), digest := sha384 (operatorToken id lep rs), leaderEp := lep }
  match openLocalJob b (.mgmt p.tag) s with
  | (none, s1) => replyMgmt p .busy [] s1
  | (some j, s1) =>
    let s2 := nameMgmtUnit p.tag (.job j) s1
    if leader then finish (.mgmt p.tag) .ok (leNat 1 j) s2 else s2

/-- JOB_OPEN_OP (R128). -/
def jobOpenOpBody (m : MgmtHdr) (id : BitVec 16) (leader : Bool) (lep : BitVec 16) (plain : Bool) (rs : List EpRange) (p : MgmtProg)
    (s : State) : State :=
  if rs.length < 1 ∨ 16 < rs.length then replyMgmt p .badDescriptor [] s
  else if plain && !plainInForce s then replyMgmt p .notPermitted [] s
  else if !mayOpen s leader lep (rs.map (fun r => (r.1.toNat, r.2.toNat))) then replyMgmt p .lnkfNotMember [] s
  else if (jobById s id).isSome then replyMgmt p .busy [] s
  else match openBlocked leader s with
    | some st => replyMgmt p st [] (checkAlias s)
    | none => withDraw (.jobOpenOp m id leader lep plain rs p) (replyMgmt p .notPermitted []) (openOperatorJob id leader lep plain rs p) s
/-- JOB_OPEN_OP. -/
def execJobOpenOp (m : MgmtHdr) (id : BitVec 16) (leader : Bool) (lep : BitVec 16) (plain : Bool) (rs : List EpRange)
    (s : State) : Result :=
  .next (mgmtCommand 0x20 .none m (jobOpenOpBody m id leader lep plain rs) s)

/-- JOB_CLOSE_OP: an operator job by its table index. -/
def jobCloseOpBody (m : MgmtHdr) (p : MgmtProg) (s : State) : State :=
  let j := m.unit.toNat
  if j ≥ 256 then replyMgmt p .badDescriptor [] s
  else match jobCloseCheck j 0 m.gen s with
    | some st => replyMgmt p st [] s
    | none => beginClose j (updJob j (fun b => { b with closeW := .mgmt p.tag }) s)
/-- JOB_CLOSE_OP. -/
def execJobCloseOp (m : MgmtHdr) (s : State) : Result :=
  .next (mgmtCommand 0x21 (if m.unit.toNat < 256 then .job m.unit.toNat else .none) m (jobCloseOpBody m) s)

/-- The message whose fragments have all come on its engine (R130): its frames, taken out. -/
def takeAsm (grant : Bool) (m : JobMsg) (s : State) : Option (List Bytes × State) :=
  let e := m.engine.val
  let whole : JobAsm → Bool := fun a => (a.grant == grant) && decide (a.job = m.jobId) && decide (a.ep = m.srcEp) && a.done &&
    decide (a.frames.flatMap (fun f => (f.drop 16).take (f.length - 32)) = jobMsgBytes m)
  ((engOf s e).asm.find? whole).map (fun a => (a.frames, updEng e (fun x => { x with asm := x.asm.erase a }) s))

/-- A JOIN or GRANT that fails a check is discarded and logged (R129). -/
def discardJobMsg (st : Status) (m : JobMsg) (s : State) : State := linkRecord m.engine.val st m.jobId.toNat m.srcEp.toNat 0 s

/-- A message that has come whole: relayed by a device that is not its destination, else judged for the local job it names; one of
an unknown job is discarded. -/
def routeJobMsg (grant : Bool) (m : JobMsg) (k : Nat → State → State) (s : State) : State :=
  if !linkAllowed s || !linkOpen (engOf s m.engine.val) then s
  else match takeAsm grant m s with
    | none => s
    | some (frames, s1) =>
      if m.destEp ≠ s.link.endpoint then relayJobMsg m frames s1
      else match jobById s m.jobId with
        | none => discardJobMsg .notPermitted m s1
        | some j => k j s1

/-- What a GRANT's signature covers: its ephemeral key, ciphertext, wrapped key and chain, and the member's keys. -/
def grantSigned (m : JobMsg) (memberEcdh memberKem : Bytes) : Bytes :=
  m.ecdh ++ m.kem ++ m.wrapped ++ m.chain ++ memberEcdh ++ memberKem

/-- GRANT (R129): the job key wrapped under a key that passes through a working slot, as the ephemeral private key does. -/
def sendGrant (j : Nat) (m : JobMsg) (key : Bytes) (s : State) : State :=
  let b := jobOf s j
  let (a, s1) := drbg 48 s
  let (r, s2) := drbg 32 s1
  match Config.ecdhShared a m.ecdh with
  | none => discardJobMsg .notPermitted m s2
  | some z =>
    let (ct, k) := Config.kemEncap m.kem r
    let kw := kdf (z ++ k) (ascii "OCN-GRANT") b.digest 256
    let s3 := throughWorking attrWrap b.cid [a, kw] s2
    let w := gcmSeal kw (zeros 12) [] key
    let g : JobMsg := { engine := m.engine, destEp := m.srcEp, srcEp := s.link.endpoint, jobId := m.jobId, chain := deviceChain s, ecdh := Config.ecdhPublic a, kem := ct, wrapped := w.1 ++ w.2, digest := b.digest, sig := [] }
    sendJobMsg (some m.engine.val) j 4 { g with sig := hybridSign (grantSigned g m.ecdh m.kem) s3 } s3

/-- The leader answers a JOIN that passes every check with GRANT; it discards one that it cannot answer: the job key or the alias
keys are gone, or no working slot is free. -/
def answerJoin (j : Nat) (m : JobMsg) (s : State) : State :=
  if (freeWorking 2 s).length < 2 then discardJobMsg .busy m s
  else match deviceKey (jobSlot j) s with
    | none => discardJobMsg (noKeyStatus (jobSlot j) s) m (checkSlot (jobSlot j) s)
    | some key =>
      if !signReady s then discardJobMsg (signStatus s) m (checkAlias s)
      else withDraw (.grant j m) (discardJobMsg .notPermitted m) (sendGrant j m key) s

/-- The checks of R129 on a JOIN. -/
def joinOk (j : Nat) (m : JobMsg) (s : State) : Bool :=
  let b := jobOf s j
  b.leader && decide (b.state = .open_) && inRanges m.srcEp b.ranges && decide (m.digest = b.digest) &&
  (match chainVerify (trustAnchor s) m.chain with
    | some keys => hybridOk keys (joinSigned m) m.sig
    | none => false)

/-- JOIN: answered by the leader, relayed by any other device, or discarded. -/
def joinEffect (m : JobMsg) (s : State) : State :=
  routeJobMsg false m (fun j s => if joinOk j m s then answerJoin j m s else discardJobMsg .notPermitted m s) s
/-- JOIN. -/
def execJoin (m : JobMsg) (s : State) : Result := .next (joinEffect m s)

/-- The key that a member unwraps a GRANT with. -/
def memberKey (b : Job) (m : JobMsg) (s : State) : Option Bytes :=
  match b.ecdhSlot.bind (fun n => deviceKey n s), b.kemSlot.bind (fun n => deviceKey n s) with
  | some sec, some seed => (Config.ecdhShared sec m.ecdh).map (fun z => kdf (z ++ Config.kemDecap seed m.kem) (ascii "OCN-GRANT") b.digest 256)
  | _, _ => none

/-- The checks of R129 on a GRANT at a member still KEYING, before it is unwrapped. -/
def grantOk (j : Nat) (m : JobMsg) (s : State) : Bool :=
  let b := jobOf s j
  !b.leader && decide (b.state = .keying) && decide (m.srcEp = b.leaderEp) && inRanges m.srcEp b.ranges &&
  (match chainVerify (trustAnchor s) m.chain with
    | some keys => hybridOk keys (grantSigned m b.ecdhPub b.kemPub) m.sig
    | none => false)

/-- The job key of a GRANT, unwrapped. -/
def grantKey (j : Nat) (m : JobMsg) (s : State) : Option Bytes :=
  (memberKey (jobOf s j) m s).bind (fun kw => gcmOpen kw (zeros 12) [] (slice m.wrapped 0 32) (slice m.wrapped 32 16))

/-- The member installs the key of a GRANT and is OPEN; its ephemeral keys are gone. -/
def takeGrant (j : Nat) (m : JobMsg) (key : Bytes) (s : State) : State :=
  let b := jobOf s j
  let s1 := dropKeys (b.ecdhSlot.toList ++ b.kemSlot.toList) (throughWorking attrWrap b.cid (memberKey b m s).toList s)
  finish b.openW .ok (leNat 1 j) (updJob j (fun b => { b with state := .open_, openW := .none, ecdhSlot := none, kemSlot := none })
    (setSlot (jobSlot j) attrEngine b.cid none key s1))

/-- A GRANT whose checks have passed unwrapped, and its key installed. -/
def unwrapGrant (j : Nat) (m : JobMsg) (s : State) : State :=
  match grantKey j m s with
  | none => discardJobMsg .notPermitted m (checkSlots ((jobOf s j).ecdhSlot.toList ++ (jobOf s j).kemSlot.toList) s)
  | some key => takeGrant j m key s

/-- A GRANT for a local job: NOT_PERMITTED where a check fails, BUSY where no working slot is free for its wrapping key (R233). -/
def memberGrant (j : Nat) (m : JobMsg) (s : State) : State :=
  if !grantOk j m s then discardJobMsg .notPermitted m s
  else if (freeWorking 1 s).isEmpty then discardJobMsg .busy m s
  else withDraw (.member j m) (discardJobMsg .notPermitted m) (unwrapGrant j m) s

/-- GRANT: the member installs the key and is OPEN, or the message is relayed or discarded. -/
def grantEffect (m : JobMsg) (s : State) : State := routeJobMsg true m (fun j s => memberGrant j m s) s
/-- GRANT. -/
def execGrant (m : JobMsg) (s : State) : Result := .next (grantEffect m s)

/-- A member still KEYING 100 ms after its open closes with TIMEOUT (R130). -/
def memberTimeoutEffect (j : Nat) (s : State) : State :=
  let b := jobOf s j
  if b.state = .keying ∧ b.deadline ≤ s.tick then beginClose j (updJob j (fun b => { b with failWith := some .timeout }) s) else s
/-- MEMBER_KEYING_TIMEOUT. -/
def execMemberKeyingTimeout (j : Fin 256) (s : State) : Result := .next (memberTimeoutEffect j.val s)

/-- The first control frame of a job on a link, taken: an engine request (Table ARCH-4). -/
def takeCtl (e : Nat) (id : BitVec 16) (ack : Bool) (s : State) : Option (CtlFrame × State) :=
  match s.link.ctl.find? (fun c => decide (c.engine = e) && (c.ack == ack) && decide ((jobOf s c.job).id = id)) with
  | none => none
  | some c => some (c, grantEngine { s with link := { s.link with ctl := s.link.ctl.erase c } })

/-- JOB_CLOSE received (R133): accepted frames of the job are sent, CLOSE_ACK follows, the link is closed for the job; where
this side's own JOB_CLOSE is awaited there, it counts as its acknowledgement. It waits while CLOSE_ACK cannot go. -/
def jobCloseEffect (e : Nat) (id : BitVec 16) (s : State) : State :=
  match takeCtl e id false s with
  | none => s
  | some (c, s1) =>
    let j := c.job
    if !closeRoom s e j then s else
    let s3 := submitFrame e j 2 [] (closeEgressOf e j s1)
    let s4 := updJob j (fun b => { b with
      closed := if b.closed.contains e then b.closed else b.closed ++ [e], awaiting := b.awaiting.filter (fun a => a.1 != e) }) s3
    settleClose j (postEventRaw 0x03 12 (linkEventBody e id.toNat c.srcEp.toNat) s4)
/-- JOB_CLOSE. -/
def execJobClose (e : Fin 96) (id : BitVec 16) (s : State) : Result := .next (jobCloseEffect e.val id s)

/-- CLOSE_ACK received (R134). -/
def closeAckEffect (e : Nat) (id : BitVec 16) (s : State) : State :=
  match takeCtl e id true s with
  | none => s
  | some (c, s1) =>
    if (jobOf s1 c.job).awaiting.any (fun a => a.1 == e) then
      settleClose c.job (updJob c.job (fun b => { b with
        closed := if b.closed.contains e then b.closed else b.closed ++ [e], awaiting := b.awaiting.filter (fun a => a.1 != e) }) s1)
    else s1
/-- CLOSE_ACK. -/
def execCloseAck (e : Fin 96) (id : BitVec 16) (s : State) : Result := .next (closeAckEffect e.val id s)

/-- The 2 ms timer of a link expires (R132, R134). -/
def closeTimerEffect (e j : Nat) (s : State) : State :=
  if (jobOf s j).awaiting.any (fun a => decide (a.1 = e) && decide (a.2 ≤ s.tick)) then
    let s1 := updEng e (fun x => { x with closeTimeout := raise s.tick x.closeTimeout, closeDue := x.closeDue.filter (· != j) }) (grantTimer s)
    let s2 := linkRecord e .lnkfCloseTimeout (jobOf s j).id.toNat s.link.endpoint.toNat 0 s1
    settleClose j (updJob j (fun b => { b with timedOut := true, awaiting := b.awaiting.filter (fun a => a.1 != e) }) s2)
  else s
/-- CLOSE_TIMER_EXPIRY. -/
def execCloseTimerExpiry (e : Fin 96) (j : Fin 256) (s : State) : Result := .next (closeTimerEffect e.val j.val s)

end Sys2Proof.Machine
end

