-- ==== Sys2Proof/Machine/Contexts.lean ====
section
/-! DEFINITION. The host and management commands of contexts (03_tenant_contexts.md R60 to R75, R83), verification policies and
reports (08_greenhouse_verification.md R189, R203), SCRUB_FRAMES (18_host_rings.md R393). -/

namespace Sys2Proof.Machine

/-- A context command through its intake and steps 2 and 3 of R60. -/
def ctxCommand (op : HostOp) (cmd : CtxCmd) (h : HostCmd) (body : InProg → State → State) (s : State) : State :=
  hostCommand op (cidUnit h) h (fun ip s =>
    match ctxCheck cmd h.cid.val h.gen s with
    | some st => completeHost ip st [] s
    | none => body ip s) s

/-! ## CTX_CREATE (R64) -/

/-- The CID a create takes, or the status that refuses it. -/
def createCid (cid : Nat) (s : State) : Status × Nat :=
  if cid = 0 then
    match (List.range 254).find? (fun i => decide ((ctxOf s (i + 1)).state = .free) && (ctxOf s (i + 1)).cooldown.isNone) with
    | some i => (.ok, i + 1)
    | none => (.busy, 0)
  else match ctxTable .create (ctxOf s cid).state with
    | some st => (st, 0)
    | none => if (ctxOf s cid).cooldown.isSome then (.busy, 0) else (.ok, cid)

/-- A context created on a CID, its queue emptied (R358), CMR0 extended (Table BELV-7). -/
def createContext (cid v : Nat) (origin : Nat × Nat) (s : State) : State :=
  let g := (ctxOf s cid).gen
  let s1 := updCtx cid (fun c => { gen := c.gen, state := .created, v := v, map := [], ring := some origin }) s
  let s2 := putQ (65 + cid) (emptyQueue (qOf s1 (65 + cid))) s1
  measureCmr cid 0 (leNat 1 cid ++ leNat 1 v ++ leBv 2 g ++ zeros 4) s2

/-- CTX_CREATE. -/
def ctxCreateBody (h : HostCmd) (ip : InProg) (s : State) : State :=
  match createCid h.cid.val s with
  | (.ok, cid) =>
    finish (.host ip.id) .ok (leNat 1 cid) (nameUnit ip.id (.ctx cid)
      (createContext cid (opByte h 20).toNat (h.ring.val, (ringOf s h.ring.val).epoch) s))
  | (st, _) => completeHost ip st [] s
/-- CTX_CREATE. -/
def execCtxCreate (h : HostCmd) (s : State) : Result :=
  .next (hostCommand opCtxCreate (cidUnit h) h (ctxCreateBody h) s)

/-! ## CTX_KEY_IMPORT (R65, R66, R215) -/

/-- Payload length of a bundle by its KIND. -/
def bundleLen (priv : Bool) : Nat := if priv then 2832 else 40

/-- The payload key of a bundle (Table ORNG-7). -/
def bundleKey (b : Bytes) (s : State) : Option Bytes :=
  match deviceKey 6 s, deviceKey 7 s with
  | some ek, some kk =>
    (Config.ecdhShared ek (slice b 64 97)).map (fun x =>
      kdf (fit 48 x ++ fit 32 (Config.kemDecap kk (slice b 168 1568))) (ascii "OCN-IMPORT") (sha384 (slice b 0 1736)) 256)
  | _, _ => none

/-- The payload of a bundle, where step 1 of R65 passes (R215). -/
def openBundle (priv : Bool) (b : Bytes) (s : State) : Option Bytes :=
  let n := bundleLen priv
  let headOk := decide (leAt b 0 2 = 1) && decide (leAt b 2 1 = if priv then 0 else 1)
  if !headOk || decide (leAt b 1748 4 ≠ n) || decide (slice b 8 48 ≠ sha384 (s.belv.ecdhPub ++ s.belv.kemPub)) then none
  else (bundleKey b s).bind (fun key =>
    gcmOpen key (slice b 1736 12) (slice b 0 1752) (slice b 1752 n) (slice b (1752 + n) 16))

/-- Key material of a payload that its check value covers, and that check value. -/
def bundleKcv (priv : Bool) (p : Bytes) : Bytes × Bytes :=
  if priv then (slice p 0 96, slice p 96 8) else (slice p 0 32, slice p 32 8)

/-- The checks of R65 in order, with the payload. -/
def checkBundle (priv : Bool) (cid : Nat) (gen : BitVec 16) (b : Bytes) (s : State) : Status × Bytes :=
  match openBundle priv b s with
  | none => (.keyBlobInvalid, [])
  | some p =>
    if leAt b 3 1 ≠ cid ∨ leAt b 4 2 ≠ gen.toNat then (.keyAttrDenied, p)
    else if leAt b 6 1 ≠ (if priv then 1 else 2) then (.keyAttrDenied, p)
    else if keyCheckValueOf (bundleKcv priv p).1 ≠ (bundleKcv priv p).2 then (.keyKcvMismatch, p)
    else (.ok, p)

/-- Target slots of an import with their keys and attributes (Table ORNG-3). -/
def importKeys (priv : Bool) (cid : Nat) (p : Bytes) : List (Nat × Bytes × BitVec 5) :=
  if priv then [(ctxSlot cid 0, slice p 0 64, attrEngine), (ctxSlot cid 1, slice p 64 32, attrEngine), (ctxSlot cid 2, slice p 104 32, attrDerive)]
  else [(ctxSlot cid 5, slice p 0 32, attrDerive)]

/-- An import taken (Table ORNG-8, t0): the payload key passes through a working slot, the keys are written to the pending halves of
slots bound to the context; the checks end later. -/
def takeImport (priv : Bool) (cid : Nat) (w : Waiter) (b : Bytes) (s : State) : State :=
  let (st, p) := checkBundle priv cid (ctxOf s cid).gen b s
  let ks := importKeys priv cid p
  let l : KeyLoad := { slots := ks.map (·.1), lens := ks.map (·.2.1.length), attrs := ks.map (·.2.2), for_ := (if priv then .priv cid else .team cid), result := st, commitS := none, waiter := w, consent := (slice p 136 97, slice p 240 2592), cmr := slice b 0 56 ++ (bundleKcv priv p).2 }
  let s1 := ks.foldl (fun s k => setPending k.1 k.2.1 (updSlot k.1 (fun x => { x with cid := cid }) s)) (throughWorking attrWrap 0 (bundleKey b s).toList s)
  updCtx cid (fun c => { c with importing := some ⟨priv, ks.headD (0, [], 0) |>.1, w⟩ }) (addLoad l s1)

/-- An import once its bundle has been read. -/
def importBundle (h : HostCmd) (ip : InProg) (b : Bytes) (s : State) : State :=
  let cid := h.cid.val
  let priv := decide (leAt b 2 1 ≠ 1)
  match ctxTable (.keyImport priv) (ctxOf s cid).state with
  | some st => completeHost ip st [] s
  | none =>
    let targets := (importKeys priv cid []).map (·.1)
    if (ctxOf s cid).importing.isSome || targets.any (fun n => (slotOf s n).pending) then completeHost ip .busy [] s
    else if priv && targets.any (fun n => (slotOf s n).state == .bad) then completeHost ip .keySlotBad [] s
    else if (freeWorking 1 s).isEmpty then completeHost ip .busy [] s
    else if (deviceKey 6 s).isNone then completeHost ip (noKeyStatus 6 s) [] (checkSlot 6 s)
    else if (deviceKey 7 s).isNone then completeHost ip (noKeyStatus 7 s) [] (checkSlot 7 s)
    else withDraw (.keyImport h ip) (completeHost ip .notPermitted []) (takeImport priv cid (.host ip.id) b) s

/-- CTX_KEY_IMPORT: the bundle is read once a kind of import can be accepted. -/
def keyImportBody (h : HostCmd) (ip : InProg) (s : State) : State :=
  let c := ctxOf s h.cid.val
  match ctxCheck (.keyImport true) h.cid.val h.gen s, ctxTable (.keyImport false) c.state with
  | some .staleGeneration, _ => completeHost ip .staleGeneration [] s
  | some st, some _ => completeHost ip st [] s
  | _, _ => withBuffer h ip (importBundle h ip) s
/-- CTX_KEY_IMPORT. -/
def execCtxKeyImport (h : HostCmd) (s : State) : Result :=
  .next (hostCommand opCtxKeyImport (cidUnit h) h (keyImportBody h) s)

/-! ## Frames (R67 to R69, R393) -/

/-- Index of the first entry of a list that fails `p`, or that appears before where `once` is set. -/
def firstRefused (once : Bool) (p : Nat → Bool) (ws : List Nat) : Option Nat :=
  (List.range ws.length).find? (fun i => !p (ws.getD i 0) || (once && (ws.take i).contains (ws.getD i 0)))

/-- The list of a frame command, read where it stands in the buffer (R391, R394). -/
def withList (h : HostCmd) (ip : InProg) (k : List Nat → State → State) (s : State) : State :=
  if h.bufLen = 0 then k (frameWords h) s else withBuffer h ip (fun _ s => k (frameWords h) s) s

/-- A list refused whole with NOT_PERMITTED, or served. -/
def allOrNone (ip : InProg) (once : Bool) (p : Nat → Bool) (ws : List Nat) (k : State → State) (s : State) : State :=
  match firstRefused once p ws with
  | some i => completeHost ip .notPermitted (leNat 4 i) s
  | none => k s

/-- Code of a class that a bind names. -/
def bindClass (n : Nat) : FrameClass := if n = 1 then .save else if n = 2 then .shared else .priv

/-- The group checks of a PREFIX bind. -/
def bindGroup (cid k : Nat) (s : State) : Status × Nat :=
  match mapGet none (ctxOf s cid).ksel k with
  | none => (.notPermitted, 0)
  | some g =>
    if (groupOf s g).creator ≠ cid then (.notPermitted, 0)
    else if groupStateAt s g = .sealed_ ∨ (groupOf s g).sealing = true then (.ctxPrefixSealed, 0)
    else (.ok, g)

/-- Frames bound: in the frame table at once, then written with encrypted zeros (R68). -/
def bindFrames (cid : Nat) (cls : FrameClass) (g ksel : Nat) (w : Waiter) (ws : List Nat) (s : State) : State :=
  let s1 := ws.foldl (fun s n => updFrame n (fun _ => { owner := cid, cls := cls, group := g, zeroing := true }) s) s
  (queueScrub ws (fun _ => if cls = .shared then .group g else .ctx cid) cid (if cls = .shared then ksel else 0) .bind w s1).2

/-- CTX_FRAME_BIND (R67): the group checks come first, before the list is read. -/
def frameBindBody (h : HostCmd) (ip : InProg) (s : State) : State :=
  let cid := h.cid.val
  let cls := bindClass (opByte h 20).toNat
  match (if cls = .shared then bindGroup cid (opByte h 21).toNat s else (.ok, 0)) with
  | (.ok, g) => withList h ip (fun ws s =>
      allOrNone ip true (fun n => decide ((frameOf s n).owner = 255) && decide ((frameOf s n).cls ≠ .device)) ws
        (bindFrames cid cls g (opByte h 21).toNat (.host ip.id) ws) s) s
  | (st, _) => completeHost ip st [] s
/-- CTX_FRAME_BIND. -/
def execCtxFrameBind (h : HostCmd) (s : State) : Result := .next (ctxCommand opCtxFrameBind .frameBind h (frameBindBody h) s)

/-- CTX_FRAME_RELEASE (R69). -/
def frameReleaseBody (h : HostCmd) (ip : InProg) (s : State) : State :=
  withList h ip (fun ws s =>
    let cid := h.cid.val
    let mine := fun n => decide ((frameOf s n).owner = cid) && (decide ((frameOf s n).cls = .priv) || decide ((frameOf s n).cls = .save))
    allOrNone ip true mine ws (fun s => (queueScrub ws (fun _ => .unowned) 255 0 (.release cid) (.host ip.id) s).2) s) s
/-- CTX_FRAME_RELEASE. -/
def execCtxFrameRelease (h : HostCmd) (s : State) : Result :=
  .next (ctxCommand opCtxFrameRelease .frameRelease h (frameReleaseBody h) s)

/-- A frame may be scrubbed: owned by CID 255 and not DEVICE (R393). -/
def scrubable (s : State) (n : Nat) : Bool := decide ((frameOf s n).owner = 255) && decide ((frameOf s n).cls ≠ .device)

/-- SCRUB_FRAMES (R393). -/
def scrubFramesBody (h : HostCmd) (ip : InProg) (s : State) : State :=
  withList h ip (fun ws s =>
    allOrNone ip false (scrubable s) ws (fun s => (queueScrub ws (fun _ => .unowned) 255 0 .scrub (.host ip.id) s).2) s) s
/-- SCRUB_FRAMES. -/
def execScrubFrames (h : HostCmd) (s : State) : Result := .next (hostCommand opScrubFrames .none h (scrubFramesBody h) s)

/-- Management opcode 0x04, as the host command. -/
def mgmtScrubBody (ws : List Nat) (p : MgmtProg) (s : State) : State :=
  if ws.length = 0 ∨ ws.length > 16384 then replyMgmt p .badDescriptor [] s
  else match firstRefused false (scrubable s) ws with
    | some i => replyMgmt p .notPermitted (leNat 4 i) s
    | none => (queueScrub ws (fun _ => .unowned) 255 0 .scrub (.mgmt p.tag) s).2
/-- MGMT_SCRUB_FRAMES. -/
def execMgmtScrubFrames (m : MgmtHdr) (frames : List (Fin 524288)) (s : State) : Result :=
  .next (mgmtCommand 0x04 .none m (within (4 + 4 * frames.length) (mgmtScrubBody (frames.map (·.val)))) s)

/-! ## CTX_PREFIX_SEAL (R75) -/

/-- The seal of an OPEN group that the context created. -/
def prefixSealBody (h : HostCmd) (ip : InProg) (s : State) : State :=
  match mapGet none (ctxOf s h.cid.val).ksel (opByte h 20).toNat with
  | none => completeHost ip .notPermitted [] s
  | some g =>
    let x := groupOf s g
    if groupStateAt s g = .sealed_ ∨ x.sealing = true then completeHost ip .ctxPrefixSealed [] s
    else if x.creator = h.cid.val ∧ x.state = .open_ then
      issueLock (.sealGroup g) (.sealing g (.host ip.id)) (updGroup g (fun x => { x with sealing := true }) s)
    else completeHost ip .notPermitted [] s
/-- CTX_PREFIX_SEAL. -/
def execCtxPrefixSeal (h : HostCmd) (s : State) : Result := .next (ctxCommand opCtxPrefixSeal .prefixSeal h (prefixSealBody h) s)

/-! ## CTX_SCHEDULE (R70) -/

/-- The map of a command: physical die of each virtual die below V. -/
def scheduleMap (h : HostCmd) (v : Nat) : List (Option Nat) :=
  (List.range v).map (fun i => if opByte h (24 + i) = 0xff then none else some (opByte h (24 + i)).toNat)

/-- The SAVE frames of a context hold its save area at the core slot size of a die. -/
def saveFits (s : State) (cid v d : Nat) : Bool := decide (v * 320 * slotKib s d ≤ (saveFrames s cid).length * 2048)

/-- Virtual dies of a context whose cores are on a die. -/
def residentVdies (s : State) (cid : Nat) : List Nat :=
  (List.range Config.dies).filterMap (fun d =>
    match (dieOf s d).current with | some r => if r.cid = cid then some r.vdie else none | none => none)

/-- A new map put in force: the dies of the old and of the new one get their residents. -/
def putMap (cid slice : Nat) (m : List (Option Nat)) (s : State) : State :=
  let old := diesOf s cid
  let s1 := updCtx cid (fun c => { c with map := m, slice := slice, state := if m.all (·.isNone) then c.state else .running }) s
  ((List.range Config.dies).filter (fun d => old.contains d || m.contains (some d))).foldl (fun s d => scheduleDie d s) s1

/-- An empty map: at once for a KEYED context or where nothing is to be saved out, else pending. -/
def emptyMap (cid : Nat) (w : Waiter) (s : State) : State :=
  let left := residentVdies s cid
  if (ctxOf s cid).state ≠ .running then finish w .ok [] s
  else
    let s1 := putMap cid (ctxOf s cid).slice [] s
    if left.isEmpty then finish w .ok [] (updCtx cid (fun c => { c with state := .keyed }) s1)
    else updCtx cid (fun c => { c with schedWait := some w, saved := left }) s1

/-- CTX_SCHEDULE. -/
def scheduleBody (h : HostCmd) (ip : InProg) (s : State) : State :=
  let cid := h.cid.val
  let v := (ctxOf s cid).v
  let m := scheduleMap h v
  let ds := m.filterMap id
  if !(slice h.ops (4 + v) (32 - v)).all (· == 0xff) then completeHost ip .badDescriptor [] s
  else if ds.any (fun d => decide ((dieOf s d).state ≠ .running)) || ds.any (fun d => !saveFits s cid v d) then
    completeHost ip .notPermitted [] s
  else
    let s1 := endSchedule cid .ok s
    if ds.isEmpty then emptyMap cid (.host ip.id) s1
    else finish (.host ip.id) .ok [] (putMap cid (opNat h 20 4) m s1)
/-- CTX_SCHEDULE. -/
def execCtxSchedule (h : HostCmd) (s : State) : Result := .next (ctxCommand opCtxSchedule .schedule h (scheduleBody h) s)

/-! ## CTX_DRAIN and CTX_DESTROY (R61, R78, R80) -/

/-- A drain in a state that accepts it. -/
def drainContext (cid : Nat) (w : Waiter) (s : State) : State :=
  if (ctxOf s cid).state = .drained then finish w .ok [] s else startDrain cid w s

/-- What CTX_DESTROY ends at once: the consent (R83) and the power policy (R376). -/
def endGrants (c : Ctx) : Ctx := { c with consent := none, w := 8, fMin := 0, pMax := 0 }

/-- A destroy in a state that accepts it; it completes when the context is FREE. -/
def destroyContext (cid : Nat) (w : Waiter) (s : State) : State :=
  let s1 := updCtx cid (fun c => { endGrants c with destroyWaiters := c.destroyWaiters ++ [w] }) s
  match (ctxOf s cid).state with
  | .drained => beginDestroy cid s1
  | .fenced => destroyFenced cid s1
  | .draining => updCtx cid (fun c => { c with destroyPending := true }) s1
  | .created => updCtx cid (fun c => { c with destroyPending := true }) (startDrain cid .none s1)
  | .keyed => updCtx cid (fun c => { c with destroyPending := true }) (startDrain cid .none s1)
  | .running => updCtx cid (fun c => { c with destroyPending := true }) (startDrain cid .none s1)
  | .free => s1
  | .destroying => s1

/-- CTX_DRAIN. -/
def execCtxDrain (h : HostCmd) (s : State) : Result :=
  .next (ctxCommand opCtxDrain .drain h (fun ip s => drainContext h.cid.val (.host ip.id) s) s)
/-- CTX_DESTROY. -/
def execCtxDestroy (h : HostCmd) (s : State) : Result :=
  .next (ctxCommand opCtxDestroy .destroy h (fun ip s => destroyContext h.cid.val (.host ip.id) s) s)

/-- A management command that names a context (R60, R317). -/
def mgmtContext (cmd : CtxCmd) (m : MgmtHdr) (k : State → State) (p : MgmtProg) (s : State) : State :=
  if m.unit.toNat = 0 ∨ m.unit.toNat > 254 then replyMgmt p .badDescriptor [] s
  else match ctxCheck cmd m.unit.toNat m.gen s with
    | some st => replyMgmt p st [] s
    | none => k s
/-- Management opcode 0x02, CTX_DRAIN. -/
def execMgmtCtxDrain (m : MgmtHdr) (s : State) : Result :=
  .next (mgmtCommand 0x02 (mgmtCtx m) m (fun p => mgmtContext .drain m (drainContext m.unit.toNat (.mgmt p.tag)) p) s)
/-- Management opcode 0x03, CTX_DESTROY. -/
def execMgmtCtxDestroy (m : MgmtHdr) (s : State) : Result :=
  .next (mgmtCommand 0x03 (mgmtCtx m) m (fun p => mgmtContext .destroy m (destroyContext m.unit.toNat (.mgmt p.tag)) p) s)

/-! ## Consent, policy, report (R83, R189, R203) -/

/-- What a consent token or policy carries of its context: CID, generation and this unit. -/
def namesContext (cid : Nat) (t : Bytes) (s : State) : Bool :=
  decide (leAt t 2 1 = cid) && decide (leAt t 4 2 = (ctxOf s cid).gen.toNat)

/-- A consent token is accepted (R83); LCYC_INVALID counts as Scrapped (R286). -/
def consentOk (cid : Nat) (t : Bytes) (s : State) : Bool :=
  let e := leAt t 8 8
  consentSigned (ctxOf s cid) t &&
  namesContext cid t s && decide (slice t 16 48 = unitDigest s) && decide (s.tick < e) && decide (e ≤ s.tick + 900000000000) &&
  decide (s.otp.state < 4)

/-- DEBUG_CONSENT. -/
def consentBody (h : HostCmd) (ip : InProg) (s : State) : State :=
  withBuffer h ip (fun t s =>
    let cid := h.cid.val
    if consentOk cid t s then
      let scope := leAt t 3 1 % 4
      let k : Option Consent := if scope = 0 then none else some ⟨BitVec.ofNat 8 scope, leAt t 8 8, slice t 64 32⟩
      finish (.host ip.id) .ok [] (measureCmr cid 3 (slice t 0 96) (updCtx cid (fun c => { c with consent := k }) s))
    else completeHost ip .notPermitted [] s) s
/-- DEBUG_CONSENT. -/
def execDebugConsent (h : HostCmd) (s : State) : Result :=
  .next (ctxCommand opDebugConsent .debugConsent h (consentBody h) s)

/-- The checks of R189 on a policy. -/
def policyCheck (cid : Nat) (t : Bytes) (s : State) : Status :=
  let c := ctxOf s cid
  if !(consentSigned c t && decide (slice t 16 48 = unitDigest s)) then .notPermitted
  else if !namesContext cid t s then .notPermitted
  else if c.policy.set && decide (leAt t 8 8 ≤ c.policy.seq) then .notPermitted
  else if leAt t 6 2 > 4096 ∨ leAt t 3 1 > 1 then .badDescriptor
  else .ok

/-- VERIFY_POLICY: accepted where DEBUG_CONSENT would be; it governs decisions of later ticks. -/
def policyBody (h : HostCmd) (ip : InProg) (s : State) : State :=
  withBuffer h ip (fun t s =>
    let cid := h.cid.val
    match policyCheck cid t s with
    | .ok =>
      let p : VPolicy := { rate := leAt t 6 2, fence := decide (leAt t 3 1 = 1), seq := leAt t 8 8, nonce := slice t 64 32, set := true }
      finish (.host ip.id) .ok [] (measureCmr cid 2 (slice t 0 96)
        (updCtx cid (fun c => { c with policyOld := policyAt c s.tick, policy := p, policyAt := s.tick }) s))
    | st => completeHost ip st [] s) s
/-- VERIFY_POLICY. -/
def execVerifyPolicy (h : HostCmd) (s : State) : Result := .next (ctxCommand opVerifyPolicy .debugConsent h (policyBody h) s)

/-- FINE_COUNTERS consent is in force for a context (R83, R84). -/
def fineConsent (s : State) (cid : Nat) : Bool :=
  match consentNow s cid with
  | some k => k.scope.getLsbD 0
  | none => false

/-- VERIFY_REPORT (R203): in every state from CREATED to FENCED. -/
def reportBody (h : HostCmd) (ip : InProg) (s : State) : State :=
  let c := ctxOf s h.cid.val
  if h.gen ≠ c.gen ∨ h.gen = 0 then completeHost ip .staleGeneration [] s
  else if c.state = .free ∨ c.state = .destroying then completeHost ip .ctxGone [] s
  else if h.bufLen < 80 then completeHost ip .lengthShort [] s
  else writeBuffer ip (coverageRecord s h.cid.val (!fineConsent s h.cid.val)) .ok s
/-- VERIFY_REPORT. -/
def execVerifyReport (h : HostCmd) (s : State) : Result := .next (hostCommand opVerifyReport (cidUnit h) h (reportBody h) s)

end Sys2Proof.Machine
end

