-- ==== Sys2Proof/Machine/CtxEvents.lean ====
section
/-! DEFINITION. Context-private commands (03_tenant_contexts.md R73, R74, 09_belvedere_attestation.md R218), key loads
(10_orangery_keys.md R244), the commit of locked changes (R16, R17), and the events of contexts and groups (R62, R77 to R84). -/

namespace Sys2Proof.Machine

/-! ## Context-private packets (R73, R74) -/

/-- The packet at the head of a context's queue. -/
def headPriv (s : State) (cid : Nat) : Option Bytes := (peekPacket (qOf s (65 + cid))).map (fun es => (es.map (·.payload)).headD [])

/-- The packet at the head of a context's queue taken: one grant of class 7. -/
def takePriv (cid : Nat) (s : State) : State := ctxqGrant (putQ (65 + cid) (popPacket s.tick (qOf s (65 + cid))).2 s)

/-- Result semaphore a packet names. -/
def privSem (p : Bytes) : Nat := leAt p 2 2

/-- Step 2 of R74. -/
def privFormOk (p : Bytes) : Bool :=
  let op := leAt p 0 1
  let k := leAt p 1 1
  (decide (op = 0x10) || (decide (1 ≤ op) && decide (op ≤ 3) && decide (1 ≤ k) && decide (k ≤ 3))) && allZero (slice p 52 11)

/-- Steps 1 and 2 of R74 pass. -/
def privOk (p : Bytes) : Bool := decide (privSem p ≤ 511) && privFormOk p

/-- The status of a packet delivered, where its result semaphore is in range. -/
def answerPriv (cid : Nat) (p : Bytes) (st : Status) (s : State) : State :=
  if privSem p ≤ 511 then deliverStatus cid (privSem p) st s else s

/-- A packet that meets the conditions of every path first: it stays while a supply alarm holds intake (R413), is refused
with TAMPER during a zeroisation (R412) and with BUSY during an activation (R326); else it is judged by `k`. -/
def privPacket (mine : Bytes → Bool) (cid : Nat) (k : Bytes → State → State) (s : State) : State :=
  match headPriv s cid with
  | none => s
  | some p =>
    if cid = 0 ∨ cid = 255 ∨ mine p = false ∨ s.pav.supply.isSome then s
    else
      let s1 := takePriv cid s
      if s1.pav.tamper then answerPriv cid p .tamper s1
      else if s1.updt.hold then answerPriv cid p .busy s1
      else k p s1

/-- A packet that step 1 or 2 of R74 refuses: discarded with a record, or answered with BAD_DESCRIPTOR. -/
def badPacket (cid : Nat) (p : Bytes) (s : State) : State :=
  if privSem p ≤ 511 then answerPriv cid p .badDescriptor s else postFault .badDescriptor 2 0 (leNat 1 cid) s
/-- CONTEXT_PRIVATE_BAD_PACKET. -/
def execContextPrivateBadPacket (cid : Fin 256) (s : State) : Result :=
  .next (privPacket (fun p => !privOk p) cid.val (badPacket cid.val) s)

/-- The packet carries an opcode and is well formed. -/
def isPriv (op : Nat) (p : Bytes) : Bool := privOk p && decide (leAt p 0 1 = op)

/-- Step 3 of R74 for a prefix command. -/
def prefixState (st : CtxState) : Status :=
  match st with
  | .keyed => .ok
  | .running => .ok
  | .fenced => .ctxFenced
  | .free => .ctxState
  | .created => .ctxState
  | .draining => .ctxState
  | .drained => .ctxState
  | .destroying => .ctxState

/-- KSEL and digest of a prefix packet. -/
def privKsel (p : Bytes) : Nat := leAt p 1 1
/-- Digest of a packet. -/
def privDigest (p : Bytes) : Bytes := slice p 4 48

/-- A group bound to a KSEL of a member. -/
def bindKsel (cid k g : Nat) (s : State) : State := updCtx cid (fun c => { c with ksel := mapSet none c.ksel k (some g) }) s

/-- The key of a prefix command derived from the team key, through two working slots (R233, Table ORNG-7). -/
def deriveGroup (cid : Nat) (dg : Bytes) (s : State) : (Status × Bytes) × State :=
  match useSlot (ctxSlot cid 5) attrDerive cid s with
  | ((.ok, team), s1) =>
    let keys := groupKeys team dg
    ((.ok, keys), throughWorking attrEngine cid [slice keys 0 64, slice keys 64 32] s1)
  | ((st, _), s1) => ((st, []), s1)

/-- A created group: OPEN with one member, its key in the group's slots, CMR4 extended. -/
def openGroup (cid k g : Nat) (dg keys : Bytes) (s : State) : State :=
  let kcv := keyCheckValueOf keys
  let s1 := setSlot (groupSlot g + 1) attrEngine 0 (some g) (slice keys 64 32) (setSlot (groupSlot g) attrEngine 0 (some g) (slice keys 0 64) s)
  let s2 := updGroup g (fun _ => { state := .open_, creator := cid, members := 1, digest := dg, kcv := kcv }) s1
  measureCmr cid 4 ([1] ++ leNat 1 k ++ kcv) (bindKsel cid k g s2)

/-- PFX_CREATE (R74). -/
def pfxCreateBody (cid : Nat) (p : Bytes) (s : State) : Status × State :=
  let c := ctxOf s cid
  let k := privKsel p
  match prefixState c.state with
  | .ok =>
    if (mapGet none c.ksel k).isSome then (.ctxState, s)
    else if (slotOf s (ctxSlot cid 5)).state = .empty then (.notPermitted, s)
    else match leastBelow 256 (fun g => decide ((groupOf s g).state = .free)) with
      | none => (.busy, s)
      | some g =>
        if (freeWorking 2 s).length < 2 then (.busy, s)
        else if !s.orng.ready then (.notPermitted, s)
        else match deriveGroup cid (privDigest p) s with
          | ((.ok, keys), s1) => (.ok, openGroup cid k g (privDigest p) keys s1)
          | ((st, _), s1) => (st, s1)
  | st => (st, s)

/-- A command's effect with its status delivered. -/
def answered (cid : Nat) (k : Nat → Bytes → State → Status × State) (p : Bytes) (s : State) : State :=
  let (st, s1) := k cid p s
  answerPriv cid p st s1

/-- A prefix command that draws from the DRBG (R252). -/
def drawnPriv (join : Bool) (cid : Nat) (k : Nat → Bytes → State → Status × State) (p : Bytes) (s : State) : State :=
  if s.orng.ready && genWaits s && decide ((k cid p s).1 = .ok) then
    { s with orng := { s.orng with queue := s.orng.queue ++ [(s.tick, .prefix_ cid join p)] } }
  else answered cid k p s

/-- PFX_CREATE. -/
def execPfxCreate (cid : Fin 256) (s : State) : Result :=
  .next (privPacket (isPriv 1) cid.val (drawnPriv false cid.val pfxCreateBody) s)

/-- The group of a state whose digest and check value match: the lowest where several do (DESIGN CHOICE, log 111). -/
def matchGroup (s : State) (st : GroupState) (dg : Option Bytes) (kcv : Bytes) : Option Nat :=
  leastBelow 256 (fun g =>
    let x := groupOf s g
    decide (groupStateAt s g = st) && decide (x.kcv = kcv) && (match dg with | some d => decide (x.digest = d) | none => true))

/-- The key that a group's slots hold. -/
def groupKey (s : State) (g : Nat) : Bytes :=
  halfKey (slotOf s (groupSlot g)).active 64 ++ halfKey (slotOf s (groupSlot g + 1)).active 32

/-- A joiner's derived key that differs from the group's under an equal check value is noted, not kept: its fills derive it again from
the team key (R76, R237). -/
def noteOddKey (cid k g : Nat) (keys : Bytes) (s : State) : State :=
  updCtx cid (fun c => { c with oddKsel := mapSet false c.oddKsel k (decide (groupKey s g ≠ keys)) }) s

/-- PFX_JOIN (R74). -/
def pfxJoinBody (cid : Nat) (p : Bytes) (s : State) : Status × State :=
  let c := ctxOf s cid
  let k := privKsel p
  match prefixState c.state with
  | .ok =>
    if (mapGet none c.ksel k).isSome then (.ctxState, s)
    else if (slotOf s (ctxSlot cid 5)).state = .empty then (.notPermitted, s)
    else if (freeWorking 2 s).length < 2 then (.busy, s)
    else if !s.orng.ready then (.notPermitted, s)
    else match deriveGroup cid (privDigest p) s with
      | ((.ok, keys), s1) =>
        let kcv := keyCheckValueOf keys
        if (matchGroup s1 .open_ none kcv).isSome then (.busy, s1)
        else match matchGroup s1 .sealed_ (some (privDigest p)) kcv with
          | none => (.keyKcvMismatch, s1)
          | some g => (.ok, measureCmr cid 4 ([2] ++ leNat 1 k ++ kcv)
              (noteOddKey cid k g keys (bindKsel cid k g (updGroup g (fun x => { x with members := x.members + 1 }) s1))))
      | ((st, _), s1) => (st, s1)
  | st => (st, s)
/-- PFX_JOIN. -/
def execPfxJoin (cid : Fin 256) (s : State) : Result :=
  .next (privPacket (isPriv 2) cid.val (drawnPriv true cid.val pfxJoinBody) s)

/-- PFX_LEAVE (R74, R77): the KSEL is unbound, the member's entry invalidated. -/
def pfxLeaveBody (cid : Nat) (p : Bytes) (s : State) : Status × State :=
  let k := privKsel p
  match prefixState (ctxOf s cid).state with
  | .ok =>
    if (mapGet none (ctxOf s cid).ksel k).isNone then (.notPermitted, s)
    else (.ok, leaveGroup cid k (issueLock (.pairs cid (1#4 <<< k)) .orangery s))
  | st => (st, s)
/-- PFX_LEAVE. -/
def execPfxLeave (cid : Fin 256) (s : State) : Result :=
  .next (privPacket (isPriv 3) cid.val (answered cid.val pfxLeaveBody) s)

/-- CMR_EXTEND (R218). -/
def cmrExtendBody (cid : Nat) (p : Bytes) (s : State) : Status × State :=
  let r := leAt p 1 1
  let st := (ctxOf s cid).state
  if r ≠ 6 ∧ r ≠ 7 then (.notPermitted, s)
  else if st ≠ .keyed ∧ st ≠ .running then (.ctxState, s)
  else (.ok, extendCmr cid r (privDigest p) s)
/-- CMR_EXTEND. -/
def execCmrExtend (cid : Fin 256) (s : State) : Result :=
  .next (privPacket (isPriv 0x10) cid.val (answered cid.val cmrExtendBody) s)

/-! ## Key loads (R66, R244, Table ORNG-8) -/

/-- The load whose lowest target slot is `n`. -/
def loadAt (s : State) (n : Nat) : Option KeyLoad := s.orng.loads.find? (fun l => l.slots.head? == some n)

/-- A load that ends. -/
def dropLoad (l : KeyLoad) (s : State) : State :=
  { s with orng := { s.orng with loads := s.orng.loads.filter (fun x => x != l) } }

/-- A failed load (Table ORNG-8, tv): its pending halves are zeroised, BLOB_FAIL is set for a blob. -/
def failLoad (l : KeyLoad) (st : Status) (s : State) : State :=
  let s1 := dropLoad l (l.slots.foldl (fun s n => dropPending n s) s)
  let s2 := if l.for_ = .blob then { s1 with orng := { s1.orng with blobFail := raise s.tick s1.orng.blobFail } } else s1
  answerLoad l st [] s2

/-- A private set whose context is no longer CREATED (R66). -/
def overtaken (l : KeyLoad) (s : State) : Bool :=
  match l.for_ with
  | .priv cid => decide ((ctxOf s cid).state ≠ .created)
  | .team _ => false
  | .blob => false

/-- The outcome of a load's checks: a private set needs its context still CREATED (R66); both codes are checked. -/
def loadOutcome (l : KeyLoad) (s : State) : Status :=
  if overtaken l s then .ctxState
  else if l.result ≠ .ok then l.result
  else if (badPending l s).isSome then .keySlotBad else .ok
where
  /-- A target whose pending half fails a code. -/
  badPending (l : KeyLoad) (s : State) : Option Nat := l.slots.find? (fun n => !halfOk n 1 (slotOf s n).pend)

/-- Failed codes of pending halves make their slots BAD (R236, Table ORNG-5). -/
def failPendings (l : KeyLoad) (s : State) : State :=
  l.slots.foldl (fun s n => if halfOk n 1 (slotOf s n).pend then s else halfFail n 1 false s) s

/-- Verification ends (tv): a failure zeroises the pending halves, a success fixes S = tv + 1. -/
def loadVerifiedEffect (n : Nat) (s : State) : State :=
  match loadAt s n with
  | none => s
  | some l =>
    if l.commitS.isSome then s
    else match loadOutcome l s with
      | .ok => { s with orng := { s.orng with
          loads := s.orng.loads.map (fun x => if x = l then { x with commitS := some (s.tick + 1) } else x) } }
      | st => failLoad l st (failPendings l s)
/-- KEY_LOAD_VERIFIED. -/
def execKeyLoadVerified (load : Fin 4096) (s : State) : Result := .next (loadVerifiedEffect load.val s)

/-- The caches that hold the key of a replaced ENGINE slot lose it (R244, S + 1): one locked invalidation of every pair keyed
from the slot, the link engines' job and hop keys, Greenhouse's sampling keys. -/
def invalidateSlot (n : Nat) (s : State) : State :=
  if 64 ≤ n ∧ n < 448 then updEng ((n - 64) / 4) (fun x => { x with keys := mapSet [] x.keys ((n - 64) % 4) [] }) s
  else if n = 8 ∨ n = 9 then issueLock (.pairs 0 1) .orangery s
  else if n = 10 ∨ n = 11 then issueLock (.pairs 255 1) .orangery s
  else if 448 ≤ n ∧ n < 2480 then
    let cid := (n - 448) / 8 + 1
    if (n - 448) % 8 ≤ 1 then issueLock (.pairs cid 1) .orangery s
    else { s with grnh := { s.grnh with engines := mapAll {} (fun _ e =>
      { e with keys := e.keys.filter (fun k => k.1 != cid) }) s.grnh.engines } }
  else if 2480 ≤ n ∧ n < 2992 then issueLock (.ofGroup ((n - 2480) / 2)) .orangery s
  else if 2992 ≤ n ∧ n < 3248 then
    { s with link := { s.link with engines := mapAll {} (fun _ x =>
      { x with jobKeys := x.jobKeys.filter (fun k => k.1 != n - 2992) }) s.link.engines } }
  else s

/-- The pending half taken as the active one, with its shares: nothing is drawn. A code that failed fails on, and the next use finds it
(R234). -/
def activateHalf (n : Nat) (h : Half) : Half :=
  ⟨h.s0, h.s1, shareCode n 0 0 h.s0 ^^^ shareCode n 1 0 h.s0 ^^^ h.c0, shareCode n 0 1 h.s1 ^^^ shareCode n 1 1 h.s1 ^^^ h.c1⟩

/-- The pending half of a slot becomes its active half; the former one is zeroised. -/
def commitSlot (n : Nat) (attr : BitVec 5) (len : Nat) (s : State) : State :=
  let x := slotOf s n
  let s1 := updSlot n (fun x => { x with
    state := .active, attr := attr, len := len, active := activateHalf n x.pend, pend := {}, pending := false }) s
  let s2 := uncacheSlot n s1
  if x.state = .active ∧ attr = attrEngine then invalidateSlot n s2 else s2

/-- What the first private set of a context brings: KS and KE derived, the digest of the consent keys in its slot, the
consent keys kept, KEYED. -/
def keyContext (cid : Nat) (l : KeyLoad) (s : State) : State :=
  let gen := (ctxOf s cid).gen
  let seed := (deviceKey (ctxSlot cid 2) s).getD []
  let ks := kdf seed (ascii "GRNH-SAMPLE") (cidGen cid gen) 256
  let ke := kdf seed (ascii "OCN-EVIDENCE") (cidGen cid gen) 256
  let s1 := setSlot (ctxSlot cid 3) attrEngine cid none ks s
  let s2 := setSlot (ctxSlot cid 4) attrRef cid none (sha384 (l.consent.1 ++ l.consent.2)) s1
  let s3 := setSlot (ctxSlot cid 6) attrEnc cid none ke s2
  updCtx cid (fun c => { c with state := .keyed, privSet := true, ecdsaPub := l.consent.1, mldsaPub := l.consent.2, policy := {}, policyOld := {}, policyAt := 0 }) s3

/-- A load commits: its slots serve from S + 1, and its command completes with S. -/
def commitLoad (l : KeyLoad) (sTick : Nat) (s : State) : State :=
  let cid := match l.for_ with | .priv c => some c | .team c => some c | .blob => none
  let s1 := (l.slots.zip (l.attrs.zip l.lens)).foldl (fun s x =>
    commitSlot x.1 x.2.1 x.2.2 (match cid with | some c => updSlot x.1 (fun y => { y with cid := c }) s | none => s)) (dropLoad l s)
  let s2 := match l.for_ with
    | .priv c => measureCmr c 1 l.cmr (keyContext c l s1)
    | .team c => measureCmr c 1 l.cmr s1
    | .blob => s1
  answerLoad l .ok (leNat 8 sTick) s2

/-- S + 1: the change never fails once verified, but for a private set whose context has left CREATED (R66); the new key serves; a use or a fill in S saw the old one (R22, R244). -/
def loadCommitEffect (n : Nat) (s : State) : State :=
  match loadAt s n with
  | none => s
  | some l =>
    match l.commitS with
    | none => s
    | some t =>
      if s.tick ≤ t then s else if overtaken l s then failLoad l .ctxState s else commitLoad l t s
/-- KEY_LOAD_COMMIT. -/
def execKeyLoadCommit (load : Fin 4096) (s : State) : Result := .next (loadCommitEffect load.val s)

/-! ## Commit of a locked change (R16, R17, R116) -/

/-- The next change that waits for a place takes it (R116). -/
def promoteLock (s : State) : State :=
  match s.fence.lockWait with
  | [] => s
  | l :: ls => if s.fence.locks.length < 8 then { s with fence := { s.fence with locks := s.fence.locks ++ [{ l with issued := s.tick }], lockWait := ls } } else s

/-- Uc of a destroy from FENCED (Table CTX-10): requests after it are refused as FENC_NO_KEY, and a read in flight under the
refused CID returns zeros (R107). -/
def endRefusal (cid : Nat) (s : State) : State :=
  if (ctxOf s cid).fenceFrom.isNone then s
  else
    let s1 := updCtx cid (fun c => { c with fenceTo := some s.tick }) s
    { s1 with fence := { s1.fence with chans := mapAll {} (fun _ c =>
      { c with reads := c.reads.map (fun f => if f.req.cid = cid then { f with refused := true } else f) }) s1.fence.chans } }

/-- What a commit in this tick completes: the seal, or the scrubs of a destroy or of a retirement (Table CTX-10, R77). -/
def lockDone (o : LockOwner) (s : State) : State :=
  match o with
  | .firmware => s
  | .orangery => s
  | .sealing g w => finish w .ok (leNat 8 s.tick) (updGroup g (fun x => { x with sealTick := some s.tick }) s)
  | .destroy cid =>
    let fs := ownFrames s cid
    let (n, s1) := queueScrub fs (fun _ => .unowned) 255 0 (.destroy cid) .none (endRefusal cid s)
    updCtx cid (fun c => { c with destroy := c.destroy.map (fun d => { d with
      commit := some s.tick, scrub := if fs.isEmpty then none else some n, us := s.tick }) }) s1
  | .retire g =>
    (queueScrub (groupFrames s g) (fun _ => .unowned) 255 0 (.retire g) .none
      (updGroup g (fun x => { x with invDone := true, endAt := s.tick }) s)).2

/-- A commit that seals a group: from it on every fill of the group returns SEALED (R99). -/
def noteSeal (op : LockOp) (s : State) : State :=
  match op with
  | .sealGroup g => updGroup g (fun x => { x with fillSealed := some (x.fillSealed.getD s.tick) }) s
  | .pairs _ _ => s
  | .ofCid _ => s
  | .ofGroup _ => s
  | .all => s

/-- Groups that a set of 16 names. -/
def namedGroups (g : BitVec 16) : List Nat := (List.range 16).filter (fun i => g.getLsbD i)

/-- The tick by which a change must have committed (R16): 16 ticks after its issue, or after the last commit of an earlier
change whose groups overlap its own. -/
def lockLimit (s : State) (l : Lock) : Nat :=
  16 + (namedGroups l.groups).foldl (fun t i => max t (mapGet 0 s.fence.commitAt i)) l.issued

/-- A change may commit in this tick: none of those before it overlaps its groups (R17), nor does one that has committed in
this tick. -/
def lockFree (s : State) (before : List Lock) (l : Lock) : Bool :=
  before.all (fun e => decide (e.groups &&& l.groups = 0)) &&
  (decide (s.fence.lastCommit ≠ s.tick) || decide (s.fence.lastGroups &&& l.groups = 0))

/-- The first change that may commit and satisfies `p`, with those that stand before and after it. -/
def nextLock (p : Lock → Bool) (s : State) (before : List Lock) : List Lock → Option (List Lock × Lock × List Lock)
  | [] => none
  | l :: ls => if lockFree s before l && p l then some (before, l, ls) else nextLock p s (before ++ [l]) ls

/-- A change commits, the others stay. -/
def commitLock (l : Lock) (others : List Lock) (s : State) : State :=
  let same := decide (s.fence.lastCommit = s.tick)
  let s1 := lockApply l { s with
    fence := { s.fence with
      locks := others, lastCommit := s.tick
      lastGroups := if same then s.fence.lastGroups ||| l.groups else l.groups
      commitAt := (namedGroups l.groups).foldl (fun m i => mapSet 0 m i s.tick) s.fence.commitAt }
    sund := { s.sund with lockLast := word s.tick } }
  lockDone l.owner (promoteLock (noteSeal l.op s1))

/-- The oldest change that may commit does, on a tick of its own among overlapping changes. -/
def lockCommitEffect (s : State) : State :=
  match nextLock (fun _ => true) s [] s.fence.locks with
  | none => s
  | some (b, l, a) => commitLock l (b ++ a) s

/-- Changes whose limit has come commit in this tick, whoever commands it (`n` bounds the loop). -/
def commitDue : Nat → State → State
  | 0, s => s
  | n + 1, s =>
    match nextLock (fun l => decide (lockLimit s l ≤ s.tick)) s [] s.fence.locks with
    | none => s
    | some (b, l, a) => commitDue n (commitLock l (b ++ a) s)

/-- LOCKED_CHANGE_COMMIT. -/
def execLockedChangeCommit (s : State) : Result := .next (lockCommitEffect s)

/-! ## Events of contexts and groups -/

/-- INTEGRITY_FAULT (R108): the oldest fault of a unit is applied, one grant of class 4. -/
def integrityEffect (unit : Nat) (s : State) : State :=
  match s.pav.integ.find? (fun f => f.unit == unit) with
  | none => s
  | some f =>
    applyFault f.cid f.cause f.tick { s with
      pav := { s.pav with integ := s.pav.integ.erase f }, sund := { s.sund with ptr4 := (s.sund.ptr4 + 1) % 544 } }
/-- INTEGRITY_FAULT. -/
def execIntegrityFault (unit : Fin 544) (s : State) : Result := .next (integrityEffect unit.val s)

/-- A FENCED context with a destroy pending enters DESTROYING, in the tick after it was fenced (R63, Table CTX-3). -/
def fencedDestroyEffect (cid : Nat) (s : State) : State :=
  if (ctxOf s cid).state = .fenced ∧ (ctxOf s cid).destroyPending = true ∧ (ctxOf s cid).fencedAt < s.tick then destroyFenced cid s else s
/-- FENCED_TO_DESTROYING. -/
def execFencedToDestroying (cid : Fin 256) (s : State) : Result := .next (fencedDestroyEffect cid.val s)

/-- The wait of a context stands in a phase. -/
def waitsIn (s : State) (cid : Nat) (p : DrainPhase) : Bool :=
  match (ctxOf s cid).drain with
  | some k => decide (k.phase = p)
  | none => false

/-- Every count was 0 in an earlier tick of the wait: Tf has passed (Table CTX-9). -/
def wasQuiet (s : State) (cid : Nat) : Bool :=
  decide (mapGet 0 s.fence.zeroAt cid ≤ s.tick) &&
  (match (ctxOf s cid).drain with | some k => decide (k.since < s.tick) | none => false)

/-- Tf + 1, every count having been 0 in Tf: the job closes are ordered. -/
def countsZeroEffect (cid : Nat) (s : State) : State :=
  if waitsIn s cid .counts && quiet cid s && wasQuiet s cid then
    (jobsOf s cid).foldl (fun s j => beginClose j s)
      (updCtx cid (fun c => { c with drain := c.drain.map (fun k => { k with phase := .closes, since := s.tick }) }) s)
  else s
/-- DRAIN_COUNTS_ZERO. -/
def execDrainCountsZero (cid : Fin 256) (s : State) : Result := .next (countsZeroEffect cid.val s)

/-- The closes have ended and the counts are 0 again. -/
def drainOver (s : State) (cid : Nat) : Bool := waitsIn s cid .closes && (jobsOf s cid).isEmpty && quiet cid s

/-- Td of Table CTX-9. -/
def drainFinishEffect (cid : Nat) (s : State) : State := if drainOver s cid then endWait cid .ok s else s
/-- DRAIN_FINISH. -/
def execDrainFinish (cid : Fin 256) (s : State) : Result := .next (drainFinishEffect cid.val s)

/-- The limit of a wait has come. -/
def waitLate (s : State) (cid : Nat) : Bool :=
  match (ctxOf s cid).drain with
  | some k => decide (k.deadline ≤ s.tick)
  | none => false

/-- The limit of a wait: it ends as met where its conditions hold in this tick (Table CTX-11), else it is forced. -/
def limitWait (cid : Nat) (s : State) : State := if drainOver s cid then endWait cid .ok s else forceWait cid s

/-- DRAIN_TIMEOUT (R79). -/
def drainTimeoutEffect (cid : Nat) (s : State) : State :=
  if (ctxOf s cid).state = .draining ∧ waitLate s cid = true then limitWait cid (grantTimer s) else s
/-- DRAIN_TIMEOUT. -/
def execDrainTimeout (cid : Fin 256) (s : State) : Result := .next (drainTimeoutEffect cid.val s)

/-- DESTROY_WAIT_TIMEOUT (R80). -/
def destroyTimeoutEffect (cid : Nat) (s : State) : State :=
  if (ctxOf s cid).state = .destroying ∧ waitLate s cid = true then limitWait cid s else s
/-- DESTROY_WAIT_TIMEOUT. -/
def execDestroyWaitTimeout (cid : Fin 256) (s : State) : Result := .next (destroyTimeoutEffect cid.val s)

/-- Tick U+1 of a destroy. -/
def destroyZeroiseEffect (cid : Nat) (s : State) : State :=
  match (ctxOf s cid).destroy with
  | none => s
  | some d => if d.zeroised = false ∧ d.tick < s.tick then zeroiseContext cid s else s
/-- DESTROY_ZEROISE. -/
def execDestroyZeroise (cid : Fin 256) (s : State) : Result := .next (destroyZeroiseEffect cid.val s)

/-- The scrubs of a destroy have ended. -/
def scrubEnded (s : State) (d : Destroy) : Bool :=
  match d.scrub with
  | none => true
  | some n => s.fence.jobs.all (fun j => j.no != n)

/-- Us + 1: the context is FREE. -/
def destroyDoneEffect (cid : Nat) (s : State) : State :=
  match (ctxOf s cid).destroy with
  | none => s
  | some d =>
    match d.commit with
    | none => s
    | some uc => if d.us < s.tick ∧ scrubEnded s d = true then freeContext cid uc s else s
/-- DESTROY_SCRUB_DONE. -/
def execDestroyScrubDone (cid : Fin 256) (s : State) : Result := .next (destroyDoneEffect cid.val s)

/-- The cool-down of a freed CID ends (R81). -/
def cooldownEffect (cid : Nat) (s : State) : State :=
  match (ctxOf s cid).cooldown with
  | none => s
  | some t => if t ≤ s.tick then updCtx cid (fun c => { c with cooldown := none }) s else s
/-- COOLDOWN_EXPIRY. -/
def execCooldownExpiry (cid : Fin 256) (s : State) : Result := .next (cooldownEffect cid.val s)

/-- Consent ends in the tick after its expiry (R83). -/
def consentExpiryEffect (cid : Nat) (s : State) : State :=
  match (ctxOf s cid).consent with
  | none => s
  | some k => if k.expiry < s.tick then updCtx cid (fun c => { c with consent := none }) s else s
/-- CONSENT_EXPIRY. -/
def execConsentExpiry (cid : Fin 256) (s : State) : Result := .next (consentExpiryEffect cid.val s)

/-- A retired group is FREE in the tick after its change has committed and its frames have returned (R77). -/
def groupRetiredEffect (g : Nat) (s : State) : State :=
  let x := groupOf s g
  if x.state = .retiring ∧ x.invDone = true ∧ groupFrames s g = [] ∧ x.endAt < s.tick then updGroup g (fun _ => {}) s else s
/-- GROUP_RETIRED. -/
def execGroupRetired (g : Fin 256) (s : State) : Result := .next (groupRetiredEffect g.val s)

/-- A counter as the host sees it (R84). -/
def coarse (n : Nat) : Nat := n / 65536 * 65536

/-- Coarsened counters refreshed each 250,000 ticks, a consenting context's own each 2,500 (R84). -/
def refreshEffect (s : State) : State :=
  let s1 := if s.tick % 2500 = 0 then
      { s with ctxs := mapAll {} (fun cid c => if fineConsent s cid then { c with cntShown := c.cnt } else c) s.ctxs }
    else s
  if s.tick % 250000 = 0 then
    { s1 with
      host := { s1.host with devShown := mapAll 0 (fun _ n => coarse n) s1.host.devCnt }
      ctxs := mapAll {} (fun _ c => { c with covShown := mapAll 0 (fun _ n => coarse n) c.cov }) s1.ctxs }
  else s1
/-- COUNTER_REFRESH. -/
def execCounterRefresh (s : State) : Result := .next (refreshEffect s)

end Sys2Proof.Machine
end

