-- ==== Sys2Proof/Machine/Power.lean ====
section
/-! DEFINITION. Power and telemetry (17_power_and_telemetry.md): the host policy, the operator's cap, the loop of each Lodge,
the thermal limit, the refresh of the coarsened reading. -/

namespace Sys2Proof.Machine

/-- The power loop of a die. -/
def pwrOf (s : State) (d : Nat) : DiePwr := mapGet {} s.power.dies d
/-- `f` applied to a die's power loop. -/
def updPwr (d : Nat) (f : DiePwr → DiePwr) (s : State) : State :=
  { s with power := { s.power with dies := mapMod {} s.power.dies d f } }

/-! ## Policy and cap (R376, R379) -/

/-- How POWER_POLICY is judged by a context's state (R376). -/
def policyTable : CtxState → Option Status
  | .keyed => none
  | .running => none
  | .fenced => some .ctxFenced
  | .free => some .ctxGone
  | .destroying => some .ctxGone
  | .created => some .ctxState
  | .draining => some .ctxState
  | .drained => some .ctxState

/-- Weight and host limit of what runs on a die: weight 1 and no limit where no context is scheduled. -/
def dieWeight (s : State) (d : Nat) : Nat × Nat × Nat :=
  match (dieOf s d).current with
  | some r => let c := ctxOf s r.cid; (c.w, c.pMax, c.fMin)
  | none => (1, 0, 0)

/-- Sum of the weights over the RUNNING dies. -/
def weightSum (s : State) : Nat :=
  (List.range 32).foldl (fun n d => if (dieOf s d).state = .running then n + (dieWeight s d).1 else n) 0

/-- The cap share of a die. -/
def capShare (s : State) (d : Nat) : Nat := s.power.cap * (dieWeight s d).1 / max 1 (weightSum s)

/-- The budget of R375. -/
def budgetOf (s : State) (d : Nat) : Nat :=
  let p := (dieWeight s d).2.1
  if p = 0 then capShare s d else min p (capShare s d)

/-- The clip of a die at step `k` and power `p`, under the cap in force (R377): in steps, in W, and whether the cap share takes part; none
where it is not clipped. A clip lasts while the step is slower than F. `th`: the thermal bound holds the die; `q`: its loop as it
stands, with the clip that it may be in. -/
def clipOf (s : State) (d k p : Nat) (th : Bool) (q : DiePwr) : Option (Nat × Nat × Bool) :=
  let b := budgetOf s d
  let (_, pmax, f) := dieWeight s d
  let free := if q.clipped then q.unclipped else p
  let byCap := decide (b = capShare s d) && ((q.clipped && q.clipCap) || !decide (p * 100 < 16 * b * 98))
  if decide (k > f) && (th || (q.clipped && !q.clipCap) || byCap) then
    some (k - f, if byCap then min 8191 ((if pmax = 0 then free / 16 else pmax) - b) else 0, byCap)
  else none

/-- The clip of the lowest clipped die that runs a context, judged under the cap in force (Table PWR-3). -/
def ownClipped (s : State) (cid : Nat) : Option (Nat × Nat × Bool) :=
  (List.range 32).findSome? (fun d =>
    let p := pwrOf s d
    match (dieOf s d).current with
    | some r => if r.cid = cid then clipOf s d p.step p.power p.thermal p else none
    | none => none)

/-- POWER_POLICY accepted (R376, R377). -/
def powerPolicyBody (h : HostCmd) (ip : InProg) (s : State) : State :=
  let c := ctxOf s h.cid.val
  if h.gen ≠ c.gen ∨ h.gen = 0 then completeHost ip .staleGeneration [] s
  else match policyTable c.state with
    | some st => completeHost ip st [] s
    | none =>
      let s1 := updCtx h.cid.val (fun c => { c with
        w := (opByte h 20).toNat, fMin := (opByte h 21).toNat, pMax := opNat h 22 2 }) s
      match ownClipped s h.cid.val with
      | some (steps, w, _) => completeHost ip .pwrPolicyClipped (leNat 2 w ++ leNat 1 steps) s1
      | none => completeHost ip .ok [] s1
/-- POWER_POLICY. -/
def execPowerPolicy (h : HostCmd) (s : State) : Result :=
  .next (hostCommand opPowerPolicy (cidUnit h) h (powerPolicyBody h) s)

/-- POWER_CAP (R379): a value outside 500 to 7,500 W acts as the nearer limit; the reply carries the value in force. -/
def powerCapBody (watts : Nat) (p : MgmtProg) (s : State) : State :=
  let v := clamp 500 7500 watts
  replyMgmt p .ok (leNat 2 v) { s with power := { s.power with cap := v } }
/-- POWER_CAP. -/
def execPowerCap (m : MgmtHdr) (watts : Nat) (s : State) : Result :=
  .next (mgmtCommand 0x30 .none m (powerCapBody watts) s)

/-! ## The loop (R373 to R375, R377) -/

/-- P of a reading in units of 1/16 W: the regulator's output voltage times its output current (R373 reads P over AVSBus, and Table
PWR-1 gives no other reading for it; DEDUCED, log 150). -/
def readPower (r : AvsReading) : Nat := r.volt * r.mA / 62500

/-- A reading in the widths of the fields that show it (Table PWR-7), and P in its field's: a value beyond its field reads as the
greatest (log 118). -/
def cutReading (r : AvsReading) : AvsReading × Nat :=
  ({ r with margin := min 255 r.margin, tj := min 255 r.tj, volt := min 4095 r.volt, step := min 8 r.step }, min 131071 (readPower r))

/-- Step and voltage a loop sets, with its thermal flag, from the readings and the power `w` (R373). -/
def loopStep (vmax vfloor f b : Nat) (p : DiePwr) (r : AvsReading) (w : Nat) : Nat × Nat × Bool :=
  let mLo := p.mLo.toNat
  let mHi := p.mHi.toNat
  let up := fun v => min (v + 5) vmax
  let (k, v, th) :=
    if r.tj ≥ 105 then (min (p.step + 2) 8, p.volt, true)
    else if w > 16 * b then (min (p.step + 1) 8, p.volt, p.thermal)
    else if p.step > f ∧ w * 100 < 16 * b * 98 ∧ r.margin ≥ mHi then (p.step - 1, up p.volt, p.thermal)
    else if p.step < f then (min (p.step + 1) 8, p.volt, p.thermal)
    else (p.step, p.volt, p.thermal)
  let v2 := if r.margin < mLo ∨ r.droops > 0 then up v
    else if r.margin > mHi ∧ k = p.step then max (v - 5) vfloor else v
  (k, v2, th && decide (r.tj ≥ 103))

/-- The loop's first pass on a RUNNING die starts at START_STEP with the regulator's default voltage (R374). -/
def startLoop (s : State) (r : AvsReading) (p : DiePwr) : DiePwr :=
  if p.loops then p else { p with loops := true, step := if p.held then p.step else min 8 s.power.start.toNat, volt := r.volt }

/-- A transfer failed three times (R374): step 8, the voltage held, AVS_ERR, a TIMEOUT record. A die that is clipped stays so, by the
steps that it is now slower than F. -/
def avsFailed (d : Nat) (s : State) : State :=
  let f := (dieWeight s d).2.2
  emit (.avs d 1 8) <| postFault .timeout 1 d (leNat 1 d) (updPwr d (fun p => { p with
    step := 8, held := true, loopAt := some s.tick, errAvs := raise s.tick p.errAvs
    clipped := p.clipped && decide (f < 8), clipSteps := if p.clipped then 8 - f else p.clipSteps })
    { s with power := { s.power with avsErr := raise s.tick s.power.avsErr } })

/-- Package total of the last loops in units of 1/16 W. -/
def packagePower (s : State) : Nat :=
  (List.range 32).foldl (fun n d => if (dieOf s d).state = .running then n + (pwrOf s d).power else n) 0

/-- The writes of a loop in order (R373): the step on rail 1 before the voltage where it is slower than the one in force, after it where
it is faster. -/
def loopWrites (d k v inForce : Nat) : List Out :=
  (if k > inForce then [.avs d 1 k] else []) ++ [.avs d 0 v] ++ (if k < inForce then [.avs d 1 k] else [])

/-- One loop of a die (R373), whose power is `w`. -/
def runLoop (d : Nat) (r : AvsReading) (w : Nat) (s : State) : State :=
  let p := startLoop s r (pwrOf s d)
  let b := budgetOf s d
  let (k, v, th) := loopStep s.power.vmax.toNat s.power.vfloor.toNat (dieWeight s d).2.2 b p r w
  let amount := clipOf s d k w th p
  let clip := amount.isSome
  let hot := if r.tj ≥ 105 ∧ p.step = 8 then p.hot + 1 else 0
  let s1 := updPwr d (fun _ => { p with
    step := k, volt := v, tj := r.tj, margin := r.margin, budget := b, power := w, thermal := th, hot := hot
    loopAt := some s.tick, clipped := clip, unclipped := if p.clipped then p.unclipped else w
    clipSteps := (amount.getD (0, 0, false)).1, clipW := (amount.getD (0, 0, false)).2.1, clipCap := (amount.getD (0, 0, false)).2.2
    sum := p.sum + w, count := p.count + 1
    errThermal := if r.tj ≥ 105 && !p.thermal then raise s.tick p.errThermal else p.errThermal
    errDroop := if r.droops > 0 then raise s.tick p.errDroop else p.errDroop }) s
  let s2 := { s1 with power := { s1.power with
    clipped := if clip && !p.clipped then raise s.tick s1.power.clipped else s1.power.clipped
    cntClip := if clip && !p.clipped then satAdd s1.power.cntClip 1 else s1.power.cntClip
    thermal := if r.tj ≥ 105 && !p.thermal then raise s.tick s1.power.thermal else s1.power.thermal
    sum := s1.power.sum + packagePower s1, loops := s1.power.loops + 1
    opSum := s1.power.opSum + packagePower s1, opLoops := s1.power.opLoops + 1 } }
  { s2 with outs := s2.outs ++ loopWrites d k v r.step }

/-- The loop of a die is due: 2,500 ticks after its last one (R373). -/
def loopDue (s : State) (d : Nat) : Bool :=
  match (pwrOf s d).loopAt with
  | some t => decide (t + 2500 ≤ s.tick)
  | none => true

/-- POWER_LOOP: on a RUNNING die; a supply alarm holds the last step and voltage (R381, R413). -/
def powerLoopEffect (d : Nat) (r : AvsReading) (s : State) : State :=
  if (dieOf s d).state ≠ .running ∨ s.pav.supply.isSome ∨ loopDue s d = false then s
  else if !r.acked then avsFailed d s
  else runLoop d (cutReading r).1 (cutReading r).2 s
/-- POWER_LOOP. -/
def execPowerLoop (d : Fin 32) (r : AvsReading) (s : State) : Result := .next (powerLoopEffect d.val r s)

/-- 250 consecutive loops at 105 °C at step 8 (R378): the event, and a partial reset of the die. -/
def thermalLimitEffect (d : Nat) (s : State) : State :=
  if (pwrOf s d).hot ≥ 250 ∧ (dieOf s d).state = .running then
    let s1 := postFaultEvent .pwrThermalLimit 1 d [] (updPwr d (fun p => { p with hot := 0 }) s)
    { s1 with pav := { s1.pav with dieCauses := s1.pav.dieCauses ++ [(d, .thermal)] } }
  else s
/-- THERMAL_LIMIT. -/
def execThermalLimit (d : Fin 32) (s : State) : Result := .next (thermalLimitEffect d.val s)

/-- Dies that are clipped now. -/
def clippedDies (s : State) : Nat := (s.power.dies.filter (fun e => e.2.clipped)).length

/-- The operator's reading of a die at the end of its period: the mean, rounded down to 8 W (Table PWR-2). -/
def showDie (p : DiePwr) : DiePwr := { p with shown := p.sum / max 1 p.count / 128 * 8, sum := 0, count := 0 }

/-- The readings at the end of their periods (R380, Table PWR-2), each a mean rounded down: every 250,000 ticks the operator's of
the package, to 1 W, with cap and clipped dies; every 2,500,000 the host's and the operator's of each die, to 8 W. -/
def telemetryEffect (s : State) : State :=
  let s1 := if s.tick % 250000 = 0 then
      { s with power := { s.power with
        opW := s.power.opSum / max 1 s.power.opLoops / 16, opCap := s.power.cap, opClipped := clippedDies s, opSum := 0, opLoops := 0 } }
    else s
  if s.tick % 2500000 = 0 then
    { s1 with power := { s1.power with
      hostW := min 8191 (s1.power.sum / max 1 s1.power.loops / 128) * 8, sum := 0, loops := 0
      dies := mapAll {} (fun _ p => showDie p) s1.power.dies } }
  else s1
/-- POWER_TELEMETRY_REFRESH. -/
def execPowerTelemetryRefresh (s : State) : Result := .next (telemetryEffect s)

end Sys2Proof.Machine
end

