-- ==== Sys2Proof/Machine/Lodge.lean ====
section
/-! DEFINITION. The commands of the Lodges and dies: service requests (16_spill_queues.md R359), the context switch
(03_tenant_contexts.md R71, R72, R425), partial die reset and what follows it (19_faults_and_recovery.md R411, R414). -/

namespace Sys2Proof.Machine

/-! ## Leaving a die -/

/-- A virtual die has left its die with its state in the save area; the last one of a pending empty map returns the context
to KEYED (R70). -/
def savedOut (cid v : Nat) (s : State) : State :=
  let c := ctxOf s cid
  let left := c.saved.filter (· != v)
  let s1 := updCtx cid (fun c => { c with saved := left }) s
  match c.schedWait with
  | none => s1
  | some w =>
    if left.isEmpty then
      finish w .ok [] (updCtx cid (fun c => { c with schedWait := none, state := .keyed }) s1)
    else s1

/-- A resident whose cores do not run leaves its die: nothing is to be saved. -/
def leaveIdle (d : Nat) (r : Resident) (s : State) : State :=
  raiseClear d true (savedOut r.cid r.vdie (settleHome r.cid d s))

/-- The die gives up its current resident: by pre-emption where its cores run. -/
def giveUp (d : Nat) (r : Resident) (s : State) : State :=
  if (dieOf s d).coresRun then requestPreempt d s else leaveIdle d r s

/-- A resident is among those of its die. -/
def isResident (s : State) (d : Nat) (r : Resident) : Bool := (dieOf s d).residents.any (sameResident r)

/-- A die follows its set of residents: an idle one brings the next in, a resident no longer in the set leaves. -/
def followSet (d : Nat) (s : State) : State :=
  let x := dieOf s d
  if x.step ≠ .idle then s
  else match x.current with
    | none => startNext d s
    | some r => if isResident s d r then s else giveUp d r s

/-! ## Service requests (R359, Table SPLQ-10) -/

/-- SCHEDULE: the set of residents is replaced. -/
def takeSchedule (d : Nat) (es : List Bytes) (sem : Nat) (s : State) : State :=
  answerSvc d sem .ok (followSet d (updDie d (fun x => { x with residents := svcResidents es }) s))
/-- SCHEDULE. -/
def execSchedule (die : Fin 32) (s : State) : Result :=
  .next (lodgeTake die.val svcSchedule (takeSchedule die.val) s)

/-- CID a request names. -/
def svcCid (es : List Bytes) : Nat := leAt (es.headD []) 2 1

/-- DRAIN (Table CTX-9). -/
def takeDrain (d : Nat) (es : List Bytes) (sem : Nat) (s : State) : State := evict d (svcCid es) true sem s
/-- DRAIN. -/
def execDrain (die : Fin 32) (s : State) : Result := .next (lodgeTake die.val svcDrain (takeDrain die.val) s)

/-- FENCE (R63): as DRAIN, without the judgement of R352. -/
def takeFence (d : Nat) (es : List Bytes) (sem : Nat) (s : State) : State := evict d (svcCid es) false sem s
/-- FENCE. -/
def execFence (die : Fin 32) (s : State) : Result := .next (lodgeTake die.val svcFence (takeFence die.val) s)

/-- DESTROY (Table CTX-10, U+1): the waits of the context's cores on the die are released, its set is unbound. -/
def takeDestroy (d : Nat) (es : List Bytes) (sem : Nat) (s : State) : State :=
  let cid := svcCid es
  let s1 := releaseWaits (fun c w => c == cid && ofDie d w) .ctxGone s
  answerSvc d sem .ok (if (ctxOf s1 cid).state = .destroying then dropSet cid s1 else s1)
/-- DESTROY. -/
def execDestroy (die : Fin 32) (s : State) : Result := .next (lodgeTake die.val svcDestroy (takeDestroy die.val) s)

/-- RELOAD (R228): answered when the digest is there. -/
def takeReload (d : Nat) (_es : List Bytes) (sem : Nat) (s : State) : State :=
  updDie d (fun x => { x with reload := some s.tick, reloadAns := some sem }) s
/-- RELOAD. -/
def execReload (die : Fin 32) (s : State) : Result := .next (lodgeTake die.val svcReload (takeReload die.val) s)

/-! ## The switch (Table CTX-6) -/

/-- The resident that follows the one on the die. -/
def nextAfter (s : State) (d : Nat) (r : Resident) : Option Resident :=
  nextResident (updDie d (fun x => { x with last := some (r.cid, r.vdie) }) s) d

/-- A slice that starts now. -/
def startSlice (d : Nat) (r : Resident) (s : State) : State := updDie d (fun x => { x with sliceEnd := s.tick + 250 * r.slice }) s

/-- The slice of the resident on a die has ended (R71): a lone resident goes on. -/
def sliceEffect (d : Nat) (s : State) : State :=
  let x := dieOf s d
  match x.current with
  | none => s
  | some r =>
    if x.step ≠ .idle ∨ s.tick < x.sliceEnd then s
    else match nextAfter s d r with
      | none => s
      | some n => if sameResident n r && x.coresRun then startSlice d r s else giveUp d r s
/-- SLICE_EXPIRY. -/
def execSliceExpiry (die : Fin 32) (s : State) : Result := .next (sliceEffect die.val s)

/-- A pre-emption for a switch is in progress. -/
def preempting (x : Die) : Bool :=
  match x.step with
  | .preempting _ => true
  | .awaiting => false
  | .idle => false
  | .clearing _ _ => false
  | .stamping => false
  | .evicting _ _ _ _ => false
  | .unstamping _ _ => false

/-- Deadline of the pre-emption or clear in progress. -/
def stepDeadline (x : Die) : Nat :=
  match x.step with
  | .preempting t => t
  | .clearing t _ => t
  | .evicting t _ _ _ => t
  | .awaiting => 0
  | .idle => 0
  | .stamping => 0
  | .unstamping _ _ => 0

/-- A cause of a partial reset sampled (R411). -/
def causeDie (d : Nat) (c : DieCause) (s : State) : State :=
  { s with pav := { s.pav with dieCauses := s.pav.dieCauses ++ [(d, c)] } }

/-- A cause of a die waits for its reset. -/
def causePending (s : State) (d : Nat) (c : DieCause) : Bool := s.pav.dieCauses.contains (d, c)

/-- Steps 2 to 4 of Table CTX-6, once every receipt of the outgoing cores has been answered (R196). -/
def saveCores (d : Nat) (r : Resident) (s : State) : State :=
  let last := (!isResident s d r || (ctxOf s r.cid).schedWait.isSome) && decide ((ctxOf s r.cid).state = .running)
  leaveIdle d r (writeHeaders d r (if last then judgeLeftovers d r.cid s else s))

/-- The cores of a resident have reached their switch point: the Lodge goes on, or waits while receipts are owed an answer, a
wait that has no bound (R196). -/
def reachSwitch (d : Nat) (r : Resident) (s : State) : State :=
  if answersOwed s d r.cid then updDie d (fun x => { x with step := .awaiting }) s else saveCores d r s

/-- The cores have reached their switch point, in time for the bound of step 1: they have saved, or leave without saving. -/
def saveEffect (d : Nat) (s : State) : State :=
  let x := dieOf s d
  match x.current with
  | none => s
  | some r =>
    if causePending s d .preemptLate then s
    else match x.step with
      | .preempting t => if t < s.tick then s else reachSwitch d r s
      | .awaiting => reachSwitch d r s
      | .evicting t cid judge ans => if t < s.tick then s else evicted d cid judge ans s
      | .idle => s
      | .clearing _ _ => s
      | .stamping => s
      | .unstamping _ _ => s
/-- SAVE_COMPLETE. -/
def execSaveComplete (die : Fin 32) (s : State) : Result := .next (saveEffect die.val s)

/-- A Lodge waits at the switch point for answers (R196). -/
def awaits (x : Die) : Bool := decide (x.step = .awaiting)

/-- The Lodges that wait for answers go on where every one has come. -/
def settleSwitches (s : State) : State :=
  (s.dies.filter (fun e => awaits e.2)).foldl (fun s e => saveEffect e.1 s) s

/-- ctx_clear is high for a switch. -/
def clearsFor (x : Die) : Option Bool :=
  match x.step with
  | .clearing _ sw => some sw
  | .awaiting => none
  | .idle => none
  | .preempting _ => none
  | .stamping => none
  | .evicting _ _ _ _ => none
  | .unstamping _ _ => none

/-- ctx_clear falls and nothing is resident. -/
def endClear (d : Nat) (cidOut : Nat) (s : State) : State :=
  updDie d (fun x => { x with
    ctxClear := false, step := .idle, current := none, coresRun := false
    last := match x.current with | some r => some (r.cid, r.vdie) | none => x.last
    cidOut := BitVec.ofNat 8 cidOut }) s

/-- A switch that brings nobody in is complete. -/
def emptySwitch (d : Nat) (s : State) : State :=
  if (dieOf s d).current.isNone then updDie d (fun x => { x with cidIn := 0, switches := x.switches + 1 }) s else s

/-- ctx_clear_ack (R38), within its 2 µs: the die is empty, and the next resident's stamps are written. A later one finds the
die's step failed and changes nothing. -/
def clearAckEffect (d : Nat) (s : State) : State :=
  let x := dieOf s d
  match clearsFor x with
  | none => s
  | some sw =>
    if stepDeadline x < s.tick ∨ causePending s d .clearLate = true then s
    else
      let out := match x.current, sw with | some r, true => r.cid | _, _ => 0
      let s1 := startNext d (endClear d out s)
      kickDies (if sw then emptySwitch d s1 else s1)
/-- CTX_CLEAR_ACK. -/
def execCtxClearAck (die : Fin 32) (s : State) : Result := .next (clearAckEffect die.val s)

/-- A late Lodge step: TIMEOUT with the die index, and the die's cause. -/
def lateStep (d : Nat) (c : DieCause) (s : State) : State := causeDie d c (postFault .timeout 1 d (leNat 1 d) s)

/-- ctx_clear_ack missed its bound of 2 µs (R38). -/
def clearTimeoutEffect (d : Nat) (s : State) : State :=
  let x := dieOf s d
  if (clearsFor x).isSome && decide (stepDeadline x ≤ s.tick) && !causePending s d .clearLate then
    lateStep d .clearLate (updDie d (fun x => { x with clearLate := raise s.tick x.clearLate }) s)
  else s
/-- CTX_CLEAR_TIMEOUT. -/
def execCtxClearTimeout (die : Fin 32) (s : State) : Result := .next (clearTimeoutEffect die.val s)

/-- The bound of step 1 counts on a die: a pre-emption runs, and its cores have not reached their switch point (R72, R196). -/
def preemptBounded (s : State) (d : Nat) : Bool :=
  match (dieOf s d).step with
  | .preempting _ => true
  | .evicting _ _ _ _ => true
  | .awaiting => false
  | .idle => false
  | .clearing _ _ => false
  | .stamping => false
  | .unstamping _ _ => false

/-- The cores missed the pre-emption bound (R72). -/
def preemptTimeoutEffect (d : Nat) (s : State) : State :=
  let x := dieOf s d
  if preemptBounded s d && decide (stepDeadline x ≤ s.tick) && !causePending s d .preemptLate then
    lateStep d .preemptLate (updDie d (fun x => { x with preemptLate := raise s.tick x.preemptLate }) s)
  else s
/-- PREEMPT_TIMEOUT. -/
def execPreemptTimeout (die : Fin 32) (s : State) : Result := .next (preemptTimeoutEffect die.val s)

/-- A core slot of a resident has no place (R425). -/
def slotMissing (s : State) (d : Nat) (r : Resident) : Bool :=
  (List.range 320).any (fun k => (slotPlace s d r.cid r.vdie k).isNone)

/-- Steps 6 and 7 of Table CTX-6: the set is bound (R341), the core semaphores are restored, the cores run. -/
def restoreCores (d : Nat) (r : Resident) (hs : List SlotHeader) (s : State) : State :=
  let vals := restoredSems s d r hs
  let miss := slotMissing s d r
  let s1 := setCoreSems d vals (bindSet r.cid d s)
  followSet d (startSlice d r (updDie d (fun x => { x with
    step := .idle, stampGap := false, coresRun := true, cidIn := BitVec.ofNat 8 r.cid, switches := x.switches + 1
    saveShort := if miss then raise s.tick x.saveShort else x.saveShort }) s1))

/-- A restore read was refused (R72): the die stays idle for the rest of the slice. -/
def restoreRefused (d : Nat) (r : Resident) (s : State) : State :=
  followSet d (startSlice d r (updDie d (fun x => { x with step := .idle, stampGap := false, coresRun := false }) s))

/-- A restore read failed its tag or was flagged: RESTORE_FAIL; the incoming context is fenced by class 4 (R72, R108). -/
def restoreFailed (d : Nat) (r : Resident) (s : State) : State :=
  restoreRefused d r (updDie d (fun x => { x with restoreFail := raise s.tick x.restoreFail }) s)

/-- Step 6 of Table CTX-6, by what the reads of the slot headers brought. -/
def restoreBy (d : Nat) (r : Resident) (x : LineReads) (hs : List SlotHeader) (s : State) : State :=
  let rs := headerReads s d r
  let o := readsOutcome s rs x
  let s1 := readLines rs o s
  match o.status with
  | .ok => restoreCores d r hs s1
  | .reserved => restoreRefused d r s1
  | .refused => restoreRefused d r s1
  | .fenced => restoreRefused d r s1
  | .noKey => restoreRefused d r s1
  | .tagFail => restoreFailed d r s1
  | .uerr => restoreFailed d r s1

/-- ldg_stamp_done on every core (R39): after the stamps of the incoming resident, with what the reads of the slot headers
brought; or after the stamps of an evicted context have been cleared. -/
def stampDoneEffect (d : Nat) (rd : LineReads) (hs : List SlotHeader) (s : State) : State :=
  let x := dieOf s d
  match x.step, x.current with
  | .stamping, some r => restoreBy d r rd hs s
  | .stamping, none => s
  | .unstamping cid ans, _ => endEvict d cid ans s
  | .idle, _ => s
  | .preempting _, _ => s
  | .awaiting, _ => s
  | .clearing _ _, _ => s
  | .evicting _ _ _ _, _ => s
/-- STAMP_DONE. -/
def execStampDone (die : Fin 32) (reads : LineReads) (hs : List SlotHeader) (s : State) : Result :=
  .next (stampDoneEffect die.val reads hs s)

/-! ## Partial die reset (R411, Table FAULT-5) -/

/-- Every context that a drain waits for on a die has its report; every map loses the die. -/
def forgetDie (d : Nat) (s : State) : State :=
  let cids := s.ctxs.map (·.1)
  cids.foldl (fun s c => reportDrained d c
    (updCtx c (fun x => { x with map := x.map.map (fun m => if m = some d then none else m) }) s)) s

/-- A drain or fence request that a die reset overtakes is answered no more: the next held request is posted (log 87). -/
def dropRequest (d : Nat) (s : State) : State :=
  match (dieOf s d).step with
  | .evicting _ _ _ _ => nextRequest d s
  | .unstamping _ _ => nextRequest d s
  | .idle => s
  | .preempting _ => s
  | .awaiting => s
  | .clearing _ _ => s
  | .stamping => s

/-- What a reset of the Lodge leaves of its die (R407): the state, the generation and the reload, which the Pavilion holds, and
its requests. The Lodge's registers are at their reset values. -/
def lodgeReset (st : DieState) (x : Die) : Die :=
  { state := st, gen := x.gen, heartbeat := x.heartbeat, reload := x.reload, reloadAns := x.reloadAns, asking := x.asking, backlog := x.backlog }

/-- What it leaves of the die's power loop: what the power manager has added up (R380). -/
def pwrReset (p : DiePwr) : DiePwr := { sum := p.sum, count := p.count, shown := p.shown }

/-- The die held in reset (Table FAULT-5, tick T + 1; R407): its Lodge restarts, its cores' waits are cancelled, SERVICE returns
to 0, its checks end. The service queue and the Pavilion's backlog stay. -/
def holdDie (d : Nat) (st : DieState) (s : State) : State :=
  let s1 := updDie d (lodgeReset st) (dropRequest d s)
  let s2 := cancelWaits (ofDie d) (updSlice d (fun x => { x with service := false }) s1)
  updPwr d pwrReset (dropChecks (fun e _ => e == d) (forgetDie d s2))

/-- A die is reset (Table FAULT-5, tick T): its generation advances, the resident context becomes FENCED with CAUSE 4, the reload
starts; the die is held from the next tick on. -/
def resetDie (d : Nat) (s : State) : State :=
  let fenced := match (dieOf s d).current with
    | some r => applyFault r.cid 4 s.tick s
    | none => s
  updDie d (fun x => { x with state := .resetting, gen := genNext x.gen, mr4 := false, reload := some s.tick, holdDue := some s.tick }) fenced

/-- Tick T + 1 of the reset of a die, with the SCHEDULE request for its restarted Lodge (log 87). -/
def holdReset (d : Nat) (s : State) : State := scheduleDie d (kickDies (holdDie d .resetting s))

/-- The reset of a die has its tick T + 1 still to come. -/
def holdsDue (x : Die) : Bool := x.holdDue.isSome

/-- The dies whose reset was applied in the tick before are held. -/
def holdResets (s : State) : State := (s.dies.filter (fun e => holdsDue e.2)).foldl (fun s e => holdReset e.1 s) s

/-- A cause of OP 1 that finds its die RESETTING is logged; every other cause has posted its record already (R411; the status is
the model's choice, log 142). -/
def logCause (d : Nat) (s : State) : State :=
  if causePending s d .firmware then postFault .belvDieResetting 1 d (leNat 1 d) s else s

/-- PARTIAL_RESET: the causes of a die applied together; one that finds the die RESETTING is logged only, and one that finds
it HELD behind the closed gate has no effect. -/
def partialResetEffect (d : Nat) (s : State) : State :=
  if s.pav.dieCauses.any (fun c => c.1 == d) && s.pav.pendingReset.isNone then
    let s0 := if (dieOf s d).state = .resetting then logCause d s else s
    let s1 := { s0 with pav := { s0.pav with dieCauses := s0.pav.dieCauses.filter (fun c => c.1 != d) } }
    if (dieOf s d).state = .resetting ∨ gateOpen s 7 = false then s1 else resetDie d s1
  else s
/-- PARTIAL_RESET. -/
def execPartialReset (die : Fin 32) (s : State) : Result := .next (partialResetEffect die.val s)

/-- The digest of die firmware that MR4 was extended with at boot. -/
def dieFirmwareDigest (s : State) : Bytes :=
  match partOfType (slotHeader s (s.boot.slot.getD 0)) 3 with
  | some p => p.digest
  | none => []

/-- A RELOAD request answered. -/
def answerReload (d : Nat) (st : Status) (s : State) : State :=
  match (dieOf s d).reloadAns with
  | none => s
  | some sem => answerSvc d sem st (updDie d (fun x => { x with reloadAns := none }) s)

/-- The digest equals MR4: the die runs. -/
def dieUp (d : Nat) (s : State) : State :=
  updDie d (fun x => { x with state := .running, mr4 := true, rstN := true, heartbeat := s.tick, reload := none, releasedAt := none }) s

/-- The reload of a die that is RESETTING can end in this tick: after T + 1, at most at T + 1,250,001 (Table FAULT-5). -/
def reloadInTime (s : State) (d : Nat) : Bool :=
  let x := dieOf s d
  match x.reload with
  | none => false
  | some t => decide (x.state = .running) || (decide (x.state = .resetting) && x.holdDue.isNone && decide (s.tick ≤ t + 1250001))

/-- Bytes of the Pavilion's copy of the die firmware: its resident bytes with those that control firmware has read and found good
(R308); none while that check is still to end. -/
def dieFirmwareCopy (s : State) : Option Bytes :=
  match (partsOf (slotHeader s (s.boot.slot.getD 0))).zipIdx.find? (fun x => decide (x.1.type = 3)) with
  | none => none
  | some (p, i) =>
    let resident := mapGet [] s.boot.images 3
    if p.resident = p.length then some resident else (s.boot.copies.find? (fun x => x.1 == i)).map (fun x => resident ++ x.2)

/-- The reloaded die firmware has been hashed by a general digest engine (R228): `image` is what the Lodge has read of the Pavilion's
verified copy, byte for byte, and the digest decides. -/
def reloadDoneEffect (d : Nat) (image : Bytes) (s : State) : State :=
  let x := dieOf s d
  if reloadInTime s d = false ∨ (dieFirmwareCopy s).map (·.length) ≠ some image.length then s
  else if sha384 image = dieFirmwareDigest s then
    let s1 := if x.state = .resetting then dieUp d s else updDie d (fun x => { x with mr4 := true, reload := none }) s
    kickDies (answerReload d .ok s1)
  else
    let s1 := match x.current with
      | some r => applyFault r.cid 4 s.tick s
      | none => s
    holdDie d .failed (answerReload d .dgstCompareFail (updDie d (fun x => { x with reload := none }) s1))
/-- DIE_RELOAD_DONE. -/
def execDieReloadDone (die : Fin 32) (image : Bytes) (s : State) : Result := .next (reloadDoneEffect die.val image s)

/-- The die is not back in time (Table FAULT-5). -/
def reloadTimeoutEffect (d : Nat) (s : State) : State :=
  let x := dieOf s d
  match x.reload with
  | none => s
  | some t =>
    if x.state = .resetting ∧ t + 1250002 ≤ s.tick then
      updDie d (fun x => { x with state := .failed, rstN := false, reload := none }) s
    else s
/-- DIE_RELOAD_TIMEOUT. -/
def execDieReloadTimeout (die : Fin 32) (s : State) : Result := .next (reloadTimeoutEffect die.val s)

/-- No Lodge has reported ready within 5 ms of the initial release (Table ARCH-7). -/
def lodgeTimeoutEffect (d : Nat) (s : State) : State :=
  let x := dieOf s d
  match x.releasedAt with
  | none => s
  | some t =>
    if x.state = .held ∧ t + 1250000 ≤ s.tick then updDie d (fun x => { x with state := .failed, rstN := false, releasedAt := none }) s
    else s
/-- LODGE_READY_TIMEOUT. -/
def execLodgeReadyTimeout (die : Fin 32) (s : State) : Result := .next (lodgeTimeoutEffect die.val s)

/-! ## Heartbeats and requests (R411, R414) -/

/-- A period of LODGE_TICKS has passed without a heartbeat: WDOG, TIMEOUT, the die's cause. -/
def heartbeatEffect (d : Nat) (s : State) : State :=
  let x := dieOf s d
  let n := s.pav.wdogTicks.toNat
  if x.state = .running ∧ n ≠ 0 ∧ x.heartbeat + 2500 * n ≤ s.tick then
    let s1 := updDie d (fun x => { x with heartbeat := s.tick }) s
    lateStep d .heartbeat { s1 with pav := { s1.pav with stWdog := raise s.tick s1.pav.stWdog } }
  else s
/-- HEARTBEAT_MISSED. -/
def execHeartbeatMissed (die : Fin 32) (s : State) : Result := .next (heartbeatEffect die.val s)

/-- A beat: the period restarts, and the first after the release reports the Lodge ready (Table ARCH-7). -/
def beatEffect (d : Nat) (v : Word) (s : State) : State :=
  if v.getLsbD 0 then
    let s1 := updDie d (fun x => { x with heartbeat := s.tick }) s
    if (dieOf s d).state = .held ∧ (dieOf s d).releasedAt.isSome then dieUp d s1 else s1
  else s
/-- LDG_HEARTBEAT. -/
def execLdgHeartbeat (m : Fin 39) (die : Fin 32) (v : Word) (s : State) : Result :=
  .next (guardWrite m.val (0x150300 + 0x1000 * die.val) (beatEffect die.val v) s)

/-- A block reset raised, its source sampled in tick `t`; an earlier one that waits stands. -/
def raiseBlock (t : Nat) (c : ResetCause) (s : State) : State :=
  if s.pav.pendingReset.isSome then s
  else { s with pav := { s.pav with pendingReset := some c, resetAt := t } }

/-- OP of PAV_RESET_CMD. -/
def resetOp (v : Word) : Nat := v.toNat % 4
/-- DIE of PAV_RESET_CMD. -/
def resetDieOf (v : Word) : Nat := bits v.toNat 8 5

/-- OP 2 of PAV_RESET_CMD. -/
def blockRequest (v : Word) (s : State) : State := if resetOp v = 2 then raiseBlock s.tick .firmware s else s
/-- BLOCK_RESET_REQUEST. -/
def execBlockResetRequest (m : Fin 39) (v : Word) (s : State) : Result := .next (guardWrite m.val 0x14 (blockRequest v) s)

/-- OP 1 of PAV_RESET_CMD. -/
def dieRequest (v : Word) (s : State) : State := if resetOp v = 1 then causeDie (resetDieOf v) .firmware s else s
/-- DIE_RESET_REQUEST. -/
def execDieResetRequest (m : Fin 39) (v : Word) (s : State) : Result := .next (guardWrite m.val 0x14 (dieRequest v) s)

end Sys2Proof.Machine
end

