-- ==== Sys2Proof/Machine/Clock.lean ====
section
/-! DEFINITION. What the passing of one tick does when no command waits: the changes whose limit has come commit, the tick
count advances, and what control firmware and the engines owe to the new tick is done. -/

namespace Sys2Proof.Machine

/-- The tick count after this tick, 64 bits wide (R23). -/
def advance (s : State) : State := { s with tick := (s.tick + 1) % 2 ^ 64 }

/-- The thresholds met in the tick before are applied at the start of the tick (R137). -/
def applyThresholds (s : State) : State :=
  let s1 := (s.link.jobs.filter (fun e => e.2.badDue.isSome)).foldl (fun s e => jobThresholdEffect e.1 s) s
  (s1.link.engines.filter (fun e => e.2.hopDue.isSome)).foldl (fun s e => hopThresholdEffect e.1 s) s1

/-- The DRAIN requests of the drains taken in the tick before are posted (Table CTX-9, tick T + 1). -/
def postDrains (s : State) : State :=
  (s.ctxs.filter (fun e => drainUnposted e.2)).foldl (fun s e => postDrain e.1 s) s

/-- Nothing of the block is due at the next tick: no locked change awaits commit, no drain has requests to post, nothing is
queued at the scrub engine or waits at an internal port, no threshold has been met, no die is to be held, no Lodge waits for
answers. -/
def calm (s : State) : Bool :=
  s.fence.locks.isEmpty && s.fence.scrub.isEmpty && s.ctxs.all (fun e => !drainUnposted e.2) &&
  s.fence.chans.all (fun e => e.2.intQ.isEmpty) && s.link.jobs.all (fun e => e.2.badDue.isNone) &&
  s.link.engines.all (fun e => e.2.hopDue.isNone) && s.dies.all (fun e => !holdsDue e.2 && !awaits e.2)

/-- One tick of STICK (log 1). -/
def idleTick (s : State) : State :=
  scrubTick (settleSwitches (postDrains (holdResets (applyThresholds (advance (commitDue 8 s))))))

end Sys2Proof.Machine
end

