-- ==== Sys2Proof/Machine/Update.lean ====
section
/-! DEFINITION. The shared operations of firmware update (14_update_and_bandstand.md): settings blocks, confirmation, delta
images, refusals. -/

namespace Sys2Proof.Machine

/-! ## Settings blocks -/

/-- Offset, length and digest that a SETTINGS record names. -/
def settingsNamed (r : LogRec) : Nat × Nat := (leAt r.payload 0 4, leAt r.payload 4 4)

/-- Blocks of the settings region that records in force name: that of SETTINGS, and the new-format one of ACTIVATION. -/
def settingsUsed (s : State) : List (Nat × Nat) :=
  (match inForce s 7 (fun _ => true) with | some r => [settingsNamed r] | none => []) ++
  [0, 1].flatMap (fun n => match inForce s 5 (fun r => decide (leAt r.payload 0 1 = n)) with
    | some r => [(leAt r.payload 64 4, leAt r.payload 68 4)]
    | none => [])

/-- Offset of the lowest free 256 KiB unit of the settings region (log 40). -/
def settingsFree (s : State) : Nat :=
  0x40000 * ((leastBelow 16 (fun i => (settingsUsed s).all (fun (o, n) =>
    decide (o + n ≤ 0x40000 * i) || decide (0x40000 * i + 0x40000 ≤ o)))).getD 15)

/-- A settings block written to free space and named by a SETTINGS record (R320). -/
def writeSettings (b : Bytes) (s : State) : State :=
  let o := settingsFree s
  appendRecord 7 (leNat 4 o ++ leNat 4 b.length ++ sha384 b)
    (flashWrite (settingsBase + o) b (flashErase (settingsBase + o) 0x40000 s))

/-! ## Confirmation (R328, R329) -/

/-- The ACTIVATION record in force that names a slot with its sequence number. -/
def activationOf (s : State) (n seq : Nat) : Option LogRec :=
  match inForce s 5 (fun r => decide (leAt r.payload 0 1 = n)) with
  | some r => if leAt r.payload 4 8 = seq then some r else none
  | none => none

/-- The supplies as a command of the security monitor itself finds them: inside their windows (log 41). -/
def goodSupplies : Supplies := ⟨1800, 1000⟩

/-- Burns that take counter 0 from its value to `t`. -/
def floorBurns (s : State) (t : Nat) : List (Nat × BitVec 40) :=
  ((List.range t).filter (fun b => decide (thermoNow s 0 ≤ b))).flatMap (fun b =>
    (List.range 3).map (fun p => (8 + 4 * p + b / 32, 1#40 <<< (b % 32))))

/-- OTP counter 0 advanced until it equals floor(security version / 512), where the controller is free and the counter may
still advance. -/
def raiseFloor (svn : Nat) (s : State) : State :=
  let t := min 128 (svn / 512)
  if t ≤ thermoNow s 0 ∨ s.otp.cmd.isSome ∨ s.otp.repairAt.isSome ∨ gateOpen s 5 = false ∨ arrayLocked s 63 = true ∨ s.otp.state ≥ 4 then s
  else beginBurn (floorBurns s t) goodSupplies .command .none s

/-- SLOT_STATE RETIRED for a slot, with what its record in force names. -/
def retireSlot (n : Nat) (s : State) : State :=
  match slotRecord s n with
  | some (_, seq, dg) => markSlot n 3 seq dg s
  | none => markSlot n 3 0 [] s

/-- A slot is RETIRED. -/
def isRetired (s : State) (n : Nat) : Bool :=
  match slotRecord s n with
  | some (st, _, _) => decide (st = 3)
  | none => false

/-- A record of `kind` stands in the log after the CONFIRM record in force of a slot with its sequence number; a record of a later
confirmation or update stands there too, for each follows the records of this one. -/
def recordedSince (s : State) (n seq kind : Nat) (p : LogRec → Bool) : Bool :=
  (s.logv.recs.reverse.takeWhile (fun r => !(decide (r.kind = 4) && decide (recSlotSeq r = (n, seq))))).any
    (fun r => decide (r.kind = kind) && p r)

/-- Records 2 to 4 of R328 that are missing for the confirmed running slot. The other slot is retired unless it is, or has been written
since its confirmation. -/
def confirmRest (s : State) : State :=
  let n := s.boot.slot.getD 0
  let done := fun (kind : Nat) (s : State) => recordedSince s n s.boot.seq kind (fun r => decide (kind ≠ 1) || decide (leAt r.payload 0 1 = 1 - n))
  let retire := fun s => if isRetired s (1 - n) || done 1 s then s else retireSlot (1 - n) s
  if !isConfirmed s n s.boot.seq then s
  else match activationOf s n s.boot.seq with
    | none => retire s
    | some a =>
      let s1 := if leAt a.payload 64 4 = 0xffffffff ∨ done 7 s = true then s else appendRecord 7 (slice a.payload 64 56) s
      let s2 := if testBit (leAt a.payload 1 1) 0 then
          raiseFloor s.boot.svn (if done 2 s1 then s1 else appendRecord 2 (leNat 4 s.boot.svn) s1)
        else s1
      retire s2

/-- The running slot in trial confirmed (R328). -/
def confirmSlot (s : State) : State :=
  let n := s.boot.slot.getD 0
  let s1 := confirmRest (appendRecord 4 (trialPayload n s.boot.seq) s)
  postEvent 0x06 8 0 (leNat 1 n) { s1 with
    boot := { s1.boot with trial := false }, updt := { s1.updt with confirmed := raise s.tick s1.updt.confirmed } }

/-- The running slot is in trial. -/
def runningInTrial (s : State) : Bool := s.boot.slot.isSome && slotInTrial s (s.boot.slot.getD 0)

/-! ## Delta images (Table UPDT-3, R324) -/

/-- An operation of a delta. -/
inductive DeltaOp where
  | copy (src len : Nat)
  | insert (bytes : Bytes)
deriving DecidableEq, Repr

/-- Bytes an operation produces. -/
def deltaLen : DeltaOp → Nat
  | .copy _ n => n
  | .insert b => b.length

/-- A range lies inside the parts of a slot; `fuel` bounds the parts it may cross. -/
def rangeInParts (ps : List PartEntry) : Nat → Nat → Nat → Bool
  | _, _, 0 => true
  | 0, _, _ => false
  | f + 1, src, n =>
    match ps.find? (fun p => decide (p.offset ≤ src) && decide (src < p.offset + p.length)) with
    | none => false
    | some p => rangeInParts ps f (p.offset + p.length) (n - (p.offset + p.length - src))

/-- The operations of a delta: `count` of them in `b`, or the status that refuses them. -/
def parseDelta (full : Bool) (base : List PartEntry) : Nat → Bytes → Except Status (List DeltaOp)
  | 0, b => if b.isEmpty then .ok [] else .error .lengthLong
  | k + 1, b =>
    let kind := leAt b 0 1
    let n := leAt b 4 4
    let src := leAt b 8 8
    let lit := roundUp n 16
    if b.length < 16 then .error .lengthShort
    else if leAt b 1 3 ≠ 0 then .error .badDescriptor
    else if kind = 1 then
      if full ∨ rangeInParts base 17 src n = false then .error .badDescriptor
      else match parseDelta full base k (b.drop 16) with
        | .ok r => .ok (.copy src n :: r)
        | .error e => .error e
    else if kind = 2 then
      if src ≠ 0 then .error .badDescriptor
      else if b.length < 16 + lit then .error .lengthShort
      else if !allZero (slice b (16 + n) (lit - n)) then .error .badDescriptor
      else match parseDelta full base k (b.drop (16 + lit)) with
        | .ok r => .ok (.insert (slice b 16 n) :: r)
        | .error e => .error e
    else .error .badDescriptor

/-- The delta header of a component image. -/
def deltaHead (image : Bytes) : Bytes := slice image 32768 128
/-- An image is full: its base digest is all zero. -/
def deltaFull (d : Bytes) : Bool := allZero (slice d 32 48)
/-- Target length. -/
def deltaTarget (d : Bytes) : Nat := leAt d 16 8

/-- The checks of the delta header by itself (R324): a full image names no base (log 42). -/
def deltaCheck (d : Bytes) (s : State) : Status :=
  if slice d 0 4 ≠ ascii "OCNX" ∨ leAt d 4 2 ≠ 1 ∨ leAt d 6 2 ≥ 2 ∨ allZero (slice d 80 48) = false then .badDescriptor
  else if !deltaFull d ∧ (leAt d 24 8 ≠ s.boot.seq ∨
      slice d 32 48 ≠ manifestDigest (slotHeader s (s.boot.slot.getD 0))) then .updtDeltaBase
  else if 32768 + deltaTarget d > slotSize then .badDescriptor
  else .ok

/-- The operations of a complete component image, or the status that refuses it. -/
def deltaOps (image : Bytes) (s : State) : Except Status (List DeltaOp) :=
  let d := deltaHead image
  match parseDelta (deltaFull d) (partsOf (slotHeader s (s.boot.slot.getD 0))) (leAt d 12 4) (image.drop 32896) with
  | .error e => .error e
  | .ok ops =>
    let n := (ops.map deltaLen).foldl (· + ·) 0
    if n < deltaTarget d then .error .lengthShort else if deltaTarget d < n then .error .lengthLong else .ok ops

/-- The target bytes the operations produce from the running slot. -/
def deltaRun (s : State) (ops : List DeltaOp) : Bytes :=
  ops.flatMap (fun o => match o with
    | .copy src n => flashRead s (slotBase (s.boot.slot.getD 0) + src) n
    | .insert b => b)

/-! ## Refusals (R322, Table UPDT-2) -/

/-- Vendor result of a status. -/
def vendorResult : Status → Nat
  | .updtHeaderReject => 0x70
  | .updtBinding => 0x71
  | .updtDeltaBase => 0x72
  | .dgstCompareFail => 0x73
  | .lengthShort => 0x74
  | .lengthLong => 0x75
  | .badDescriptor => 0x76
  | .ctxState => 0x77
  | _ => 0x01

/-- TransferComplete, VerifyComplete, ApplyComplete and ActivateFirmware by their PLDM numbers (log 43). -/
def pldmTransfer : Nat := 0x16
/-- VerifyComplete. -/
def pldmVerify : Nat := 0x17
/-- ApplyComplete. -/
def pldmApply : Nat := 0x18
/-- ActivateFirmware. -/
def pldmActivate : Nat := 0x1A

/-- A refusal noted: REJECT, LAST, the management event. -/
def noteReject (st : Status) (s : State) : State :=
  postFaultEvent st 8 0 [] { s with updt := { s.updt with reject := raise s.tick s.updt.reject, lastStatus := statusCode st } }

/-- An update refused: it ends with the vendor result of its status. -/
def refuseUpdate (cmd : Nat) (st : Status) (s : State) : State :=
  noteReject st (emit (.pldmEvent cmd (vendorResult st)) { s with updt := { s.updt with current := none } })

end Sys2Proof.Machine
end

