-- ==== Sys2Proof/Machine/Bandstand.lean ====
section
/-! DEFINITION. The commands of Bandstand (14_update_and_bandstand.md): the secure channel, Ehrov management commands, and
firmware update over PLDM. -/

namespace Sys2Proof.Machine

/-! ## The port (R314, R315) -/

/-- Bandstand answers datagrams with the booting reply. -/
def onlyBooting (s : State) : Bool := !gateOpen s 3 || s.belv.publicOnly

/-- What answers a message that no association serves: in HALT BOOT_NO_IMAGE (R307), else the booting reply (R315). -/
def bootAnswer (s : State) : State := if s.boot.phase = 7 then emit (.bandStatus .bootNoImage) s else emit (.ocnBoot s.boot.phase) s

/-- The UDP port of the secure channel (Table UPDT-10): 0 acts as 0xC04E. -/
def udpPort (s : State) : BitVec 16 := if s.band.port = 0 then 0xC04E else s.band.port

/-- Associations in force. -/
def activeAssocs (s : State) : Nat := (s.band.assocs.filter (fun e => e.2.isSome)).length
/-- MAX_ASSOC: 0 acts as 1, larger values than 4 as 4. -/
def maxAssocs (s : State) : Nat := clamp 1 4 s.band.maxAssoc.toNat

/-- The ECDSA key of the leaf of a peer's chain that verifies to a certificate of the anchor's digest (R315: its one signature
scheme is ECDSA P-384). -/
def peerChain (anchor chain : Bytes) : Option Bytes :=
  let ok : CertView → CertView → Bool := fun i c => Config.ecdsaVerify i.ecdsaKey c.tbs c.ecdsaSig
  ((Config.derChain chain).bind (fun cs => anchoredLeaf ok anchor (cs.dropWhile (fun c => sha384 c.text != anchor)))).map (·.ecdsaKey)

/-- The peer's certificate chain and signature verify under the management credential anchor. -/
def peerTrusted (chain transcript sig : Bytes) (s : State) : Bool :=
  mgmtComplete s && (match peerChain (mgmtAnchor s) chain with
    | some e => Config.ecdsaVerify e transcript sig
    | none => false)

/-- A handshake (R314, R315). A datagram for another port is dropped. Ocenaip presents the chain of slot 0 and signs with the alias ECDSA
key; without that key, as after a zeroisation, the handshake fails. -/
def handshakeEffect (hello : DtlsHello) (transcript sig : Bytes) (s : State) : State :=
  if hello.port ≠ udpPort s then dropFrame s
  else if onlyBooting s then bootAnswer s
  else
    let free := leastBelow (maxAssocs s) (fun i => (mapGet none s.band.assocs i).isNone)
    match free, deviceKey 4 s, peerTrusted hello.chain transcript sig s && decide (activeAssocs s < maxAssocs s) with
    | some i, some k, true => emit (.dtls true (deviceChain s) (Config.ecdsaSign k transcript)) { s with band := { s.band with
        assocs := mapSet none s.band.assocs i (some s.tick), handshakes := s.band.handshakes + 1 } }
    | _, _, _ => emit (.dtls false [] []) (checkSlot 4 { s with band := { s.band with
        authFail := raise s.tick s.band.authFail, cntAuth := satAdd s.band.cntAuth 1 } })
/-- DTLS_HANDSHAKE. -/
def execDtlsHandshake (hello : DtlsHello) (transcript sig : Bytes) (s : State) : Result :=
  .next (handshakeEffect hello transcript sig s)

/-- 60 s without a record end an association (log 44). -/
def idleEffect (a : Nat) (s : State) : State :=
  match mapGet none s.band.assocs a with
  | some t => if t + 15000000000 ≤ s.tick then { s with band := { s.band with assocs := mapSet none s.band.assocs a none } } else s
  | none => s
/-- ASSOCIATION_IDLE_TIMEOUT. -/
def execAssociationIdleTimeout (a : Fin 4) (s : State) : Result := .next (idleEffect a.val s)

/-- A datagram for UDP_PORT before the management gate opens, or in public-only mode: the booting reply, or BOOT_NO_IMAGE in HALT. One for
another port is the row BANDSTAND_FRAME_DROPPED (R314). -/
def datagramEffect (s : State) : State := if onlyBooting s then bootAnswer s else s
/-- BOOTING_DATAGRAM. -/
def execBootingDatagram (s : State) : Result := .next (datagramEffect s)

/-- The link-local address, formed from bits [63:0] of the unit ID (R314). -/
def linkLocal (s : State) : BitVec 128 := BitVec.ofNat 128 (0xfe80 * 2 ^ 112 + leAt (shadowBytes s 81 2) 0 8)

/-- An address that Bandstand holds: the link-local one, or the further one of the settings in force (R314). -/
def ownAddress (t : BitVec 128) (s : State) : Bool :=
  t == linkLocal s || (match s.boot.ownSettings with
    | some b => Config.settingsAddress b == some t
    | none => false)

/-- Echo Request and Neighbor Solicitation for an address of its own answered (types of RFC 4443 and RFC 4861, log 45), once the
management gate is open: before it the port gives "booting" replies only (Table PORT-4). A request for another address is
dropped (R314). -/
def icmpEffect (echo : Bool) (target : BitVec 128) (body : Bytes) (s : State) : State :=
  if !gateOpen s 3 then s
  else if ownAddress target s then emit (.icmp target ((if echo then 129 else 136) :: body)) s
  else dropFrame s
/-- ICMPV6_REQUEST. -/
def execIcmpv6Request (echo : Bool) (x : IcmpMsg) (s : State) : Result := .next (icmpEffect echo x.target x.body s)

/-- Status of an MCTP message whose packets and declared length disagree (R316, R368): LENGTH_LONG at once where more has come than it
declares or it declares more than it may, LENGTH_SHORT 1 s after its last packet; none before. -/
def lateStatus (m : LateMessage) (s : State) : Option Status :=
  if m.declared < m.length ∨ mctpMost < m.declared then some .lengthLong
  else if m.length < m.declared ∧ m.last + 250000000 ≤ s.tick then some .lengthShort
  else none

/-- Such a message fails whole (R368, Table SPLQ-3), with the answers that any message meets before (R316, R412, R413). -/
def mctpTimeoutEffect (m : LateMessage) (s : State) : State :=
  let t := m.src.tag.val
  match lateStatus m s with
  | none => s
  | some st =>
    if s.pav.supply.isSome then s
    else if s.pav.tamper then emit (.mgmtReply t 0 .tamper 0 0 []) s
    else if onlyBooting s then bootAnswer s
    else if (mapGet none s.band.assocs m.src.assoc.val).isNone then s
    else emit (.mgmtReply t 0 (if tagBusy s t then .busy else st) 0 0 []) s
/-- MCTP_MESSAGE_TIMEOUT. -/
def execMctpMessageTimeout (m : LateMessage) (s : State) : Result := .next (mctpTimeoutEffect m s)

/-- A frame that R314 drops. -/
def execBandstandFrameDropped (s : State) : Result := .next (dropFrame s)

/-- LINK_UP follows the SGMII link. -/
def execSgmiiLinkChange (up : Bool) (s : State) : Result := .next { s with band := { s.band with linkUp := up } }

/-! ## Management commands of this chapter (Table UPDT-1) -/

/-- The reply of GET_INFO: build configuration, life-cycle code, running slot, states and generations of both slots (fields
in the order of Table UPDT-1, log 46). -/
def infoBytes (s : State) : Bytes :=
  leBv 4 Config.buildCfg ++ leBv 4 s.otp.code ++ leNat 1 (s.boot.slot.getD 255) ++ leNat 1 (slotCode s 0) ++
  leNat 1 (slotCode s 1) ++ leBv 2 (mapGet 0 s.updt.gens 0) ++ leBv 2 (mapGet 0 s.updt.gens 1)
/-- GET_INFO. -/
def execGetInfo (m : MgmtHdr) (s : State) : Result :=
  .next (mgmtCommand 0x01 .none m (fun p s => replyMgmt p .ok (infoBytes s) s) s)

/-- The message a KEYGEN_EPOCH signature covers (R318). -/
def epochMessage (s : State) : Bytes := unitDigest s ++ leNat 1 (thermoNow s 3)

/-- KEYGEN_EPOCH (R318). -/
def keygenBody (chain sig : Bytes) (v : Supplies) (p : MgmtProg) (s : State) : State :=
  match chainVerify (trustAnchor s) chain with
  | none => replyMgmt p .notPermitted [] s
  | some (e, d) =>
    if Config.keygenRole chain && Config.ecdsaVerify e (epochMessage s) (slice sig 0 96) &&
        Config.mldsaVerify d (epochMessage s) (slice sig 96 4627) then
      otpCommand (.mgmt p.tag) (thermoAdvance 3 v (.mgmt p.tag)) s
    else replyMgmt p .notPermitted [] s
/-- KEYGEN_EPOCH. -/
def execKeygenEpoch (m : MgmtHdr) (chain sig : Bytes) (v : Supplies) (s : State) : Result :=
  .next (mgmtCommand 0x12 .none m (within (chain.length + sig.length) (keygenBody chain sig v)) s)

/-- The conditions of R319. -/
def memoryReadAllowed (s : State) (cid ksel : Nat) : Bool :=
  let c := ctxOf s cid
  (decide (c.state = .keyed) || decide (c.state = .running) || decide (c.state = .draining) || decide (c.state = .drained)) &&
  (match consentNow s cid with | some k => k.scope.getLsbD 1 | none => false) &&
  (if ksel = 0 then c.privSet else (mapGet none c.ksel ksel).isSome)

/-- CTX_MEMORY_READ (R319): the reads go through the fence's internal port of each line's channel. A context that is FENCED in
this very tick answers CTX_FENCED (Table ARCH-5). -/
def memoryReadBody (cid ksel addr len : Nat) (m : MgmtHdr) (p : MgmtProg) (s : State) : State :=
  let c := ctxOf s cid
  if m.unit.toNat ≠ cid ∨ cid < 1 ∨ 254 < cid ∨ len < 64 ∨ 4096 < len ∨ len % 64 ≠ 0 then replyMgmt p .badDescriptor [] s
  else if m.gen ≠ c.gen ∨ m.gen = 0 then replyMgmt p .staleGeneration [] s
  else if c.state = .fenced ∧ c.fencedAt = s.tick then replyMgmt p .ctxFenced [] s
  else if !memoryReadAllowed s cid ksel then replyMgmt p .notPermitted [] s
  else
    let first := addr / 64
    let lines := (List.range ((addr + len - 1) / 64 + 1 - first)).map (· + first)
    let s1 := { s with fence := { s.fence with memReads := s.fence.memReads ++
      [⟨cid, addr % 64, len, lines.map (fun l => (l, none)), .mgmt p.tag⟩] } }
    lines.foldl (fun s l => presentReq (lineChan l) ⟨.internal .memoryRead, l, cid, ksel, 0, none, 0⟩ s) s1
/-- CTX_MEMORY_READ. -/
def execCtxMemoryRead (m : MgmtHdr) (cid : Fin 256) (ksel : Fin 4) (addr : BitVec 64) (len : Nat) (s : State) : Result :=
  .next (mgmtCommand 0x38 (.ctx cid.val) m (memoryReadBody cid.val ksel.val addr.toNat len m) s)

/-- SETTINGS_WRITE (R320). -/
def settingsBody (b : Bytes) (p : MgmtProg) (s : State) : State :=
  if b.length > 262144 then replyMgmt p .badDescriptor [] s
  else if slotInTrial s 0 || slotInTrial s 1 || activationPending s || !gateOpen s 6 then replyMgmt p .notPermitted [] s
  else withRecords (fun st => replyMgmt p st []) (fun s => replyMgmt p .ok [] (writeSettings b s)) s
/-- SETTINGS_WRITE. -/
def execSettingsWrite (m : MgmtHdr) (b : Bytes) (s : State) : Result :=
  .next (mgmtCommand 0x40 .none m (within b.length (settingsBody b)) s)

/-- The slot a management command names by its unit index. -/
def mgmtSlot (m : MgmtHdr) : UnitRef := if m.unit.toNat < 2 then .slot m.unit.toNat else .none

/-- A command that names a slot with its generation. -/
def slotCommand (m : MgmtHdr) (k : Nat → MgmtProg → State → State) (p : MgmtProg) (s : State) : State :=
  let n := m.unit.toNat
  if n ≥ 2 then replyMgmt p .badDescriptor [] s
  else if m.gen ≠ mapGet 0 s.updt.gens n ∨ m.gen = 0 then replyMgmt p .staleGeneration [] s
  else k n p s

/-- UPDT_CONFIRM (R328). -/
def confirmBody (n : Nat) (p : MgmtProg) (s : State) : State :=
  if s.boot.slot = some n ∧ slotInTrial s n = true then
    withRecords (fun st => replyMgmt p st []) (fun s => replyMgmt p .ok [] (confirmSlot s)) s
  else replyMgmt p .notPermitted [] s
/-- UPDT_CONFIRM. -/
def execUpdtConfirm (m : MgmtHdr) (s : State) : Result :=
  .next (mgmtCommand 0x48 (mgmtSlot m) m (slotCommand m confirmBody) s)

/-- AUTO_CONFIRM_S of the running slot's activation; none where the operator confirms. -/
def autoConfirm (s : State) : Option Nat :=
  match activationOf s (s.boot.slot.getD 0) s.boot.seq with
  | some a => if leAt a.payload 60 4 = 0 then none else some (leAt a.payload 60 4)
  | none => none

/-- READY has held for AUTO_CONFIRM_S seconds with no die FAILED (R328). -/
def autoConfirmEffect (s : State) : State :=
  match autoConfirm s with
  | none => s
  | some t =>
    if s.belv.ready && runningInTrial s && (recordStatus s).isNone && !s.pav.tamper && s.pav.supply.isNone &&
        decide (s.boot.readyAt + 250000000 * t ≤ s.tick) && s.dies.all (fun e => decide (e.2.state ≠ .failed)) then
      confirmSlot s
    else s
/-- AUTO_CONFIRM_EXPIRY. -/
def execAutoConfirmExpiry (s : State) : Result := .next (autoConfirmEffect s)

/-- UPDT_DISCARD (R330). -/
def discardBody (n : Nat) (p : MgmtProg) (s : State) : State :=
  let staged := match slotRecord s n with | some (st, _, _) => decide (st = 1) | none => false
  let named := match pendingActivation s with | some r => decide (leAt r.payload 0 1 = n) | none => false
  if s.boot.slot = some n ∨ named = true ∨ s.updt.activating = true ∨ (staged || slotInTrial s n) = false then
    replyMgmt p .notPermitted [] s
  else withRecords (fun st => replyMgmt p st []) (fun s => replyMgmt p .ok [] (retireSlot n s)) s
/-- UPDT_DISCARD. -/
def execUpdtDiscard (m : MgmtHdr) (s : State) : Result :=
  .next (mgmtCommand 0x49 (mgmtSlot m) m (slotCommand m discardBody) s)

/-! ## Reading the stores (R406) -/

/-- What a read of a store answers: the sequence of its first record, whether records were lost, the records. -/
def storeRead (store : List Bytes) (next start : Word) : Word × Bool × List Bytes :=
  let age := (next - start).toNat
  if age ≤ store.length then (start, false, (store.drop (store.length - age)).take 64)
  else if age < 2 ^ 31 then (next - BitVec.ofNat 32 store.length, true, store.take 64)
  else (start, false, [])

/-- A reply's data. -/
def storeReply (next : Word) (r : Word × Bool × List Bytes) : Bytes :=
  leBv 4 r.1 ++ leNat 1 r.2.2.length ++ leNat 1 (bit r.2.1) ++ zeros 2 ++ leBv 4 next ++ zeros 4 ++ r.2.2.flatMap (fit 64)

/-- EVENTS_READ. -/
def eventsBody (start : Nat) (p : MgmtProg) (s : State) : State :=
  replyMgmt p .ok (storeReply s.pav.eventSeq (storeRead s.pav.events s.pav.eventSeq (word start))) s
/-- EVENTS_READ. -/
def execEventsRead (m : MgmtHdr) (start : Nat) (s : State) : Result :=
  .next (mgmtCommand 0x50 .none m (eventsBody start) s)

/-- FAULT_LOG_READ: FLOG_LOST is set where the named sequence has been overwritten. -/
def faultLogBody (start : Nat) (p : MgmtProg) (s : State) : State :=
  let r := storeRead s.pav.flog s.pav.flogSeq (word start)
  let s1 := if r.2.1 then { s with pav := { s.pav with stFlogLost := raise s.tick s.pav.stFlogLost } } else s
  replyMgmt p .ok (storeReply s.pav.flogSeq r) s1
/-- FAULT_LOG_READ. -/
def execFaultLogRead (m : MgmtHdr) (start : Nat) (s : State) : Result :=
  .next (mgmtCommand 0x51 .none m (faultLogBody start) s)

/-- Opcodes of Table UPDT-1. -/
def mgmtOpcodes : List Nat :=
  [0x01, 0x02, 0x03, 0x04, 0x10, 0x11, 0x12, 0x20, 0x21] ++ [0x22, 0x30, 0x38, 0x40, 0x48, 0x49, 0x50, 0x51]
/-- An opcode that Table UPDT-1 does not list. -/
def unlistedMgmt (m : MgmtHdr) (op : Nat) (s : State) : State :=
  if mgmtOpcodes.contains op then s
  else mgmtCommand op .none m (fun p s => replyMgmt p .badDescriptor [] s) s
/-- MGMT_UNLISTED_OPCODE. -/
def execMgmtUnlistedOpcode (m : MgmtHdr) (op : Byte) (s : State) : Result := .next (unlistedMgmt m op.toNat s)

/-! ## PLDM (R321 to R326) -/

/-- A PLDM response: Ocenaip's status, then data (log 43). -/
def replyPldm (tag cmd : Nat) (st : Status) (b : Bytes) (s : State) : State :=
  emit (.pldm tag cmd (leBv 2 (statusCode st) ++ b)) s

/-- A PLDM request through the intake of Bandstand (R315, R316, R412, R413). -/
def pldmIn (p : MctpSrc) (cmd : Nat) (k : State → State) (s : State) : State :=
  let tag := p.tag.val
  if s.pav.supply.isSome then s
  else if s.pav.tamper then replyPldm tag cmd .tamper [] s
  else if s.boot.phase = 7 then replyPldm tag cmd .bootNoImage [] s
  else if onlyBooting s then bootAnswer s
  else overDtls p.assoc (fun s =>
    if tagBusy s tag then replyPldm tag cmd .busy [] s
    else k { s with sund := { s.sund with mgmtPtr := s.sund.mgmtPtr + 1 } }) s

/-- QueryDeviceIdentifiers: device class ID and unit-ID digest. -/
def execQueryDeviceIdentifiers (p : MctpSrc) (s : State) : Result :=
  .next (pldmIn p 0x01 (fun s => replyPldm p.tag.val 0x01 .ok (deviceClass s ++ unitDigest s) s) s)

/-- GetFirmwareParameters: the one component, version and sequence number of the running slot, sequence number and digest
of a staged image. -/
def firmwareParameters (s : State) : Bytes :=
  leNat 2 1 ++ leNat 4 s.boot.version ++ leNat 8 s.boot.seq ++
  (match stagedImage s with | some (_, seq, dg) => leNat 8 seq ++ fit 48 dg | none => zeros 56)
/-- GetFirmwareParameters. -/
def execGetFirmwareParameters (p : MctpSrc) (s : State) : Result :=
  .next (pldmIn p 0x02 (fun s => replyPldm p.tag.val 0x02 .ok (firmwareParameters s) s) s)

/-- The slot that is not running is VALID. -/
def otherValid (s : State) : Bool :=
  match slotRecord s (otherSlot s) with | some (st, _, _) => decide (st = 2) | none => false

/-- RequestUpdate (R321). -/
def requestUpdateBody (tag : Nat) (s : State) : State :=
  if s.updt.current.isSome then replyPldm tag 0x10 .busy [] s
  else if slotInTrial s 0 || slotInTrial s 1 || activationPending s || otherValid s || !gateOpen s 6 then
    replyPldm tag 0x10 .notPermitted [] s
  else replyPldm tag 0x10 .ok [] { s with updt := { s.updt with
    current := some { tag := tag, last := s.tick }, progress := 0 } }
/-- RequestUpdate. -/
def execRequestUpdate (p : MctpSrc) (s : State) : Result := .next (pldmIn p 0x10 (requestUpdateBody p.tag.val) s)

/-- A command of an update in progress that names the component 0x0001. -/
def ofComponent (tag cmd : Nat) (component : BitVec 16) (k : Update → State → State) (s : State) : State :=
  match s.updt.current with
  | none => replyPldm tag cmd .notPermitted [] s
  | some u => if component ≠ 1 then replyPldm tag cmd .badDescriptor [] s else k u s

/-- PassComponentTable. -/
def execPassComponentTable (p : MctpSrc) (component : BitVec 16) (s : State) : Result :=
  .next (pldmIn p 0x13 (ofComponent p.tag.val 0x13 component (fun _ s => replyPldm p.tag.val 0x13 .ok [] s)) s)

/-- A chunk of the component image requested. -/
def requestChunk (off size : Nat) (s : State) : State := emit (.pldmRequest off (min 4096 (size - off))) s

/-- UpdateComponent: the declared size starts the transfer. -/
def updateComponentBody (tag size : Nat) (u : Update) (s : State) : State :=
  if u.size.isSome then replyPldm tag 0x14 .notPermitted [] s
  else requestChunk 0 size (replyPldm tag 0x14 .ok [] { s with updt := { s.updt with
    current := some { u with size := some size, image := [], last := s.tick, phase := 1 } } })
/-- UpdateComponent. -/
def execUpdateComponent (p : MctpSrc) (component : BitVec 16) (size : Nat) (s : State) : Result :=
  .next (pldmIn p 0x14 (ofComponent p.tag.val 0x14 component (updateComponentBody p.tag.val size)) s)

/-- The header check of R323, once the header's 32,768 bytes are there. -/
def headerStatus (old new : Bytes) (s : State) : Status :=
  if old.length < 32768 ∧ 32768 ≤ new.length then
    let h := new.take 32768
    updateHeaderCheck h (decide (headerSeq h > s.boot.seq)) s
  else .ok

/-- The delta header check of R324, once its bytes are there. -/
def deltaStatus (old new : Bytes) (s : State) : Status :=
  if old.length < 32896 ∧ 32896 ≤ new.length then deltaCheck (deltaHead new) s else .ok

/-- Steps 1 and 2 of R325: the inactive slot is erased, the header written and the operations executed. -/
def rebuild (u : Update) (image : Bytes) (ops : List DeltaOp) (s : State) : State :=
  let n := otherSlot s
  let target := deltaRun s ops
  let s1 := markSlot n 0 0 [] (flashErase (slotBase n) slotSize s)
  let s2 := flashWrite (slotBase n + 32768) target (flashWrite (slotBase n) (image.take 32768) s1)
  emit (.pldmEvent pldmTransfer 0) { s2 with updt := { s2.updt with
    progress := target.length, current := some { u with image := image, phase := 3 } } }

/-- The image is complete: its operations are checked, then staging begins. -/
def imageComplete (u : Update) (image : Bytes) (s : State) : State :=
  if image.length < 32896 then refuseUpdate pldmTransfer .lengthShort s
  else match deltaOps image s with
    | .error st => refuseUpdate pldmTransfer st s
    | .ok ops => withRecords (refuseUpdate pldmTransfer) (rebuild u image ops) s

/-- A chunk arrives (R322 to R324, R368). -/
def firmwareDataBody (off : Nat) (data : Bytes) (s : State) : State :=
  match s.updt.current with
  | none => s
  | some u =>
    match u.size with
    | none => s
    | some size =>
      let new := u.image ++ data
      if u.phase ≥ 3 ∨ off ≠ u.image.length ∨ data = [] then s
      else if data.length > min 4096 (size - u.image.length) then refuseUpdate pldmTransfer .lengthLong s
      else match headerStatus u.image new s, deltaStatus u.image new s with
        | .ok, .ok =>
          if new.length = size then imageComplete u new s
          else requestChunk new.length size { s with updt := { s.updt with
            current := some { u with image := new, last := s.tick, phase := if new.length < 32768 then 1 else 2 } } }
        | .ok, st => refuseUpdate pldmTransfer st s
        | st, _ => refuseUpdate pldmTransfer st s
/-- FIRMWARE_DATA. -/
def execFirmwareData (p : MctpSrc) (off : Nat) (data : Bytes) (s : State) : Result :=
  .next (pldmIn p 0x15 (firmwareDataBody off data) s)

/-- 10 s without a requested chunk (Table SPLQ-3). -/
def dataTimeoutEffect (s : State) : State :=
  match s.updt.current with
  | some u =>
    if u.size.isSome ∧ u.phase < 3 ∧ u.last + 2500000000 ≤ s.tick then refuseUpdate pldmTransfer .lengthShort s else s
  | none => s
/-- FIRMWARE_DATA_TIMEOUT. -/
def execFirmwareDataTimeout (s : State) : Result := .next (dataTimeoutEffect s)

/-- Steps 3 and 4 of R325: a general digest engine compares every part with the new header and its pair decides, then STAGED is appended. -/
def stagingEffect (s : State) : State :=
  match s.updt.current with
  | none => s
  | some u =>
    let n := otherSlot s
    let h := slotHeader s n
    let d := deltaHead u.image
    if u.phase ≠ 3 ∨ s.pav.supply.isSome ∨ s.pav.tamper = true ∨ s.dgst.enabled = false then s
    else match checkParts (checkEngine s) n (partsOf h) s with
    | (true, s) =>
      withRecords (refuseUpdate pldmVerify) (fun s =>
      let s1 := markSlot n 1 (headerSeq h) (manifestDigest h) s
      let s2 := { s1 with updt := { s1.updt with
        current := none, raise_ := testBit (leAt d 6 2) 0, autoS := leAt d 8 4 } }
      postEvent 0x05 8 0 (leNat 1 n) (emit (.pldmEvent pldmApply 0) (emit (.pldmEvent pldmVerify 0) s2))) s
    | (false, s) => refuseUpdate pldmVerify .dgstCompareFail s
/-- STAGING_DONE. -/
def execStagingDone (s : State) : Result := .next (stagingEffect s)

/-- The settings block of the measured settings in the format of a staged image, where that differs (R327). -/
def newFormat (dg : Bytes) (s : State) : Option Bytes :=
  (s.boot.settings.bind (Config.settingsFor dg)).map (·.take 262144)

/-- The payload of an ACTIVATION record (Table UPDT-4); `b`: the new-format settings block, which stands at `off` of its region. -/
def activationPayload (n seq : Nat) (dg : Bytes) (raise_ : Bool) (autoS : Nat) (off : Nat) (b : Option Bytes) : Bytes :=
  leNat 1 n ++ leNat 1 (bit raise_) ++ zeros 2 ++ leNat 8 seq ++ fit 48 dg ++ leNat 4 autoS ++
  (match b with
    | some b => leNat 4 off ++ leNat 4 b.length ++ sha384 b
    | none => leNat 4 0xffffffff ++ zeros 52) ++ zeros 8

/-- Step 1 of R326: the new-format settings block is written to free space where the format changes (log 47), and the ACTIVATION record
appended. -/
def commitActivation (n seq : Nat) (dg : Bytes) (s : State) : State :=
  let o := settingsFree s
  let s1 := match newFormat dg s with
    | some b => flashWrite (settingsBase + o) b (flashErase (settingsBase + o) 0x40000 s)
    | none => s
  appendRecord 5 (activationPayload n seq dg s.updt.raise_ s.updt.autoS o (newFormat dg s)) s1

/-- Every context is FREE. -/
def allContextsFree (s : State) : Bool := s.ctxs.all (fun e => decide (e.2.state = .free))

/-- Steps 2 and 3 of R326, once the ACTIVATION record is in force. -/
def activationRest (n seq : Nat) (dg : Bytes) (s : State) : State :=
  let s1 := markSlot n 2 seq dg s
  raiseReset 2500 .activation { s1 with updt := { s1.updt with hold := true, activating := true } }

/-- ActivateFirmware (R326). -/
def activateBody (tag : Nat) (s : State) : State :=
  match stagedImage s with
  | none => replyPldm tag pldmActivate .notPermitted [] s
  | some (n, seq, dg) =>
    if s.updt.activating then replyPldm tag pldmActivate .busy [] s
    else if !allContextsFree s then
      noteReject .ctxState (emit (.pldmEvent pldmActivate (vendorResult .ctxState)) s)
    else withRecords
      (fun st s => noteReject st (emit (.pldmEvent pldmActivate (vendorResult st)) s))
      (fun s => replyPldm tag pldmActivate .ok []
        (activationRest n seq dg (commitActivation n seq dg s))) s
/-- ActivateFirmware. -/
def execActivateFirmware (p : MctpSrc) (s : State) : Result := .next (pldmIn p 0x1A (activateBody p.tag.val) s)

/-- PHASE of UPDT_STATUS (Table UPDT-11). -/
def updtPhase (s : State) : Nat :=
  if s.updt.activating then 5
  else match s.updt.current with
    | some u => u.phase
    | none => if runningInTrial s then 6 else if (stagedImage s).isSome then 4 else 0

/-- GetStatus. -/
def execGetStatus (p : MctpSrc) (s : State) : Result :=
  .next (pldmIn p 0x1B (fun s =>
    replyPldm p.tag.val 0x1B .ok (leNat 1 (updtPhase s) ++ leNat 4 s.updt.progress ++ leBv 2 s.updt.lastStatus) s) s)

/-- An update in progress cancelled, nothing erased (R322). -/
def cancelBody (tag cmd : Nat) (k : Update → Option Update) (s : State) : State :=
  match s.updt.current with
  | none => replyPldm tag cmd .notPermitted [] s
  | some u => replyPldm tag cmd .ok [] { s with updt := { s.updt with current := k u } }
/-- CancelUpdateComponent: the component's transfer ends, the update stays. -/
def execCancelUpdateComponent (p : MctpSrc) (s : State) : Result :=
  .next (pldmIn p 0x1C (cancelBody p.tag.val 0x1C (fun u => some { u with size := none, image := [], phase := 0 })) s)
/-- CancelUpdate: the update ends. -/
def execCancelUpdate (p : MctpSrc) (s : State) : Result :=
  .next (pldmIn p 0x1D (cancelBody p.tag.val 0x1D (fun _ => none)) s)

/-- PLDM commands of R322, by their numbers. -/
def pldmCommands : List Nat := [0x01, 0x02, 0x10, 0x13, 0x14, 0x15, 0x16] ++ [0x17, 0x18, 0x1A, 0x1B, 0x1C, 0x1D]
/-- ERROR_UNSUPPORTED_PLDM_CMD (code 5 of the PLDM base specification, log 43). -/
def unsupportedPldm (p : MctpSrc) (code : Nat) (s : State) : State :=
  if pldmCommands.contains code then s else pldmIn p code (emit (.pldm p.tag.val code [5])) s
/-- PLDM_UNSUPPORTED_COMMAND. -/
def execPldmUnsupportedCommand (p : MctpSrc) (code : Byte) (s : State) : Result := .next (unsupportedPldm p code.toNat s)

end Sys2Proof.Machine
end

