-- ==== Sys2Proof/Machine/Belvedere.lean ====
section
/-! DEFINITION. The commands of Belvedere (09_belvedere_attestation.md): evidence, signing, operator extends, SPDM and the
DOE mailbox. -/

namespace Sys2Proof.Machine

/-! ## Evidence (R219) -/

/-- ATTEST_EVIDENCE judged at its position: R60 for a context, R211, R227, the buffer's length, the signing queue. -/
def attestBody (h : HostCmd) (ip : InProg) (s : State) : State :=
  let cid := h.cid.val
  let c := ctxOf s cid
  if cid ≠ 0 ∧ (h.gen ≠ c.gen ∨ h.gen = 0) then completeHost ip .staleGeneration [] s
  else if cid ≠ 0 ∧ (c.state = .free ∨ c.state = .destroying) then completeHost ip .ctxGone [] s
  else if s.belv.publicOnly then completeHost ip .notPermitted [] s
  else if activationPending s then completeHost ip .belvUpdatePending [] s
  else if h.bufLen < evidenceLen s cid then completeHost ip .lengthShort [] s
  else if sealStatus s cid ≠ .ok then completeHost ip (sealStatus s cid) [] (checkSlot (ctxSlot cid 6) s)
  else
    let st : Status := if s.dies.any (fun e => decide (e.2.state = .resetting)) then .belvDieResetting else .ok
    let (body, s1) := evidenceBody cid (slice h.ops 0 32) s
    let (ok, s2) := queueSign (.evidence (.host ip.id) body st) s
    if ok then (queueSign (.evidence (.host ip.id) body st) s1).2 else completeHost ip .busy [] s2

/-- ATTEST_EVIDENCE. -/
def execAttestEvidence (h : HostCmd) (s : State) : Result :=
  .next (hostCommand opAttestEvidence (cidUnit h) h (attestBody h) s)

/-- A command in progress by its number. -/
def inProgOf (s : State) (w : Waiter) : Option InProg :=
  match w with
  | .host id => s.host.inProg.find? (fun x => x.id == id)
  | .mgmt _ => none
  | .none => none

/-- Sessions ended: their secrets' slots are zeroised (R225, R237). -/
def endSessions (gone : Session → Bool) (s : State) : State :=
  dropKeys ((s.belv.sessions.filter gone).map (·.slot)) { s with belv := { s.belv with sessions := s.belv.sessions.filter (fun x => !gone x) } }

/-- A session's sequence numbers after a message in one direction; a session whose number reaches 2^32 − 1 has ended (R225). -/
def sessionStep (p : SpdmPort) (f : Session → Session) (s : State) : State :=
  match p.session with
  | none => s
  | some id =>
    let step : Session → Session := fun x => if x.port = p.transport ∧ x.id = id then f x else x
    endSessions (fun x => !(decide (x.rx < 2 ^ 32 - 1) && decide (x.tx < 2 ^ 32 - 1)))
      { s with belv := { s.belv with sessions := s.belv.sessions.map step } }

/-- An SPDM response sent (R223), under its session where the request was secured; over DOE it stands in the mailbox until it is
read. -/
def sendSpdm (p : SpdmPort) (code : Nat) (b : Bytes) (s : State) : State :=
  emit (.spdm p code b) (sessionStep p (fun x => { x with tx := x.tx + 1 }) (match p with
    | .doe _ => { s with host := { s.host with doe := { s.host.doe with busy := false, ready := true, response := b } } }
    | .mctp _ _ => s))

/-- Error codes of SPDM 1.3 (PRESUMED, DSP0274, log 48). -/
def spdmInvalid : Nat := 0x01
/-- Busy. -/
def spdmBusy : Nat := 0x03
/-- Unspecified. -/
def spdmUnspecified : Nat := 0x05
/-- UnsupportedRequest. -/
def spdmUnsupported : Nat := 0x07
/-- SessionLimitExceeded. -/
def spdmSessionLimit : Nat := 0x0A
/-- SessionRequired. -/
def spdmSessionRequired : Nat := 0x0B
/-- ResponseNotReady. -/
def spdmNotReady : Nat := 0x42

/-- An ERROR response. -/
def spdmError (p : SpdmPort) (code : Nat) (s : State) : State := sendSpdm p 0x7F (leNat 1 code) s

/-- The signature at the head of the queue finishes (R221): the evidence record goes to the host buffer, or the SPDM
response to its requester. -/
def signingDoneEffect (s : State) : State :=
  match s.belv.queue with
  | [] => s
  | .evidence w body st :: rest =>
    if !signReady s then finish w (signStatus s) [] (checkAlias { s with belv := { s.belv with queue := rest } })
    else
      let rec1 := body ++ hybridSign body s
      let s1 := { s with belv := { s.belv with queue := rest, signed := s.belv.signed + 1 } }
      match inProgOf s1 w with
      | some ip => writeBuffer ip rec1 st s1
      | none => s1
  | .spdm p code body hybrid signed :: rest =>
    if signed && (deviceKey 4 s).isNone then spdmError p spdmUnspecified (checkAlias { s with belv := { s.belv with queue := rest } })
    else
    let s1 := { s with belv := { s.belv with queue := rest, signed := if hybrid then s.belv.signed + 1 else s.belv.signed } }
    sendSpdm p code (body ++ (if signed then fit 96 (Config.ecdsaSign ((deviceKey 4 s).getD []) body) else [])) s1
/-- SIGNING_DONE. -/
def execSigningDone (s : State) : Result := .next (signingDoneEffect s)

/-- MR_EXTEND of the operator (R216, R217): MR9 to MR15 after READY, while the log has room. -/
def mrExtendBody (r : Nat) (d : Bytes) (p : MgmtProg) (s : State) : State :=
  if d.length < 48 then replyMgmt p .lengthShort [] s
  else if 48 < d.length then replyMgmt p .lengthLong [] s
  else if r < 9 ∨ 15 < r ∨ s.belv.ready = false then replyMgmt p .notPermitted [] s
  else if s.belv.log.length ≥ 512 then
    replyMgmt p .notPermitted [] { s with belv := { s.belv with logFull := raise s.tick s.belv.logFull } }
  else replyMgmt p .ok [] (extendMr r 2 d s)
/-- MR_EXTEND. -/
def execMrExtend (m : MgmtHdr) (r : Byte) (d : Bytes) (s : State) : Result :=
  .next (mgmtCommand 0x10 .none m (mrExtendBody r.toNat d) s)

/-! ## SPDM (R223 to R227) -/

/-- ResponseNotReady with the retry time of R227: RDTExponent 16, the request, token 0, RDTM 1. -/
def spdmRetry (p : SpdmPort) (request : Nat) (s : State) : State :=
  sendSpdm p 0x7F (leNat 1 spdmNotReady ++ [0, 16] ++ leNat 1 request ++ [0, 1]) s

/-- An SPDM request is not taken at all: a supply alarm suspends class 5 (R413), and an object written while Busy is set is
discarded (R400). -/
def spdmDropped (p : SpdmPort) (s : State) : Bool :=
  match p with
  | .doe _ => s.host.doe.busy
  | .mctp _ _ => s.pav.supply.isSome

/-- Bandstand answers only "booting": before the management gate, and in public-only mode (R315). -/
def spdmBooting (p : SpdmPort) (s : State) : Bool :=
  match p with
  | .doe _ => false
  | .mctp _ _ => !gateOpen s 3 || s.belv.publicOnly

/-- The request's tag has a message outstanding (R316). -/
def spdmTagBusy (p : SpdmPort) (s : State) : Bool :=
  match p with
  | .doe _ => false
  | .mctp t _ => tagBusy s t.tag.val

/-- A request as its transport brings it: over MCTP in a record of an association (R315). -/
def spdmBrought (p : SpdmPort) (k : State → State) (s : State) : State :=
  match p with
  | .doe _ => k s
  | .mctp a _ => overDtls a.assoc k s

/-- A request taken: its session has heard a message (R225). The DOE mailbox is Busy, its object having been written after the
response before it was read (R45, R400, log 115); MGMT_PTR advances by the grant of an MCTP message (R21, R316). -/
def spdmTaken (p : SpdmPort) (s : State) : State :=
  sessionStep p (fun x => { x with rx := x.rx + 1, last := s.tick }) (match p with
    | .doe _ => { s with host := { s.host with doe := { s.host.doe with busy := true, ready := false, response := [], arriving := none } } }
    | .mctp _ _ => { s with sund := { s.sund with mgmtPtr := s.sund.mgmtPtr + 1 } })

/-- A request under no session, or under one that is established on its transport and has not ended (R225, R400). -/
def sessionServed (p : SpdmPort) (s : State) : Bool :=
  match p.session with
  | none => true
  | some id => s.belv.sessions.any (fun x => decide (x.port = p.transport) && x.id == id && x.up)

/-- An SPDM request through its transport: until READY, and under an activation, ResponseNotReady (R227, R230); after a
zeroisation Unspecified (Table BELV-13); in a session that is not there SessionRequired (R225). -/
def spdmRequest (p : SpdmPort) (request : Nat) (k : State → State) (s : State) : State :=
  if spdmDropped p s then s
  else if spdmBooting p s then emit (if s.boot.phase = 7 then .bandStatus .bootNoImage else .ocnBoot s.boot.phase) s
  else spdmBrought p (fun s =>
    if spdmTagBusy p s then spdmError p spdmBusy s
    else
      let s1 := spdmTaken p s
      if !s.belv.ready || activationPending s then spdmRetry p request s1
      else if s.orng.zeroized then spdmError p spdmUnspecified s1
      else if !sessionServed p s1 then spdmError p spdmSessionRequired s1
      else k s1) s

/-- A request that signs: UnsupportedRequest in public-only mode (Table BELV-10). -/
def spdmSigning (p : SpdmPort) (k : State → State) (s : State) : State :=
  if s.belv.publicOnly then spdmError p spdmUnsupported s else k s

/-- A response that draws from the DRBG (R252): Unspecified where the DRBG does not serve. -/
def spdmDraw (p : SpdmPort) (g : GenReq) (k : State → State) (s : State) : State :=
  withDraw g (spdmError p spdmUnspecified) k s

/-- A response queued for its signature; a full queue answers Busy. -/
def queueSpdm (p : SpdmPort) (code : Nat) (body : Bytes) (hybrid signed : Bool) (s : State) : State :=
  let (ok, s1) := queueSign (.spdm p code body hybrid signed) s
  if ok then s1 else spdmError p spdmBusy s1

/-- A signed response: a nonce is drawn between what stands before and after it, which are of the tick in which the request came
(R226, R400). -/
def signResponse (p : SpdmPort) (code : Nat) (pre post : Bytes) (hybrid : Bool) (s : State) : State :=
  let (own, s1) := drbg 32 s
  queueSpdm p code (pre ++ own ++ post) hybrid true s1

/-- A signed response, drawn for now or once the reseed that is due has been made. -/
def drawResponse (p : SpdmPort) (code : Nat) (pre post : Bytes) (hybrid : Bool) (s : State) : State :=
  spdmDraw p (.spdm p code pre post hybrid) (signResponse p code pre post hybrid) s

/-- Certificate slots offered: slot 1 only while it is provisioned and enabled, and never in public-only mode. -/
def offered (s : State) (n : Nat) : Bool :=
  if n = 0 then s.belv.slot0
  else if n = 1 then s.belv.slot1 && s.belv.slot1En && !slot1Off s && !s.belv.publicOnly
  else false

/-- VERSION: 1.3 only. -/
def execGetVersion (p : SpdmPort) (s : State) : Result :=
  .next (spdmRequest p 0x84 (sendSpdm p 0x04 [1, 0x00, 0x13]) s)

/-- CAPABILITIES (Table BELV-10): CERT, CHAL, MEAS signed, MEAS_FRESH, ENCRYPT, MAC, KEY_EX; CERT only in public-only mode. -/
def capabilitiesEffect (p : SpdmPort) (s : State) : State :=
  sendSpdm p 0x61 (leNat 4 (if s.belv.publicOnly then 0x2 else 0x2F6)) s
/-- GET_CAPABILITIES. -/
def execGetCapabilities (p : SpdmPort) (s : State) : Result := .next (spdmRequest p 0xE1 (capabilitiesEffect p) s)

/-- ALGORITHMS (Table BELV-10): base ECDSA P-384, hash and measurement hash SHA-384, DHE secp384r1, AEAD AES-256-GCM, key
schedule SPDM; DHE and AEAD none in public-only mode. A requester that does not offer ECDSA P-384 receives InvalidRequest. -/
def algorithmsEffect (p : SpdmPort) (base : Bytes) (s : State) : State :=
  if !testBit (leAt base 0 4) 7 then spdmError p spdmInvalid s
  else
    let both := !s.belv.publicOnly
    sendSpdm p 0x63 (leNat 4 0x80 ++ leNat 4 2 ++ leNat 4 4 ++ leNat 2 (if both then 0x10 else 0) ++
      leNat 2 (if both then 2 else 0) ++ leNat 2 1) s
/-- NEGOTIATE_ALGORITHMS. -/
def execNegotiateAlgorithms (p : SpdmPort) (base : Bytes) (s : State) : Result :=
  .next (spdmRequest p 0xE3 (algorithmsEffect p base) s)

/-- DIGESTS of the offered slots. -/
def digestsEffect (p : SpdmPort) (s : State) : State :=
  let ns := [0, 1].filter (offered s)
  sendSpdm p 0x01 (leNat 1 (bit (offered s 0) + 2 * bit (offered s 1)) ++ ns.flatMap (fun n => sha384 (servedChain s n))) s
/-- GET_DIGESTS. -/
def execGetDigests (p : SpdmPort) (s : State) : Result := .next (spdmRequest p 0x81 (digestsEffect p) s)

/-- CERTIFICATE: a portion of a chain and the length that remains; a slot not offered receives InvalidRequest (R213). -/
def certificateEffect (p : SpdmPort) (slot off len : Nat) (s : State) : State :=
  let c := servedChain s slot
  if !offered s slot || decide (c.length ≤ off) then spdmError p spdmInvalid s
  else
    let part := (c.drop off).take len
    sendSpdm p 0x02 (leNat 1 slot ++ leNat 2 part.length ++ leNat 2 (c.length - off - part.length) ++ part) s
/-- GET_CERTIFICATE. -/
def execGetCertificate (p : SpdmPort) (slot : Byte) (off len : Nat) (s : State) : Result :=
  .next (spdmRequest p 0x82 (certificateEffect p slot.toNat off len) s)

/-- The summary hash of CHALLENGE: none, TCB (MR0 to MR8) or all (MR0 to MR15); none where the type is not one of these. -/
def summaryHash (s : State) (t : Nat) : Option Bytes :=
  if t = 0 then some []
  else if t = 1 then some (sha384 ((List.range 9).flatMap (mrOf s)))
  else if t = 0xff then some (sha384 ((List.range 16).flatMap (mrOf s)))
  else none

/-- CHALLENGE_AUTH, signed over the chain's digest, a drawn nonce, the summary and the requester's nonce. -/
def challengeEffect (p : SpdmPort) (slot : Byte) (nonce : Bytes) (t : Byte) (s : State) : State :=
  spdmSigning p (fun s =>
    match summaryHash s t.toNat with
    | none => spdmError p spdmInvalid s
    | some sum =>
      if !offered s slot.toNat then spdmError p spdmInvalid s
      else drawResponse p 0x03 (sha384 (servedChain s slot.toNat)) (sum ++ nonce ++ leNat 8 s.tick ++ s.belv.nonce) false s) s
/-- CHALLENGE. -/
def execChallenge (p : SpdmPort) (slot : Byte) (nonce : Bytes) (t : Byte) (s : State) : Result :=
  .next (spdmRequest p 0x83 (challengeEffect p slot nonce t) s)

/-- DMTF value type of a measurement index (Table BELV-11): 0 immutable ROM, 1 mutable firmware, 2 hardware configuration,
3 firmware configuration, 4 freeform manifest with bit 7 for a raw bit stream (PRESUMED, DSP0274, log 48). -/
def measType (i : Nat) : Nat :=
  if i = 1 then 0 else if i = 2 then 2 else if i = 8 ∨ i = 9 then 3 else if i = 0x20 ∨ i = 0x21 then 0x84 else 1

/-- One measurement block (DSP0274, log 48): index, DMTF specification, size, then value type, value size and value. -/
def measBlock (i : Nat) (v : Bytes) : Bytes :=
  leNat 1 i ++ [1] ++ leNat 2 (v.length + 3) ++ leNat 1 (measType i) ++ leNat 2 v.length ++ v

/-- The value of a measurement index (Table BELV-11); none for any other. -/
def measValue (s : State) (nonce : Bytes) (i : Nat) : Option Bytes :=
  if 1 ≤ i ∧ i ≤ 16 then some (mrOf s (i - 1))
  else if i = 0x20 then
    let b := (evidenceBody 0 (fit 32 nonce) s).1
    some (b ++ hybridSign b s)
  else if i = 0x21 then some s.belv.log.flatten
  else none

/-- Every measurement index. -/
def measIndices : List Nat := (List.range 16).map (· + 1) ++ [0x20, 0x21]

/-- MEASUREMENTS (Table BELV-11): index 0 the count, 0xFF every index; signed when asked. A response that carries an evidence
record waits for its hybrid signature. -/
def measurementsEffect (p : SpdmPort) (index : Byte) (signed : Bool) (nonce : Bytes) (s : State) : State :=
  spdmSigning p (fun s =>
    let i := index.toNat
    let body := if i = 0 then some (leNat 1 18)
      else if i = 0xff then some (measIndices.flatMap (fun k => measBlock k ((measValue s nonce k).getD [])))
      else (measValue s nonce i).map (measBlock i)
    match body with
    | none => spdmError p spdmInvalid s
    | some b =>
      let hybrid := decide (i = 0x20) || decide (i = 0xff)
      if hybrid && !signReady s then spdmError p spdmUnspecified (checkAlias s)
      else if signed then drawResponse p 0x60 b (nonce ++ leNat 8 s.tick ++ s.belv.nonce) hybrid s
      else if hybrid then queueSpdm p 0x60 b true false s
      else sendSpdm p 0x60 b s) s
/-- GET_MEASUREMENTS. -/
def execGetMeasurements (p : SpdmPort) (i : Byte) (signed : Bool) (nonce : Bytes) (s : State) : Result :=
  .next (spdmRequest p 0xE0 (measurementsEffect p i signed nonce) s)

/-- Sessions per transport (Table BELV-16). -/
def maxSessions (s : State) : Nat := clamp 1 4 s.belv.maxSess.toNat

/-- A session begun with a classical ECDH secret, its response queued. The ephemeral private key passes through a working slot, and the
secret goes into one, DERIVE_ONLY (R237); Busy where two are not free (R233). -/
def beginSession (p : SpdmPort) (id : BitVec 32) (ecdh : Bytes) (s : State) : State :=
  if (freeWorking 2 s).length < 2 then spdmError p spdmBusy s
  else
    let (sec, s1) := drbg 48 s
    match Config.ecdhShared sec ecdh with
    | none => spdmError p spdmInvalid s1
    | some x =>
      let (ok, _) := queueSign (.spdm p 0x64 [] false true) s1
      let body := leBv 4 id ++ Config.ecdhPublic sec ++ ecdh ++ leNat 8 s.tick ++ s.belv.nonce
      let s2 := queueSpdm p 0x64 body false true (throughWorking attrWrap 0 [sec] s1)
      if ok then
        match takeWorking attrDerive 0 x s2 with
        | (some n, s3) => { s3 with belv := { s3.belv with sessions := s3.belv.sessions ++
            [{ port := p.transport, id := id, slot := n, up := false, last := s.tick }] } }
        | (none, s3) => s3
      else s2

/-- KEY_EXCHANGE (R225): within the limit of the transport, a session is begun. Its signature covers the session, both public keys, the tick and the boot nonce (R226). -/
def keyExchangeEffect (p : SpdmPort) (id : BitVec 32) (ecdh : Bytes) (s : State) : State :=
  spdmSigning p (fun s =>
    let mine := s.belv.sessions.filter (fun x => decide (x.port = p.transport))
    if mine.length ≥ maxSessions s then spdmError p spdmSessionLimit s
    else if mine.any (fun x => x.id == id) then spdmError p spdmInvalid s
    else spdmDraw p (.keyExchange p id ecdh) (beginSession p id ecdh) s) s
/-- KEY_EXCHANGE. -/
def execKeyExchange (p : SpdmPort) (id : BitVec 32) (ecdh : Bytes) (s : State) : Result :=
  .next (spdmRequest p 0xE4 (keyExchangeEffect p id ecdh) s)

/-- FINISH completes a session whose MAC verifies; one that does not ends it. -/
def spdmFinishEffect (p : SpdmPort) (id : BitVec 32) (mac : Bytes) (s : State) : State :=
  spdmSigning p (fun s =>
    match s.belv.sessions.find? (fun x => decide (x.port = p.transport) && x.id == id) with
    | none => spdmError p spdmSessionRequired s
    | some x =>
      if (deviceKey x.slot s).map Config.spdmFinished = some mac then
        sendSpdm p 0x65 [] { s with belv := { s.belv with
          sessions := s.belv.sessions.filter (fun y => y != x) ++ [{ x with up := true, last := s.tick }] } }
      else spdmError p spdmUnspecified (endSessions (fun y => y == x) (checkSlot x.slot s))) s
/-- SPDM FINISH. -/
def execSpdmFinish (p : SpdmPort) (id : BitVec 32) (mac : Bytes) (s : State) : Result :=
  .next (spdmRequest p 0xE5 (spdmFinishEffect p id mac) s)

/-- Requests of Table PORT-7. -/
def spdmSupported (code : Nat) : Bool := [0x81, 0x82, 0x83, 0x84, 0xE0, 0xE1, 0xE3, 0xE4, 0xE5].contains code

/-- Any other request receives UnsupportedRequest (R223). -/
def unsupportedEffect (p : SpdmPort) (code : Nat) (s : State) : State :=
  if spdmSupported code then s else spdmError p spdmUnsupported s
/-- SPDM_UNSUPPORTED_REQUEST. -/
def execSpdmUnsupportedRequest (p : SpdmPort) (code : Byte) (s : State) : Result :=
  .next (spdmRequest p code.toNat (unsupportedEffect p code.toNat) s)

/-- A session without a message for IDLE_S seconds ends (R225). -/
def sessionIdleEffect (t : SpdmTransport) (id : BitVec 32) (s : State) : State :=
  let idle := 250000000 * max 1 s.belv.idleS.toNat
  endSessions (fun x => decide (x.port = t) && x.id == id && decide (x.last + idle ≤ s.tick)) s
/-- SESSION_IDLE_TIMEOUT. -/
def execSessionIdleTimeout (t : SpdmTransport) (id : BitVec 32) (s : State) : Result := .next (sessionIdleEffect t id s)

/-! ## DOE mailbox (R45, R46, R400)

An object is written with Go set by its last word: it arrives whole as one command. One that is short so far stands in the mailbox
until more of it comes, Abort discards it, or it times out (log 115). -/

/-- A DOE response placed in the mailbox. -/
def sendDoe (type : Nat) (b : Bytes) (s : State) : State :=
  emit (.doe type b) { s with host := { s.host with doe := { s.host.doe with busy := false, ready := true, response := b, arriving := none } } }

/-- Discovery of object types 0 to 2 (layout: log 49); before READY every object is answered with ResponseNotReady (Table PORT-4). -/
def discoveryEffect (i : Nat) (s : State) : State :=
  if s.host.doe.busy then s
  else if !s.belv.ready then spdmRetry (.doe none) 0 { s with host := { s.host with doe := { s.host.doe with arriving := none } } }
  else if i ≤ 2 then sendDoe 0 (leNat 2 1 ++ leNat 1 i ++ leNat 1 ((i + 1) % 3)) s
  else sendDoe 0 (leNat 2 0xffff ++ [0, 0]) s
/-- DOE_DISCOVERY. -/
def execDoeDiscovery (i : Byte) (s : State) : Result := .next (discoveryEffect i.toNat s)

/-- Abort discards the object in progress, its request at Belvedere with it, and any response not yet read (R400). -/
def execDoeAbort (s : State) : Result := .next (dropDoe s)

/-- An object shorter than its declared length, 1 s after its last data: discarded whole and logged (R46). -/
def doeTimeoutEffect (s : State) : State :=
  match s.host.doe.arriving with
  | some t =>
    if t + 250000000 ≤ s.tick then
      postFault .lengthShort 7 0 [] { s with host := { s.host with doe := { s.host.doe with arriving := none } } }
    else s
  | none => s
/-- DOE_OBJECT_TIMEOUT. -/
def execDoeObjectTimeout (s : State) : Result := .next (doeTimeoutEffect s)

/-- An object that is not right (R46): of another type, longer than 64 KiB or than its declared length, it sets Error and is
discarded, a length error logged as LENGTH_LONG; shorter than its declared length so far, it stands in the mailbox. Before READY too such
an object sets Error and gets no ResponseNotReady: Table PORT-4 speaks of objects that R46 accepts (DESIGN CHOICE, log 115). -/
def doeErrorEffect (type declared length : Nat) (s : State) : State :=
  let long := decide (length > 65536) || decide (length > declared)
  if s.host.doe.busy then s
  else if long || decide (type > 2) then
    let s1 := { s with host := { s.host with doe := { s.host.doe with error := true, arriving := none } } }
    if long then postFault .lengthLong 7 0 [] s1 else s1
  else if length < declared then { s with host := { s.host with doe := { s.host.doe with arriving := some s.tick } } }
  else s
/-- DOE_OBJECT_ERROR. -/
def execDoeObjectError (type : Byte) (declared length : Nat) (s : State) : Result :=
  .next (doeErrorEffect type.toNat declared length s)

end Sys2Proof.Machine
end

