-- ==== Sys2Proof/Machine/Digest.lean ====
section
/-! DEFINITION. The commands of the digest engines DGST1 to DGST3 (11_digest_engines.md). -/

namespace Sys2Proof.Machine

/-- A descriptor at an address, in units of 64 bytes, parsed; bytes from 64 on are the export record read for RESUME. -/
def parseDg (requester addr cid : Nat) (d : Bytes) : DgReq :=
  let f := leAt d 3 1
  { requester := requester, desc := 64 * addr, op := leAt d 0 1, alg := leAt d 1 1, prio := leAt d 2 1
    compare := testBit f 0, extend := testBit f 1, external := testBit f 2, resume := testBit f 3
    slot := leAt d 4 2, mr := leAt d 6 1, source := leAt d 8 8, len := leAt d 16 8, expected := leAt d 24 8
    export_ := leAt d 32 8, result := leAt d 40 8, cid := cid, record := slice d 64 160 }

/-- Highest priority of a requester (Table DGST-2). -/
def topPriority (requester : Nat) : Nat := if requester = 0 then 0 else if requester ≤ 4 then 1 else 2

/-- The security monitor may extend a register from DGST1 to DGST3 until READY (Table BELV-5), and Table BOOT-9 gives it a digest for MR6
and MR7 alone, from VERIFIED on (R310; DEDUCED, log 148). -/
def mayExtend (r : DgReq) (s : State) : Bool :=
  decide (r.op = 1) && decide (r.alg = 1) && decide (r.requester = 0) && decide (6 ≤ r.mr) && decide (r.mr ≤ 7) && gateOpen s 0 && !s.belv.ready

/-- The checks of R259 on a descriptor, with step 1 of R238 and those of R268. -/
def dgCheck (r : DgReq) (d : Bytes) (s : State) : Status :=
  if !(decide (1 ≤ r.op) && decide (r.op ≤ 3) && decide (r.alg ≤ 2) && decide (r.prio ≤ 3) && decide (topPriority r.requester ≤ r.prio) &&
      decide (leAt d 3 1 < 16) && byteAt d 7 == 0 && allZero (slice d 52 12) && decide (r.len ≤ 2 ^ 40) &&
      decide (r.mr ≤ 15) && (decide (r.op ≠ 1) || decide (r.slot = 0)) &&
      (decide (r.prio = 0) || decide (r.export_ ≠ 0))) then .badDescriptor
  else if r.op ≠ 1 ∧ 4096 ≤ r.slot then .notPermitted
  else if r.extend && !mayExtend r s then .notPermitted
  else .ok

/-- A keyed request is held at the key-use gate (Table BOOT-8): its slot is there and the gate closed. One whose slot has not been loaded,
or of a zeroised vault, is refused under R238 (R269). -/
def dgHeld (r : DgReq) (s : State) : Bool :=
  decide (r.op ≠ 1) && !gateOpen s 0 && !s.orng.zeroized && decide ((slotOf s r.slot).state = .active)

/-- A submission (R259 to R261). A descriptor with a reserved OP is refused as BAD_DESCRIPTOR under every command; one with
another command's OP is no submission of this one. -/
def submitDg (requester addr cid op : Nat) (d : Bytes) (s : State) : State :=
  let r := parseDg requester addr cid d
  if r.op ≠ op ∧ 1 ≤ r.op ∧ r.op ≤ 3 then s
  else if !s.dgst.enabled then answerDg r .busy [] s
  else match dgCheck r d s with
    | .ok =>
      if dgHeld r s then s
      else if s.dgst.queue.length ≥ 16 then answerDg r .busy [] s
      else
        let s1 := pumpDg 1 (setQueueDg (enqueueDg r s.dgst.queue) s)
        if s1.dgst.queue.contains r then preemptFor r s1 else s1
    | st => answerDg r st [] s

/-- HASH. -/
def execDigestHash (requester : Fin 37) (d : DgSubmit) (s : State) : Result :=
  .next (submitDg requester.val d.addr.toNat 0 1 d.bytes s)
/-- HMAC_GEN. -/
def execHmacGen (requester : Fin 37) (cid : Fin 256) (d : DgSubmit) (s : State) : Result :=
  .next (submitDg requester.val d.addr.toNat cid.val 2 d.bytes s)
/-- HMAC_CHECK. -/
def execHmacCheck (requester : Fin 37) (cid : Fin 256) (d : DgSubmit) (s : State) : Result :=
  .next (submitDg requester.val d.addr.toNat cid.val 3 d.bytes s)

/-- The victim's state area (R262): the chaining value in plain form, or a per-boot blob of the inner one; none where slot 13
fails its codes. -/
def victimState (run : DgRun) (s : State) : Option Bytes × State :=
  if run.req.op = 1 then (some run.chain, s)
  else match deviceKey 13 s with
    | some k =>
      let (b, s1) := wrapBlob k attrRef (slotOf s run.req.slot).cid true run.chain s
      (some b, s1)
    | none => (none, checkSlot 13 s)

/-- The submission that pre-empts a request still waits. -/
def preemptDue (run : DgRun) (s : State) : Bool :=
  match run.preempt with
  | some q => s.dgst.queue.contains q
  | none => false

/-- A pre-empted request at its next 128-byte boundary (R262): exported to its export address and completed with
DGST_PREEMPTED, its engine given to the pre-empting request. A victim that reaches its last block completes normally. Where no
blob can be formed the request ends with KEY_SLOT_BAD and no record (DESIGN CHOICE: log 53). -/
def preemptedEffect (e : Nat) (processed : Bytes) (s : State) : State :=
  match (dgOf s e).run with
  | none => s
  | some run =>
    if !preemptDue run s || decide (processed.length % 128 ≠ 0) || decide (run.req.len ≤ run.done + processed.length) then s
    else
      let run1 := { run with chain := algAbsorb run.req.alg run.chain processed, done := run.done + processed.length }
      match victimState run1 s with
      | (none, s1) => leaveDg e run (failDg e run .keySlotBad s1)
      | (some st, s1) =>
        let s2 := updDg e (fun x => { x with run := none, preempted := raise s.tick x.preempted }) s1
        leaveDg e run (answerDg run.req .dgstPreempted []
          (emit (.digestExport run.req.requester run.req.export_ (exportRecord run1 st st.length)) s2))
/-- DGST_PREEMPTED. -/
def execDgstPreempted (e : Fin 4) (processed : Bytes) (s : State) : Result := .next (preemptedEffect e.val processed s)

/-- The digest or code of a finished request whose last input bytes are `data`. -/
def finalDigest (run : DgRun) (data : Bytes) : Bytes :=
  let r := run.req
  if r.op = 1 then algFinish r.alg r.len run.chain data
  else
    let inner := algFinish r.alg (algBlock r.alg + r.len) run.chain data
    algFinish r.alg (algBlock r.alg + algLen r.alg) run.outer inner

/-- A request finishes (R266, R268): compared where asked, extended where asked, its result written. -/
def digestDoneEffect (e : Nat) (data expected : Bytes) (s : State) : State :=
  match (dgOf s e).run with
  | none => s
  | some run =>
    let r := run.req
    if run.done + data.length ≠ r.len then s
    else
      let dg := finalDigest run data
      let cmp := r.compare || decide (r.op = 3)
      let same := decide (dg = expected)
      let s1 := updDg e (fun x => { x with run := none }) s
      let s2 := if cmp then setPair e same s1 else s1
      let s3 := if r.extend then extendDevice r.mr 1 dg s2 else s2
      let st : Status := if r.extend && s2.belv.ready then .notPermitted else if cmp && !same then .dgstCompareFail else .ok
      leaveDg e run (answerDg r st dg s3)
/-- DIGEST_DONE. -/
def execDigestDone (e : Fin 4) (data expected : Bytes) (s : State) : Result :=
  .next (digestDoneEffect e.val data expected s)

/-- A source read not answered within 10 µs, 2,500 ticks (R267); a request issues none before its start. -/
def dgTimeoutEffect (e : Nat) (s : State) : State :=
  match (dgOf s e).run with
  | none => s
  | some run => if s.tick < run.since + 2500 then s else leaveDg e run (failDg e run .timeout s)
/-- DGST_READ_TIMEOUT. -/
def execDgstReadTimeout (e : Fin 4) (s : State) : Result := .next (dgTimeoutEffect e.val s)

/-- A write of DGST_UNIT by the Gatehouse (R269, Table DGST-9). -/
def unitEnEffect (v : Word) (s : State) : State := pumpDg 16 { s with dgst := { s.dgst with enabled := v.getLsbD 0 } }
/-- UNIT_EN. -/
def execUnitEn (m : Fin 39) (v : Word) (s : State) : Result := .next (guardWrite m.val 0x30404 (unitEnEffect v) s)

end Sys2Proof.Machine
end

