-- ==== Sys2Proof/Machine/Otp.lean ====
section
/-! DEFINITION. The commands of the OTP controller and the life cycle (12_otp_and_lifecycle.md). -/

namespace Sys2Proof.Machine

/-- Offset of OTPC_CMD. -/
def otpCmdOff : Nat := 0x40008

/-- The bits PROGRAM burns: the data with their check bits, or the digest of R278 for a digest word; none where a content
word is blank or invalid. -/
def programBits (w r : Nat) (s : State) : Option (BitVec 40) :=
  if w = (otpRegion r).digest then
    (allSome ((contentWords (otpRegion r)).map (arrayVal s))).map (fun vs => otpEncode (regionDigest vs))
  else some (otpEncode s.otp.wdata)

/-- R272: a non-blank word may change only where it is uncorrectable and the new bits include every burned one. -/
def mayProgram (s : State) (w : Nat) (b : BitVec 40) : Bool :=
  let x := arrayWord s w
  decide (x = 0) || ((otpDecode x).isNone && decide (x &&& ~~~b = 0))

/-- PROGRAM (Table OTP-6). -/
def programEffect (w : Nat) (v : Supplies) (s : State) : State :=
  otpCommand .none (fun s =>
    match regionOfWord w with
    | none => otpStatus .notPermitted .none s
    | some r =>
      if s.otp.state > 1 ∨ (r = 0 ∧ s.otp.state ≠ 0) ∨ arrayLocked s (otpRegion r).lock = true then
        otpStatus .notPermitted .none s
      else match programBits w r s with
        | none => otpStatus .otpLockIncomplete .none s
        | some b => if mayProgram s w b then beginBurn [(w, b)] v .command .none s else otpStatus .notPermitted .none s) s
/-- PROGRAM. -/
def execProgram (m : Fin 39) (w : Fin 2048) (v : Supplies) (s : State) : Result :=
  .next (guardWrite m.val otpCmdOff (programEffect w.val v) s)

/-- LOCK (R280): the region is re-read from the array at both margins and judged under R278. -/
def lockEffect (r : Nat) (v : Supplies) (reads : List SensedWord) (s : State) : State :=
  otpCommand .none (fun s =>
    if r > 2 ∨ s.otp.state > 1 ∨ (r = 0 ∧ s.otp.state ≠ 0) then otpStatus .notPermitted .none s
    else if arrayLocked s (otpRegion r).lock then otpStatus .ok .none s
    else if !regionComplete (rereadVal reads s) (otpRegion r) then
      otpStatus .otpLockIncomplete .none { s with otp := { s.otp with lockRefused := raise s.tick s.otp.lockRefused } }
    else beginBurn [((otpRegion r).lock, 0xffffffff)] v .command .none s) s
/-- LOCK. -/
def execLock (m : Fin 39) (r : Fin 2048) (x : LockInput) (s : State) : Result :=
  .next (guardWrite m.val otpCmdOff (lockEffect r.val x.supplies x.reads) s)

/-- THERMO_ADVANCE. -/
def execThermoAdvance (m : Fin 39) (c : Fin 2048) (v : Supplies) (s : State) : Result :=
  .next (guardWrite m.val otpCmdOff (otpCommand .none (thermoAdvance c.val v .none)) s)

/-- GEN_UDS (Table OTP-6): 512 bits drawn from the DRBG into words 64 to 79. -/
def genUdsEffect (v : Supplies) (s : State) : State :=
  otpCommand .none (fun s =>
    if s.otp.state ≠ 0 ∨ arrayLocked s 127 = true ∨ (List.range 16).any (fun i => arrayWord s (64 + i) != 0) = true then
      otpStatus .notPermitted .none s
    else if s.pav.supply.isSome || !suppliesOk v then beginBurn [] v .command .none s
    else withDraw (.uds v) (otpStatus .notPermitted .none) (fun s =>
      let (b, s1) := drbg 64 s
      beginBurn ((List.range 16).map (fun i => (64 + i, otpEncode (word (leAt b (4 * i) 4))))) v .command .none s1) s) s
/-- GEN_UDS. -/
def execGenUds (m : Fin 39) (v : Supplies) (s : State) : Result := .next (guardWrite m.val otpCmdOff (genUdsEffect v) s)

/-! ## Life cycle (R287 to R290) -/

/-- The burns of one copy on its way to state `x`: its intent bit, then its data bits; a copy that holds `x` is skipped. -/
def copyBurns (s : State) (x c : Nat) : List (Nat × BitVec 40) :=
  if otpData (arrayWord s c) = lcCode x then [] else [(c, 1#40 <<< (31 + x)), (c, (lcCode x).setWidth 40)]

/-- The burns of a transition in order (Table OTP-8). -/
def advanceBurns (s : State) (x : Nat) : List (Nat × BitVec 40) :=
  (if x = 3 then thermoBurns s 2 ++ thermoBurns s 1 else []) ++ (List.range 5).flatMap (copyBurns s x) ++
  (if x = 4 then [(7, 0xffffffff), (63, 0xffffffff)] else [])

/-- The settings and owner-records regions of flash read back blank. -/
def ownerBlank (s : State) : Bool := s.flash.all (fun e => decide (e.1 < 0x08100000) || decide (0x08600000 ≤ e.1))

/-- Every context is FREE. -/
def allFree (s : State) : Bool := s.ctxs.all (fun e => decide (e.2.state = .free))

/-- The transition to Returned destroys the owner records and the settings (Table OTP-10): both regions erased where the flash-write gate
is open (DEDUCED, log 149). -/
def eraseOwner (x : Nat) (s : State) : State :=
  if x = 3 ∧ s.otp.state = 2 ∧ allFree s = true ∧ gateOpen s 6 = true then flashErase 0x08100000 0x500000 s else s

/-- The preconditions of a transition, in order; none where they hold. A counter that the transition advances and that stands at 128
refuses it, as R273 refuses its advance. -/
def advanceCheck (s : State) (x : Nat) : Option Status :=
  let n := s.otp.state
  if x = 4 ∧ n ≠ 4 then none
  else if x = 1 ∧ n = 0 then
    if s.otp.region.getLsbD 0 && s.otp.region.getLsbD 1 then none else some .otpLockIncomplete
  else if x = 2 ∧ n = 1 then
    if !(s.otp.region.getLsbD 2 && s.otp.region.getLsbD 3 && s.otp.region.getLsbD 4 && s.otp.region.getLsbD 5) then
      some .otpLockIncomplete
    else if overridden s 0 2047 then some .notPermitted else none
  else if x = 3 ∧ n = 2 then
    if !allFree s then some .ctxState
    else if !ownerBlank s ∨ 128 ≤ thermoNow s 1 ∨ 128 ≤ thermoNow s 2 then some .notPermitted else none
  else some .notPermitted

/-- LCYC_ADVANCE (R289). -/
def advanceEffect (x : Nat) (v : Supplies) (w : Waiter) (s : State) : State :=
  otpCommand w (fun s0 =>
    let s := eraseOwner x s0
    match advanceCheck s x with
    | some st => otpStatus st w s
    | none => beginBurn (advanceBurns s x) v (.advance x) w s) s
/-- LCYC_ADVANCE. -/
def execLcycAdvance (m : Fin 39) (x : Fin 2048) (v : Supplies) (s : State) : Result :=
  .next (guardWrite m.val otpCmdOff (advanceEffect x.val v .none) s)

/-- Management opcode 0x11 (Table UPDT-1). -/
def mgmtAdvanceEffect (m : MgmtHdr) (x : Nat) (v : Supplies) (s : State) : State :=
  mgmtCommand 0x11 .none m (fun p s => advanceEffect x v (.mgmt p.tag) s) s
/-- MGMT_LCYC_ADVANCE. -/
def execMgmtLcycAdvance (m : MgmtHdr) (x : Fin 2048) (v : Supplies) (s : State) : Result :=
  .next (mgmtAdvanceEffect m x.val v s)

/-! ## Pulses -/

/-- A pulse ends (R284): the bits that read burned stay; the word completes, is pulsed again, or fails at the third. -/
def pulseEffect (failed : BitVec 40) (s : State) : State :=
  match s.otp.cmd with
  | none => s
  | some c =>
    match c.burns with
    | [] => s
    | (w, b) :: rest =>
      let s1 := { s with otp := { s.otp with array := mapMod 0 s.otp.array w (· ||| (b &&& ~~~failed)) } }
      let left := b &&& failed
      let n := c.pulses + 1
      if left = 0 then
        if rest.isEmpty then endOtp { c with burns := [], pulses := n } .ok s1
        else { s1 with otp := { s1.otp with cmd := some { c with burns := rest, pulses := 0 } } }
      else if n ≥ 3 then
        endOtp { c with burns := (w, left) :: rest, pulses := n } .otpMarginal
          { s1 with otp := { s1.otp with verifyFail := raise s.tick s1.otp.verifyFail } }
      else { s1 with otp := { s1.otp with cmd := some { c with burns := (w, left) :: rest, pulses := n } } }
/-- OTP_PULSE_END. -/
def execOtpPulseEnd (failed : BitVec 40) (s : State) : Result := .next (pulseEffect failed s)

/-- A supply leaves its window during a pulse (R283). -/
def supplyAbortEffect (v : Supplies) (burned : BitVec 40) (s : State) : State :=
  if s.otp.cmd.isSome && !suppliesOk v then
    stopBurn burned .otpSupplyWindow { s with otp := { s.otp with supplyAbort := raise s.tick s.otp.supplyAbort } }
  else s
/-- PROGRAMMING_SUPPLY_ABORT. -/
def execProgrammingSupplyAbort (v : Supplies) (burned : BitVec 40) (s : State) : Result :=
  .next (supplyAbortEffect v burned s)

/-! ## Overrides (R285) -/

/-- A content word of POLICY or MGMT. -/
def overridable (w : Nat) : Bool := (decide (128 ≤ w) && decide (w ≤ 129)) || (decide (144 ≤ w) && decide (w ≤ 155))

/-- An override entry written: in Maker and Integrator, before READY; MR1 is extended with it. -/
def overrideEffect (m e : Nat) (w : BitVec 11) (valid : Bool) (value : Word) (s : State) : State :=
  if s.otp.sensed && decide (s.otp.state ≤ 1) && !s.belv.ready && overridable w.toNat then
    extendDevice 1 0 (leBv 2 w ++ leBv 4 value ++ zeros 42)
      { s with otp := { s.otp with ovr := mapSet {} s.otp.ovr e ⟨w, valid, value⟩ } }
  else refuseWrite m (0x40100 + 8 * e) s
/-- OVERRIDE_WRITE. -/
def execOverrideWrite (m : Fin 39) (e : Fin 16) (w : BitVec 11) (valid : Bool) (value : Word) (s : State) : Result :=
  .next (guardWrite m.val (0x40100 + 8 * e.val) (overrideEffect m.val e.val w valid value) s)

/-! ## Sensing (R276, R277) -/

/-- Listed words of the array. -/
def listedWords : List Nat := (List.range 160).filter isListed

/-- Every listed word sensed; marginal words counted, regions judged, counters read. -/
def senseAll (reads : List SensedWord) (s : State) : State :=
  let sh := listedWords.foldl (fun m w => mapSet {} m w (senseWord w (readsOf reads s w).1 (readsOf reads s w).2)) []
  let get := fun w => mapGet ({} : ShadowWord) sh w
  let marg := listedWords.filter (fun w => (get w).marginal)
  let comp := fun i => regionComplete (fun w => shadowVal (get w)) (otpRegion i)
  let lk := fun w => lockedData (get w).data
  let region := bit (comp 0) + 2 * bit (lk 127) + 4 * bit (comp 1) + 8 * bit (lk 143) + 16 * bit (comp 2) +
    32 * bit (lk 159) + 64 * bit (lk 63) + 128 * bit (lk 7)
  { s with otp := { s.otp with
    shadow := sh
    region := BitVec.ofNat 8 region
    margCount := marg.length
    margFirst := marg.headD 0
    marginal := if marg.isEmpty then s.otp.marginal else raise s.tick s.otp.marginal
    thermo := forUpTo 4 (fun c m => mapSet 0 m c (thermoValue (fun w => (get w).data) c)) [] } }

/-- The copy that R288 repairs, with its target. -/
def repairOf (reads : List SensedWord) (s : State) : Option (Nat × Nat) :=
  let ok := fun c => (List.range 5).any (fun n => copyHolds s c n)
  match (List.range 5).filter (fun c => !ok c) with
  | [c] =>
    let both := (readsOf reads s c).1 ||| (readsOf reads s c).2
    let x := intentOf both
    if x ≠ 0 ∧ otpData both &&& ~~~(lcCode x) = 0 ∧
        2 ≤ ((List.range 5).filter (fun k => decide (k ≠ c) && copyHolds s k x)).length then some (c, x)
    else none
  | _ => none

/-- Sensing ends (R276): marginal words are classified; an interrupted advance is repaired first (R288), then the vote. The
repair burns the bits of its target that do not read burned at both margins (R284). -/
def sensingEffect (reads : List SensedWord) (s : State) : State :=
  if !s.boot.romDone || s.otp.sensed || s.otp.cmd.isSome then s
  else
    let s1 := senseAll reads s
    match repairOf reads s1 with
    | some (c, x) =>
      let (lo, hi) := readsOf reads s1 c
      { s1 with otp := { s1.otp with
        repairAt := some c
        repairReads := (lo, hi)
        cmd := some ⟨[(c, copyTarget x &&& ~~~(lo &&& hi))], 0, .command, .none⟩ } }
    | none => finishSensing s1
/-- OTP_SENSING_DONE. -/
def execOtpSensingDone (reads : List SensedWord) (s : State) : Result := .next (sensingEffect reads s)

end Sys2Proof.Machine
end

