-- ==== Sys2Proof/Machine/Generate.lean ====
section
/-! DEFINITION. Generate requests that queue while a reseed waits for a healthy block (10_orangery_keys.md R251, R252): what serves
or refuses each, the reseed, the blocks of the entropy source, and the time a request may queue. -/

namespace Sys2Proof.Machine

/-- A queued request served: its operation is judged again and draws. -/
def serveGen (g : GenReq) (s : State) : State :=
  match g with
  | .exportBlob n cid perBoot => blobExportEffect g n.val cid.val perBoot s
  | .derive d => deriveEffect g d s
  | .load t blob => blobLoadEffect g t blob s
  | .keyImport h ip => keyImportBody h ip s
  | .jobOpen h ip => jobOpenBody h ip s
  | .jobOpenOp m id leader lep plain rs p => jobOpenOpBody m id leader lep plain rs p s
  | .prefix_ cid join p => answered cid (if join then pfxJoinBody else pfxCreateBody) p s
  | .spdm p code pre post hybrid => signResponse p code pre post hybrid s
  | .keyExchange p id ecdh => keyExchangeEffect p id ecdh s
  | .hello e rekey => startExchange e rekey s
  | .encap e chain => certEffect e chain true s
  | .hopKeys e ct => hopKeysEffect e ct s
  | .grant j m => answerJoin j m s
  | .member j m => memberGrant j m s
  | .uds v => genUdsEffect v s
  | .remask n => remaskNow n s
  | .kbus => kbusEstablishEffect s
  | .kbusConf n pub conf => kbusConfEffect n pub conf s
  | .belvedere => belvedereEffect s

/-- A queued request refused with a status. A re-masking, an establishment of the bus keys and the derivations of R230 answer to nobody:
what asked for them may ask again. -/
def refuseGen (st : Status) (g : GenReq) (s : State) : State :=
  match g with
  | .exportBlob _ _ _ => mailbox st [] s
  | .derive _ => mailbox st [] s
  | .load _ _ => mailbox st [] s
  | .keyImport _ ip => finish (.host ip.id) st [] s
  | .jobOpen _ ip => finish (.host ip.id) st [] s
  | .jobOpenOp _ _ _ _ _ _ p => finish (.mgmt p.tag) st [] s
  | .prefix_ cid _ p => answerPriv cid p st s
  | .spdm p _ _ _ _ => refuseSpdm p s
  | .keyExchange p _ _ => refuseSpdm p s
  | .hello e _ => failExchange e st s
  | .encap e _ => failExchange e st s
  | .hopKeys e _ => failExchange e st s
  | .grant _ m => discardJobMsg st m s
  | .member _ m => discardJobMsg st m s
  | .uds _ => otpStatus st .none s
  | .remask _ => s
  | .kbus => s
  | .kbusConf _ _ _ => s
  | .belvedere => s
where
  /-- SPDM has no such status: Busy while the DRBG may yet serve, else Unspecified. -/
  refuseSpdm (p : SpdmPort) (s : State) : State := spdmError p (if st = .busy then spdmBusy else spdmUnspecified) s

/-- Every queued request refused. -/
def refuseQueue (st : Status) (s : State) : State :=
  s.orng.queue.foldl (fun s q => refuseGen st q.2 s) { s with orng := { s.orng with queue := [] } }

/-- The DRBG reseeded from the conditioned block in hand (R251), and the requests that waited for it served in order. -/
def reseedEffect (s : State) : State :=
  match s.orng.pool with
  | [] => s
  | b :: rest =>
    if s.orng.ready && reseedDue s then
      s.orng.queue.foldl (fun s q => serveGen q.2 s) (drbgReseed b { s with orng := { s.orng with pool := rest, queue := [] } })
    else s
/-- DRBG_RESEED. -/
def execDrbgReseed (s : State) : Result := .next (reseedEffect s)

/-- A generate request that has queued for 250,000 ticks is refused with BUSY (R252). -/
def queueTimeoutEffect (s : State) : State :=
  match s.orng.queue with
  | [] => s
  | q :: rest =>
    if q.1 + 250000 ≤ s.tick then refuseGen .busy q.2 { s with orng := { s.orng with queue := rest } } else s
/-- GENERATE_QUEUE_TIMEOUT. -/
def execGenerateQueueTimeout (s : State) : Result := .next (queueTimeoutEffect s)

/-- A block of raw bits; where it puts the DRBG in ERROR, what is queued is refused with NOT_PERMITTED (R252). -/
def entropyBlockEffect (raw : Bytes) (s : State) : State :=
  let s1 := entropyEffect raw s
  if s1.orng.error && !s.orng.error then refuseQueue .notPermitted s1 else s1
/-- ENTROPY_BLOCK. -/
def execEntropyBlock (raw : Bytes) (s : State) : Result := .next (entropyBlockEffect raw s)

end Sys2Proof.Machine
end

