-- ==== Sys2Proof/Machine/Ready.lean ====
section
/-! DEFINITION. READY (13_gatehouse_boot.md R311, Table BOOT-8), with what control firmware does before it and what rises
with it. -/

namespace Sys2Proof.Machine

/-- The middle frames of a queue (R365). -/
def middleFrames (q : SpillQ) : List Nat := (List.range (midFramesOf q)).map (q.midBase.toNat + ·)

/-- Frames that control firmware has reserved as DEVICE frames under CID 0 (R193, R308, R370, R406). -/
def reservedFrames (s : State) : List Nat :=
  (Config.bootFrames ++ s.splq.flatMap (fun e => middleFrames e.2)).filter (fun f => decide (f < Config.frames))

/-- Those frames in the frame table. -/
def reserveFrames (s : State) : State :=
  (reservedFrames s).foldl (fun s f => updFrame f (fun _ => { owner := 0, cls := .device }) s) s

/-- The other slot failed its trial (R329): it is VALID with a higher sequence number, no CONFIRM and three attempts, while
the running slot is not in trial. -/
def trialLost (s : State) : Bool :=
  match s.boot.slot with
  | none => false
  | some n =>
    !slotInTrial s n &&
    (match slotRecord s (1 - n) with
      | some (st, seq, _) => decide (st = 2) && decide (seq > s.boot.seq) && !isConfirmed s (1 - n) seq && decide (trialCount s (1 - n) seq ≥ 3)
      | none => false)

/-- Control firmware may write the record log as it boots: R326, R328 and R329 have it do so before READY, where the flash-write gate will
open with READY (DEDUCED, log 152). -/
def bootWrites (s : State) : Bool := (gatesAllowed s).getLsbD 6

/-- That slot RETIRED, with the event and TRIAL_FAILED. -/
def retireTrial (s : State) : State :=
  if trialLost s && bootWrites s then
    let n := otherSlot s
    postFaultEvent .updtTrialFailed 8 0 (leNat 1 n) (retireSlot n { s with
      updt := { s.updt with trialFailed := raise s.tick s.updt.trialFailed } })
  else s

/-- The records of a confirmation that an interruption has left out (R328, Table UPDT-5). -/
def completeConfirm (s : State) : State :=
  match s.boot.slot with
  | some n => if bootWrites s && isConfirmed s n s.boot.seq && (activationOf s n s.boot.seq).isSome then confirmRest s else s
  | none => s

/-- The new-format settings block that a slot in trial uses (R327): the one that its ACTIVATION record names where its digest matches,
else the measured block converted again, and written again at its place. -/
def trialSettings (s : State) : State :=
  let n := s.boot.slot.getD 0
  match s.boot.settings, activationOf s n s.boot.seq with
  | some old, some a =>
    let off := leAt a.payload 64 4
    if slotInTrial s n = false ∨ bootWrites s = false ∨ off = 0xffffffff then s
    else
      let b := flashRead s (settingsBase + off) (min 262144 (leAt a.payload 68 4))
      if sha384 b = slice a.payload 72 48 then { s with boot := { s.boot with ownSettings := some b } }
      else
        let b1 := ((Config.settingsFor (slice a.payload 12 48) old).getD old).take 262144
        flashWrite (settingsBase + off) b1 (flashErase (settingsBase + off) 0x40000 { s with boot := { s.boot with ownSettings := some b1 } })
  | _, _ => s

/-- The record and the event of the tamper that caused the last reset, with ORNG_ZERO_TICK (R412). -/
def reportTamper (s : State) : State :=
  if s.pav.cause = .tamper then
    let d := leBv 8 s.orng.zeroTick
    postFaultEvent .tamper 2 0 d (postFault .tamper 2 0 d s)
  else s

/-- READY may rise (R311): VERIFIED, MR8 extended, the Belvedere sequence finished, nothing failed. -/
def readyDue (s : State) : Bool :=
  s.boot.frozen && s.boot.belvDone && isVerified s && !s.belv.ready && s.boot.failed.isNone && !s.pav.tamper && !s.orng.error &&
  !s.updt.activating

/-- READY, the alias certificate signed, its gates, host_fn_ready, and BOOT_READY_TIME. -/
def raiseReady (s : State) : State :=
  let s1 := openGates (if s.grnh.verified then 0xfc else 0x7c) (signAlias s)
  { s1 with
    belv := { s1.belv with ready := true }
    boot := { s1.boot with phase := 5, readyAt := s.tick, readyUs := min 0xffff ((s.boot.before + s.tick) / 250) }
    host := { s1.host with ready := gateOpen s1 2, everReady := gateOpen s1 2 } }

/-- The link gate has opened: every link that is up begins to key (R122). -/
def startLinks (s : State) : State :=
  if linkAllowed s then forUpTo Config.engines (fun e s => if (engOf s e).up then beginKeying e s else s) s else s

/-- READY. What control firmware completes as it boots comes before it: a slot retired, the records of a confirmation, the settings of a
slot in trial. A pending ACTIVATION record is completed in its place, and the block reset of R326 follows. -/
def readyEffect (s : State) : State :=
  if !readyDue s then s
  else match (if bootWrites s then pendingActivation s else none) with
    | some r => activationRest (leAt r.payload 0 1) (leAt r.payload 4 8) (slice r.payload 12 48) s
    | none => startLinks (releaseDies (raiseReady (reserveFrames (reportTamper (trialSettings (completeConfirm (retireTrial s)))))))
/-- READY. -/
def execReady (s : State) : Result := .next (readyEffect s)

end Sys2Proof.Machine
end

