-- ==== Sys2Proof/Machine/Faults.lean ====
section
/-! DEFINITION. Alarms, resets and the timebase's events (19_faults_and_recovery.md R407 to R413, 10_orangery_keys.md R253,
R254, 01_the_complex.md R18, R30). -/

namespace Sys2Proof.Machine

/-! ## Tamper (R253, R254, R412, Table ORNG-10) -/

/-- Every key load ends with KEY_ZEROIZED. -/
def zeroLoads (s : State) : State :=
  let ls := s.orng.loads
  ls.foldl (fun s l => answerLoad l .keyZeroized [] s) { s with orng := { s.orng with loads := [] } }

/-- The vault, the DRBG, the reserve and the drops cleared. -/
def zeroVault (s : State) : State :=
  let s1 := refuseQueue .keyZeroized (zeroLoads s)
  let drops := forUpTo Config.dies (fun d m => mapSet {} m d { cleared := true }) []
  { s1 with orng := { s1.orng with
    slots := [], drops := drops, pushes := [], ready := false, kbusReady := false, kbusUp := 0, zeroized := true
    zeroTick := BitVec.ofNat 64 s.tick, pool := [], dkey := [], dv := [], kbusPub := [], booting := false, requests := 0 } }

/-- Every entry of a channel's key cache cleared; its fills report KEY_ZEROIZED, and its parked requests are refused, under row 3
where it applies, else under row 4. -/
def zeroChan (ch : Nat) (s : State) : State :=
  let c := chanOf s ch
  let s1 := updChan ch (fun c => { c with entries := [], fills := [], parked := [] }) s
  let s2 := (c.fills.filter (fun f => !f.cancelled)).foldl (fun s f => reportZeroized ch f.cid f.ksel s) s1
  c.parked.foldl (fun s r => refuseKeyless ch r s) s2

/-- Every fence channel that holds anything, and the scrub engine (Table FENCE-9). -/
def zeroFence (s : State) : State :=
  let chs := s.fence.chans.map (·.1)
  abortScrub (fun _ => true) (chs.foldl (fun s ch => zeroChan ch s) s)

/-- A link engine without keys: DOWN until the block reset (Table LINK-11). -/
def zeroEngine (x : Engine) : Engine :=
  { stopTraffic x with
    state := .down, exch := none, keys := [], phases := [], retryAt := none, oldUntil := none, attempts := 0, jobKeys := [], jobFills := []
    asm := [], hopAsm := [], badHop := [], hopDue := none }

/-- Every link engine. -/
def zeroLinks (s : State) : State :=
  { s with link := { s.link with engines := mapAll {} (fun _ x => zeroEngine x) s.link.engines } }

/-- Greenhouse: every check ends with reason RESET, the sampling keys are gone (Table GRNH-8, Table GRNH-10). -/
def zeroGrnh (s : State) : State :=
  let s1 := dropChecks (fun _ _ => true) s
  { s1 with
    grnh := { s1.grnh with engines := mapAll {} (fun _ e => { e with keys := [], fills := [] }) s1.grnh.engines }
    grnhFills := [] }

/-- A queued signing request ends (Table BELV-13). -/
def zeroSign (r : SignReq) (s : State) : State :=
  match r with
  | .evidence w _ _ => finish w .keyZeroized [] s
  | .spdm p _ _ _ _ => spdmError p spdmUnspecified s

/-- Belvedere: the alias and encapsulation keys are gone, and every queued request ends. -/
def zeroBelv (s : State) : State :=
  s.belv.queue.foldl (fun s r => zeroSign r s)
    { s with belv := { s.belv with queue := [], zeroized := raise s.tick s.belv.zeroized } }

/-- An update in progress ends with TAMPER (Table UPDT-7), and every association ends (R412). -/
def zeroBand (s : State) : State :=
  let s1 := { s with band := { s.band with assocs := [] } }
  if s.updt.current.isSome then noteReject .tamper { s1 with updt := { s1.updt with current := none } } else s1

/-- A queue loses its middle; what each open packet lost with it answers and records is that of an overrun (R366, R367). -/
def zeroMiddle (q : Nat) (s : State) : State :=
  let lost := midOpens (qOf s q)
  lost.foldl (fun s o => answerLost q (.overrun o.pin) (reportQ q (.overrun o.pin) s)) (putQ q (loseMiddle s.tick (qOf s q)) s)

/-- Every queue with a middle loses it (R366). -/
def zeroMiddles (s : State) : State := (s.splq.map (·.1)).foldl (fun s q => zeroMiddle q s) s

/-- A pulse that an alarm stops: which of its bits have burned is left open (R283, Table OTP-11). -/
def alarmBurn (st : Status) (s : State) : State :=
  match s.otp.cmd with
  | none => s
  | some _ =>
    let (u, s1) := draw s
    stopBurn (u.setWidth 40) st s1

/-- One sample of tamper_zeroize_n low: the zeroisation, applied again in every tick the line stays low. -/
def tamperEffect (s : State) : State :=
  let s1 := { s with pav := { s.pav with tamper := true, tamperLow := s.tick, tamperSeen := true, stTamper := raise s.tick s.pav.stTamper } }
  zeroMiddles (zeroBand (zeroBelv (zeroGrnh (zeroLinks (zeroFence (zeroVault (alarmDg .tamper true (alarmBurn .tamper s1))))))))
/-- TAMPER_ZEROIZE. -/
def execTamperZeroize (s : State) : Result := .next (tamperEffect s)

/-- The supply line, where its alarm is in force, has read high for 250,000 ticks. -/
def supplyQuiet (s : State) : Bool := s.pav.supply.isNone || decide (s.pav.supplyLow + 250000 ≤ s.tick)

/-- The block reset that ends a tamper (R412, Table FAULT-6). -/
def tamperReleaseEffect (s : State) : State :=
  if s.pav.tamper && decide (s.pav.tamperLow + 250000 ≤ s.tick) && supplyQuiet s then blockResetState .tamper s else s
/-- TAMPER_RELEASE. -/
def execTamperRelease (s : State) : Result := .next (tamperReleaseEffect s)

/-! ## Supply alarm (R413) -/

/-- One sample of supply_alarm_n low: the first one applies the alarm. -/
def supplyEffect (s : State) : State :=
  let s1 := { s with pav := { s.pav with supplyLow := s.tick } }
  if s.pav.supply.isSome then s1
  else
    let s2 := { s1 with pav := { s1.pav with supply := some s.tick, stSupply := raise s.tick s1.pav.stSupply } }
    let s3 := if s2.otp.cmd.isSome then
        alarmBurn .otpSupplyWindow { s2 with otp := { s2.otp with supplyAbort := raise s.tick s2.otp.supplyAbort } }
      else s2
    postFault .supplyAlarm 2 0 [] (alarmDg .supplyAlarm false (stopFlash s3))
/-- SUPPLY_ALARM. -/
def execSupplyAlarm (s : State) : Result := .next (supplyEffect s)

/-- The line has read high for 250,000 ticks before the limit: intake resumes. -/
def supplyReleaseEffect (s : State) : State :=
  match s.pav.supply with
  | none => s
  | some t =>
    if s.pav.supplyLow + 250000 ≤ s.tick ∧ s.tick < t + 2500000 then { s with pav := { s.pav with supply := none } } else s
/-- SUPPLY_RELEASE. -/
def execSupplyRelease (s : State) : Result := .next (supplyReleaseEffect s)

/-- The alarm is still held at T + 2,500,000: a block reset, unless a tamper is in force, whose own reset then comes. -/
def supplyTimeoutEffect (s : State) : State :=
  match s.pav.supply with
  | none => s
  | some t => if t + 2500000 ≤ s.tick ∧ s.pav.tamper = false then blockResetState .supply s else s
/-- SUPPLY_RESET_TIMEOUT. -/
def execSupplyResetTimeout (s : State) : Result := .next (supplyTimeoutEffect s)

/-! ## Resets (R407, R408) -/

/-- COLD_RESET. -/
def execColdReset (s : State) : Result := .next (coldResetState s)

/-- A block reset is applied in the tick after its source was sampled (R408). -/
def blockEffect (s : State) : State :=
  match s.pav.pendingReset with
  | some c => if s.pav.resetAt < s.tick then blockResetState c s else s
  | none => s
/-- BLOCK_RESET. -/
def execBlockReset (s : State) : Result := .next (blockEffect s)

/-- LOCKSTEP_MISMATCH, in pair P0, P1 or the Gatehouse's: applied at once. -/
def execLockstepMismatch (_pair : Fin 3) (s : State) : Result := .next (blockResetState .lockstep s)

/-- A delay of R106, R290 or R326 has run out: its block reset is raised, as of the tick before the one in which the delay ends,
so that it is applied in that one (R408). -/
def delayEffect (s : State) : State :=
  match s.pav.delayed.find? (fun d => decide (d.1 ≤ s.tick + 1)) with
  | some d => raiseBlock (d.1 - 1) d.2 { s with pav := { s.pav with delayed := s.pav.delayed.erase d } }
  | none => s
/-- RESET_DELAY_EXPIRY. -/
def execResetDelayExpiry (s : State) : Result := .next (delayEffect s)

/-! ## Sundial (R18, R30, R257, R420) -/

/-- stick_ref is lost or out of lock. -/
def refLossEffect (s : State) : State :=
  if s.sund.refLock then
    postEvent 0x01 17 0 [] { s with sund := { s.sund with refLoss := raise s.tick s.sund.refLoss, refLock := false } }
  else s
/-- REF_LOSS. -/
def execRefLoss (s : State) : Result := .next (refLossEffect s)

/-- stick_ref has locked again. -/
def refRelockEffect (s : State) : State :=
  if s.sund.refLock then s
  else postEvent 0x02 17 0 [] { s with sund := { s.sund with refLock := true } }
/-- REF_RELOCK. -/
def execRefRelock (s : State) : Result := .next (refRelockEffect s)

/-- A read of SUND_TICK_LO. -/
def tickLoEffect (m : Nat) (s : State) : State :=
  if readAllowed s m 0x180000 then
    emit (.regRead m 0x180000 (word s.tick)) { s with sund := { s.sund with tickHi := mapSet 0 s.sund.tickHi m (word (s.tick / 2 ^ 32)) } }
  else emit (.regRead m 0x180000 0) s
/-- SUND_TICK_LO_READ. -/
def execSundTickLoRead (m : Fin 39) (s : State) : Result := .next (tickLoEffect m.val s)

/-- A read of ORNG_ZERO_TICK_LO. -/
def zeroLoEffect (m : Nat) (s : State) : State :=
  let t := s.orng.zeroTick.toNat
  if readAllowed s m 0x10024 then
    emit (.regRead m 0x10024 (word t)) { s with sund := { s.sund with zeroHi := mapSet 0 s.sund.zeroHi m (word (t / 2 ^ 32)) } }
  else emit (.regRead m 0x10024 0) s
/-- ORNG_ZERO_TICK_LO_READ. -/
def execOrngZeroTickLoRead (m : Fin 39) (s : State) : Result := .next (zeroLoEffect m.val s)

end Sys2Proof.Machine
end

