-- ==== Sys2Proof/Machine/Greenhouse.lean ====
section
/-! DEFINITION. The commands of Greenhouse (08_greenhouse_verification.md): receipts, decisions, copies, fetches, verdicts,
drops, sampling-key fills. -/

namespace Sys2Proof.Machine

/-! ## The receipt port (R41, R184, R185) -/

/-- A header as the port stores it: CID, VDIE and CORE from the stamp (R185). -/
def portHeader (s : State) (die core : Nat) (p : Bytes) : Bytes :=
  let d := dieOf s die
  patch (fit 63 p) 1 (leNat 1 d.stampCid ++ leNat 1 d.stampVdie ++ leNat 2 core)

/-- One entry at the receipt port; PRODUCER is bits [5:0] of the core (Table SPLQ-2). -/
def receiptEntry (die core : Nat) (e : QEntry) (s : State) : State :=
  let q := 2 + die
  let first := (openOf (qOf s q) core).isNone && !(qOf s q).ignoring.contains core
  let p := if first then portHeader s die core e.payload else fit 63 e.payload
  let (s1, r) := writeCrossed q core (if first then some (core, leAt p 6 1) else none) (BitVec.ofNat 6 core) e.last p s
  -- a receipt whose header found the queue FULL is discarded without an answer
  match first, r with
  | true, .overrun _ => s1
  | _, r => answerLost q r s1

/-- A receipt posted by a core. -/
def receiptEffect (die core : Nat) (es : List QEntry) (s : State) : State :=
  if (dieOf s die).rstN then noteHead die (es.foldl (fun s e => receiptEntry die core e s) s) else s
/-- RECEIPT. -/
def execReceipt (die : Fin 32) (core : Fin 320) (entries : List QEntry) (s : State) : Result :=
  .next (receiptEffect die.val core.val entries s)

/-! ## Decisions -/

/-- A receipt counted as seen (R190). -/
def countSeen (die : Nat) (r : Rcpt) (s : State) : State :=
  let s1 := covUp r.cid 0 1 (updGrEng die (fun e => { e with cntReceipts := satAdd e.cntReceipts 1 }) s)
  if isTile r then countUp 4 r.cid 1 s1 else s1

/-- A tile receipt counted against its open operation. -/
def countTile (r : Rcpt) (s : State) : State :=
  { s with grnh := { s.grnh with opens := s.grnh.opens.map (fun o =>
      if o.cid = r.cid ∧ o.vdie = r.vdie ∧ o.opseq = r.opseq then { o with seen := o.seen + 1 } else o) } }

/-- A malformed receipt (R186, R198): a mismatch with reason MALFORMED under the ACTION that governs it; its pin is answered at
once. A tile receipt of an open operation is one of those seen for it (R201). -/
def malformedRcpt (die : Nat) (r : Rcpt) (fence : Bool) (s0 : State) : State :=
  let s := if isTile r then countTile r s0 else s0
  answerRcpt die r (mismatch die r 3 fence
    (updGrEng die (fun e => { e with malformed := raise s.tick e.malformed }) (countSeen die r s)))

/-- A receipt under CID 0 or 255 (R190): counted only in GRNH_CNT_UNOWNED, its pin answered. -/
def unownedRcpt (die : Nat) (r : Rcpt) (s : State) : State :=
  answerRcpt die r (updGrEng die (fun e => { e with unowned := raise s.tick e.unowned, cntUnowned := satAdd e.cntUnowned 1 }) s)

/-- The untracked entry of a virtual die. -/
def untrackedOf (s : State) (cid vdie : Nat) : Option Untracked :=
  s.grnh.untracked.find? (fun u => u.cid == cid && u.vdie == vdie)

/-- The untracked entry of a virtual die set; a count of 0 removes it. -/
def setUntracked (u : Untracked) (s : State) : State :=
  let rest := s.grnh.untracked.filter (fun x => !(x.cid == u.cid && x.vdie == u.vdie))
  { s with grnh := { s.grnh with untracked := if u.count = 0 then rest else rest ++ [u] } }

/-- An open operation by its key. -/
def openOp (s : State) (cid vdie opseq : Nat) : Option OpenOp :=
  s.grnh.opens.find? (fun o => o.cid == cid && o.vdie == vdie && o.opseq == opseq)

/-- Operations open on a virtual die, untracked ones included. -/
def openCount (s : State) (cid vdie : Nat) : Nat :=
  (s.grnh.opens.filter (fun o => o.cid == cid && o.vdie == vdie)).length +
  (match untrackedOf s cid vdie with | some u => u.count | none => 0)

/-- OP_BEGIN breaks R187: its OPSEQ is not greater than that of every earlier OP_BEGIN, 64 operations are open, or a tile
receipt of its operation came before it. -/
def beginBad (s : State) (r : Rcpt) : Bool :=
  (match (ctxOf s r.cid).opSeq with | some q => decide (r.opseq ≤ q) | none => false) ||
  decide (64 ≤ openCount s r.cid r.vdie) || s.grnh.early.contains (r.cid, r.vdie, r.opseq)

/-- The OPSEQ of an OP_BEGIN noted, a malformed one's too: later ones must be greater (R187). -/
def noteBegin (r : Rcpt) (s : State) : State :=
  updCtx r.cid (fun c => { c with opSeq := some (max r.opseq (c.opSeq.getD 0)) }) s

/-- An OP_BEGIN at the head (R187, R201). -/
def beginRcpt (die : Nat) (r : Rcpt) (s : State) : State :=
  let s1 := countSeen die r s
  let s2 := if s1.grnh.opens.length < 8192 then
      { s1 with grnh := { s1.grnh with opens := s1.grnh.opens ++ [⟨r.cid, r.vdie, r.opseq, r.aux, 0⟩] } }
    else
      let u := (untrackedOf s1 r.cid r.vdie).getD ⟨r.cid, r.vdie, 0, r.opseq⟩
      covUp r.cid 7 1 (updGrEng die (fun e => { e with untracked := raise s.tick e.untracked })
        (setUntracked { u with count := u.count + 1 } s1))
  answerRcpt die r s2

/-- OP_BEGIN takes the receipt at the head. -/
def opBeginEffect (die : Nat) (s : State) : State :=
  match headRcpt s die with
  | none => s
  | some (n, r) =>
    if !enginesOn s || decide (r.kind ≠ kOpBegin) then s
    else
      let s1 := takeRcpt die s
      if r.cid = 0 ∨ r.cid = 255 then unownedRcpt die r s1
      else if !rcptStatic n r || beginBad s r then malformedRcpt die r (headDecision s die r).2.fence (noteBegin r s1)
      else beginRcpt die r (noteBegin r s1)
/-- OP_BEGIN. -/
def execOpBegin (die : Fin 32) (s : State) : Result := .next (opBeginEffect die.val s)

/-- The retire answer of an OP_END: at once, or once its checks have ended their fetches (R195). -/
def retire (die : Nat) (r : Rcpt) (s : State) : State :=
  settleRetires { s with grnh := { s.grnh with retires := s.grnh.retires ++ [⟨die, r.core, r.cid, r.vdie, r.opseq, r.pin⟩] } }

/-- An OP_END whose operation is open: the comparison of R201. -/
def closeOp (die : Nat) (r : Rcpt) (o : OpenOp) (fence : Bool) (s : State) : State :=
  let s1 := { s with grnh := { s.grnh with opens := s.grnh.opens.filter (fun x => x != o) } }
  if o.seen < o.tiles then
    covUp r.cid 6 (o.tiles - o.seen) (updGrEng die (fun e => { e with missing := raise s.tick e.missing }) s1)
  else if o.tiles < o.seen then mismatch die r 4 fence s1
  else s1

/-- OP_END takes the receipt at the head. -/
def opEndEffect (die : Nat) (s : State) : State :=
  match headRcpt s die with
  | none => s
  | some (n, r) =>
    if !enginesOn s || decide (r.kind ≠ kOpEnd) then s
    else
      let s1 := takeRcpt die s
      let fence := (headDecision s die r).2.fence
      if r.cid = 0 ∨ r.cid = 255 then unownedRcpt die r s1
      else if !rcptStatic n r then malformedRcpt die r fence s1
      else match openOp s r.cid r.vdie r.opseq, untrackedOf s r.cid r.vdie with
        | some o, _ => retire die r (closeOp die r o fence (countSeen die r s1))
        | none, some u => retire die r (setUntracked { u with count := u.count - 1 } (countSeen die r s1))
        | none, none => malformedRcpt die r fence s1
/-- OP_END. -/
def execOpEnd (die : Fin 32) (s : State) : Result := .next (opEndEffect die.val s)

/-- The OPSEQ of a tile receipt is open, or belongs to an untracked operation (R186, R201). -/
def tileTracked (s : State) (r : Rcpt) : Bool :=
  (openOp s r.cid r.vdie r.opseq).isSome ||
  (match untrackedOf s r.cid r.vdie with | some u => decide (u.low ≤ r.opseq) | none => false)

/-- A tile receipt that names an operation not open and never begun is kept for the OP_BEGIN that may follow (R187). -/
def noteEarly (r : Rcpt) (s : State) : State :=
  let begun := match (ctxOf s r.cid).opSeq with | some q => decide (r.opseq ≤ q) | none => false
  if begun || (openOp s r.cid r.vdie r.opseq).isSome || s.grnh.early.contains (r.cid, r.vdie, r.opseq) then s
  else { s with grnh := { s.grnh with early := s.grnh.early ++ [(r.cid, r.vdie, r.opseq)] } }

/-- Reads of the outputs of a selected receipt (R193). -/
def copyOuts (die : Nat) (r : Rcpt) : List Out :=
  r.ops.zipIdx.filterMap (fun (o, i) => if o.role = 3 then
      some (.fetch die r.cid o.ksel o.addr (((elemSpans r i o).map (·.2)).foldl (· + ·) 0)) else none)

/-- Reads of the input operands and of every scale byte (R194, R165). -/
def operandOuts (die : Nat) (r : Rcpt) : List Out :=
  r.ops.zipIdx.flatMap (fun (o, i) =>
    (if o.role ≠ 3 then [.fetch die r.cid o.ksel o.addr (((elemSpans r i o).map (·.2)).foldl (· + ·) 0)] else []) ++
    (if opBs o ≠ 0 then [.fetch die r.cid o.ksel o.scaleAddr (((scaleSpans r o).map (·.2)).foldl (· + ·) 0)] else []))

/-- A selected receipt takes a free check slot, or is dropped with reason QUEUE_FULL (R192). -/
def selectRcpt (die : Nat) (r : Rcpt) (fence : Bool) (s : State) : State :=
  let s1 := covUp r.cid 1 1 (updGrEng die (fun e => { e with cntSelected := satAdd e.cntSelected 1 }) s)
  match leastBelow 16 (fun i => (mapGet none (grEngOf s die).slots i).isNone) with
  | none => answerRcpt die r (countDrop die r.cid s1)
  | some i =>
    let s2 := updGrEng die (fun e => { e with
      slots := mapSet none e.slots i (some { rcpt := r, fence := fence, seq := e.nextSeq }), nextSeq := e.nextSeq + 1 }) s1
    { covUp r.cid 4 1 s2 with outs := s2.outs ++ copyOuts die r }

/-- A sampling key used: it becomes the most recent; the cache holds 8 (R188). -/
def touchKey (die cid : Nat) (k : Option Bytes) (s : State) : State :=
  updGrEng die (fun e => { e with keys := ((cid, k) :: e.keys.filter (fun x => x.1 != cid)).take 8 }) s

/-- The decision under a sampling key; without one its u is a free value (log 22). -/
def decideRcpt (die : Nat) (r : Rcpt) (k : Option Bytes) (s : State) : State :=
  let p := (headDecision s die r).2
  let (u, s1) := match k with
    | some k => (sampleU k r, touchKey die r.cid (some k) s)
    | none =>
      let (v, s1) := draw s
      (v.toNat % 2 ^ 32, updGrEng die (fun e => { e with keys := e.keys.filter (fun x => x.1 != r.cid) }) s1)
  let s2 := noteEarly r (countTile r (countSeen die r (takeRcpt die s1)))
  if u < rateEff s p * 65536 then selectRcpt die r p.fence s2 else answerRcpt die r s2

/-- A decision: malformed and unowned receipts, receipts that are never selected, and the draw of R188. A sampling-key
miss raises a fill, and the receipts wait in the queue. -/
def samplingEffect (die : Nat) (s : State) : State :=
  match headRcpt s die with
  | none => s
  | some (n, r) =>
    if !enginesOn s || decide (r.kind = kOpBegin) || decide (r.kind = kOpEnd) then s
    else if r.cid = 0 ∨ r.cid = 255 then unownedRcpt die r (takeRcpt die s)
    else if !rcptStatic n r || !tileTracked s r then
      malformedRcpt die r (headDecision s die r).2.fence (noteEarly r (takeRcpt die s))
    else if !(headDecision s die r).1 then answerRcpt die r (noteEarly r (countTile r (countSeen die r (takeRcpt die s))))
    else match (grEngOf s die).keys.find? (fun k => k.1 == r.cid) with
      | some (_, k) => decideRcpt die r k s
      | none =>
        if s.pav.tamper then decideRcpt die r none s
        else if (grEngOf s die).fills.any (fun f => f.1 == r.cid) then s
        else { updGrEng die (fun e => { e with fills := e.fills ++ [(r.cid, false)] }) s with
          grnhFills := s.grnhFills ++ [(die, r.cid)] }
/-- SAMPLING_DECISION. -/
def execSamplingDecision (die : Fin 32) (s : State) : Result := .next (samplingEffect die.val s)

/-- A sampling-key fill message at a drop (R188, R247): the key enters the cache; a message that fails its checks is asked
for once more, then counts as answered without a key. -/
def samplingFillEffect (drop : Nat) (msg : Bytes) (s : State) : State :=
  let cid := leAt msg 1 1
  let flags := leAt msg 3 1
  match (grEngOf s drop).fills.find? (fun f => f.1 == cid) with
  | none => s
  | some f =>
    let done := fun (k : Option Bytes) (s : State) => updGrEng drop (fun e => { e with
      fills := e.fills.filter (fun x => x.1 != cid), keys := ((cid, k) :: e.keys.filter (fun x => x.1 != cid)).take 8 }) s
    if leAt msg 0 1 ≠ 2 ∨ leAt msg 6 2 ≠ 19 ∨ s.grnhFills.contains (drop, cid) then s
    else match kbusOpen (dropOf s drop) msg with
      | none =>
        if f.2 then done none s
        else { updGrEng drop (fun e => { e with fills := e.fills.map (fun x => if x.1 = cid then (cid, true) else x) }) s with
          grnhFills := s.grnhFills ++ [(drop, cid)] }
      | some plain =>
        let s1 := updDrop drop (fun d => { d with last := leAt msg 8 8 }) s
        done (if testBit flags 1 || testBit flags 2 then none else some (fit 32 plain)) s1
/-- SAMPLING_KEY_FILL_MESSAGE. -/
def execSamplingKeyFillMessage (drop : Fin 32) (msg : Bytes) (s : State) : Result :=
  .next (samplingFillEffect drop.val msg s)

/-! ## Checks -/

/-- The check in a slot. -/
def checkAt (s : State) (d i : Nat) : Option Check := mapGet none (grEngOf s d).slots i
/-- A check replaced. -/
def putCheck (d i : Nat) (c : Check) (s : State) : State :=
  updGrEng d (fun e => { e with slots := mapSet none e.slots i (some c) }) s

/-- A copy or a fetch whose read the fence refused: the row's own effects, FENCED under R103 among them, then the drop
(R200, Table GRNH-8). -/
def fetchFail (d i : Nat) (c : Check) (f : Fetched) (s : State) : State :=
  let port : FencePort := if h : d < 32 then .internal (.greenhouse ⟨d, h⟩) else .fabric
  dropCheck d i c (transferFault f.status ⟨port, f.line.toNat, c.rcpt.cid, f.ksel.val, 0, none, 0⟩ s)

/-- Copies run in selection order (R193): none selected before this one has still to be copied. -/
def copyTurn (s : State) (d : Nat) (c : Check) : Bool :=
  (checksOf s d).all (fun x => x.2.copied || decide (c.seq ≤ x.2.seq))

/-- The copy of an output has ended (R193): staged under CID 0 and the pin answered, or the sample is dropped (R200). -/
def copyDoneEffect (d i : Nat) (f : Fetched) (s : State) : State :=
  match checkAt s d i with
  | none => s
  | some c =>
    if c.copied || !copyTurn s d c then s
    else if f.status = .ok then
      let s1 := answerRcpt d c.rcpt (putCheck d i { c with copied := true, copies := f.parts } s)
      { s1 with outs := s1.outs ++ .stage d (stagingFrame d i) f.parts.flatten :: operandOuts d c.rcpt }
    else fetchFail d i c f s
/-- OUTPUT_COPY_DONE. -/
def execOutputCopyDone (die : Fin 32) (slot : Fin 16) (f : Fetched) (s : State) : Result :=
  .next (copyDoneEffect die.val slot.val f s)

/-- The fetched parts given to the operands in order: element bytes of an input, then scale bytes of a scaled operand. -/
def tileData : List GOp → List Bytes → TileData
  | [], _ => []
  | o :: os, ps =>
    let (e, ps1) := if o.role = 3 then ([], ps) else (ps.headD [], ps.drop 1)
    let (c, ps2) := if opBs o = 0 then ([], ps1) else (ps1.headD [], ps1.drop 1)
    (e, c) :: tileData os ps2

/-- The operand fetches of a check have ended (R194, R195); every copy of the engine goes ahead of them (R193). -/
def fetchDoneEffect (d i : Nat) (f : Fetched) (s : State) : State :=
  match checkAt s d i with
  | none => s
  | some c =>
    if !c.copied || c.fetched || (checksOf s d).any (fun x => !x.2.copied) then s
    else if f.status = .ok then settleRetires (putCheck d i { c with fetched := true, data := tileData c.rcpt.ops f.parts } s)
    else fetchFail d i c f s
/-- OPERAND_FETCH_DONE. -/
def execOperandFetchDone (die : Fin 32) (slot : Fin 16) (f : Fetched) (s : State) : Result :=
  .next (fetchDoneEffect die.val slot.val f s)

/-- A context became FENCED in an earlier tick (Table GRNH-8, Table GRNH-10). -/
def fencedBefore (s : State) (cid : Nat) : Bool :=
  decide ((ctxOf s cid).state = .fenced) &&
  decide ((ctxOf s cid).fencedAt < s.tick)

/-- The verdict of a check whose data are there (R197, R198, R202). -/
def verdictEffect (d i : Nat) (s : State) : State :=
  match checkAt s d i with
  | none => s
  | some c =>
    if !(c.copied && c.fetched) then s
    else if s.pav.tamper || fencedBefore s c.rcpt.cid then dropCheck d i c s
    else
      let s1 := covUp c.rcpt.cid 2 1 (covDown c.rcpt.cid 4
        (updGrEng d (fun e => { e with cntChecked := satAdd e.cntChecked 1 }) (freeSlot d i s)))
      match verdictOf c.rcpt c.copies c.data with
      | none => s1
      | some reason =>
        let s2 := if reason = 3 then updGrEng d (fun e => { e with malformed := raise s.tick e.malformed }) s1 else s1
        mismatch d c.rcpt reason c.fence s2
/-- CHECK_VERDICT. -/
def execCheckVerdict (die : Fin 32) (slot : Fin 16) (s : State) : Result := .next (verdictEffect die.val slot.val s)

/-- A check that cannot reach a verdict is dropped (R200, Table GRNH-8): its context is FENCED or gone, its die is not
RUNNING, or tamper has zeroised the keys. -/
def checkDropEffect (d i : Nat) (s : State) : State :=
  match checkAt s d i with
  | none => s
  | some c =>
    let st := (ctxOf s c.rcpt.cid).state
    if st = .fenced ∨ st = .destroying ∨ st = .free ∨ s.pav.tamper = true ∨ (dieOf s d).state ≠ .running then
      dropCheck d i c s
    else s
/-- CHECK_DROP. -/
def execCheckDrop (die : Fin 32) (slot : Fin 16) (s : State) : Result := .next (checkDropEffect die.val slot.val s)

end Sys2Proof.Machine
end

