-- ==== Sys2Proof/Machine/Host.lean ====
section
/-! DEFINITION. The commands of the host rings (18_host_rings.md): doorbells, enables, ring faults, chain and buffer
timeouts, coalescing, host-function re-initialisation, counter reads. -/

namespace Sys2Proof.Machine

/-- Offset of register `o` in page `r`. -/
def pageOff (r o : Nat) : Nat := 0x100000 + 0x1000 * r + o

/-- The entries posted after PI is set: HEAD to PI − 1 modulo the size (R384); new entries carry the doorbell's tick. -/
def postEntries (tick pi : Nat) (r : CmdRing) : CmdRing :=
  let size := ringSize r.log2
  let n := (pi + size - r.head.toNat % size) % size
  { r with pi := BitVec.ofNat 16 pi, posted := r.posted.take n ++ List.replicate (n - r.posted.length) tick }

/-- A doorbell (R384): a PI of the size or more is ignored and sets DB_ERR. -/
def cmdDoorbell (r pi : Nat) (s : State) : State :=
  if pi ≥ ringSize (ringOf s r).log2 then updRing r (fun x => { x with dbErr := raise s.tick x.dbErr }) s
  else updRing r (postEntries s.tick pi) s
/-- HOST_CMD_DB. -/
def execHostCmdDb (m : Fin 39) (page : Fin 64) (v : Word) (s : State) : Result :=
  .next (guardWrite m.val (pageOff page.val 0x00C) (cmdDoorbell page.val (v.toNat % 65536)) s)

/-- A consumer index (R387): it frees the entries before it; one that frees entries not yet written is ignored and sets
DB_ERR. Waiting events then take the freed entries. -/
def cplDoorbell (r ci : Nat) (s : State) : State :=
  let c := cplOf s r
  let size := ringSize c.log2
  let first := (c.tail.toNat + size - c.used % size) % size
  let freed := (ci + size - first) % size
  if ci ≥ size ∨ freed > c.used then updCpl r (fun x => { x with dbErr := raise s.tick x.dbErr }) s
  else flushEvents r 16 (updCpl r (fun x => { x with used := x.used - freed }) s)
/-- HOST_CPL_DB. -/
def execHostCplDb (m : Fin 39) (page : Fin 64) (v : Word) (s : State) : Result :=
  .next (guardWrite m.val (pageOff page.val 0x02C) (cplDoorbell page.val (v.toNat % 65536)) s)

/-- A write of HOST_CMD_CFG (R383): size and mapping only while ENABLE is 0; setting ENABLE sets HEAD to 0 and clears
STOPPED; clearing it stops intake. -/
def cmdCfgRing (tick v : Nat) (r : CmdRing) : CmdRing :=
  let en := testBit v 16
  if r.enable then
    if en then r else { r with enable := false, epoch := r.epoch + 1 }
  else
    let r1 := { r with log2 := BitVec.ofNat 5 v, cpl := BitVec.ofNat 6 (bits v 8 6) }
    if en then
      let r2 := { r1 with enable := true, stopped := false, head := 0, posted := [] }
      postEntries tick (r2.pi.toNat % ringSize r2.log2) r2
    else r1
/-- The effect of a HOST_CMD_CFG write. -/
def cmdCfgWrite (r v : Nat) (s : State) : State := updRing r (cmdCfgRing s.tick v) s
/-- COMMAND_RING_ENABLE. -/
def execCommandRingEnable (m : Fin 39) (page : Fin 64) (v : Word) (s : State) : Result :=
  .next (guardWrite m.val (pageOff page.val 0x008) (cmdCfgWrite page.val v.toNat) s)

/-- A write of HOST_CPL_CFG (R383): size and vector only while ENABLE is 0; interrupt fields at any time; setting ENABLE
sets TAIL to 0 and the phase to 1. -/
def cplCfgRing (v : Nat) (c : CplRing) : CplRing :=
  let en := testBit v 14
  let c1 := { c with irqEn := testBit v 15, coalCount := BitVec.ofNat 8 (bits v 16 8), coalUs := BitVec.ofNat 8 (bits v 24 8) }
  if c.enable then { c1 with enable := en }
  else
    let c2 := { c1 with log2 := BitVec.ofNat 5 v, vector := BitVec.ofNat 6 (bits v 8 6) }
    if en then { c2 with enable := true, tail := 0, phase := true, used := 0, unsig := 0 } else c2
/-- The clearing of a completion ring's ENABLE: commands that have been taken post their completions only while the ring stays
enabled (R383), and an event that waits there has no enabled destination left (R396). -/
def cplStop (r : Nat) (s : State) : State :=
  let s1 := { s with host := { s.host with inProg := s.host.inProg.map (fun x => if x.cpl = r then { x with dead := true } else x) } }
  updCpl r (fun c => { c with
    reserved := 0, events := [], eventLost := if c.events.isEmpty then c.eventLost else raise s.tick c.eventLost }) s1

/-- The effect of a HOST_CPL_CFG write. -/
def cplCfgWrite (r v : Nat) (s : State) : State :=
  let stops := (cplOf s r).enable && !testBit v 14
  let s1 := updCpl r (cplCfgRing v) s
  if stops then cplStop r s1 else s1
/-- COMPLETION_RING_ENABLE. -/
def execCompletionRingEnable (m : Fin 39) (page : Fin 64) (v : Word) (s : State) : Result :=
  .next (guardWrite m.val (pageOff page.val 0x028) (cplCfgWrite page.val v.toNat) s)

/-- Status of a command that Table HOST-3 does not name, or of which a part is missing: TAMPER (R412), BUSY during an activation (R326)
and before the host gate opens (R390), else its own. -/
def unnamedStatus (st : Status) (s : State) : Status :=
  if s.pav.tamper then .tamper else if s.updt.hold || !gateOpen s 2 then .busy else st

/-- The rest of a chain has not been posted within 1 ms of the doorbell that covered its first entry (R389): the command
fails with LENGTH_SHORT and its posted entries are consumed. -/
def chainTimeoutEffect (r : Nat) (h : HostCmd) (s : State) : State :=
  let x := ringOf s r
  match x.posted with
  | [] => s
  | t :: _ =>
    if h.ring.val = r ∧ x.posted.length < chainLen h ∧ t + 250000 ≤ s.tick then
      let h1 := { h with chain := x.posted.length }
      if canTake h1 s then
        let (ip, s1) := takeHost 0 (cidUnit h) h1 s
        completeHost ip (unnamedStatus .lengthShort s1) [] s1
      else s
    else s
/-- CHAIN_TIMEOUT. -/
def execChainTimeout (ring : Fin 64) (h : HostCmd) (s : State) : Result := .next (chainTimeoutEffect ring.val h s)

/-- A command ring stops (R397): STOPPED, the event of Table HOST-6, and a fault record of source kind 7. -/
def stopRing (r : Nat) (event : Bool) (s : State) : State :=
  let x := ringOf s r
  let d := leNat 1 r ++ [0] ++ leBv 2 x.head
  let s1 := updRing r (fun x => { x with stopped := true }) s
  let s2 := if event then postHostEvent (some (r, x.epoch)) .hostRingStopped .none d s1 else s1
  postFault .hostRingStopped 7 r [] s2

/-- A descriptor fetch that errors or is not answered within 10 µs (R397). -/
def fetchFaultEffect (r : Nat) (s : State) : State :=
  let x := ringOf s r
  if x.enable && !x.stopped && !x.posted.isEmpty then
    stopRing r true (updRing r (fun x => { x with fetchFault := raise s.tick x.fetchFault }) s)
  else s
/-- DESCRIPTOR_FETCH_FAULT. -/
def execDescriptorFetchFault (ring : Fin 64) (s : State) : Result := .next (fetchFaultEffect ring.val s)

/-- A completion write that faults (R397): every enabled command ring mapped to the completion ring stops. -/
def writeFaultEffect (r : Nat) (s : State) : State :=
  if (cplOf s r).enable then
    forUpTo 64 (fun i s =>
      let x := ringOf s i
      if x.enable && !x.stopped && decide (x.cpl.toNat = r) then stopRing i false s else s)
      (updCpl r (fun c => { c with writeFault := raise s.tick c.writeFault }) s)
  else s
/-- COMPLETION_WRITE_FAULT. -/
def execCompletionWriteFault (ring : Fin 64) (s : State) : Result := .next (writeFaultEffect ring.val s)

/-- COAL_US µs after the first unsignalled completion (R388). -/
def coalescingEffect (r : Nat) (s : State) : State :=
  let c := cplOf s r
  if c.irqEn && decide (c.coalUs ≠ 0) && decide (c.unsig > 0) && decide (c.unsigTick + 250 * c.coalUs.toNat ≤ s.tick) then
    emit (.msix c.vector.toNat) (updCpl r (fun c => { c with unsig := 0 }) s)
  else s
/-- COALESCING_TIMER. -/
def execCoalescingTimer (ring : Fin 64) (s : State) : Result := .next (coalescingEffect ring.val s)

/-- A ring back at its reset values; its epoch has passed (R396, R398). -/
def resetRing (r : CmdRing) : CmdRing := { epoch := r.epoch + 1, badNext := r.badNext }

/-- Every ring, doorbell and DOE object back at reset; commands taken run on, their completions discarded (R398). -/
def flrHost (s0 : State) : State :=
  let s := dropDoe s0
  let rings := forUpTo 64 (fun i m => mapSet {} m i (resetRing (mapGet {} s.host.rings i))) []
  { s with host := { s.host with
    rings := rings, cpls := [], ctxSel := 0, ready := false, flrTick := some s.tick
    inProg := s.host.inProg.map (fun x => { x with dead := true }) }
           sund := { s.sund with perfHi := [] } }

/-- host_flr (R398); ignored before the host gate opens, where the reset re-initialises the function (Table FAULT-6). -/
def hostFlrEffect (s : State) : State := if gateOpen s 2 then flrHost s else s
/-- HOST_FLR. -/
def execHostFlr (s : State) : Result := .next (hostFlrEffect s)

/-- host_fn_ready rises again after a re-initialisation (R398). -/
def hostFnReadyEffect (s : State) : State :=
  if gateOpen s 2 && s.host.flrTick.isSome then
    { s with host := { s.host with ready := true, everReady := true, flrTick := none } }
  else s
/-- HOST_FN_READY. -/
def execHostFnReady (s : State) : Result := .next (hostFnReadyEffect s)

/-- A descriptor whose OPCODE is not in Table HOST-3 (R390 step 2). -/
def unlistedEffect (h : HostCmd) (opcode : Nat) (s : State) : State :=
  if canTake h s && hostOps.all (fun o => o.code != opcode) then
    let (ip, s1) := takeHost opcode .none h s
    completeHost ip (unnamedStatus .badDescriptor s1) [] s1
  else s
/-- HOST_UNLISTED_OPCODE. -/
def execHostUnlistedOpcode (h : HostCmd) (opcode : Byte) (s : State) : Result :=
  .next (unlistedEffect h opcode.toNat s)

/-- The counter a host page shows (R84, R403): the device's coarsened one, or the selected context's own while
FINE_COUNTERS consent is active; counter 7 reads zero. -/
def perfValue (s : State) (perCtx : Bool) (i : Nat) : Nat :=
  if i = 7 then 0
  else if perCtx then
    match consentNow s s.host.ctxSel.toNat with
    | some c => if c.scope.getLsbD 0 then mapGet 0 (ctxOf s s.host.ctxSel.toNat).cntShown i else 0
    | none => 0
  else mapGet 0 s.host.devShown i

/-- Key of a master's latch for a counter's _HI register (R420). -/
def perfKey (m : Nat) (perCtx : Bool) (i : Nat) : Nat := 32 * m + 16 * bit perCtx + i

/-- A read of a _LO counter register (R403, R420): bits [31:0] are returned and the master's _HI register latches. -/
def perfLoEffect (m page : Nat) (perCtx : Bool) (i : Nat) (s : State) : State :=
  let off := pageOff page ((if perCtx then 0x858 else 0x810) + 8 * i)
  if readAllowed s m off then
    let v := perfValue s perCtx i
    emit (.regRead m off (word v))
      { s with sund := { s.sund with perfHi := mapSet 0 s.sund.perfHi (perfKey m perCtx i) (word (v / 2 ^ 32)) } }
  else emit (.regRead m off 0) s
/-- HOST_PERF_LO_READ. -/
def execHostPerfLoRead (m : Fin 39) (page : Fin 64) (perCtx : Bool) (i : Fin 8) (s : State) : Result :=
  .next (perfLoEffect m.val page.val perCtx i.val s)

end Sys2Proof.Machine
end

