-- ==== Sys2Proof/Machine/Late.lean ====
section
/-! DEFINITION. A host command whose buffer read is not answered (18_host_rings.md R394). -/

namespace Sys2Proof.Machine

/-- A command that reads its host buffer (Table HOST-3). -/
def readsBuffer (op : HostOp) (h : HostCmd) : Bool :=
  decide (h.bufLen ≠ 0) && op.buf != .none && op.buf != .receives

/-- A command run by its opcode, for the opcodes that read a buffer. -/
def runReader (h : HostCmd) (opcode : Nat) (s : State) : State :=
  if opcode = 0x02 then hostCommand opCtxKeyImport (cidUnit h) h (keyImportBody h) s
  else if opcode = 0x03 then ctxCommand opCtxFrameBind .frameBind h (frameBindBody h) s
  else if opcode = 0x04 then ctxCommand opCtxFrameRelease .frameRelease h (frameReleaseBody h) s
  else if opcode = 0x18 then ctxCommand opVerifyPolicy .debugConsent h (policyBody h) s
  else if opcode = 0x20 then hostCommand opJobLinkOpen (cidUnit h) h (jobOpenBody h) s
  else if opcode = 0x28 then hostCommand opScrubFrames .none h (scrubFramesBody h) s
  else ctxCommand opDebugConsent .debugConsent h (consentBody h) s

/-- A read of a command's buffer not answered within 10 µs (R394): the command is judged as ever and, where it comes to need its
buffer, fails with TIMEOUT and has no effect. -/
def bufferTimeoutEffect (h : HostCmd) (opcode : Nat) (s : State) : State :=
  match hostOps.find? (fun o => o.code == opcode) with
  | none => s
  | some op => if readsBuffer op h then runReader { h with buf := .noAnswer } opcode s else s
/-- BUFFER_ACCESS_TIMEOUT. -/
def execBufferAccessTimeout (x : LateBuffer) (s : State) : Result := .next (bufferTimeoutEffect x.cmd x.opcode.toNat s)

end Sys2Proof.Machine
end

