-- ==== Sys2Proof/Machine/Pergola.lean ====
section
/-! DEFINITION. The commands of Pergola (15_pergola_semaphores.md). -/

namespace Sys2Proof.Machine

/-- ADD. -/
def execAdd (op : PergOp) (s : State) : Result := .next (pergOp .add op s)
/-- SUB. -/
def execSub (op : PergOp) (s : State) : Result := .next (pergOp .sub op s)
/-- WAIT_GE. -/
def execWaitGe (op : PergOp) (s : State) : Result := .next (pergOp .waitGe op s)
/-- WAIT_SUB. -/
def execWaitSub (op : PergOp) (s : State) : Result := .next (pergOp .waitSub op s)
/-- READ. -/
def execRead (op : PergOp) (s : State) : Result := .next (pergOp .read op s)
/-- SET. -/
def execSet (op : PergOp) (s : State) : Result := .next (pergOp .set op s)
/-- REALIGN. -/
def execRealign (op : PergOp) (s : State) : Result := .next (pergOp .realign op s)
/-- PERGOLA_NULL_OPERATION: code 0b000. -/
def execPergolaNullOperation (op : PergOp) (s : State) : Result := .next (pergOp .null op s)

/-- The operation on the ring that a home slice applies next: of those that entered it in the oldest tick, the first of the
lowest source slice (R346). -/
def ringHead (h : Nat) (ms : List RingMsg) : Option RingMsg :=
  match ms.find? (fun m => m.home == h) with
  | none => none
  | some f =>
    let same := ms.filter (fun m => m.home == h && m.tick == f.tick)
    let src := same.foldl (fun n m => min n m.src) f.src
    same.find? (fun m => m.src == src)

/-- That operation, with the ring that it leaves. -/
def takeRing (h : Nat) (ms : List RingMsg) : Option (RingMsg × List RingMsg) := (ringHead h ms).map (fun m => (m, ms.erase m))

/-- An operation arrives over the ring at its home slice and is applied there (R341); where the set has been unbound
meanwhile it is applied to the backing block, and where it has been bound to another slice it goes on to that one: it is never
lost (Table PERG-6). -/
def ringEffect (h : Nat) (s : State) : State :=
  match takeRing h s.perg.ring with
  | none => s
  | some (m, rest) =>
    let s1 := grantEngine { s with perg := { s.perg with ring := rest } }
    match (ctxOf s m.cid).home with
    | none => applyBacking h m.code m.sem m.n m.cid m.from_ s1
    | some x =>
      if x = h then applyLocal h m.code m.sem m.n m.cid m.from_ s1
      else { s1 with perg := { s1.perg with ring := s1.perg.ring ++ [{ m with home := x, src := h, tick := s.tick }] } }
/-- RING_OPERATION. -/
def execRingOperation (home : Fin 32) (s : State) : Result := .next (ringEffect home.val s)

/-- The wait of a core, with the slice that holds it. -/
def waitOfCore (s : State) (die core : Nat) : Option (Nat × PWait) :=
  s.perg.slices.findSome? (fun (d, x) => (x.waits.find? (fun w => decide (w.from_ = .core die core))).map (fun w => (d, w)))

/-- A core wait WAIT_TICKS old is released (R348); the core's own slice raises the fault. -/
def waitTimeoutEffect (die core : Nat) (s : State) : State :=
  let t := (sliceOf s die).waitTicks.toNat
  match waitOfCore s die core with
  | none => s
  | some (d, w) =>
    if t ≠ 0 ∧ w.tick + t ≤ s.tick then
      let s1 := updSlice d (fun x => { x with waits := x.waits.filter (fun y => y != w) }) (grantTimer s)
      pergFault die .pergWaitTimeout w.cid (.core die core) w.sem (semValue s d w.sem)
        (wakeWait w.cid w.from_ .pergWaitTimeout s1)
    else s
/-- WAIT_TIMEOUT. -/
def execWaitTimeout (die : Fin 32) (core : Fin 320) (s : State) : Result := .next (waitTimeoutEffect die.val core.val s)

/-- A core reset cancels that core's wait without a wake (R350). -/
def coreResetEffect (die core : Nat) (s : State) : State := cancelWaits (fun i => decide (i = .core die core)) s
/-- CORE_RESET. -/
def execCoreReset (die : Fin 32) (core : Fin 320) (s : State) : Result := .next (coreResetEffect die.val core.val s)

end Sys2Proof.Machine
end

