-- ==== Sys2Proof/Machine/RegWrite.lean ====
section
/-! DEFINITION. Writes of the registers that have no command of their own (20_register_index.md, 00_scope.md R8 to R10): where
they stand, what their fields take, when they close (R424). -/

namespace Sys2Proof.Machine

/-! ## The window -/

/-- An offset is one of a list. -/
def among (off : Nat) (xs : List Nat) : Bool := xs.contains off

/-- The chapters list a register at an offset of the window (Tables REGS-4 to REGS-19). -/
def listedReg (off : Nat) : Bool :=
  let words := fun (lo hi : Nat) => decide (lo ≤ off) && decide (off < hi)
  match partOf off with
  | .pavilion => among off [0x04, 0x10, 0x14, 0x18, 0x1C, 0x20] || words 0x1000 0x1800
  | .orangery => decide (off ≤ 0x10028)
  | .belvedere => decide (off ≤ 0x20010) || words 0x20020 0x20040 || words 0x20100 0x20700 || decide (0x28000 ≤ off)
  | .digest => (decide (off < 0x30400) && decide (off % 0x100 ≤ 0x0C)) || off == 0x30400 || off == 0x30404
  | .otp => decide (off ≤ 0x40018) || among off [0x40020, 0x40024] || words 0x40100 0x40180 || words 0x42000 0x44000
  | .boot => decide (off ≤ 0x5002C)
  | .fence => decide (off % 0x100 ≤ 0x30) || among off [0x80080, 0x80084, 0x80088, 0x8008C, 0x80090]
  | .link => (decide (off < 0xAC000) && decide (off % 0x200 ≤ 0x24)) || among off [0xAC000, 0xAC004] || words 0xAC800 0xAD000
  | .greenhouse => (decide (off < 0xC8000) && decide (off % 0x400 ≤ 0x20)) || among off [0xC0200, 0xC0204]
  | .pergola => decide (off < 0xD2000) && decide (off % 0x100 ≤ 0x2C)
  | .spill => decide (off < 0xE2800) && decide (off % 0x20 ≤ 0x14)
  | .power => decide (off ≤ 0xF0014)
  | .host =>
    let o := off % 0x1000
    decide (o ≤ 0x14) || (decide (0x20 ≤ o) && decide (o ≤ 0x34)) || o == 0x800 || (decide (0x810 ≤ o) && decide (o ≤ 0x850)) ||
    (decide (0x858 ≤ o) && decide (o < 0x898))
  | .bandstand => among off [0x140000, 0x140004, 0x140008, 0x14000C, 0x140010, 0x140100, 0x140104, 0x140108, 0x14010C, 0x140110]
  | .lodge =>
    decide (off % 0x1000 = 0) || among (off % 0x1000) [0x100, 0x104, 0x108, 0x200, 0x204, 0x208, 0x20C, 0x210, 0x300]
  | .sundial => decide (off ≤ 0x180010)
  | .reserved => false

/-- A register whose write is a command of its own. -/
def ownCommand (off : Nat) : Bool :=
  among off [0x14, 0x30400, 0x30404, 0x40008, 0x5002C, 0x80088] ||
  (decide (0x40100 ≤ off) && decide (off < 0x40180)) ||
  (decide (partOf off = .host) && among (off % 0x1000) [0x008, 0x00C, 0x028, 0x02C]) ||
  (decide (partOf off = .lodge) && decide (off % 0x1000 = 0x300))

/-! ## Fields by part -/

/-- A sticky bit written. -/
def wc (s : State) (v : Word) (i : Nat) (b : Sticky) : Sticky := w1c s.tick (v.getLsbD i) b

/-- Pavilion: PAV_FAULT_STATUS, PAV_WDOG_CFG (Table FAULT-8, R414). -/
def pavWrite (off : Nat) (v : Word) (s : State) : State :=
  let p := s.pav
  if off = 0x18 then { s with pav := { p with
    stTamper := wc s v 0 p.stTamper, stSupply := wc s v 1 p.stSupply, stWdog := wc s v 3 p.stWdog, stFlogLost := wc s v 4 p.stFlogLost } }
  else if off = 0x20 ∧ s.host.everReady = false then { s with pav := { p with wdogTicks := v.setWidth 16 } }
  else s

/-- Orangery: ORNG_STATUS, ORNG_SLOT_SEL (Tables ORNG-13, ORNG-14). -/
def orngWrite (off : Nat) (v : Word) (s : State) : State :=
  let o := s.orng
  if off = 0x10000 then { s with orng := { o with
    slotBad := wc s v 4 o.slotBad, entFail := wc s v 5 o.entFail, kbusFail := wc s v 6 o.kbusFail, blobFail := wc s v 7 o.blobFail } }
  else if off = 0x10004 then { s with orng := { o with slotSel := v.setWidth 12 } }
  else s

/-- Belvedere: BELV_STATUS, BELV_SPDM_CFG until FREEZE (Tables BELV-15, BELV-16). -/
def belvWrite (off : Nat) (v : Word) (s : State) : State :=
  let b := s.belv
  if off = 0x20000 then { s with belv := { b with
    zeroized := wc s v 5 b.zeroized, signBusy := wc s v 6 b.signBusy, logFull := wc s v 7 b.logFull } }
  else if off = 0x20004 ∧ s.boot.frozen = false then { s with belv := { b with
    maxSess := v.setWidth 3, idleS := (v >>> 8).setWidth 8, slot1En := v.getLsbD 16 } }
  else s

/-- Digest engines: DGST_STATUS (Table DGST-6). -/
def dgstWrite (off : Nat) (v : Word) (s : State) : State :=
  if off < 0x30400 ∧ off % 0x100 = 0 then
    updDg ((off - 0x30000) / 0x100) (fun x => { x with
      preempted := wc s v 1 x.preempted, cmpFail := wc s v 2 x.cmpFail, errClear := wc s v 3 x.errClear }) s
  else s

/-- OTP controller: OTPC_STATUS, OTPC_WDATA (Table OTP-13). -/
def otpWrite (off : Nat) (v : Word) (s : State) : State :=
  let o := s.otp
  if off = 0x40000 then { s with otp := { o with
    marginal := wc s v 1 o.marginal, supplyAbort := wc s v 3 o.supplyAbort
    verifyFail := wc s v 4 o.verifyFail, lockRefused := wc s v 5 o.lockRefused } }
  else if off = 0x4000C then { s with otp := { o with wdata := v } }
  else s

/-- A fence channel: FENC_CH_STATUS, FENC_CH_OUTST_SEL (Table FENCE-12, R115). -/
def chanWrite (off : Nat) (v : Word) (s : State) : State :=
  let n := (off - 0x80000) / 0x100
  if off % 0x100 = 0 then updChan n (fun c => { c with
    tagFail := wc s v 0 c.tagFail, uerr := wc s v 1 c.uerr, sealedWrite := wc s v 2 c.sealedWrite, noKey := wc s v 3 c.noKey
    routeErr := wc s v 4 c.routeErr, resCid := wc s v 5 c.resCid, kbusErr := wc s v 6 c.kbusErr, parkFull := wc s v 7 c.parkFull }) s
  else if off % 0x100 = 0x2C then updChan n (fun c => { c with outstSel := v.setWidth 8 }) s
  else s

/-- The fence-wide registers; FENC_TOP_CFG until FREEZE (Tables FENCE-14 to FENCE-17). -/
def fenceWrite (off : Nat) (v : Word) (s : State) : State :=
  let f := s.fence
  if off = 0x80080 then
    if s.boot.frozen then s else { s with fence := { f with addrBits := v.setWidth 6, scrubShare := (v >>> 8).setWidth 4 } }
  else if off = 0x80084 then { s with fence := { f with lockGroups := v.setWidth 16 } }
  else if off = 0x8008C then { s with fence := { f with lockErr := wc s v 1 f.lockErr } }
  else if off = 0x80090 then { s with fence := { f with aborted := wc s v 21 f.aborted } }
  else chanWrite off v s

/-- A link engine: LNKF_STATUS, LNKF_LINK_CFG until FREEZE (Tables LINK-13, LINK-16, R143). -/
def engineWrite (off : Nat) (v : Word) (s : State) : State :=
  let e := (off - 0xA0000) / 0x200
  if off % 0x200 = 0 then updEng e (fun x => { x with
    unknownJob := wc s v 0 x.unknownJob, jobTag := wc s v 1 x.jobTag, hopTag := wc s v 2 x.hopTag
    notMember := wc s v 3 x.notMember, length := wc s v 4 x.length, closeTimeout := wc s v 5 x.closeTimeout
    quarantine := wc s v 6 x.quarantine, keyFail := wc s v 7 x.keyFail, egressRefused := wc s v 8 x.egressRefused }) s
  else if off % 0x200 = 0x24 ∧ s.boot.frozen = false then updEng e (fun x => { x with cls := v.setWidth 2 }) s
  else s

/-- The link-wide registers, until FREEZE (Tables LINK-18, LINK-19, R143). -/
def linkWrite (off : Nat) (v : Word) (s : State) : State :=
  if off < 0xAC000 then engineWrite off v s
  else if s.boot.frozen then s
  else if off = 0xAC000 then { s with link := { s.link with endpoint := v.setWidth 16 } }
  else if off = 0xAC004 then { s with link := { s.link with trusted := v.setWidth 4, plainOp := v.getLsbD 8 } }
  else s

/-- Greenhouse: GRNH_TOP_CFG until FREEZE, GRNH_STATUS (Tables GRNH-13, GRNH-16, R207). -/
def grnhWrite (off : Nat) (v : Word) (s : State) : State :=
  if off = 0xC0200 then (if s.boot.frozen then s else { s with grnh := { s.grnh with floor := v.setWidth 13 } })
  else if off % 0x400 = 0 then updGrEng ((off - 0xC0000) / 0x400) (fun e => { e with
    mismatch := wc s v 0 e.mismatch, drop := wc s v 1 e.drop, missing := wc s v 2 e.missing
    malformed := wc s v 3 e.malformed, untracked := wc s v 4 e.untracked, unowned := wc s v 5 e.unowned }) s
  else s

/-- A Pergola slice: PERG_STATUS, PERG_CFG, PERG_SEL (Tables PERG-8 to PERG-10, R356). -/
def pergWrite (off : Nat) (v : Word) (s : State) : State :=
  let d := (off - 0xD0000) / 0x100
  let o := off % 0x100
  if o = 0 then updSlice d (fun x => { x with
    saturated := wc s v 0 x.saturated, underflow := wc s v 1 x.underflow, drift := wc s v 2 x.drift, timeout := wc s v 3 x.timeout
    leftover := wc s v 4 x.leftover, badOp := wc s v 5 x.badOp, stampDrop := wc s v 6 x.stampDrop }) s
  else if o = 0x04 then updSlice d (fun x => { x with service := v.getLsbD 0, waitTicks := (v >>> 4).setWidth 24 }) s
  else if o = 0x28 then updSlice d (fun x => { x with sel := v.setWidth 14 }) s
  else s

/-- A spill queue: SPLQ_CFG and SPLQ_MID_BASE until host_fn_ready has risen, SPLQ_STATUS (Tables SPLQ-6, SPLQ-7, R370). -/
def splqWrite (off : Nat) (v : Word) (s : State) : State :=
  let q := (off - 0xE0000) / 0x20
  let o := off % 0x20
  if o = 8 then updQ q (fun x => { x with
    overrun := wc s v 3 x.overrun, notice := wc s v 4 x.notice, lenShort := wc s v 5 x.lenShort
    lenLong := wc s v 6 x.lenLong, midLost := wc s v 7 x.midLost }) s
  else if s.host.everReady then s
  else if o = 0 then updQ q (fun x => { x with midFrames := v.setWidth 6, timeout := (v >>> 8).setWidth 24 }) s
  else if o = 4 then updQ q (fun x => { x with midBase := v.setWidth 19 }) s
  else s

/-- The power manager: PWRM_STATUS, PWRM_CFG until host_fn_ready has risen (Table PWR-5). -/
def powerWrite (off : Nat) (v : Word) (s : State) : State :=
  let p := s.power
  if off = 0xF0000 then { s with power := { p with
    clipped := wc s v 0 p.clipped, thermal := wc s v 1 p.thermal, avsErr := wc s v 2 p.avsErr } }
  else if off = 0xF0004 ∧ s.host.everReady = false then { s with power := { p with
    vmax := v.setWidth 12, vfloor := (v >>> 12).setWidth 12, start := (v >>> 24).setWidth 4 } }
  else s

/-- A base address's low or high word. -/
def baseWrite (hi : Bool) (v : Word) (b : BitVec 64) : BitVec 64 :=
  if hi then v ++ b.setWidth 32 else (b >>> 32).setWidth 32 ++ ((v >>> 6) <<< 6)

/-- A host page: ring bases while ENABLE is 0 (R383), the sticky bits of both rings, HOST_CTX_SEL (Tables HOST-10, HOST-11). -/
def hostWrite (off : Nat) (v : Word) (s : State) : State :=
  let r := (off - 0x100000) / 0x1000
  let o := off % 0x1000
  if o = 0x000 ∨ o = 0x004 then
    updRing r (fun x => if x.enable then x else { x with base := baseWrite (decide (o = 4)) v x.base }) s
  else if o = 0x014 then updRing r (fun x => { x with
    dbErr := wc s v 2 x.dbErr, badDesc := wc s v 3 x.badDesc, fetchFault := wc s v 4 x.fetchFault }) s
  else if o = 0x020 ∨ o = 0x024 then
    updCpl r (fun x => if x.enable then x else { x with base := baseWrite (decide (o = 0x24)) v x.base }) s
  else if o = 0x034 then updCpl r (fun x => { x with
    eventLost := wc s v 1 x.eventLost, dbErr := wc s v 2 x.dbErr, writeFault := wc s v 3 x.writeFault }) s
  else if o = 0x850 then { s with host := { s.host with ctxSel := v.setWidth 8 } }
  else s

/-- Bandstand and the update engine (Tables UPDT-9 to UPDT-11). -/
def bandWrite (off : Nat) (v : Word) (s : State) : State :=
  let b := s.band
  let u := s.updt
  if off = 0x140000 then { s with band := { b with authFail := wc s v 4 b.authFail, rxDrop := wc s v 5 b.rxDrop } }
  else if off = 0x140004 then if gateOpen s 3 then s else { s with band := { b with port := v.setWidth 16, maxAssoc := (v >>> 16).setWidth 3 } }
  else if off = 0x140100 then { s with updt := { u with
    reject := wc s v 3 u.reject, trialFailed := wc s v 4 u.trialFailed, confirmed := wc s v 5 u.confirmed } }
  else s

/-- A context is KEYED or RUNNING (R85). -/
def anyScheduled (s : State) : Bool := s.ctxs.any (fun e => decide (e.2.state = .keyed) || decide (e.2.state = .running))

/-- A Lodge window: LDG_SWITCH_CFG under R85, LDG_SWITCH_ERR, LDG_PWR_CFG until host_fn_ready has risen, LDG_PWR_ERR (Tables
CTX-17, CTX-19, PWR-7). -/
def lodgeWrite (off : Nat) (v : Word) (s : State) : State :=
  let d := (off - 0x150000) / 0x1000
  let o := off % 0x1000
  if o = 0x100 then
    if anyScheduled s then s else updDie d (fun x => { x with bound := v.setWidth 13, saveKib := (v >>> 16).setWidth 12 }) s
  else if o = 0x108 then updDie d (fun x => { x with
    preemptLate := wc s v 0 x.preemptLate, clearLate := wc s v 1 x.clearLate
    restoreFail := wc s v 2 x.restoreFail, saveShort := wc s v 3 x.saveShort }) s
  else if o = 0x200 then
    if s.host.everReady then s else updPwr d (fun x => { x with mLo := v.setWidth 8, mHi := (v >>> 8).setWidth 8 }) s
  else if o = 0x210 then updPwr d (fun x => { x with
    errThermal := wc s v 0 x.errThermal, errAvs := wc s v 1 x.errAvs, errDroop := wc s v 2 x.errDroop }) s
  else s

/-- Sundial: REF_LOSS (Table ARCH-11). -/
def sundWrite (off : Nat) (v : Word) (s : State) : State :=
  if off = 0x180008 then { s with sund := { s.sund with refLoss := wc s v 0 s.sund.refLoss } } else s

/-! ## The write -/

/-- The effect of a write on its part. -/
def fieldWrite (off : Nat) (v : Word) (s : State) : State :=
  match partOf off with
  | .pavilion => pavWrite off v s
  | .orangery => orngWrite off v s
  | .belvedere => belvWrite off v s
  | .digest => dgstWrite off v s
  | .otp => otpWrite off v s
  | .boot => s
  | .fence => fenceWrite off v s
  | .link => linkWrite off v s
  | .greenhouse => grnhWrite off v s
  | .pergola => pergWrite off v s
  | .spill => splqWrite off v s
  | .power => powerWrite off v s
  | .host => hostWrite off v s
  | .bandstand => bandWrite off v s
  | .lodge => lodgeWrite off v s
  | .sundial => sundWrite off v s
  | .reserved => s

/-- OP in bits [2:0] of FENC_LOCK_CMD and OTPC_CMD names no command: 0, 6 or 7 (Tables FENCE-15, OTP-8). -/
def refusedOp (v : Word) : Bool := among (v.toNat % 8) [0, 6, 7]

/-- A write of a register whose commands have rows of their own, with a value that is none of them: refused outside the master's reach
(R418); within it FENC_LOCK_CMD sets ERR (R116), OTPC_CMD ends NOT_PERMITTED (R282), the others do nothing. -/
def ownWrite (m off : Nat) (v : Word) (s : State) : State :=
  guardWrite m off (fun s =>
    if off = 0x80088 ∧ refusedOp v = true then refuseLock s
    else if off = 0x40008 ∧ refusedOp v = true then otpCommand .none (otpStatus .notPermitted .none) s
    else s) s

/-- A register write: nothing at an unaligned, unlisted or reserved offset (R415). -/
def registerWriteEffect (m off : Nat) (v : Word) (s : State) : State :=
  if off % 4 ≠ 0 ∨ listedReg off = false then s
  else if ownCommand off then ownWrite m off v s
  else guardWrite m off (fieldWrite off v) s
/-- REGISTER_WRITE. -/
def execRegisterWrite (m : Fin 39) (off : BitVec 24) (v : Word) (s : State) : Result :=
  .next (registerWriteEffect m.val off.toNat v s)

end Sys2Proof.Machine
end

