-- ==== Sys2Proof/Machine/Spill.lean ====
section
/-! DEFINITION. The commands of the spill queues (16_spill_queues.md): producer entries, consumer reads, bursts of the
middle, idle notices, short packets. -/

namespace Sys2Proof.Machine

/-- A core's write at its die's context-private port (R358): the stamp selects the queue; a write under CID 0 or 255 is
discarded and counted in CNT_DROP of queue 0. -/
def ctxPrivateEntry (die core : Nat) (e : QEntry) (s : State) : State :=
  let d := dieOf s die
  if !d.rstN then s
  else if d.stampCid = 0 ∨ d.stampCid = 255 then updQ 0 (fun q => { q with drop := satAdd q.drop 1 }) s
  else (writeQ (65 + d.stampCid) (320 * die + core) none (BitVec.ofNat 6 d.stampVdie) e.last (fit 63 e.payload) s).1

/-- PRODUCER that a port writes into the tag, whatever its unit gives (Table SPLQ-2): 0 at a Lodge service queue, the source kind
at queues 0 and 1, whose ports bear the number of their unit's kind (log 145). -/
def portProducer (q port : Nat) : BitVec 6 := if q ≤ 1 then BitVec.ofNat 6 port else 0

/-- One producer entry (R360, R361). No port reaches a context-private queue by its number (R358). -/
def entryEffect (p : QPort) (e : QEntry) (s : State) : State :=
  match p with
  | .ctxPrivate die core => ctxPrivateEntry die.val core.val e s
  | .queue q port _ =>
    if 2 ≤ q.val ∧ q.val ≤ 33 then receiptEffect (q.val - 2) port.val [e] s
    else if 66 ≤ q.val then s
    else (writeQ q.val port.val none (portProducer q.val port.val) e.last (fit 63 e.payload) s).1
/-- SPLQ_ENTRY_WRITE. -/
def execSplqEntryWrite (p : QPort) (e : QEntry) (s : State) : Result := .next (entryEffect p e s)

/-- Control firmware keeps what it reads from queues 0 and 1 in stores of 16,384 and 4,096 records, and numbers them
(R406). -/
def storeRecord (q : Nat) (entry : Bytes) (s : State) : State :=
  if q = 0 then
    { s with pav := { s.pav with
      flog := (s.pav.flog ++ [entry]).drop (s.pav.flog.length + 1 - 16384), flogSeq := s.pav.flogSeq + 1 } }
  else if q = 1 then
    { s with pav := { s.pav with
      events := (s.pav.events ++ [entry]).drop (s.pav.events.length + 1 - 4096), eventSeq := s.pav.eventSeq + 1 } }
  else s

/-- A line of the middle at the fence's internal port under CID 0 (R87, R365): a read, or a write of an entry's bytes. -/
def middleReq (q : SpillQ) (write : Bool) (i : QItem) : ChanReq :=
  ⟨.internal .spill, midLine q i.pos, 0, 0, 0, if write then some (BitVec.ofNat 512 (leVal (entryBytes i))) else none, 0⟩

/-- A consumer read (R363): the next entry of the earliest-committed packet, or an entry of zero bytes; an entry that stands in
the middle is read back by its own line (log 130). -/
def consumerReadEffect (q : Nat) (s : State) : State :=
  match popEntry s.tick (qOf s q) with
  | (none, q') => emit (.queueEntry q (zeros 64)) (putQ q q' s)
  | (some i, q') =>
    let s1 := if i.loc = .middle then wholeLine (middleReq (qOf s q) false i) s else s
    storeRecord q (entryBytes i) (emit (.queueEntry q (entryBytes i)) (putQ q q' s1))
/-- CONSUMER_READ. -/
def execConsumerRead (q : Fin 320) (s : State) : Result := .next (consumerReadEffect q.val s)

/-- The burst in flight is acknowledged line by line and counts as in the middle (R365); one that a channel refuses stays on its
way. -/
def burstDoneEffect (q : Nat) (s : State) : State :=
  let x := qOf s q
  let rs := (itemsAt x .spilling).map (middleReq x true)
  let s1 := rs.foldl (fun s r => wholeLine r s) s
  if rs.all (fun r => decide (selectRow s (lineChan r.line) r = .ok)) && !rs.isEmpty then putQ q (burstDone (qOf s1 q)) s1 else s1
/-- SPILL_BURST_DONE. -/
def execSpillBurstDone (q : Fin 320) (s : State) : Result := .next (burstDoneEffect q.val s)

/-- The lines that a queue reads back. -/
def middleReads (s : State) (q : Nat) : List ChanReq := (itemsAt (qOf s q) .fetching).map (middleReq (qOf s q) false)

/-- The entries read back enter the head (R365); where a line is refused or fails, which has its row's effect (R106), none of
them does (R366). -/
def middleReadEffect (q : Nat) (x : LineReads) (s : State) : State :=
  let rs := middleReads s q
  if rs.isEmpty then s
  else
    let o := readsOutcome s rs x
    let s1 := readLines rs o s
    if o.status = .ok then putQ q (fetchDone (qOf s1 q)) s1 else updQ q (fun x => { x with midFail := true }) s1
/-- MIDDLE_READ_DONE. -/
def execMiddleReadDone (q : Fin 320) (reads : LineReads) (s : State) : Result := .next (middleReadEffect q.val reads s)

/-- A queue with committed entries that no read has reached for TIMEOUT_TICKS (R369). -/
def noticeEffect (q : Nat) (s : State) : State :=
  let x := qOf s q
  if !x.order.isEmpty && decide (x.lastRead + qTimeout x ≤ s.tick) then
    emit (.consumerSignal q) (updQ q (fun x => { x with notice := raise s.tick x.notice, lastRead := s.tick }) (grantTimer s))
  else s
/-- SPLQ_TIMEOUT_NOTICE. -/
def execSplqTimeoutNotice (q : Fin 320) (s : State) : Result := .next (noticeEffect q.val s)

/-- An open packet without a further entry for TIMEOUT_TICKS fails with LENGTH_SHORT (R368). -/
def shortTimeoutEffect (q port : Nat) (s : State) : State :=
  match openOf (qOf s q) port with
  | none => s
  | some o =>
    if o.lastTick + qTimeout (qOf s q) ≤ s.tick then
      let r : QResult := .short o.pin
      answerLost q r (reportQ q r (putQ q (shortOpen s.tick o (qOf s q)) (grantTimer s)))
    else s
/-- PACKET_SHORT_TIMEOUT. -/
def execPacketShortTimeout (q : Fin 320) (port : Nat) (s : State) : Result := .next (shortTimeoutEffect q.val port s)

end Sys2Proof.Machine
end

