-- ==== Sys2Proof/Machine/Dispatch.lean ====
section
/-! DEFINITION. One arm per command of the table, each one direct call of its meaning. -/

namespace Sys2Proof.Machine

/-- What a command does to everything but the queue. -/
def exec (i : Instr) (s : State) : Host.Outcome State Fault Refusal :=
  match i with
  | .tamperZeroize => Sys2Proof.Machine.execTamperZeroize s
  | .tamperRelease => Sys2Proof.Machine.execTamperRelease s
  | .supplyAlarm => Sys2Proof.Machine.execSupplyAlarm s
  | .supplyRelease => Sys2Proof.Machine.execSupplyRelease s
  | .supplyResetTimeout => Sys2Proof.Machine.execSupplyResetTimeout s
  | .coldReset => Sys2Proof.Machine.execColdReset s
  | .blockReset => Sys2Proof.Machine.execBlockReset s
  | .lockstepMismatch pair => Sys2Proof.Machine.execLockstepMismatch pair s
  | .resetDelayExpiry => Sys2Proof.Machine.execResetDelayExpiry s
  | .refLoss => Sys2Proof.Machine.execRefLoss s
  | .refRelock => Sys2Proof.Machine.execRefRelock s
  | .lockedChangeCommit => Sys2Proof.Machine.execLockedChangeCommit s
  | .sundTickLoRead master => Sys2Proof.Machine.execSundTickLoRead master s
  | .orngZeroTickLoRead master => Sys2Proof.Machine.execOrngZeroTickLoRead master s
  | .hostPerfLoRead master page perCtx idx => Sys2Proof.Machine.execHostPerfLoRead master page perCtx idx s
  | .registerWrite master offset value => Sys2Proof.Machine.execRegisterWrite master offset value s
  | .ctxCreate h => Sys2Proof.Machine.execCtxCreate h s
  | .ctxKeyImport h => Sys2Proof.Machine.execCtxKeyImport h s
  | .ctxFrameBind h => Sys2Proof.Machine.execCtxFrameBind h s
  | .ctxFrameRelease h => Sys2Proof.Machine.execCtxFrameRelease h s
  | .ctxPrefixSeal h => Sys2Proof.Machine.execCtxPrefixSeal h s
  | .ctxSchedule h => Sys2Proof.Machine.execCtxSchedule h s
  | .ctxDrain h => Sys2Proof.Machine.execCtxDrain h s
  | .ctxDestroy h => Sys2Proof.Machine.execCtxDestroy h s
  | .mgmtCtxDrain m => Sys2Proof.Machine.execMgmtCtxDrain m s
  | .mgmtCtxDestroy m => Sys2Proof.Machine.execMgmtCtxDestroy m s
  | .attestEvidence h => Sys2Proof.Machine.execAttestEvidence h s
  | .verifyPolicy h => Sys2Proof.Machine.execVerifyPolicy h s
  | .verifyReport h => Sys2Proof.Machine.execVerifyReport h s
  | .jobLinkOpen h => Sys2Proof.Machine.execJobLinkOpen h s
  | .jobLinkClose h => Sys2Proof.Machine.execJobLinkClose h s
  | .scrubFrames h => Sys2Proof.Machine.execScrubFrames h s
  | .mgmtScrubFrames m frames => Sys2Proof.Machine.execMgmtScrubFrames m frames s
  | .powerPolicy h => Sys2Proof.Machine.execPowerPolicy h s
  | .debugConsent h => Sys2Proof.Machine.execDebugConsent h s
  | .pfxCreate cid => Sys2Proof.Machine.execPfxCreate cid s
  | .pfxJoin cid => Sys2Proof.Machine.execPfxJoin cid s
  | .pfxLeave cid => Sys2Proof.Machine.execPfxLeave cid s
  | .cmrExtend cid => Sys2Proof.Machine.execCmrExtend cid s
  | .groupRetired g => Sys2Proof.Machine.execGroupRetired g s
  | .integrityFault unit => Sys2Proof.Machine.execIntegrityFault unit s
  | .fencedToDestroying cid => Sys2Proof.Machine.execFencedToDestroying cid s
  | .drainCountsZero cid => Sys2Proof.Machine.execDrainCountsZero cid s
  | .drainFinish cid => Sys2Proof.Machine.execDrainFinish cid s
  | .drainTimeout cid => Sys2Proof.Machine.execDrainTimeout cid s
  | .destroyWaitTimeout cid => Sys2Proof.Machine.execDestroyWaitTimeout cid s
  | .destroyZeroise cid => Sys2Proof.Machine.execDestroyZeroise cid s
  | .destroyScrubDone cid => Sys2Proof.Machine.execDestroyScrubDone cid s
  | .cooldownExpiry cid => Sys2Proof.Machine.execCooldownExpiry cid s
  | .consentExpiry cid => Sys2Proof.Machine.execConsentExpiry cid s
  | .counterRefresh => Sys2Proof.Machine.execCounterRefresh s
  | .sliceExpiry die => Sys2Proof.Machine.execSliceExpiry die s
  | .saveComplete die => Sys2Proof.Machine.execSaveComplete die s
  | .ctxClearAck die => Sys2Proof.Machine.execCtxClearAck die s
  | .ctxClearTimeout die => Sys2Proof.Machine.execCtxClearTimeout die s
  | .stampDone die reads headers => Sys2Proof.Machine.execStampDone die reads headers s
  | .preemptTimeout die => Sys2Proof.Machine.execPreemptTimeout die s
  | .coreReset die core => Sys2Proof.Machine.execCoreReset die core s
  | .partialReset die => Sys2Proof.Machine.execPartialReset die s
  | .heartbeatMissed die => Sys2Proof.Machine.execHeartbeatMissed die s
  | .ldgHeartbeat master die value => Sys2Proof.Machine.execLdgHeartbeat master die value s
  | .dieReloadDone die image => Sys2Proof.Machine.execDieReloadDone die image s
  | .dieReloadTimeout die => Sys2Proof.Machine.execDieReloadTimeout die s
  | .blockResetRequest master value => Sys2Proof.Machine.execBlockResetRequest master value s
  | .dieResetRequest master value => Sys2Proof.Machine.execDieResetRequest master value s
  | .fenceReadRequest r => Sys2Proof.Machine.execFenceReadRequest r s
  | .fenceWriteRequest r data => Sys2Proof.Machine.execFenceWriteRequest r data s
  | .mcResponse ch data metaTag uerr => Sys2Proof.Machine.execMcResponse ch data metaTag uerr s
  | .mcWack ch pos => Sys2Proof.Machine.execMcWack ch pos s
  | .fillRequest f => Sys2Proof.Machine.execFillRequest f s
  | .fenceFillMessage drop msg => Sys2Proof.Machine.execFenceFillMessage drop msg s
  | .jobFillMessage drop msg => Sys2Proof.Machine.execJobFillMessage drop msg s
  | .samplingKeyFillMessage drop msg => Sys2Proof.Machine.execSamplingKeyFillMessage drop msg s
  | .pushMessage drop msg => Sys2Proof.Machine.execPushMessage drop msg s
  | .pushAckTimeout drop => Sys2Proof.Machine.execPushAckTimeout drop s
  | .scrubFrameDone frame => Sys2Proof.Machine.execScrubFrameDone frame s
  | .lockInvalidatePairs master id mask => Sys2Proof.Machine.execLockInvalidatePairs master id mask s
  | .lockInvalidateCid master id => Sys2Proof.Machine.execLockInvalidateCid master id s
  | .lockInvalidateGroup master id => Sys2Proof.Machine.execLockInvalidateGroup master id s
  | .lockSealGroup master id => Sys2Proof.Machine.execLockSealGroup master id s
  | .lockInvalidateAll master => Sys2Proof.Machine.execLockInvalidateAll master s
  | .linkEgressBeat engine cid job data => Sys2Proof.Machine.execLinkEgressBeat engine cid job data s
  | .egressFrameClose engine => Sys2Proof.Machine.execEgressFrameClose engine s
  | .linkIngressFrame engine beats frame => Sys2Proof.Machine.execLinkIngressFrame engine beats frame s
  | .jobTagThreshold j => Sys2Proof.Machine.execJobTagThreshold j s
  | .hopTagThreshold engine => Sys2Proof.Machine.execHopTagThreshold engine s
  | .lnkUpRise engine => Sys2Proof.Machine.execLnkUpRise engine s
  | .lnkUpFall engine => Sys2Proof.Machine.execLnkUpFall engine s
  | .hopHello engine m => Sys2Proof.Machine.execHopHello engine m s
  | .hopCert engine chain => Sys2Proof.Machine.execHopCert engine chain s
  | .hopEncap engine ct sig => Sys2Proof.Machine.execHopEncap engine ct sig s
  | .hopFinish engine mac => Sys2Proof.Machine.execHopFinish engine mac s
  | .keyingTimeout engine => Sys2Proof.Machine.execKeyingTimeout engine s
  | .linkRetryTimer engine => Sys2Proof.Machine.execLinkRetryTimer engine s
  | .hseqRekeyThreshold engine => Sys2Proof.Machine.execHseqRekeyThreshold engine s
  | .linkRekey m => Sys2Proof.Machine.execLinkRekey m s
  | .rekeyRetryTimer engine => Sys2Proof.Machine.execRekeyRetryTimer engine s
  | .oldPhaseExpiry engine => Sys2Proof.Machine.execOldPhaseExpiry engine s
  | .join m => Sys2Proof.Machine.execJoin m s
  | .grant m => Sys2Proof.Machine.execGrant m s
  | .memberKeyingTimeout j => Sys2Proof.Machine.execMemberKeyingTimeout j s
  | .jobClose engine job => Sys2Proof.Machine.execJobClose engine job s
  | .closeAck engine job => Sys2Proof.Machine.execCloseAck engine job s
  | .closeTimerExpiry engine j => Sys2Proof.Machine.execCloseTimerExpiry engine j s
  | .jobOpenOp m jobId leader leaderEp plain ranges => Sys2Proof.Machine.execJobOpenOp m jobId leader leaderEp plain ranges s
  | .jobCloseOp m => Sys2Proof.Machine.execJobCloseOp m s
  | .receipt die core entries => Sys2Proof.Machine.execReceipt die core entries s
  | .samplingDecision die => Sys2Proof.Machine.execSamplingDecision die s
  | .opBegin die => Sys2Proof.Machine.execOpBegin die s
  | .opEnd die => Sys2Proof.Machine.execOpEnd die s
  | .outputCopyDone die slot f => Sys2Proof.Machine.execOutputCopyDone die slot f s
  | .checkVerdict die slot => Sys2Proof.Machine.execCheckVerdict die slot s
  | .checkDrop die slot => Sys2Proof.Machine.execCheckDrop die slot s
  | .add op => Sys2Proof.Machine.execAdd op s
  | .sub op => Sys2Proof.Machine.execSub op s
  | .waitGe op => Sys2Proof.Machine.execWaitGe op s
  | .waitSub op => Sys2Proof.Machine.execWaitSub op s
  | .read op => Sys2Proof.Machine.execRead op s
  | .set op => Sys2Proof.Machine.execSet op s
  | .realign op => Sys2Proof.Machine.execRealign op s
  | .ringOperation home => Sys2Proof.Machine.execRingOperation home s
  | .waitTimeout die core => Sys2Proof.Machine.execWaitTimeout die core s
  | .splqEntryWrite p e => Sys2Proof.Machine.execSplqEntryWrite p e s
  | .consumerRead q => Sys2Proof.Machine.execConsumerRead q s
  | .spillBurstDone q => Sys2Proof.Machine.execSpillBurstDone q s
  | .middleReadDone q reads => Sys2Proof.Machine.execMiddleReadDone q reads s
  | .splqTimeoutNotice q => Sys2Proof.Machine.execSplqTimeoutNotice q s
  | .packetShortTimeout q port => Sys2Proof.Machine.execPacketShortTimeout q port s
  | .schedule die => Sys2Proof.Machine.execSchedule die s
  | .drain die => Sys2Proof.Machine.execDrain die s
  | .fence die => Sys2Proof.Machine.execFence die s
  | .destroy die => Sys2Proof.Machine.execDestroy die s
  | .reload die => Sys2Proof.Machine.execReload die s
  | .powerLoop die r => Sys2Proof.Machine.execPowerLoop die r s
  | .thermalLimit die => Sys2Proof.Machine.execThermalLimit die s
  | .powerCap m watts => Sys2Proof.Machine.execPowerCap m watts s
  | .powerTelemetryRefresh => Sys2Proof.Machine.execPowerTelemetryRefresh s
  | .remask slot => Sys2Proof.Machine.execRemask slot s
  | .entropyBlock raw => Sys2Proof.Machine.execEntropyBlock raw s
  | .drbgReseed => Sys2Proof.Machine.execDrbgReseed s
  | .generateQueueTimeout => Sys2Proof.Machine.execGenerateQueueTimeout s
  | .blobLoad target blob => Sys2Proof.Machine.execBlobLoad target blob s
  | .blobExport slot cid perBoot => Sys2Proof.Machine.execBlobExport slot cid perBoot s
  | .derive d => Sys2Proof.Machine.execDerive d s
  | .zeroise slot cid => Sys2Proof.Machine.execZeroise slot cid s
  | .compare slot cid value => Sys2Proof.Machine.execCompare slot cid value s
  | .keyCheckValue slot => Sys2Proof.Machine.execKeyCheckValue slot s
  | .keyLoadVerified load => Sys2Proof.Machine.execKeyLoadVerified load s
  | .keyLoadCommit load => Sys2Proof.Machine.execKeyLoadCommit load s
  | .kbusEstablish => Sys2Proof.Machine.execKbusEstablish s
  | .kbusConfirmation drop pub conf => Sys2Proof.Machine.execKbusConfirmation drop pub conf s
  | .digestHash requester desc => Sys2Proof.Machine.execDigestHash requester desc s
  | .hmacGen requester cid desc => Sys2Proof.Machine.execHmacGen requester cid desc s
  | .hmacCheck requester cid desc => Sys2Proof.Machine.execHmacCheck requester cid desc s
  | .dgstPreempted engine processed => Sys2Proof.Machine.execDgstPreempted engine processed s
  | .digestDone engine data expected => Sys2Proof.Machine.execDigestDone engine data expected s
  | .dgstReadTimeout engine => Sys2Proof.Machine.execDgstReadTimeout engine s
  | .dgst0ImageEnd => Sys2Proof.Machine.execDgst0ImageEnd s
  | .unitEn master value => Sys2Proof.Machine.execUnitEn master value s
  | .program master word v => Sys2Proof.Machine.execProgram master word v s
  | .lock master region input => Sys2Proof.Machine.execLock master region input s
  | .thermoAdvance master counter v => Sys2Proof.Machine.execThermoAdvance master counter v s
  | .genUds master v => Sys2Proof.Machine.execGenUds master v s
  | .lcycAdvance master target v => Sys2Proof.Machine.execLcycAdvance master target v s
  | .mgmtLcycAdvance m target v => Sys2Proof.Machine.execMgmtLcycAdvance m target v s
  | .otpPulseEnd failed => Sys2Proof.Machine.execOtpPulseEnd failed s
  | .overrideWrite master e word valid value => Sys2Proof.Machine.execOverrideWrite master e word valid value s
  | .otpSensingDone reads => Sys2Proof.Machine.execOtpSensingDone reads s
  | .bootRomStart => Sys2Proof.Machine.execBootRomStart s
  | .drbgReady => Sys2Proof.Machine.execDrbgReady s
  | .slotSelection => Sys2Proof.Machine.execSlotSelection s
  | .verified => Sys2Proof.Machine.execVerified s
  | .bootAttemptFail => Sys2Proof.Machine.execBootAttemptFail s
  | .bootAttemptTimeout => Sys2Proof.Machine.execBootAttemptTimeout s
  | .deferredCheckDone part => Sys2Proof.Machine.execDeferredCheckDone part s
  | .freeze master value => Sys2Proof.Machine.execFreeze master value s
  | .freezeTimeout => Sys2Proof.Machine.execFreezeTimeout s
  | .belvedereSequenceDone => Sys2Proof.Machine.execBelvedereSequenceDone s
  | .ready => Sys2Proof.Machine.execReady s
  | .pottingShed => Sys2Proof.Machine.execPottingShed s
  | .announce => Sys2Proof.Machine.execAnnounce s
  | .pottingData mac offset data => Sys2Proof.Machine.execPottingData mac offset data s
  | .pottingEnd mac length => Sys2Proof.Machine.execPottingEnd mac length s
  | .pottingShedTransferTimeout => Sys2Proof.Machine.execPottingShedTransferTimeout s
  | .signingDone => Sys2Proof.Machine.execSigningDone s
  | .mrExtend m reg d => Sys2Proof.Machine.execMrExtend m reg d s
  | .getVersion p => Sys2Proof.Machine.execGetVersion p s
  | .getCapabilities p => Sys2Proof.Machine.execGetCapabilities p s
  | .negotiateAlgorithms p base => Sys2Proof.Machine.execNegotiateAlgorithms p base s
  | .getDigests p => Sys2Proof.Machine.execGetDigests p s
  | .getCertificate p slot offset length => Sys2Proof.Machine.execGetCertificate p slot offset length s
  | .challenge p slot nonce summary => Sys2Proof.Machine.execChallenge p slot nonce summary s
  | .getMeasurements p index signed nonce => Sys2Proof.Machine.execGetMeasurements p index signed nonce s
  | .keyExchange p session ecdh => Sys2Proof.Machine.execKeyExchange p session ecdh s
  | .spdmFinish p session mac => Sys2Proof.Machine.execSpdmFinish p session mac s
  | .spdmUnsupportedRequest p code => Sys2Proof.Machine.execSpdmUnsupportedRequest p code s
  | .sessionIdleTimeout t session => Sys2Proof.Machine.execSessionIdleTimeout t session s
  | .doeDiscovery index => Sys2Proof.Machine.execDoeDiscovery index s
  | .doeAbort => Sys2Proof.Machine.execDoeAbort s
  | .doeObjectTimeout => Sys2Proof.Machine.execDoeObjectTimeout s
  | .dtlsHandshake hello transcript sig => Sys2Proof.Machine.execDtlsHandshake hello transcript sig s
  | .associationIdleTimeout a => Sys2Proof.Machine.execAssociationIdleTimeout a s
  | .bootingDatagram => Sys2Proof.Machine.execBootingDatagram s
  | .icmpv6Request echo msg => Sys2Proof.Machine.execIcmpv6Request echo msg s
  | .mctpMessageTimeout late => Sys2Proof.Machine.execMctpMessageTimeout late s
  | .getInfo m => Sys2Proof.Machine.execGetInfo m s
  | .keygenEpoch m chain sig v => Sys2Proof.Machine.execKeygenEpoch m chain sig v s
  | .ctxMemoryRead m cid ksel addr length => Sys2Proof.Machine.execCtxMemoryRead m cid ksel addr length s
  | .settingsWrite m block => Sys2Proof.Machine.execSettingsWrite m block s
  | .updtConfirm m => Sys2Proof.Machine.execUpdtConfirm m s
  | .autoConfirmExpiry => Sys2Proof.Machine.execAutoConfirmExpiry s
  | .updtDiscard m => Sys2Proof.Machine.execUpdtDiscard m s
  | .eventsRead m start => Sys2Proof.Machine.execEventsRead m start s
  | .faultLogRead m start => Sys2Proof.Machine.execFaultLogRead m start s
  | .queryDeviceIdentifiers p => Sys2Proof.Machine.execQueryDeviceIdentifiers p s
  | .getFirmwareParameters p => Sys2Proof.Machine.execGetFirmwareParameters p s
  | .requestUpdate p => Sys2Proof.Machine.execRequestUpdate p s
  | .passComponentTable p component => Sys2Proof.Machine.execPassComponentTable p component s
  | .updateComponent p component size => Sys2Proof.Machine.execUpdateComponent p component size s
  | .firmwareData p offset data => Sys2Proof.Machine.execFirmwareData p offset data s
  | .firmwareDataTimeout => Sys2Proof.Machine.execFirmwareDataTimeout s
  | .stagingDone => Sys2Proof.Machine.execStagingDone s
  | .activateFirmware p => Sys2Proof.Machine.execActivateFirmware p s
  | .getStatus p => Sys2Proof.Machine.execGetStatus p s
  | .cancelUpdateComponent p => Sys2Proof.Machine.execCancelUpdateComponent p s
  | .cancelUpdate p => Sys2Proof.Machine.execCancelUpdate p s
  | .hostCmdDb master page value => Sys2Proof.Machine.execHostCmdDb master page value s
  | .hostCplDb master page value => Sys2Proof.Machine.execHostCplDb master page value s
  | .commandRingEnable master page value => Sys2Proof.Machine.execCommandRingEnable master page value s
  | .completionRingEnable master page value => Sys2Proof.Machine.execCompletionRingEnable master page value s
  | .chainTimeout ring h => Sys2Proof.Machine.execChainTimeout ring h s
  | .descriptorFetchFault ring => Sys2Proof.Machine.execDescriptorFetchFault ring s
  | .completionWriteFault ring => Sys2Proof.Machine.execCompletionWriteFault ring s
  | .bufferAccessTimeout late => Sys2Proof.Machine.execBufferAccessTimeout late s
  | .coalescingTimer ring => Sys2Proof.Machine.execCoalescingTimer ring s
  | .hostFlr => Sys2Proof.Machine.execHostFlr s
  | .hostFnReady => Sys2Proof.Machine.execHostFnReady s
  | .operandFetchDone die slot f => Sys2Proof.Machine.execOperandFetchDone die slot f s
  | .lodgeReadyTimeout die => Sys2Proof.Machine.execLodgeReadyTimeout die s
  | .programmingSupplyAbort v burned => Sys2Proof.Machine.execProgrammingSupplyAbort v burned s
  | .doeObjectError type declared length => Sys2Proof.Machine.execDoeObjectError type declared length s
  | .hostUnlistedOpcode h opcode => Sys2Proof.Machine.execHostUnlistedOpcode h opcode s
  | .mgmtUnlistedOpcode m opcode => Sys2Proof.Machine.execMgmtUnlistedOpcode m opcode s
  | .pldmUnsupportedCommand p code => Sys2Proof.Machine.execPldmUnsupportedCommand p code s
  | .contextPrivateBadPacket cid => Sys2Proof.Machine.execContextPrivateBadPacket cid s
  | .pergolaNullOperation op => Sys2Proof.Machine.execPergolaNullOperation op s
  | .bandstandFrameDropped => Sys2Proof.Machine.execBandstandFrameDropped s
  | .sgmiiLinkChange up => Sys2Proof.Machine.execSgmiiLinkChange up s

end Sys2Proof.Machine
end

