-- ==== Sys2Proof/Safety.lean ====
section
/-! DEFINITION. The terms the statements use: the canonical form of the state's maps, the conditions under which a command is
taken and passes the checks of its path, and the answers a command leaves at the ports. -/

namespace Sys2Proof.Machine

/-! ## Canonical form -/

/-- Every array of the block is a map in canonical form: keys strictly rising, no entry that equals its reset value. -/
def canonical (s : State) : Bool :=
  mapWf {} s.ctxs && mapWf {} s.groups && mapWf {} s.frames && mapWf {} s.dies && mapWf {} s.splq && mapWf {} s.orng.slots &&
  mapWf {} s.orng.drops && mapWf {} s.fence.chans && mapWf {} s.link.engines && mapWf {} s.link.jobs && mapWf {} s.perg.slices &&
  mapWf {} s.grnh.engines && mapWf {} s.dgst.engines && mapWf 0 s.otp.array && mapWf 0xff s.flash && mapWf {} s.host.rings &&
  mapWf {} s.host.cpls && mapWf {} s.power.dies

/-- The semaphores a slice holds and the backing blocks are in canonical form, and every value has at most 20 bits (R338). -/
def semsOk (m : NMap Nat) : Bool := mapWf 0 m && m.all (fun e => decide (e.2 < 2 ^ 20))

/-- Every semaphore of every slice, and every backing block, holds at most 20 bits (R338, R340). -/
def semaphoresOk (s : State) : Bool :=
  mapWf {} s.perg.slices && mapWf {} s.ctxs && s.perg.slices.all (fun e => semsOk e.2.sems) && s.ctxs.all (fun e => semsOk e.2.backing)

/-- The measurement registers of a context are in canonical form. -/
def cmrsOk (s : State) (c : Nat) : Bool := mapWf (zeros 48) (ctxOf s c).cmr

/-- The record stores hold what R406 lets them hold. -/
def storesBounded (s : State) : Bool := decide (s.pav.flog.length ≤ 16384) && decide (s.pav.events.length ≤ 4096)

/-! ## Grants (R21) -/

/-- Sundial after one grant of class 8, engine requests. -/
def granted8 (s : State) : Sund := { s.sund with ptr8 := (s.sund.ptr8 + 1) % 640 }

/-- Sundial after one grant of class 9, timers. -/
def granted9 (s : State) : Sund := { s.sund with ptr9 := (s.sund.ptr9 + 1) % 702 }

/-! ## Paths -/

/-- The numbers of the host commands in progress lie below the next one. -/
def idsFresh (s : State) : Bool := s.host.inProg.all (fun x => decide (x.id < s.host.nextId))

/-- A host command that is taken (R385) and not turned away by a tamper (R412) or an activation (R326), and that passes the
checks of R390; its number is fresh. -/
def hostOk (op : HostOp) (h : HostCmd) (s : State) : Bool :=
  canTake h s && !s.pav.tamper && !s.updt.hold && (intakeCheck op h s).isNone && idsFresh s

/-- Every key load under way holds the pending halves of its slots (Table ORNG-8). -/
def loadsHeld (s : State) : Bool := s.orng.loads.all (fun l => l.slots.all (fun n => (slotOf s n).pending))

/-- The vault serves a draw (R251, R252): the DRBG runs, and no reseed waits for a healthy block. -/
def drawReady (s : State) : Bool := s.orng.ready && !genWaits s

/-- A record of an established association can reach the block: no supply alarm or tamper, an image booted, the management gate
open (R315, R412, R413). -/
def overBand (a : Fin 4) (s : State) : Bool :=
  s.pav.supply.isNone && !s.pav.tamper && decide (s.boot.phase ≠ 7) && gateOpen s 3 && !s.belv.publicOnly &&
  (mapGet none s.band.assocs a.val).isSome

/-- A management command that its path lets through (R315 to R317, R412, R413). -/
def mgmtOk (m : MgmtHdr) (s : State) : Bool := overBand m.assoc s && m.vendor && !tagBusy s m.tag.val

/-- Bandstand after a record of an association: its idle time starts again (R315). -/
def heard (a : Fin 4) (s : State) : Band := { s.band with assocs := mapSet none s.band.assocs a.val (some s.tick) }

/-- A unit's record can be written at a queue: the queue is not full at its least capacity, ignores no port, and no packet of
a unit's port is open. -/
def roomAt (s : State) (q : Nat) : Bool :=
  decide ((qOf s q).items.length < 64) && (qOf s q).ignoring.isEmpty && (qOf s q).opens.all (fun o => decide (o.port < 1000))

/-- Outputs sent by a command that led from `s` to `t`. -/
def newOuts (s t : State) : List Out := t.outs.drop s.outs.length

/-- A completion with a status and the descriptor's TAG has been written (Table HOST-4). -/
def completed (s t : State) (h : HostCmd) (st : Status) : Bool :=
  (newOuts s t).any (fun o => match o with
    | .completion _ _ b => decide (leAt b 0 2 = (statusCode st).toNat) && decide (leAt b 2 2 = h.tag.toNat)
    | _ => false)

/-- A management reply with a status has been sent for a tag (R317). -/
def replied (s t : State) (m : MgmtHdr) (st : Status) : Bool :=
  (newOuts s t).any (fun o => match o with
    | .mgmtReply tag _ x _ _ _ => decide (tag = m.tag.val) && decide (x = st)
    | _ => false)

/-- A record with a status stands as the newest entry written at queue 0 or 1 (R405). -/
def recorded (t : State) (q : Nat) (st : Status) : Bool :=
  match (qOf t q).items.getLast? with
  | some i => decide (leAt i.payload 0 2 = (statusCode st).toNat)
  | none => false

/-! ## Memory fence -/

/-- A command's request as the channel holds it; a read carries no data, and a digest engine's read its request's number. -/
def asReq (s : State) (r : FenceReq) (d : Option (BitVec 512)) : ChanReq :=
  ⟨r.port, r.line.toNat, r.cid.val, r.ksel.val, r.tag.toNat, d, if d.isNone then readOwner s r.port else 0⟩

/-- A request that passes rows 1 to 3 of Table FENCE-7: its port is served, its CID may use it, the line belongs to the
channel, the CID is not refused; no zeroisation is in force. -/
def passesRows (ch : Nat) (q : ChanReq) (s : State) : Bool :=
  (isInternal q || (gateOpen s 1 && decide (q.cid ≠ 0) && decide (q.cid ≠ 255))) && (isWrite q || decide (q.cid ≠ 255)) &&
  routeOk s ch q.line && !cidRefused s ch q.cid && !s.pav.tamper

/-- A channel after the acceptance of a request whose key is in its cache. -/
def hitChan (c : Chan) (q : ChanReq) (e : KcEntry) : Chan :=
  { c with counts := mapMod 0 c.counts q.cid (· + 1), entries := touchEntry e c.entries, hit := satAdd c.hit 1 }

/-! ## Register writes -/

/-- The registers of the window that software only reads (the RO rows of Tables REGS-4 to REGS-19), in the parts whose other
registers control firmware writes. -/
def readOnlyReg (off : Nat) : Bool :=
  let words := fun (lo hi x : Nat) => decide (lo ≤ x) && decide (x ≤ hi) && decide (x % 4 = 0)
  match partOf off with
  | .pavilion => among off [0x04, 0x10, 0x1C] || words 0x1000 0x17FC off
  | .orangery => words 0x10008 0x10028 off
  | .belvedere => words 0x20008 0x20010 off || words 0x20020 0x2003C off || words 0x20100 0x206FC off || words 0x28000 0x2FFFC off
  | .fence => among (off % 0x100) [0x04, 0x08, 0x0C, 0x10, 0x14, 0x18, 0x1C, 0x20, 0x24, 0x28, 0x30]
  | .link => if off < 0xAC000 then words 0x04 0x20 (off % 0x200) else words 0xAC800 0xACFFC off
  | .greenhouse => if off < 0xC8000 ∧ off ≠ 0xC0200 then words 0x04 0x20 (off % 0x400) || decide (off = 0xC0204) else false
  | .pergola => decide (off < 0xD2000) && (words 0x08 0x24 (off % 0x100) || decide (off % 0x100 = 0x2C))
  | .spill => decide (off < 0xE2800) && words 0x0C 0x14 (off % 0x20)
  | .power => words 0xF0008 0xF0014 off
  | .host => among (off % 0x1000) [0x010, 0x030, 0x800] || words 0x810 0x84C (off % 0x1000) || words 0x858 0x894 (off % 0x1000)
  | .bandstand => words 0x140008 0x140010 off || words 0x140104 0x140110 off
  | .lodge => among (off % 0x1000) [0x000, 0x104, 0x204, 0x208, 0x20C]
  | .digest => false
  | .otp => false
  | .boot => false
  | .sundial => false
  | .reserved => false

/-! ## Resets -/

/-- The commands that reset the block, where their conditions hold (Tables FAULT-3 and FAULT-6, R306, R307, R335). -/
def resets : Instr → Bool
  | .coldReset => true
  | .blockReset => true
  | .lockstepMismatch _ => true
  | .tamperRelease => true
  | .supplyResetTimeout => true
  | .bootAttemptFail => true
  | .bootAttemptTimeout => true
  | .freezeTimeout => true
  | .pottingEnd _ _ => true
  | _ => false

/-- What a block reset with a cause leaves (Table FAULT-3): flash, less what a rebuild it stops had not programmed, the OTP array with what a pulse it stops has burned (log 128),
ORNG_ZERO_TICK, PAV_RESET_CAUSE with its count, the level of each lnk_up pin (R141), the alarms and resets that wait (Table
ARCH-5, log 112), and the model's own fields; everything else is as after reset. -/
def keptByBlockReset (cause : ResetCause) (s : State) : State :=
  { State.reset with
    pending := afterReset s.pending, outs := s.outs, free := (stoppedFlash s).2, flash := (stoppedFlash s).1
    otp := { State.reset.otp with array := (stoppedArray s).1 }
    link := { State.reset.link with engines := resetEngines s }
    orng := { State.reset.orng with zeroTick := s.orng.zeroTick }
    pav := { State.reset.pav with
      cause := cause, count := if s.pav.count = 0xff then 0xff else s.pav.count + 1, tamperSeen := s.pav.tamperSeen } }

end Sys2Proof.Machine
end

