-- ==== Sys2Proof/Certificates/Slice0/Obligations.lean ====
section
/-! DEFINITION. The statements about the block. A command's effect is stated as exec's answer on every state and operands
that meet the hypotheses; what a command leaves alone stands beside its effect, as an equation with the old state. -/

open Sys2Proof Sys2Proof.Machine

/-! ## The machine -/

/-- A step runs the command at the front of the queue on the block with the queue's rest. -/
def Obligations.StepRunsTheFrontCommand : Prop :=
  ∀ (c : Instr) (s : State), step { s with pending := c :: s.pending } = exec c s

/-- On an empty queue one tick of STICK passes (the model's choice, log 1; the count is 64 bits wide, R23): where nothing of the
block is due, nothing else changes; a threshold met is applied to its job at the start of the new tick (R137). -/
def Obligations.EmptyQueueIsOneTick : Prop :=
  (∀ s : State, s.pending = [] → calm s = true → step s = .next { s with tick := (s.tick + 1) % 2 ^ 64 }) ∧
  (∀ s : State, s.pending = [] → ∃ t, step s = .next t ∧ t.tick = (s.tick + 1) % 2 ^ 64) ∧
  (∀ (j u : Nat) (s : State), s.pending = [] → canonical s = true → s.fence.locks = [] → s.tick + 1 < 2 ^ 64 →
    (jobOf s j).badDue = some u → u ≤ s.tick → (jobOf s j).state = .open_ →
    ∃ t, step s = .next t ∧ (jobOf t j).state = .suspended)

/-- After reset: no gate is open, the tick count is 0, every context and prefix group is FREE, every die HELD, every frame
under CID 255 (R113), every key slot EMPTY, every link engine DOWN, no job held, no ring enabled, CAP 7,500 W. -/
def Obligations.ResetHoldsWhatTheManualGives : Prop :=
  State.reset.gates = 0 ∧ State.reset.tick = 0 ∧ State.reset.pending = [] ∧
  (∀ c, (ctxOf State.reset c).state = .free) ∧ (∀ g, (groupOf State.reset g).state = .free) ∧
  (∀ d, (dieOf State.reset d).state = .held ∧ (dieOf State.reset d).rstN = false) ∧
  (∀ n, (frameOf State.reset n).owner = 255) ∧
  (∀ n, (slotOf State.reset n).state = .empty) ∧ (∀ e, (engOf State.reset e).state = .down) ∧
  (∀ j, (jobOf State.reset j).state = .free) ∧
  (∀ r, (ringOf State.reset r).enable = false ∧ (cplOf State.reset r).enable = false) ∧
  State.reset.power.cap = 7500 ∧ State.reset.pav.wdogTicks = 0x64 ∧ State.reset.pav.cause = .none

/-- The state after reset meets the invariants below. -/
def Obligations.ResetMeetsTheInvariants : Prop :=
  canonical State.reset = true ∧ semaphoresOk State.reset = true ∧ storesBounded State.reset = true ∧ idsFresh State.reset = true

/-- Every step keeps every array of the block in canonical form. -/
def Obligations.EveryStepKeepsCanonicalForm : Prop :=
  ∀ s t : State, canonical s = true → step s = .next t → canonical t = true

/-- Every step leaves every semaphore, live or in a backing block, within its 20 bits (R338). -/
def Obligations.EveryStepKeepsSemaphoresIn20Bits : Prop :=
  ∀ s t : State, semaphoresOk s = true → step s = .next t → semaphoresOk t = true

/-- Every step keeps the two record stores within 16,384 and 4,096 records (R406), and the numbers of the host commands in progress
below the next one, so that each completion finds its own command. -/
def Obligations.EveryStepKeepsTheRecordStoresBounded : Prop :=
  (∀ s t : State, storesBounded s = true → step s = .next t → storesBounded t = true) ∧
  (∀ s t : State, idsFresh s = true → step s = .next t → idsFresh t = true)

/-- A burned fuse stays burned: every step leaves every set bit of the OTP array set (R270). -/
def Obligations.EveryStepKeepsBurnedFuses : Prop :=
  ∀ (s t : State) (w i : Nat), canonical s = true → step s = .next t →
    (arrayWord s w).getLsbD i = true → (arrayWord t w).getLsbD i = true

/-- A command never moves the tick count, but that one of the nine commands that reset the block returns it to 0, with every gate closed
(R19, Table FAULT-3). -/
def Obligations.CommandsKeepTheTickCount : Prop :=
  ∀ (c : Instr) (s t : State), exec c s = .next t → t.tick = s.tick ∨ (resets c = true ∧ t.tick = 0 ∧ t.gates = 0)

/-- An open gate of Table BOOT-8 stays open until one of the nine commands that reset the block closes every gate (R407). -/
def Obligations.OpenGatesStayOpenUntilAReset : Prop :=
  ∀ (c : Instr) (s t : State), exec c s = .next t → s.gates &&& t.gates = s.gates ∨ (resets c = true ∧ t.gates = 0 ∧ t.tick = 0)

/-! ## Alarms and resets (19_faults_and_recovery.md) -/

/-- The five ways into a cold or block reset: each keeps what Table FAULT-3 says it keeps and nothing else (R407, R408, R412,
R413). -/
def Obligations.ResetsKeepOnlyWhatTheyMay : Prop :=
  (∀ s : State, exec .coldReset s = .next { State.reset with
    pending := afterReset s.pending, outs := s.outs, free := (stoppedFlash s).2, flash := (stoppedFlash s).1
    otp := { State.reset.otp with array := (stoppedArray s).1 }, link := { State.reset.link with engines := resetEngines s } }) ∧
  (∀ s : State, s.otp.cmd = none → stoppedArray s = (s.otp.array, s.free)) ∧
  (∀ s : State, rebuilding s = false → (stoppedFlash s).1 = s.flash) ∧
  (∀ (s : State) (a : Nat), canonical s = true → (a < slotBase (1 - s.boot.slot.getD 0) ∨ slotBase (1 - s.boot.slot.getD 0) + slotSize ≤ a) →
    mapGet 0xff (stoppedFlash s).1 a = mapGet 0xff s.flash a) ∧
  (∀ (s : State) (e : Nat), canonical s = true →
    mapGet {} (resetEngines s) e = ({ up := (engOf s e).up } : Engine)) ∧
  (∀ (s : State) (c : ResetCause), s.pav.pendingReset = some c → s.pav.resetAt < s.tick →
    exec .blockReset s = .next (keptByBlockReset c s)) ∧
  (∀ (p : Fin 3) (s : State), exec (.lockstepMismatch p) s = .next (keptByBlockReset .lockstep s)) ∧
  (∀ s : State, s.pav.tamper = true → s.pav.tamperLow + 250000 ≤ s.tick →
    (s.pav.supply = none ∨ s.pav.supplyLow + 250000 ≤ s.tick) →
    exec .tamperRelease s = .next (keptByBlockReset .tamper s)) ∧
  (∀ (s : State) (t : Nat), s.pav.supply = some t → t + 2500000 ≤ s.tick → s.pav.tamper = false →
    exec .supplyResetTimeout s = .next (keptByBlockReset .supply s)) ∧
  (∀ (s : State) (due : Nat) (c : ResetCause) (rest : List (Nat × ResetCause)),
    s.pav.delayed = (due, c) :: rest → due ≤ s.tick + 1 → s.pav.pendingReset = none →
    exec .resetDelayExpiry s = .next { s with pav := { s.pav with delayed := rest, pendingReset := some c, resetAt := due - 1 } })

/-- A sample of tamper_zeroize_n low (R253, R254, R412, Table ORNG-10): TAMPER and TAMPER_SEEN are set; no key slot, fence
key, link key, hop exchange, sampling key or bus key is left; the tick is kept in ORNG_ZERO_TICK; the vault answers
nothing; every association ends. The tick count, the open gates, the flash and the power control stay as they are, and the
fuses stay where no pulse was running. -/
def Obligations.TamperLeavesNoKey : Prop :=
  ∀ s : State, canonical s = true → ∃ t, exec .tamperZeroize s = .next t ∧
    t.pav.tamper = true ∧ t.pav.tamperSeen = true ∧ t.pav.stTamper = some s.tick ∧ t.pav.tamperLow = s.tick ∧
    (∀ n, slotOf t n = {}) ∧ t.orng.ready = false ∧ t.orng.kbusReady = false ∧ t.orng.zeroized = true ∧
    t.orng.zeroTick = BitVec.ofNat 64 s.tick ∧ t.orng.loads = [] ∧
    (∀ n, (chanOf t n).entries = [] ∧ (chanOf t n).parked = []) ∧
    (∀ e, (engOf t e).keys = [] ∧ (engOf t e).exch = none ∧ (engOf t e).jobKeys = []) ∧
    (∀ d, (grEngOf t d).keys = []) ∧ (∀ d, d < 32 → (dropOf t d).key = none) ∧
    t.dgst.cache = [] ∧ t.dgst.queue = [] ∧ t.belv.queue = [] ∧ t.band.assocs = [] ∧
    t.tick = s.tick ∧ t.gates = s.gates ∧ t.flash = s.flash ∧ t.power = s.power ∧ t.pending = s.pending ∧
    (s.otp.cmd = none → t.otp.array = s.otp.array)

/-- A supply alarm (R413): its first sample sets SUPPLY and SUPPLY_ACTIVE, clears every digest engine and its queue, and posts
SUPPLY_ALARM on queue 0; a rebuild of the inactive slot stops where its writes have come to, and its update is lost (log 65); a later
sample only restarts the quiet count; 250,000 quiet ticks before the limit release the latch. Keys, contexts, links and gates stay. -/
def Obligations.SupplyAlarmHoldsAndReleases : Prop :=
  (∀ s : State, canonical s = true → roomAt s 0 = true → s.pav.supply = none → s.otp.cmd = none →
    ∃ t, exec .supplyAlarm s = .next t ∧
      t.pav = { s.pav with supply := some s.tick, supplyLow := s.tick, stSupply := some s.tick } ∧
      t.dgst.queue = [] ∧ (∀ e, e < 4 → (dgOf t e).run = none) ∧ recorded t 0 .supplyAlarm = true ∧
      (rebuilding s = false → t = { s with pav := t.pav, dgst := t.dgst, splq := t.splq, outs := t.outs }) ∧
      (rebuilding s = true → t = { s with
        pav := t.pav, dgst := t.dgst, splq := t.splq, outs := t.outs
        flash := (stoppedFlash s).1, free := (stoppedFlash s).2, updt := { s.updt with current := none } }) ∧
      (∀ q, q ≠ 0 → qOf t q = qOf s q)) ∧
  (∀ (s : State) (u : Nat), s.pav.supply = some u →
    exec .supplyAlarm s = .next { s with pav := { s.pav with supplyLow := s.tick } }) ∧
  (∀ (s : State) (u : Nat), s.pav.supply = some u → s.pav.supplyLow + 250000 ≤ s.tick → s.tick < u + 2500000 →
    exec .supplyRelease s = .next { s with pav := { s.pav with supply := none } })

/-! ## Timebase and register window (01_the_complex.md, 20_register_index.md) -/

/-- Loss of the reference and its return (R18): REF_LOSS and REF_LOCK, each with its management event; the tick count stays,
as does everything else but the event's queue. -/
def Obligations.ReferenceLossAndReturn : Prop :=
  (∀ s : State, canonical s = true → roomAt s 1 = true → s.sund.refLock = true →
    ∃ t, exec .refLoss s = .next t ∧ t.sund = { s.sund with refLoss := some s.tick, refLock := false } ∧
      recorded t 1 .ok = true ∧ t = { s with sund := t.sund, splq := t.splq, outs := t.outs } ∧
      (∀ q, q ≠ 1 → qOf t q = qOf s q)) ∧
  (∀ s : State, canonical s = true → roomAt s 1 = true → s.sund.refLock = false →
    ∃ t, exec .refRelock s = .next t ∧ t.sund = { s.sund with refLock := true } ∧
      recorded t 1 .ok = true ∧ t = { s with sund := t.sund, splq := t.splq, outs := t.outs } ∧
      (∀ q, q ≠ 1 → qOf t q = qOf s q))

/-- Every read of a _LO register completes: within the master's reach it answers bits [31:0] and latches bits [63:32] for that
master alone (R30, R257, R403, R420), out of reach it answers zero and latches nothing (R418); nothing else changes. A counter
reads as coarsened for the device, and for a context only under its FINE_COUNTERS consent (R84, Table HOST-7). -/
def Obligations.LowReadsLatchTheHighWord : Prop :=
  (∀ (m : Fin 39) (s : State),
    exec (.sundTickLoRead m) s = .next (if readAllowed s m 0x180000 then { s with
      outs := s.outs ++ [.regRead m 0x180000 (BitVec.ofNat 32 s.tick)]
      sund := { s.sund with tickHi := mapSet 0 s.sund.tickHi m (BitVec.ofNat 32 (s.tick / 2 ^ 32)) } }
      else { s with outs := s.outs ++ [.regRead m 0x180000 0] })) ∧
  (∀ (m : Fin 39) (s : State), m.val ≤ 36 → readAllowed s m 0x180000 = true) ∧
  (∀ (m : Fin 39) (s : State),
    exec (.orngZeroTickLoRead m) s = .next (if readAllowed s m 0x10024 then { s with
      outs := s.outs ++ [.regRead m 0x10024 (s.orng.zeroTick.setWidth 32)]
      sund := { s.sund with zeroHi := mapSet 0 s.sund.zeroHi m ((s.orng.zeroTick >>> 32).setWidth 32) } }
      else { s with outs := s.outs ++ [.regRead m 0x10024 0] })) ∧
  (∀ (m : Fin 39) (s : State), m.val ≤ 4 → readAllowed s m 0x10024 = true) ∧
  (∀ (m : Fin 39) (page : Fin 64) (perCtx : Bool) (i : Fin 8) (s : State),
    ∃ t, exec (.hostPerfLoRead m page perCtx i) s = .next t ∧
      (readAllowed s m (0x100000 + 0x1000 * page.val + (if perCtx then 0x858 else 0x810) + 8 * i.val) = false →
        t = { s with outs := s.outs ++ [.regRead m (0x100000 + 0x1000 * page.val + (if perCtx then 0x858 else 0x810) + 8 * i.val) 0] }) ∧
      (readAllowed s m (0x100000 + 0x1000 * page.val + (if perCtx then 0x858 else 0x810) + 8 * i.val) = true →
        t = { s with
          outs := s.outs ++ [.regRead m (0x100000 + 0x1000 * page.val + (if perCtx then 0x858 else 0x810) + 8 * i.val)
            (BitVec.ofNat 32 (perfValue s perCtx i))]
          sund := { s.sund with
            perfHi := mapSet 0 s.sund.perfHi (perfKey m perCtx i) (BitVec.ofNat 32 (perfValue s perCtx i / 2 ^ 32)) } })) ∧
  (∀ (m : Fin 39) (page : Fin 64) (i : Fin 8) (s : State), 1 ≤ m.val → m.val ≤ 4 →
    readAllowed s m (0x100810 + 0x1000 * page.val + 8 * i.val) = true ∧ readAllowed s m (0x100858 + 0x1000 * page.val + 8 * i.val) = true) ∧
  (∀ (m : Fin 39) (page : Fin 64) (i : Fin 8) (s : State), i.val < 7 → readAllowed s m (0x100810 + 0x1000 * page.val + 8 * i.val) = true →
    ∃ t, exec (.hostPerfLoRead m page false i) s = .next t ∧
      t.outs = s.outs ++ [.regRead m (0x100810 + 0x1000 * page.val + 8 * i.val) (BitVec.ofNat 32 (mapGet 0 s.host.devShown i))] ∧
      t = { s with outs := t.outs, sund := { s.sund with perfHi := t.sund.perfHi } }) ∧
  (∀ (m : Fin 39) (page : Fin 64) (i : Fin 8) (s : State), readAllowed s m (0x100858 + 0x1000 * page.val + 8 * i.val) = true →
    (ctxOf s s.host.ctxSel.toNat).consent = none →
    ∃ t, exec (.hostPerfLoRead m page true i) s = .next t ∧
      t.outs = s.outs ++ [.regRead m (0x100858 + 0x1000 * page.val + 8 * i.val) 0] ∧
      t = { s with outs := t.outs, sund := { s.sund with perfHi := t.sund.perfHi } })

/-- A register write by a master that reaches the offset takes effect on the fields it may change, and only those (R10, R424):
a one written to a sticky bit clears it unless it was set in the same tick; a CFG field changes while its lock is open and
not after; a reserved OP of FENC_LOCK_CMD sets ERR (R116) and one of OTPC_CMD ends NOT_PERMITTED (R282); a write of a read-only
register, at an unaligned offset or at one that no chapter lists changes nothing (R415); a write out of reach changes nothing but the
NOT_PERMITTED record of R418, and one by the host target port or the test access port not even that (R382, R423). -/
def Obligations.RegisterWritesKeepToTheirFields : Prop :=
  (∀ (m : Fin 39) (v : Word) (s : State), 1 ≤ m.val → m.val ≤ 4 →
    exec (.registerWrite m 0x18 v) s = .next { s with pav := { s.pav with
      stTamper := if v.getLsbD 0 && s.pav.stTamper != some s.tick then none else s.pav.stTamper
      stSupply := if v.getLsbD 1 && s.pav.stSupply != some s.tick then none else s.pav.stSupply
      stWdog := if v.getLsbD 3 && s.pav.stWdog != some s.tick then none else s.pav.stWdog
      stFlogLost := if v.getLsbD 4 && s.pav.stFlogLost != some s.tick then none else s.pav.stFlogLost } }) ∧
  (∀ (m : Fin 39) (v : Word) (s : State), 1 ≤ m.val → m.val ≤ 4 →
    exec (.registerWrite m 0x20 v) s = .next (if s.host.everReady then s
      else { s with pav := { s.pav with wdogTicks := v.setWidth 16 } })) ∧
  (∀ (m : Fin 39) (v : Word) (s : State), 1 ≤ m.val → m.val ≤ 4 →
    exec (.registerWrite m 0x80080 v) s = .next (if s.boot.frozen then s
      else { s with fence := { s.fence with addrBits := v.setWidth 6, scrubShare := (v >>> 8).setWidth 4 } })) ∧
  (∀ (m : Fin 39) (v : Word) (s : State), 1 ≤ m.val → m.val ≤ 4 →
    exec (.registerWrite m 0x10004 v) s = .next { s with orng := { s.orng with slotSel := v.setWidth 12 } }) ∧
  (∀ (m : Fin 39) (v : Word) (s : State), 1 ≤ m.val → m.val ≤ 4 → (v.toNat % 8 = 0 ∨ v.toNat % 8 = 6 ∨ v.toNat % 8 = 7) →
    exec (.registerWrite m 0x80088 v) s = .next { s with fence := { s.fence with lockErr := some s.tick } }) ∧
  (∀ (v : Word) (s : State), gateOpen s 5 = true → s.pav.tamper = false → s.otp.cmd = none →
    (v.toNat % 8 = 0 ∨ v.toNat % 8 = 6 ∨ v.toNat % 8 = 7) →
    exec (.registerWrite 0 0x40008 v) s = .next { s with otp := { s.otp with cmdStatus := 0x0004, cmdPulses := 0 } }) ∧
  (∀ (m : Fin 39) (v : Word) (s : State), 1 ≤ m.val → m.val ≤ 4 →
    exec (.registerWrite m 0x20004 v) s = .next (if s.boot.frozen then s
      else { s with belv := { s.belv with maxSess := v.setWidth 3, idleS := (v >>> 8).setWidth 8, slot1En := v.getLsbD 16 } })) ∧
  (∀ (m : Fin 39) (v : Word) (s : State), 1 ≤ m.val → m.val ≤ 4 →
    exec (.registerWrite m 0x80084 v) s = .next { s with fence := { s.fence with lockGroups := v.setWidth 16 } }) ∧
  (∀ (m : Fin 39) (v : Word) (s : State), 1 ≤ m.val → m.val ≤ 4 →
    exec (.registerWrite m 0xAC000 v) s = .next (if s.boot.frozen then s
      else { s with link := { s.link with endpoint := v.setWidth 16 } }) ∧
    exec (.registerWrite m 0xAC004 v) s = .next (if s.boot.frozen then s
      else { s with link := { s.link with trusted := v.setWidth 4, plainOp := v.getLsbD 8 } })) ∧
  (∀ (m : Fin 39) (e : Fin 96) (v : Word) (s : State), 1 ≤ m.val → m.val ≤ 4 →
    exec (.registerWrite m (BitVec.ofNat 24 (0xA0024 + 0x200 * e.val)) v) s = .next (if s.boot.frozen then s
      else updEng e (fun x => { x with cls := v.setWidth 2 }) s)) ∧
  (∀ (m : Fin 39) (v : Word) (s : State), 1 ≤ m.val → m.val ≤ 4 →
    exec (.registerWrite m 0xC0200 v) s = .next (if s.boot.frozen then s
      else { s with grnh := { s.grnh with floor := v.setWidth 13 } })) ∧
  (∀ (m : Fin 39) (d : Fin 32) (v : Word) (s : State), (1 ≤ m.val ∧ m.val ≤ 4 ∨ m.val = 5 + d.val) →
    exec (.registerWrite m (BitVec.ofNat 24 (0xD0004 + 0x100 * d.val)) v) s =
      .next (updSlice d (fun x => { x with service := v.getLsbD 0, waitTicks := (v >>> 4).setWidth 24 }) s) ∧
    exec (.registerWrite m (BitVec.ofNat 24 (0xD0028 + 0x100 * d.val)) v) s =
      .next (updSlice d (fun x => { x with sel := v.setWidth 14 }) s)) ∧
  (∀ (m : Fin 39) (q : Fin 320) (v : Word) (s : State), 1 ≤ m.val → m.val ≤ 4 →
    exec (.registerWrite m (BitVec.ofNat 24 (0xE0000 + 0x20 * q.val)) v) s = .next (if s.host.everReady then s
      else updQ q (fun x => { x with midFrames := v.setWidth 6, timeout := (v >>> 8).setWidth 24 }) s) ∧
    exec (.registerWrite m (BitVec.ofNat 24 (0xE0004 + 0x20 * q.val)) v) s = .next (if s.host.everReady then s
      else updQ q (fun x => { x with midBase := v.setWidth 19 }) s)) ∧
  (∀ (m : Fin 39) (v : Word) (s : State), 1 ≤ m.val → m.val ≤ 4 →
    exec (.registerWrite m 0xF0004 v) s = .next (if s.host.everReady then s
      else { s with power := { s.power with
        vmax := v.setWidth 12, vfloor := (v >>> 12).setWidth 12, start := (v >>> 24).setWidth 4 } })) ∧
  (∀ (m : Fin 39) (page : Fin 64) (v : Word) (s : State), (1 ≤ m.val ∧ m.val ≤ 4 ∨ m.val = 37 ∧ gateOpen s 2 = true) →
    exec (.registerWrite m (BitVec.ofNat 24 (0x100850 + 0x1000 * page.val)) v) s =
      .next { s with host := { s.host with ctxSel := v.setWidth 8 } }) ∧
  (∀ (m : Fin 39) (page : Fin 64) (v : Word) (s : State), (1 ≤ m.val ∧ m.val ≤ 4 ∨ m.val = 37 ∧ gateOpen s 2 = true) →
    (ringOf s page).enable = true → canonical s = true →
    exec (.registerWrite m (BitVec.ofNat 24 (0x100000 + 0x1000 * page.val)) v) s = .next s ∧
    exec (.registerWrite m (BitVec.ofNat 24 (0x100004 + 0x1000 * page.val)) v) s = .next s) ∧
  (∀ (m : Fin 39) (v : Word) (s : State), 1 ≤ m.val → m.val ≤ 4 →
    exec (.registerWrite m 0x140004 v) s = .next (if gateOpen s 3 then s
      else { s with band := { s.band with port := v.setWidth 16, maxAssoc := (v >>> 16).setWidth 3 } })) ∧
  (∀ (m : Fin 39) (d : Fin 32) (v : Word) (s : State), (1 ≤ m.val ∧ m.val ≤ 4 ∨ m.val = 5 + d.val) →
    exec (.registerWrite m (BitVec.ofNat 24 (0x150100 + 0x1000 * d.val)) v) s = .next (if anyScheduled s then s
      else updDie d (fun x => { x with bound := v.setWidth 13, saveKib := (v >>> 16).setWidth 12 }) s) ∧
    exec (.registerWrite m (BitVec.ofNat 24 (0x150200 + 0x1000 * d.val)) v) s = .next (if s.host.everReady then s
      else updPwr d (fun x => { x with mLo := v.setWidth 8, mHi := (v >>> 8).setWidth 8 }) s)) ∧
  (∀ (v : Word) (s : State),
    exec (.registerWrite 0 0x4000C v) s = .next { s with otp := { s.otp with wdata := v } } ∧
    exec (.registerWrite 0 0x40000 v) s = .next { s with otp := { s.otp with
      marginal := if v.getLsbD 1 && s.otp.marginal != some s.tick then none else s.otp.marginal
      supplyAbort := if v.getLsbD 3 && s.otp.supplyAbort != some s.tick then none else s.otp.supplyAbort
      verifyFail := if v.getLsbD 4 && s.otp.verifyFail != some s.tick then none else s.otp.verifyFail
      lockRefused := if v.getLsbD 5 && s.otp.lockRefused != some s.tick then none else s.otp.lockRefused } }) ∧
  (∀ (m : Fin 39) (off : BitVec 24) (v : Word) (s : State), 1 ≤ m.val → m.val ≤ 4 → readOnlyReg off.toNat = true →
    exec (.registerWrite m off v) s = .next s) ∧
  (∀ (m : Fin 39) (off : BitVec 24) (v : Word) (s : State), (off.toNat % 4 ≠ 0 ∨ listedReg off.toNat = false) →
    exec (.registerWrite m off v) s = .next s) ∧
  (∀ (off : BitVec 24) (v : Word) (s : State), exec (.registerWrite 38 off v) s = .next s) ∧
  (∀ (m : Fin 39) (off : BitVec 24) (v : Word) (s : State), m.val ≤ 36 → off.toNat % 4 = 0 → listedReg off.toNat = true →
    writeReach m off.toNat = false → roomAt s 0 = true → canonical s = true → mapGet 0 s.pav.notPerm m ≤ s.tick →
    ∃ t, exec (.registerWrite m off v) s = .next t ∧ recorded t 0 .notPermitted = true ∧
      t = { s with splq := t.splq, outs := t.outs, pav := { s.pav with notPerm := mapSet 0 s.pav.notPerm m (s.tick + 250000) } } ∧
      (∀ q, q ≠ 0 → qOf t q = qOf s q)) ∧
  (∀ (m : Fin 39) (v : Word) (s : State), 5 ≤ m.val → m.val ≤ 36 → roomAt s 0 = true → canonical s = true →
    mapGet 0 s.pav.notPerm m ≤ s.tick →
    ∃ t, exec (.registerWrite m 0x18 v) s = .next t ∧ recorded t 0 .notPermitted = true ∧
      t = { s with splq := t.splq, outs := t.outs, pav := { s.pav with notPerm := mapSet 0 s.pav.notPerm m (s.tick + 250000) } } ∧
      (∀ q, q ≠ 0 → qOf t q = qOf s q)) ∧
  (∀ (v : Word) (s : State), exec (.registerWrite 37 0x18 v) s = .next s)

/-! ## Power (17_power_and_telemetry.md) -/

/-- The operator's cap (R379), the thermal limit (R378), the host's and the operator's readings (R380, Table PWR-2) and the loop's
bounds (R373, R374, R375). A loop's power is the output voltage times the output current (the model's reading, log 150), in units of
1/16 W, cut to the width of the field that shows it (log 118). That the readings are refreshed at the multiples of 2,500,000 and of
250,000 ticks, and the host's at no other, is the model's choice (log 34). -/
def Obligations.PowerLoopCapAndTelemetry : Prop :=
  (∀ (m : MgmtHdr) (watts : Nat) (s : State), mgmtOk m s = true →
    ∃ t, exec (.powerCap m watts) s = .next t ∧
      t.power = { s.power with cap := if watts < 500 then 500 else if 7500 < watts then 7500 else watts } ∧
      replied s t m .ok = true ∧
      t = { s with power := t.power, outs := t.outs, sund := { s.sund with mgmtPtr := s.sund.mgmtPtr + 1 }, band := heard m.assoc s }) ∧
  (∀ (d : Fin 32) (r : AvsReading) (s : State), canonical s = true → (dieOf s d).state = .running → s.pav.supply = none →
    r.acked = true → (pwrOf s d).loops = true → (pwrOf s d).step ≤ 8 → loopDue s d = true →
    ∃ t, exec (.powerLoop d r) s = .next t ∧
      (105 ≤ r.tj → (pwrOf t d).step = min ((pwrOf s d).step + 2) 8 ∧ (pwrOf t d).thermal = true) ∧
      (r.tj < 103 → (pwrOf t d).thermal = false) ∧
      (r.tj < 105 → 16 * budgetOf s d < min 131071 (readPower r) → (pwrOf t d).step = min ((pwrOf s d).step + 1) 8) ∧
      (pwrOf t d).step ≤ 8 ∧ (pwrOf t d).budget = budgetOf s d ∧ (pwrOf t d).power = min 131071 (readPower r) ∧
      (pwrOf t d).tj = min 255 r.tj ∧ (pwrOf t d).loopAt = some s.tick ∧
      t.outs = s.outs ++ (if min 8 r.step < (pwrOf t d).step then [.avs d 1 (pwrOf t d).step] else []) ++
        [.avs d 0 (pwrOf t d).volt] ++ (if (pwrOf t d).step < min 8 r.step then [.avs d 1 (pwrOf t d).step] else []) ∧
      (∀ e, e ≠ d.val → pwrOf t e = pwrOf s e) ∧
      t = { s with power := t.power, outs := t.outs } ∧ t.power.cap = s.power.cap) ∧
  (∀ (d : Fin 32) (r : AvsReading) (s : State), canonical s = true → roomAt s 0 = true → (dieOf s d).state = .running →
    s.pav.supply = none → r.acked = false → loopDue s d = true →
    ∃ t, exec (.powerLoop d r) s = .next t ∧ (pwrOf t d).step = 8 ∧ (pwrOf t d).volt = (pwrOf s d).volt ∧
      (pwrOf t d).errAvs = some s.tick ∧ recorded t 0 .timeout = true ∧ (pwrOf t d).loopAt = some s.tick ∧
      ((pwrOf s d).clipped = true → (pwrOf t d).clipSteps = 8 - (dieWeight s d).2.2) ∧
      t = { s with power := t.power, splq := t.splq, outs := t.outs } ∧ (∀ e, e ≠ d.val → pwrOf t e = pwrOf s e)) ∧
  (∀ (d : Fin 32) (r : AvsReading) (u : Nat) (s : State), (pwrOf s d).loopAt = some u → s.tick < u + 2500 →
    exec (.powerLoop d r) s = .next s) ∧
  (∀ (d : Fin 32) (s : State), canonical s = true → roomAt s 1 = true → 250 ≤ (pwrOf s d).hot → (dieOf s d).state = .running →
    ∃ t, exec (.thermalLimit d) s = .next t ∧ t.pav = { s.pav with dieCauses := s.pav.dieCauses ++ [(d.val, .thermal)] } ∧
      recorded t 1 .pwrThermalLimit = true ∧ (pwrOf t d).hot = 0 ∧
      t = { s with pav := t.pav, power := t.power, splq := t.splq, outs := t.outs } ∧
      (∀ e, e ≠ d.val → pwrOf t e = pwrOf s e)) ∧
  (∀ s : State, s.tick % 2500000 = 0 →
    ∃ t, exec .powerTelemetryRefresh s = .next t ∧ t.power.hostW % 8 = 0 ∧
      16 * t.power.hostW ≤ s.power.sum / max 1 s.power.loops ∧
      (s.power.sum / max 1 s.power.loops < 16 * 65536 → s.power.sum / max 1 s.power.loops < 16 * (t.power.hostW + 8)) ∧
      t.power.opW = s.power.opSum / max 1 s.power.opLoops / 16 ∧ t.power.opCap = s.power.cap ∧
      (canonical s = true → ∀ d : Fin 32, (pwrOf t d).shown = (pwrOf s d).sum / max 1 (pwrOf s d).count / 128 * 8 ∧
        pwrOf t d = { pwrOf s d with shown := (pwrOf t d).shown, sum := 0, count := 0 }) ∧
      t = { s with power := { s.power with
        hostW := t.power.hostW, sum := 0, loops := 0, dies := t.power.dies
        opW := t.power.opW, opCap := t.power.opCap, opClipped := t.power.opClipped, opSum := 0, opLoops := 0 } }) ∧
  (∀ s : State, s.tick % 250000 = 0 → s.tick % 2500000 ≠ 0 →
    ∃ t, exec .powerTelemetryRefresh s = .next t ∧ t.power.opW = s.power.opSum / max 1 s.power.opLoops / 16 ∧
      t.power.opCap = s.power.cap ∧
      t = { s with power := { s.power with
        opW := t.power.opW, opCap := t.power.opCap, opClipped := t.power.opClipped, opSum := 0, opLoops := 0 } })

/-! ## Host rings (18_host_rings.md) -/

/-- Doorbells and enables (R383, R384, R387), by a master that reaches the page. That the reservations of a completion ring end as it
is disabled is the model's reading of R383 (log 132). -/
def Obligations.DoorbellsAndEnables : Prop :=
  (∀ (m : Fin 39) (page : Fin 64) (v : Word) (s : State), canonical s = true → (1 ≤ m.val ∧ m.val ≤ 4 ∨ m.val = 37) →
    gateOpen s 2 = true →
    (∃ t, exec (.hostCmdDb m page v) s = .next t ∧
      (v.toNat % 65536 < ringSize (ringOf s page).log2 →
        (ringOf t page).pi = v.setWidth 16 ∧ (ringOf t page).head = (ringOf s page).head ∧
        (ringOf t page).posted.length =
          (v.toNat % 65536 + ringSize (ringOf s page).log2 - (ringOf s page).head.toNat % ringSize (ringOf s page).log2) %
            ringSize (ringOf s page).log2) ∧
      (ringSize (ringOf s page).log2 ≤ v.toNat % 65536 → ringOf t page = { ringOf s page with dbErr := some s.tick }) ∧
      t = { s with host := { s.host with rings := t.host.rings } } ∧ (∀ r, r ≠ page.val → ringOf t r = ringOf s r))) ∧
  (∀ (m : Fin 39) (page : Fin 64) (v : Word) (s : State), canonical s = true → (1 ≤ m.val ∧ m.val ≤ 4 ∨ m.val = 37) →
    gateOpen s 2 = true → (ringOf s page).enable = false → v.getLsbD 16 = true →
    ∃ t, exec (.commandRingEnable m page v) s = .next t ∧ (ringOf t page).enable = true ∧ (ringOf t page).head = 0 ∧
      (ringOf t page).stopped = false ∧ (ringOf t page).log2 = v.setWidth 5 ∧ (ringOf t page).cpl = (v >>> 8).setWidth 6 ∧
      (ringOf t page).base = (ringOf s page).base ∧
      t = { s with host := { s.host with rings := t.host.rings } } ∧ (∀ r, r ≠ page.val → ringOf t r = ringOf s r)) ∧
  (∀ (m : Fin 39) (page : Fin 64) (v : Word) (s : State), canonical s = true → (1 ≤ m.val ∧ m.val ≤ 4 ∨ m.val = 37) →
    gateOpen s 2 = true → (ringOf s page).enable = true →
    ∃ t, exec (.commandRingEnable m page v) s = .next t ∧ (ringOf t page).log2 = (ringOf s page).log2 ∧
      (ringOf t page).cpl = (ringOf s page).cpl ∧ (ringOf t page).head = (ringOf s page).head ∧
      ((ringOf t page).enable = v.getLsbD 16) ∧ t = { s with host := { s.host with rings := t.host.rings } } ∧
      (∀ r, r ≠ page.val → ringOf t r = ringOf s r)) ∧
  (∀ (m : Fin 39) (page : Fin 64) (v : Word) (s : State), canonical s = true → (1 ≤ m.val ∧ m.val ≤ 4 ∨ m.val = 37) →
    gateOpen s 2 = true → (cplOf s page).enable = false → v.getLsbD 14 = true →
    ∃ t, exec (.completionRingEnable m page v) s = .next t ∧ (cplOf t page).enable = true ∧ (cplOf t page).tail = 0 ∧
      (cplOf t page).phase = true ∧ (cplOf t page).log2 = v.setWidth 5 ∧ (cplOf t page).vector = (v >>> 8).setWidth 6 ∧
      (cplOf t page).irqEn = v.getLsbD 15 ∧ (cplOf t page).coalCount = (v >>> 16).setWidth 8 ∧
      (cplOf t page).coalUs = (v >>> 24).setWidth 8 ∧
      t = { s with host := { s.host with cpls := t.host.cpls } } ∧ (∀ r, r ≠ page.val → cplOf t r = cplOf s r)) ∧
  (∀ (m : Fin 39) (page : Fin 64) (v : Word) (s : State), canonical s = true → (1 ≤ m.val ∧ m.val ≤ 4 ∨ m.val = 37) →
    gateOpen s 2 = true → (cplOf s page).enable = true → v.getLsbD 14 = false →
    ∃ t, exec (.completionRingEnable m page v) s = .next t ∧ (cplOf t page).enable = false ∧ (cplOf t page).reserved = 0 ∧
      (cplOf t page).tail = (cplOf s page).tail ∧ (cplOf t page).log2 = (cplOf s page).log2 ∧
      (∀ x ∈ t.host.inProg, x.cpl = page.val → x.dead = true) ∧ t.host.inProg.length = s.host.inProg.length ∧
      t = { s with host := { s.host with cpls := t.host.cpls, inProg := t.host.inProg } } ∧ (∀ r, r ≠ page.val → cplOf t r = cplOf s r)) ∧
  (∀ (m : Fin 39) (page : Fin 64) (v : Word) (s : State), canonical s = true → (1 ≤ m.val ∧ m.val ≤ 4 ∨ m.val = 37) →
    gateOpen s 2 = true → (cplOf s page).events = [] → ringSize (cplOf s page).log2 ≤ v.toNat % 65536 →
    exec (.hostCplDb m page v) s = .next (updCpl page (fun x => { x with dbErr := some s.tick }) s)) ∧
  (∀ (m : Fin 39) (page : Fin 64) (v : Word) (s : State), canonical s = true → (1 ≤ m.val ∧ m.val ≤ 4 ∨ m.val = 37) →
    gateOpen s 2 = true → (cplOf s page).events = [] → v.toNat % 65536 = (cplOf s page).tail.toNat →
    (cplOf s page).tail.toNat < ringSize (cplOf s page).log2 → (cplOf s page).used < ringSize (cplOf s page).log2 →
    ∃ t, exec (.hostCplDb m page v) s = .next t ∧ (cplOf t page).used = 0 ∧ (cplOf t page).tail = (cplOf s page).tail ∧
      t = { s with host := { s.host with cpls := t.host.cpls } } ∧ (∀ r, r ≠ page.val → cplOf t r = cplOf s r))

/-- Failures on the host path: a chain not posted in 1 ms (R389), a fetch fault and a completion-write fault (R397), a buffer
access not answered (R394), an unlisted opcode (R390), each with its status, record and frame. A command whose buffer is not answered is
judged as ever, and TIMEOUT is its status where it comes to need the buffer (R60, R67). A ring gives one command a tick (R386): a second
one in the tick of the first stays posted and nothing changes. -/
def Obligations.HostPathFailures : Prop :=
  (∀ (h : HostCmd) (s : State) (u : Nat) (rest : List Nat), canonical s = true → (ringOf s h.ring).posted = u :: rest →
    (ringOf s h.ring).posted.length < chainLen h → u + 250000 ≤ s.tick → canTake { h with chain := rest.length + 1 } s = true →
    s.pav.tamper = false → s.updt.hold = false → gateOpen s 2 = true →
    ∃ t, exec (.chainTimeout h.ring h) s = .next t ∧ completed s t h .lengthShort = true ∧ (ringOf t h.ring).posted = [] ∧
      t.ctxs = (countUp 5 h.cid 1 s).ctxs ∧ t.frames = s.frames ∧ t.orng = s.orng ∧ t.fence = s.fence) ∧
  (∀ (ring : Fin 64) (s : State), canonical s = true → roomAt s 0 = true → (ringOf s ring).enable = true →
    (ringOf s ring).stopped = false → (ringOf s ring).posted ≠ [] →
    ∃ t, exec (.descriptorFetchFault ring) s = .next t ∧ (ringOf t ring).stopped = true ∧
      (ringOf t ring).fetchFault = some s.tick ∧ recorded t 0 .hostRingStopped = true ∧
      (∀ r, r ≠ ring.val → ringOf t r = ringOf s r) ∧ t = { s with host := t.host, splq := t.splq, outs := t.outs }) ∧
  (∀ (ring i : Fin 64) (s : State), canonical s = true → (cplOf s ring).enable = true → (ringOf s i).enable = true →
    (ringOf s i).cpl.toNat = ring.val →
    ∃ t, exec (.completionWriteFault ring) s = .next t ∧ (ringOf t i).stopped = true ∧
      (cplOf t ring).writeFault = some s.tick ∧ t = { s with host := t.host, splq := t.splq, outs := t.outs }) ∧
  (∀ (h : HostCmd) (s : State),
    exec (.bufferAccessTimeout ⟨h, 0x02⟩) s = (if h.bufLen ≠ 0 then exec (.ctxKeyImport { h with buf := .noAnswer }) s else .next s) ∧
    exec (.bufferAccessTimeout ⟨h, 0x03⟩) s = (if h.bufLen ≠ 0 then exec (.ctxFrameBind { h with buf := .noAnswer }) s else .next s) ∧
    exec (.bufferAccessTimeout ⟨h, 0x04⟩) s = (if h.bufLen ≠ 0 then exec (.ctxFrameRelease { h with buf := .noAnswer }) s else .next s) ∧
    exec (.bufferAccessTimeout ⟨h, 0x18⟩) s = (if h.bufLen ≠ 0 then exec (.verifyPolicy { h with buf := .noAnswer }) s else .next s) ∧
    exec (.bufferAccessTimeout ⟨h, 0x20⟩) s = (if h.bufLen ≠ 0 then exec (.jobLinkOpen { h with buf := .noAnswer }) s else .next s) ∧
    exec (.bufferAccessTimeout ⟨h, 0x28⟩) s = (if h.bufLen ≠ 0 then exec (.scrubFrames { h with buf := .noAnswer }) s else .next s) ∧
    exec (.bufferAccessTimeout ⟨h, 0x38⟩) s = (if h.bufLen ≠ 0 then exec (.debugConsent { h with buf := .noAnswer }) s else .next s)) ∧
  (∀ (h : HostCmd) (opcode : Byte) (op : HostOp) (s : State), canonical s = true → op ∈ hostOps → op.code = opcode.toNat →
    readsBuffer op h = true → hostOk op { h with buf := .noAnswer } s = true →
    (op = opScrubFrames ∨
      h.gen = (ctxOf s h.cid).gen ∧ h.gen ≠ 0 ∧
        (((ctxOf s h.cid).state = .keyed ∨ (ctxOf s h.cid).state = .running) ∧
            (op = opVerifyPolicy ∨ op = opDebugConsent ∨ op = opCtxFrameRelease ∨ op = opCtxKeyImport ∨
              op = opCtxFrameBind ∧ opByte h 20 ≠ 2) ∨
          (ctxOf s h.cid).state = .created ∧ op = opCtxKeyImport ∨ (ctxOf s h.cid).state = .drained ∧ op = opCtxFrameRelease)) →
    ∃ t, exec (.bufferAccessTimeout ⟨h, opcode⟩) s = .next t ∧ completed s t h .timeout = true ∧
      t.ctxs = (countUp 5 h.cid 1 s).ctxs ∧ t.frames = s.frames ∧ t.orng = s.orng ∧ t.fence = s.fence ∧ t.flash = s.flash) ∧
  (∀ (h : HostCmd) (st : Status) (s : State), canonical s = true → h.bufLen ≠ 0 → hostOk opVerifyPolicy { h with buf := .noAnswer } s = true →
    ctxCheck .debugConsent h.cid h.gen s = some st →
    ∃ t, exec (.bufferAccessTimeout ⟨h, 0x18⟩) s = .next t ∧ completed s t h st = true) ∧
  (∀ (h : HostCmd) (opcode : Byte) (s : State), canonical s = true → canTake h s = true → s.pav.tamper = false → s.updt.hold = false →
    gateOpen s 2 = true → (∀ o ∈ hostOps, o.code ≠ opcode.toNat) →
    ∃ t, exec (.hostUnlistedOpcode h opcode) s = .next t ∧ completed s t h .badDescriptor = true ∧
      (ringOf t h.ring).badDesc = some s.tick ∧ t.frames = s.frames ∧ t.orng = s.orng ∧ t.fence = s.fence ∧ t.flash = s.flash ∧
      exec (.hostUnlistedOpcode h opcode) t = .next t)

/-- The coalescing timer (R388), host-function re-initialisation (R398) and the rise of host_fn_ready. -/
def Obligations.CoalescingAndReinitialisation : Prop :=
  (∀ (ring : Fin 64) (s : State), (cplOf s ring).irqEn = true → (cplOf s ring).coalUs ≠ 0 → 0 < (cplOf s ring).unsig →
    (cplOf s ring).unsigTick + 250 * (cplOf s ring).coalUs.toNat ≤ s.tick →
    ∃ t, exec (.coalescingTimer ring) s = .next t ∧ t.outs = s.outs ++ [.msix (cplOf s ring).vector.toNat] ∧
      t = { updCpl ring (fun c => { c with unsig := 0 }) s with outs := t.outs }) ∧
  (∀ s : State, gateOpen s 2 = true →
    ∃ t, exec .hostFlr s = .next t ∧ t.host.ready = false ∧ t.host.flrTick = some s.tick ∧ t.host.cpls = [] ∧
      (∀ r, r < 64 → (ringOf t r).enable = false ∧ (ringOf t r).posted = [] ∧ (ringOf t r).pi = 0 ∧ (ringOf t r).head = 0 ∧
        (ringOf t r).log2 = 4 ∧ (ringOf t r).base = 0) ∧
      t.host.doe = {} ∧ t.sund.perfHi = [] ∧ (∀ x ∈ t.host.inProg, x.dead = true) ∧ t.host.inProg.length = s.host.inProg.length ∧
      t = { s with
        host := t.host, sund := { s.sund with perfHi := [] }, belv := { s.belv with queue := s.belv.queue.filter (fun r => !forDoe r) }
        orng := { s.orng with queue := s.orng.queue.filter (fun q => !drawsForDoe q.2) } }) ∧
  (∀ (s : State) (u : Nat), gateOpen s 2 = true → s.host.flrTick = some u →
    exec .hostFnReady s = .next { s with host := { s.host with ready := true, everReady := true, flrTick := none } })

/-! ## Contexts: host and management commands (03_tenant_contexts.md) -/

/-- CTX_CREATE (R64, Table CTX-2): a named FREE CID out of cool-down, or for CID field 0 the lowest such CID, becomes CREATED
with V from the operands and its generation unchanged; OK is completed; no other context, no frame, key or fence state
changes. A named CID in cool-down is refused with BUSY. -/
def Obligations.CreateTakesAFreeCid : Prop :=
  (∀ (h : HostCmd) (s : State), canonical s = true → hostOk opCtxCreate h s = true → h.cid.val ≠ 0 →
    (ctxOf s h.cid).state = .free → (ctxOf s h.cid).cooldown = none →
    ∃ t, exec (.ctxCreate h) s = .next t ∧ (ctxOf t h.cid).state = .created ∧ (ctxOf t h.cid).gen = (ctxOf s h.cid).gen ∧
      (ctxOf t h.cid).v = (opByte h 20).toNat ∧ completed s t h .ok = true ∧
      (∀ c, c ≠ h.cid.val → ctxOf t c = ctxOf s c) ∧ t.frames = s.frames ∧ t.orng = s.orng ∧ t.fence = s.fence ∧
      t.groups = s.groups ∧ t.dies = s.dies) ∧
  (∀ (h : HostCmd) (s : State) (cid : Nat), canonical s = true → hostOk opCtxCreate h s = true → h.cid.val = 0 →
    1 ≤ cid → cid ≤ 254 → (ctxOf s cid).state = .free → (ctxOf s cid).cooldown = none →
    (∀ c, 1 ≤ c → c < cid → (ctxOf s c).state ≠ .free ∨ (ctxOf s c).cooldown ≠ none) →
    ∃ t, exec (.ctxCreate h) s = .next t ∧ (ctxOf t cid).state = .created ∧ (ctxOf t cid).gen = (ctxOf s cid).gen ∧
      (ctxOf t cid).v = (opByte h 20).toNat ∧ completed s t h .ok = true ∧
      (∀ c, c ≠ cid → ctxOf t c = ctxOf s c) ∧ t.frames = s.frames ∧ t.orng = s.orng ∧ t.fence = s.fence) ∧
  (∀ (h : HostCmd) (s : State), canonical s = true → hostOk opCtxCreate h s = true → h.cid.val ≠ 0 →
    (ctxOf s h.cid).state = .free → (ctxOf s h.cid).cooldown ≠ none →
    ∃ t, exec (.ctxCreate h) s = .next t ∧ completed s t h .busy = true ∧ t.frames = s.frames ∧
      (ctxOf t h.cid).state = .free)

/-- CTX_KEY_IMPORT taken for a private set in CREATED (R65, R66, Table ORNG-8): its keys wait in pending halves under a load
whose outcome is that of the checks of R65; the context stays CREATED and nothing is completed yet. The keys of the bundle are
opened with the encapsulation keys of slots 6 and 7 through a free working slot (Table ORNG-7, R233), and the vault must serve a
draw (R252). A second import meets BUSY (R66). -/
def Obligations.KeyImportIsTakenAndWaits : Prop :=
  (∀ (h : HostCmd) (s : State) (b : Bytes), canonical s = true → hostOk opCtxKeyImport h s = true → h.cid.val ≠ 0 →
    ctxCheck (.keyImport true) h.cid h.gen s = none → h.buf = .data b → leAt (fit h.bufLen b) 2 1 = 0 →
    (ctxOf s h.cid).importing = none → drawReady s = true → (freeWorking 1 s).isEmpty = false → loadsHeld s = true →
    (∀ k, k < 3 → (slotOf s (ctxSlot h.cid k)).state ≠ .bad ∧ (slotOf s (ctxSlot h.cid k)).pending = false) →
    (∃ x, deviceKey 6 s = some x) → (∃ y, deviceKey 7 s = some y) →
    ∃ t, exec (.ctxKeyImport h) s = .next t ∧ (ctxOf t h.cid).state = .created ∧
      (ctxOf t h.cid).importing = some ⟨true, ctxSlot h.cid 0, .host s.host.nextId⟩ ∧
      (∃ l ∈ t.orng.loads, l.for_ = .priv h.cid.val ∧ l.commitS = none ∧
        l.result = (checkBundle true h.cid h.gen (fit h.bufLen b) s).1) ∧
      t.host.inProg.length = s.host.inProg.length + 1 ∧ t.outs = s.outs ∧ t.frames = s.frames ∧ t.fence = s.fence ∧
      (∀ c, c ≠ h.cid.val → ctxOf t c = ctxOf s c)) ∧
  (∀ (h : HostCmd) (s : State) (b : Bytes), canonical s = true → hostOk opCtxKeyImport h s = true → h.cid.val ≠ 0 →
    ctxCheck (.keyImport true) h.cid h.gen s = none → h.buf = .data b → leAt (fit h.bufLen b) 2 1 = 0 →
    (ctxOf s h.cid).importing ≠ none →
    ∃ t, exec (.ctxKeyImport h) s = .next t ∧ completed s t h .busy = true ∧ t.orng = s.orng ∧ t.frames = s.frames)

/-- Frame lists (R67, R69, R391, R393), inline: a bind gives every listed frame to the context at once and queues its
zero-initialisation; a release and a scrub queue the rewriting under CID 255 and leave the frame table as it is; a list with
a frame that may not be named is refused whole. A management list whose message is longer than 64 KiB is LENGTH_LONG (R316, log 151). -/
def Obligations.FrameListsAreServedWholeOrNotAtAll : Prop :=
  (∀ (h : HostCmd) (s : State), canonical s = true → hostOk opCtxFrameBind h s = true → h.cid.val ≠ 0 → h.bufLen = 0 →
    ctxCheck .frameBind h.cid h.gen s = none → (opByte h 20).toNat ≤ 1 → (frameWords h).Nodup →
    (∀ n ∈ frameWords h, (frameOf s n).owner = 255 ∧ (frameOf s n).cls ≠ .device) →
    ∃ t, exec (.ctxFrameBind h) s = .next t ∧
      (∀ n ∈ frameWords h, frameOf t n = { owner := h.cid.val, cls := if (opByte h 20).toNat = 1 then .save else .priv, group := 0, zeroing := true }) ∧
      (∀ n, n ∉ frameWords h → frameOf t n = frameOf s n) ∧
      t.fence.scrub.length = s.fence.scrub.length + (frameWords h).length ∧ t.ctxs = s.ctxs ∧ t.orng = s.orng ∧ t.outs = s.outs) ∧
  (∀ (h : HostCmd) (s : State) (n : Nat), canonical s = true → hostOk opCtxFrameBind h s = true → h.cid.val ≠ 0 → h.bufLen = 0 →
    ctxCheck .frameBind h.cid h.gen s = none → (opByte h 20).toNat ≤ 1 → n ∈ frameWords h → (frameOf s n).owner ≠ 255 →
    ∃ t, exec (.ctxFrameBind h) s = .next t ∧ completed s t h .notPermitted = true ∧ t.frames = s.frames ∧
      t.fence = s.fence) ∧
  (∀ (h : HostCmd) (s : State), canonical s = true → hostOk opCtxFrameRelease h s = true → h.cid.val ≠ 0 → h.bufLen = 0 →
    ctxCheck .frameRelease h.cid h.gen s = none → (frameWords h).Nodup →
    (∀ n ∈ frameWords h, (frameOf s n).owner = h.cid.val ∧ ((frameOf s n).cls = .priv ∨ (frameOf s n).cls = .save)) →
    ∃ t, exec (.ctxFrameRelease h) s = .next t ∧ t.frames = s.frames ∧
      t.fence.scrub = s.fence.scrub ++ (frameWords h).map (fun n => ⟨n, s.fence.nextJob, .unowned, 255, 0, false⟩) ∧
      t.ctxs = s.ctxs ∧ t.orng = s.orng ∧ t.outs = s.outs) ∧
  (∀ (h : HostCmd) (s : State), canonical s = true → hostOk opScrubFrames h s = true → h.bufLen = 0 →
    (∀ n ∈ frameWords h, (frameOf s n).owner = 255 ∧ (frameOf s n).cls ≠ .device) →
    ∃ t, exec (.scrubFrames h) s = .next t ∧ t.frames = s.frames ∧
      t.fence.scrub = s.fence.scrub ++ (frameWords h).map (fun n => ⟨n, s.fence.nextJob, .unowned, 255, 0, false⟩) ∧
      t.ctxs = s.ctxs ∧ t.orng = s.orng ∧ t.outs = s.outs) ∧
  (∀ (m : MgmtHdr) (fs : List (Fin 524288)) (s : State), mgmtOk m s = true → 1 ≤ fs.length → fs.length ≤ 16379 →
    (∀ n ∈ fs, (frameOf s n).owner = 255 ∧ (frameOf s n).cls ≠ .device) →
    ∃ t, exec (.mgmtScrubFrames m fs) s = .next t ∧ t.frames = s.frames ∧
      t.fence.scrub = s.fence.scrub ++ fs.map (fun n => ⟨n.val, s.fence.nextJob, .unowned, 255, 0, false⟩) ∧
      t.ctxs = s.ctxs ∧ t.orng = s.orng ∧ t.outs = s.outs) ∧
  (∀ (m : MgmtHdr) (fs : List (Fin 524288)) (s : State), mgmtOk m s = true → 16380 ≤ fs.length →
    ∃ t, exec (.mgmtScrubFrames m fs) s = .next t ∧ replied s t m .lengthLong = true ∧ t.frames = s.frames ∧ t.fence = s.fence)

/-- A seal (R75) of an OPEN group by its creator counts from its intake and takes effect by a locked change; a schedule (R70)
of a KEYED or RUNNING context puts its map in force and completes OK, the context RUNNING; POWER_POLICY (R376) is in force
at once. -/
def Obligations.SealScheduleAndPowerPolicy : Prop :=
  (∀ (h : HostCmd) (s : State) (g : Nat), canonical s = true → hostOk opCtxPrefixSeal h s = true → h.cid.val ≠ 0 →
    ctxCheck .prefixSeal h.cid h.gen s = none → mapGet none (ctxOf s h.cid).ksel (opByte h 20).toNat = some g →
    (groupOf s g).state = .open_ → (groupOf s g).sealTick = none → (groupOf s g).sealing = false → (groupOf s g).creator = h.cid.val →
    ∃ t, exec (.ctxPrefixSeal h) s = .next t ∧ (groupOf t g).sealing = true ∧ (groupOf t g).state = .open_ ∧
      (∃ l ∈ t.fence.locks ++ t.fence.lockWait, l.op = .sealGroup g ∧ l.groups = 0xffff) ∧
      (∀ x, x ≠ g → groupOf t x = groupOf s x) ∧ t.ctxs = s.ctxs ∧ t.frames = s.frames ∧ t.orng = s.orng ∧ t.outs = s.outs) ∧
  (∀ (h : HostCmd) (s : State), canonical s = true → hostOk opCtxSchedule h s = true → h.cid.val ≠ 0 →
    ctxCheck .schedule h.cid h.gen s = none → (ctxOf s h.cid).schedWait = none →
    (slice h.ops (4 + (ctxOf s h.cid).v) (32 - (ctxOf s h.cid).v)).all (· == 0xff) = true →
    (∃ d, some d ∈ scheduleMap h (ctxOf s h.cid).v) →
    (∀ d, some d ∈ scheduleMap h (ctxOf s h.cid).v → (dieOf s d).state = .running ∧
      (ctxOf s h.cid).v * 320 * ((dieOf s d).saveKib.toNat + 1) ≤ (saveFrames s h.cid).length * 2048) →
    ∃ t, exec (.ctxSchedule h) s = .next t ∧ (ctxOf t h.cid).state = .running ∧
      (ctxOf t h.cid).map = scheduleMap h (ctxOf s h.cid).v ∧ (ctxOf t h.cid).slice = opNat h 20 4 ∧
      completed s t h .ok = true ∧ (∀ c, c ≠ h.cid.val → ctxOf t c = ctxOf s c) ∧ t.frames = s.frames ∧ t.orng = s.orng ∧
      t.fence = s.fence) ∧
  (∀ (h : HostCmd) (s : State), canonical s = true → hostOk opPowerPolicy h s = true → h.cid.val ≠ 0 → h.gen ≠ 0 →
    h.gen = (ctxOf s h.cid).gen → ((ctxOf s h.cid).state = .keyed ∨ (ctxOf s h.cid).state = .running) →
    ∃ t, exec (.powerPolicy h) s = .next t ∧ (ctxOf t h.cid).w = (opByte h 20).toNat ∧ (ctxOf t h.cid).fMin = (opByte h 21).toNat ∧
      (ctxOf t h.cid).pMax = opNat h 22 2 ∧ (ctxOf t h.cid).state = (ctxOf s h.cid).state ∧
      (completed s t h .ok = true ∨ completed s t h .pwrPolicyClipped = true) ∧
      (∀ c, c ≠ h.cid.val → ctxOf t c = ctxOf s c) ∧ t.power = s.power ∧ t.dies = s.dies ∧ t.frames = s.frames)

/-- CTX_DRAIN and CTX_DESTROY from both paths (R61, R78, R80, Table CTX-2): a drain starts with its limit 2,500,000 ticks on and
its map gone, and completes later; on a DRAINED context it completes at once; a destroy turns DRAINED and FENCED into
DESTROYING, and elsewhere starts or joins a drain with DESTROY_PENDING; it ends the consent (R83) and the power policy (R376) at once. -/
def Obligations.DrainAndDestroyStart : Prop :=
  (∀ (h : HostCmd) (s : State), canonical s = true → hostOk opCtxDrain h s = true → h.cid.val ≠ 0 →
    ctxCheck .drain h.cid h.gen s = none → (ctxOf s h.cid).state ≠ .drained → (ctxOf s h.cid).schedWait = none →
    ∃ t, exec (.ctxDrain h) s = .next t ∧ (ctxOf t h.cid).state = .draining ∧ (ctxOf t h.cid).map = [] ∧
      ((ctxOf t h.cid).drain.map (·.deadline)) = some (s.tick + 2500000) ∧ (ctxOf t h.cid).destroyPending = (ctxOf s h.cid).destroyPending ∧
      t.host.inProg.length = s.host.inProg.length + 1 ∧ (∀ c, c ≠ h.cid.val → ctxOf t c = ctxOf s c) ∧
      t.frames = s.frames ∧ t.orng = s.orng ∧ t.fence = s.fence) ∧
  (∀ (h : HostCmd) (s : State), canonical s = true → hostOk opCtxDrain h s = true → h.cid.val ≠ 0 →
    ctxCheck .drain h.cid h.gen s = none → (ctxOf s h.cid).state = .drained →
    ∃ t, exec (.ctxDrain h) s = .next t ∧ completed s t h .ok = true ∧ (ctxOf t h.cid).state = .drained ∧ t.frames = s.frames) ∧
  (∀ (m : MgmtHdr) (s : State), canonical s = true → mgmtOk m s = true → 1 ≤ m.unit.toNat → m.unit.toNat ≤ 254 →
    ctxCheck .drain m.unit.toNat m.gen s = none → (ctxOf s m.unit.toNat).state ≠ .drained → (ctxOf s m.unit.toNat).schedWait = none →
    ∃ t, exec (.mgmtCtxDrain m) s = .next t ∧ (ctxOf t m.unit.toNat).state = .draining ∧ (ctxOf t m.unit.toNat).map = [] ∧
      ((ctxOf t m.unit.toNat).drain.map (·.deadline)) = some (s.tick + 2500000) ∧
      (∀ c, c ≠ m.unit.toNat → ctxOf t c = ctxOf s c) ∧ t.frames = s.frames ∧ t.orng = s.orng ∧ t.fence = s.fence) ∧
  (∀ (h : HostCmd) (s : State), canonical s = true → hostOk opCtxDestroy h s = true → h.cid.val ≠ 0 →
    ctxCheck .destroy h.cid h.gen s = none → (ctxOf s h.cid).schedWait = none →
    ∃ t, exec (.ctxDestroy h) s = .next t ∧
      ((ctxOf s h.cid).state = .drained → (ctxOf t h.cid).state = .destroying ∧ ((ctxOf t h.cid).destroy.map (·.tick)) = some s.tick) ∧
      ((ctxOf s h.cid).state = .fenced → (ctxOf t h.cid).state = .destroying ∧
        ((ctxOf t h.cid).drain.map (·.deadline)) = some (s.tick + 2500000)) ∧
      ((ctxOf s h.cid).state ≠ .drained → (ctxOf s h.cid).state ≠ .fenced →
        (ctxOf t h.cid).state = .draining ∧ (ctxOf t h.cid).destroyPending = true) ∧
      (ctxOf t h.cid).destroyWaiters = (ctxOf s h.cid).destroyWaiters ++ [.host s.host.nextId] ∧
      (ctxOf t h.cid).consent = none ∧ (ctxOf t h.cid).w = 8 ∧ (ctxOf t h.cid).fMin = 0 ∧ (ctxOf t h.cid).pMax = 0 ∧
      (∀ c, c ≠ h.cid.val → ctxOf t c = ctxOf s c) ∧ t.frames = s.frames ∧ t.orng = s.orng ∧ t.fence = s.fence) ∧
  (∀ (m : MgmtHdr) (s : State), canonical s = true → mgmtOk m s = true → 1 ≤ m.unit.toNat → m.unit.toNat ≤ 254 →
    ctxCheck .destroy m.unit.toNat m.gen s = none → (ctxOf s m.unit.toNat).schedWait = none →
    ∃ t, exec (.mgmtCtxDestroy m) s = .next t ∧
      ((ctxOf s m.unit.toNat).state = .drained → (ctxOf t m.unit.toNat).state = .destroying) ∧
      ((ctxOf s m.unit.toNat).state = .fenced → (ctxOf t m.unit.toNat).state = .destroying) ∧
      ((ctxOf s m.unit.toNat).state ≠ .drained → (ctxOf s m.unit.toNat).state ≠ .fenced →
        (ctxOf t m.unit.toNat).state = .draining ∧ (ctxOf t m.unit.toNat).destroyPending = true) ∧
      (ctxOf t m.unit.toNat).destroyWaiters = (ctxOf s m.unit.toNat).destroyWaiters ++ [.mgmt m.tag.val] ∧
      (ctxOf t m.unit.toNat).consent = none ∧ (ctxOf t m.unit.toNat).w = 8 ∧ (ctxOf t m.unit.toNat).fMin = 0 ∧
      (ctxOf t m.unit.toNat).pMax = 0 ∧
      (∀ c, c ≠ m.unit.toNat → ctxOf t c = ctxOf s c) ∧ t.frames = s.frames ∧ t.orng = s.orng ∧ t.fence = s.fence)

/-- DEBUG_CONSENT, VERIFY_POLICY and VERIFY_REPORT accepted (R83, R189, R203): the consent in force is that of the token, the
policy governs from the next tick on, the report's 80 bytes are written to the host buffer. -/
def Obligations.ConsentPolicyAndReport : Prop :=
  (∀ (h : HostCmd) (s : State) (b : Bytes), canonical s = true → hostOk opDebugConsent h s = true → h.cid.val ≠ 0 →
    ctxCheck .debugConsent h.cid h.gen s = none → h.buf = .data b → consentOk h.cid (fit h.bufLen b) s = true →
    ∃ t, exec (.debugConsent h) s = .next t ∧ completed s t h .ok = true ∧
      (ctxOf t h.cid).consent = (if leAt (fit h.bufLen b) 3 1 % 4 = 0 then none
        else some ⟨BitVec.ofNat 8 (leAt (fit h.bufLen b) 3 1 % 4), leAt (fit h.bufLen b) 8 8, slice (fit h.bufLen b) 64 32⟩) ∧
      (ctxOf t h.cid).state = (ctxOf s h.cid).state ∧ (∀ c, c ≠ h.cid.val → ctxOf t c = ctxOf s c) ∧ t.frames = s.frames) ∧
  (∀ (h : HostCmd) (s : State) (b : Bytes), canonical s = true → hostOk opVerifyPolicy h s = true → h.cid.val ≠ 0 →
    ctxCheck .debugConsent h.cid h.gen s = none → h.buf = .data b → policyCheck h.cid (fit h.bufLen b) s = .ok →
    ∃ t, exec (.verifyPolicy h) s = .next t ∧ completed s t h .ok = true ∧
      (ctxOf t h.cid).policy = { rate := leAt (fit h.bufLen b) 6 2, fence := decide (leAt (fit h.bufLen b) 3 1 = 1), seq := leAt (fit h.bufLen b) 8 8, nonce := slice (fit h.bufLen b) 64 32, set := true } ∧
      (∀ u, u ≤ s.tick → s.tick ≤ u → policyAt (ctxOf t h.cid) u = policyAt (ctxOf s h.cid) u) ∧
      (∀ u, s.tick < u → policyAt (ctxOf t h.cid) u = (ctxOf t h.cid).policy) ∧
      (∀ c, c ≠ h.cid.val → ctxOf t c = ctxOf s c) ∧ t.frames = s.frames) ∧
  (∀ (h : HostCmd) (s : State) (b : Bytes), canonical s = true → hostOk opVerifyReport h s = true → h.cid.val ≠ 0 → h.gen ≠ 0 →
    h.gen = (ctxOf s h.cid).gen → (ctxOf s h.cid).state ≠ .free → (ctxOf s h.cid).state ≠ .destroying → 80 ≤ h.bufLen →
    h.buf = .data b →
    ∃ t, exec (.verifyReport h) s = .next t ∧ completed s t h .ok = true ∧
      (∃ r, .hostWrite h.bufAddr r ∈ newOuts s t ∧ r = coverageRecord s h.cid (!fineConsent s h.cid)) ∧
      (∀ c, c ≠ h.cid.val → ctxOf t c = ctxOf s c) ∧ (ctxOf t h.cid).state = (ctxOf s h.cid).state ∧ t.frames = s.frames ∧ t.grnh = s.grnh)


/-! ## Contexts: packets, timers and the ends of drains and destroys (03_tenant_contexts.md) -/

/-- Context-private packets at the head of queue 65 + CID (R73, R74, R218): PFX_CREATE opens the lowest FREE group with the
packet's KSEL as its creator's, its key derived from the team key; PFX_JOIN raises the members of the SEALED group whose
digest and check value match; PFX_LEAVE unbinds the KSEL and retires a group that is left without members; CMR_EXTEND extends
CMR6 or CMR7; a malformed packet is answered with BAD_DESCRIPTOR. The packet leaves the queue, its status is added to its
result semaphore; no frame, die or other context's state changes before that. That a create takes the lowest FREE group, and a join the
lowest of several that match, is the model's choice (logs 33, 111). -/
def Obligations.PrivatePacketsAreServed : Prop :=
  (∀ (c : Fin 256) (s : State) (p team : Bytes) (g : Nat), canonical s = true → c.val ≠ 0 → c.val ≠ 255 → headPriv s c = some p →
    isPriv 1 p = true → s.pav.supply = none → s.pav.tamper = false → s.updt.hold = false →
    ((ctxOf s c).state = .keyed ∨ (ctxOf s c).state = .running) → mapGet none (ctxOf s c).ksel (privKsel p) = none →
    (useSlot (ctxSlot c 5) attrDerive c s).1 = (.ok, team) → g < 256 → (groupOf s g).state = .free →
    (∀ x, x < g → (groupOf s x).state ≠ .free) → (freeWorking 2 s).length = 2 → drawReady s = true → loadsHeld s = true →
    ∃ v, exec (.pfxCreate c) s = .next (deliverStatus c (privSem p) .ok v) ∧
      groupOf v g = { state := .open_, creator := c.val, members := 1, digest := privDigest p, kcv := keyCheckValueOf (groupKeys team (privDigest p)) } ∧
      mapGet none (ctxOf v c).ksel (privKsel p) = some g ∧ (ctxOf v c).state = (ctxOf s c).state ∧
      (slotOf v (groupSlot g)).state = .active ∧ (slotOf v (groupSlot g + 1)).state = .active ∧
      (slotOf v (groupSlot g)).attr = attrEngine ∧ (slotOf v (groupSlot g)).group = some g ∧
      (∀ n, n < workingBase → n ≠ groupSlot g → n ≠ groupSlot g + 1 → slotOf v n = slotOf s n) ∧
      (∀ x, x ≠ g → groupOf v x = groupOf s x) ∧ (∀ x, x ≠ c.val → ctxOf v x = ctxOf s x) ∧
      v.splq = (takePriv c s).splq ∧ v.frames = s.frames ∧ v.dies = s.dies ∧ v.fence = s.fence) ∧
  (∀ (c : Fin 256) (s : State) (p team : Bytes) (g : Nat), canonical s = true → c.val ≠ 0 → c.val ≠ 255 → headPriv s c = some p →
    isPriv 2 p = true → s.pav.supply = none → s.pav.tamper = false → s.updt.hold = false →
    ((ctxOf s c).state = .keyed ∨ (ctxOf s c).state = .running) → mapGet none (ctxOf s c).ksel (privKsel p) = none →
    (useSlot (ctxSlot c 5) attrDerive c s).1 = (.ok, team) → (freeWorking 2 s).length = 2 → drawReady s = true → loadsHeld s = true →
    matchGroup s .open_ none (keyCheckValueOf (groupKeys team (privDigest p))) = none →
    matchGroup s .sealed_ (some (privDigest p)) (keyCheckValueOf (groupKeys team (privDigest p))) = some g →
    ∃ v, exec (.pfxJoin c) s = .next (deliverStatus c (privSem p) .ok v) ∧
      groupOf v g = { groupOf s g with members := (groupOf s g).members + 1 } ∧
      mapGet none (ctxOf v c).ksel (privKsel p) = some g ∧ (ctxOf v c).state = (ctxOf s c).state ∧
      (∀ x, x ≠ g → groupOf v x = groupOf s x) ∧ (∀ x, x ≠ c.val → ctxOf v x = ctxOf s x) ∧
      v.splq = (takePriv c s).splq ∧ v.frames = s.frames ∧ v.dies = s.dies ∧ v.fence = s.fence ∧
      (∀ n, n < workingBase → slotOf v n = slotOf s n)) ∧
  (∀ (c : Fin 256) (s : State) (p : Bytes) (g : Nat), canonical s = true → c.val ≠ 0 → c.val ≠ 255 → headPriv s c = some p →
    isPriv 3 p = true → s.pav.supply = none → s.pav.tamper = false → s.updt.hold = false →
    ((ctxOf s c).state = .keyed ∨ (ctxOf s c).state = .running) → mapGet none (ctxOf s c).ksel (privKsel p) = some g →
    1 < (groupOf s g).members →
    ∃ v, exec (.pfxLeave c) s = .next (deliverStatus c (privSem p) .ok v) ∧
      groupOf v g = { groupOf s g with members := (groupOf s g).members - 1 } ∧
      ctxOf v c = { ctxOf s c with ksel := mapSet none (ctxOf s c).ksel (privKsel p) none, oddKsel := mapSet false (ctxOf s c).oddKsel (privKsel p) false } ∧
      (∃ l ∈ v.fence.locks ++ v.fence.lockWait, l.op = .pairs c.val (1#4 <<< privKsel p)) ∧
      (∀ x, x ≠ g → groupOf v x = groupOf s x) ∧ (∀ x, x ≠ c.val → ctxOf v x = ctxOf s x) ∧
      v.splq = (takePriv c s).splq ∧ v.frames = s.frames ∧ v.dies = s.dies ∧ v.orng = s.orng) ∧
  (∀ (c : Fin 256) (s : State) (p : Bytes) (g : Nat), canonical s = true → c.val ≠ 0 → c.val ≠ 255 → headPriv s c = some p →
    isPriv 3 p = true → s.pav.supply = none → s.pav.tamper = false → s.updt.hold = false →
    ((ctxOf s c).state = .keyed ∨ (ctxOf s c).state = .running) → mapGet none (ctxOf s c).ksel (privKsel p) = some g →
    (groupOf s g).members = 1 →
    ∃ v, exec (.pfxLeave c) s = .next (deliverStatus c (privSem p) .ok v) ∧ (groupOf v g).state = .retiring ∧
      (slotOf v (groupSlot g)).state = .empty ∧ (slotOf v (groupSlot g + 1)).state = .empty ∧
      (∃ l ∈ v.fence.locks ++ v.fence.lockWait, l.op = .ofGroup g ∧ l.owner = .retire g) ∧
      (∀ x, x ≠ g → groupOf v x = groupOf s x) ∧ v.frames = s.frames ∧ v.dies = s.dies) ∧
  (∀ (c : Fin 256) (s : State) (p : Bytes), canonical s = true → c.val ≠ 0 → c.val ≠ 255 → headPriv s c = some p →
    isPriv 0x10 p = true → s.pav.supply = none → s.pav.tamper = false → s.updt.hold = false →
    cmrsOk s c = true → (leAt p 1 1 = 6 ∨ leAt p 1 1 = 7) → ((ctxOf s c).state = .keyed ∨ (ctxOf s c).state = .running) →
    ∃ v, exec (.cmrExtend c) s = .next (deliverStatus c (privSem p) .ok v) ∧
      mapGet (zeros 48) (ctxOf v c).cmr (leAt p 1 1) = sha384 (mapGet (zeros 48) (ctxOf s c).cmr (leAt p 1 1) ++ privDigest p) ∧
      (∀ x, x ≠ c.val → ctxOf v x = ctxOf s x) ∧ v = { takePriv c s with ctxs := v.ctxs }) ∧
  (∀ (c : Fin 256) (s : State) (p : Bytes), c.val ≠ 0 → c.val ≠ 255 → headPriv s c = some p → privOk p = false → privSem p ≤ 511 →
    s.pav.supply = none → s.pav.tamper = false → s.updt.hold = false →
    exec (.contextPrivateBadPacket c) s = .next (deliverStatus c (privSem p) .badDescriptor (takePriv c s)))

/-- Timers and faults of contexts and groups (R63, R77, R81, R83, R84, R108): the end of a cool-down, of a consent, the refresh
of the coarsened counters, a retired group's return to FREE in the tick after its end, a FENCED context with a destroy pending, an integrity fault by
Table CTX-3. -/
def Obligations.ContextTimersAndFaults : Prop :=
  (∀ (c : Fin 256) (s : State) (t : Nat), canonical s = true → (ctxOf s c).cooldown = some t → t ≤ s.tick →
    ∃ u, exec (.cooldownExpiry c) s = .next u ∧ ctxOf u c = { ctxOf s c with cooldown := none } ∧
      (∀ x, x ≠ c.val → ctxOf u x = ctxOf s x) ∧ u = { s with ctxs := u.ctxs }) ∧
  (∀ (c : Fin 256) (s : State) (k : Consent), canonical s = true → (ctxOf s c).consent = some k → k.expiry < s.tick →
    ∃ u, exec (.consentExpiry c) s = .next u ∧ ctxOf u c = { ctxOf s c with consent := none } ∧
      (∀ x, x ≠ c.val → ctxOf u x = ctxOf s x) ∧ u = { s with ctxs := u.ctxs }) ∧
  (∀ s : State, canonical s = true → s.tick % 250000 = 0 →
    ∃ u, exec .counterRefresh s = .next u ∧ u.host.devShown = mapAll 0 (fun _ n => n / 65536 * 65536) s.host.devCnt ∧
      (∀ c, (ctxOf u c).covShown = mapAll 0 (fun _ n => n / 65536 * 65536) (ctxOf s c).cov ∧
        (ctxOf u c).cntShown = (if fineConsent s c then (ctxOf s c).cnt else (ctxOf s c).cntShown) ∧
        (ctxOf u c).cnt = (ctxOf s c).cnt ∧ (ctxOf u c).state = (ctxOf s c).state) ∧
      u = { s with ctxs := u.ctxs, host := { s.host with devShown := u.host.devShown } }) ∧
  (∀ (g : Fin 256) (s : State), canonical s = true → (groupOf s g).state = .retiring → (groupOf s g).invDone = true →
    groupFrames s g = [] → (groupOf s g).endAt < s.tick →
    ∃ u, exec (.groupRetired g) s = .next u ∧ groupOf u g = {} ∧ (∀ x, x ≠ g.val → groupOf u x = groupOf s x) ∧
      u = { s with groups := u.groups }) ∧
  (∀ (c : Fin 256) (s : State), canonical s = true → (ctxOf s c).state = .fenced → (ctxOf s c).destroyPending = true →
    (ctxOf s c).fencedAt < s.tick →
    ∃ u, exec (.fencedToDestroying c) s = .next u ∧
      ctxOf u c = { ctxOf s c with state := .destroying, drain := some ⟨.counts, [], s.tick + 2500000, [], s.tick, false⟩ } ∧
      (∀ x, x ≠ c.val → ctxOf u x = ctxOf s x) ∧ u = { s with ctxs := u.ctxs }) ∧
  (∀ (unit : Fin 544) (s : State) (f : IntegFault), canonical s = true → s.pav.integ.find? (fun f => f.unit == unit.val) = some f →
    ∃ u, exec (.integrityFault unit) s = .next u ∧ u.pav.integ = s.pav.integ.erase f ∧
      u.sund.ptr4 = (s.sund.ptr4 + 1) % 544 ∧ u.frames = s.frames ∧ u.groups = s.groups ∧ u.orng = s.orng ∧ u.fence = s.fence ∧
      ((ctxOf s f.cid).state = .running ∨ (ctxOf s f.cid).state = .draining ∨ ((ctxOf s f.cid).state = .keyed ∧ f.cause ≤ 2) ∨
          ((ctxOf s f.cid).state = .drained ∧ f.cause = 1) →
        (ctxOf u f.cid).state = .fenced ∧ (ctxOf u f.cid).cause = BitVec.ofNat 4 f.cause ∧ (ctxOf u f.cid).map = [] ∧
        (ctxOf u f.cid).fenceFrom = some (f.tick + 2) ∧ (ctxOf u f.cid).drain = none) ∧
      ((ctxOf s f.cid).state = .free ∨ (ctxOf s f.cid).state = .created ∨ (ctxOf s f.cid).state = .fenced ∨
          (ctxOf s f.cid).state = .destroying ∨ ((ctxOf s f.cid).state = .keyed ∧ 2 < f.cause) ∨
          ((ctxOf s f.cid).state = .drained ∧ f.cause ≠ 1) → u.ctxs = s.ctxs ∧ u.host = s.host ∧ u.outs = s.outs) ∧
      (∀ x, x ≠ f.cid → (ctxOf u x).state = (ctxOf s x).state))

/-- The ends of drains and destroys (R79, R80, Tables CTX-9, CTX-10). That CAUSE and DRAIN_FORCED stay readable in the FREE context is the
model's choice (log 32). -/
def Obligations.DrainsAndDestroysEnd : Prop :=
  (∀ (c : Fin 256) (s : State) (k : Drain), canonical s = true → (ctxOf s c).drain = some k → k.phase = .counts → quiet c s = true →
    wasQuiet s c = true →
    ∃ u, exec (.drainCountsZero c) s = .next u ∧ (ctxOf u c).state = (ctxOf s c).state ∧
      (ctxOf u c).drain = some { k with phase := .closes, since := s.tick } ∧
      (∀ j, (jobOf s j).cid = c.val → (jobOf u j).state = .closing ∨ (jobOf u j).state = .free) ∧
      (∀ x, x ≠ c.val → (ctxOf u x).state = (ctxOf s x).state) ∧ u.frames = s.frames ∧ u.groups = s.groups ∧ u.dies = s.dies) ∧
  (∀ (c : Fin 256) (s : State) (k : Drain), (ctxOf s c).drain = some k → k.phase = .closes → jobsOf s c = [] → quiet c s = true →
    (ctxOf s c).state = .draining → (ctxOf s c).destroyPending = false →
    exec (.drainFinish c) s = .next (finishAll k.waiters .ok []
      (updCtx c (fun x => { x with state := .drained, drain := none }) s))) ∧
  (∀ (c : Fin 256) (s : State) (k : Drain), canonical s = true → (ctxOf s c).drain = some k → k.phase = .closes → jobsOf s c = [] →
    quiet c s = true → ((ctxOf s c).state = .draining ∧ (ctxOf s c).destroyPending = true ∨ (ctxOf s c).state = .destroying) →
    ∃ u, exec (.drainFinish c) s = .next u ∧ (ctxOf u c).state = .destroying ∧ (ctxOf u c).drain = none ∧
      (ctxOf u c).destroy = some ⟨s.tick, false, none, none, s.tick⟩ ∧ (∀ x, x ≠ c.val → (ctxOf u x).state = (ctxOf s x).state) ∧
      u.frames = s.frames ∧ u.orng = s.orng ∧ u.fence = s.fence) ∧
  (∀ (c : Fin 256) (s : State) (k : Drain), canonical s = true → (ctxOf s c).drain = some k → k.deadline ≤ s.tick →
    (ctxOf s c).state = .draining →
    ∃ u, exec (.drainTimeout c) s = .next u ∧
      (ctxOf u c).state = (if (ctxOf s c).destroyPending then .destroying else .drained) ∧
      (ctxOf u c).forced = (!drainOver s c || (ctxOf s c).forced) ∧ (ctxOf u c).drain = none ∧ (∀ j, (jobOf s j).cid = c.val → (jobOf u j).state = .free) ∧
      (∀ x, x ≠ c.val → (ctxOf u x).state = (ctxOf s x).state) ∧ u.frames = s.frames ∧ u.groups = s.groups ∧ u.dies = s.dies) ∧
  (∀ (c : Fin 256) (s : State) (k : Drain), canonical s = true → (ctxOf s c).drain = some k → k.deadline ≤ s.tick →
    (ctxOf s c).state = .destroying →
    ∃ u, exec (.destroyWaitTimeout c) s = .next u ∧ (ctxOf u c).state = .destroying ∧ (ctxOf u c).forced = (!drainOver s c || (ctxOf s c).forced) ∧
      (ctxOf u c).destroy = some ⟨s.tick, false, none, none, s.tick⟩ ∧ (∀ j, (jobOf s j).cid = c.val → (jobOf u j).state = .free) ∧
      (∀ x, x ≠ c.val → (ctxOf u x).state = (ctxOf s x).state) ∧ u.frames = s.frames ∧ u.groups = s.groups ∧ u.dies = s.dies) ∧
  (∀ (c : Fin 256) (s : State) (d : Destroy), canonical s = true → 1 ≤ c.val → c.val ≤ 254 → (ctxOf s c).destroy = some d →
    d.zeroised = false → d.tick < s.tick →
    ∃ u, exec (.destroyZeroise c) s = .next u ∧ (ctxOf u c).destroy = some { d with zeroised := true } ∧
      (∀ i, i < 8 → (slotOf u (ctxSlot c i)).state = .empty) ∧ (ctxOf u c).consent = none ∧ (ctxOf u c).privSet = false ∧
      (qOf u (65 + c.val)).items = [] ∧
      (∃ l ∈ u.fence.locks ++ u.fence.lockWait, l.op = .pairs c.val 0xf ∧ l.owner = .destroy c.val) ∧
      (ctxOf u c).state = (ctxOf s c).state ∧ (∀ x, x ≠ c.val → (ctxOf u x).state = (ctxOf s x).state) ∧ u.frames = s.frames) ∧
  (∀ (c : Fin 256) (s : State) (d : Destroy) (uc : Nat), (ctxOf s c).destroy = some d → d.commit = some uc → d.us < s.tick →
    scrubEnded s d = true →
    exec (.destroyScrubDone c) s = .next (finishAll (ctxOf s c).destroyWaiters .ok (leNat 8 uc)
      (updCtx c (fun x => { gen := genNext x.gen, cooldown := some (s.tick + 2500000), cause := x.cause, forced := x.forced }) s)))

/-! ## Dies and Lodges (03_tenant_contexts.md, 15_pergola_semaphores.md, 16_spill_queues.md, 19_faults_and_recovery.md) -/

/-- The context switch (R71, R72, R38, R350, Table CTX-6): the end of a slice requests pre-emption with its bound and releases
every wait of the die's cores; a lone resident's slice starts again; a completed save writes each core slot header that has a
place through the fence and raises ctx_clear for 500 ticks, or waits without a bound while receipts are owed an answer (R196); the acknowledgement in time stamps every core for the next resident; the stamps done, the semaphores are
restored and the cores run, or a refused or failed header read leaves the die idle for the slice; a late step is a cause of a die reset. No context, frame or key changes but by the steps named. -/
def Obligations.SwitchStepsFollowTheTable : Prop :=
  (∀ (d : Fin 32) (s : State) (r n : Resident), canonical s = true → (dieOf s d).current = some r → (dieOf s d).step = .idle →
    (dieOf s d).sliceEnd ≤ s.tick → (dieOf s d).coresRun = true → nextAfter s d r = some n → sameResident n r = false →
    ∃ u, exec (.sliceExpiry d) s = .next u ∧
      dieOf u d = { dieOf s d with step := .preempting (s.tick + 250 * clamp 10 5000 (dieOf s d).bound.toNat) } ∧
      (∀ k, ∀ w ∈ (sliceOf u k).waits, ofDie d w.from_ = false ∨ 32 ≤ k) ∧ (∀ k i, semValue u k i = semValue s k i) ∧
      (∀ k, k ≠ d.val → dieOf u k = dieOf s k) ∧ u = { s with dies := u.dies, perg := u.perg, outs := u.outs }) ∧
  (∀ (d : Fin 32) (s : State) (r n : Resident), canonical s = true → (dieOf s d).current = some r → (dieOf s d).step = .idle →
    (dieOf s d).sliceEnd ≤ s.tick → (dieOf s d).coresRun = true → nextAfter s d r = some n → sameResident n r = true →
    ∃ u, exec (.sliceExpiry d) s = .next u ∧ dieOf u d = { dieOf s d with sliceEnd := s.tick + 250 * r.slice } ∧
      (∀ k, k ≠ d.val → dieOf u k = dieOf s k) ∧ u = { s with dies := u.dies }) ∧
  (∀ (d : Fin 32) (s : State) (r : Resident) (b : Nat), canonical s = true → (dieOf s d).current = some r →
    (dieOf s d).step = .preempting b → s.tick ≤ b → answersOwed s d r.cid = false → (ctxOf s r.cid).schedWait = none →
    (d.val, DieCause.preemptLate) ∉ s.pav.dieCauses →
    ∃ u, exec (.saveComplete d) s = .next u ∧ (dieOf u d).step = .clearing (s.tick + 500) true ∧ (dieOf u d).ctxClear = true ∧
      (dieOf u d).coresRun = false ∧ (dieOf u d).current = some r ∧
      (∀ k p, k < 320 → slotPlace s d r.cid r.vdie k = some p →
        .slotHeader d r.cid r.vdie k p (slotHeaderBytes s d k) ∈ newOuts s u) ∧
      ((dieOf u d).saveShort = some s.tick ∨ (∀ k, k < 320 → slotPlace s d r.cid r.vdie k ≠ none)) ∧
      (∀ c, (ctxOf u c).state = (ctxOf s c).state) ∧ (∀ k, k ≠ d.val → dieOf u k = dieOf s k) ∧ u.frames = s.frames ∧
      u.orng = s.orng ∧ u.fence.scrub = s.fence.scrub ∧ u.fence.locks = s.fence.locks ∧
      (∀ ch, (chanOf u ch).parked = (chanOf s ch).parked ∧ (chanOf u ch).fills = (chanOf s ch).fills ∧
        (chanOf u ch).reads = (chanOf s ch).reads ∧ (chanOf u ch).writes = (chanOf s ch).writes)) ∧
  (∀ (d : Fin 32) (s : State) (r : Resident) (b : Nat), canonical s = true → (dieOf s d).current = some r →
    (dieOf s d).step = .preempting b → s.tick ≤ b → answersOwed s d r.cid = true → (d.val, DieCause.preemptLate) ∉ s.pav.dieCauses →
    ∃ u, exec (.saveComplete d) s = .next u ∧ dieOf u d = { dieOf s d with step := .awaiting } ∧ preemptBounded u d = false ∧
      (∀ k, k ≠ d.val → dieOf u k = dieOf s k) ∧ u = { s with dies := u.dies }) ∧
  (∀ (d : Fin 32) (s : State) (r n : Resident) (b : Nat), canonical s = true → (dieOf s d).state = .running →
    (dieOf s d).current = some r → (dieOf s d).step = .clearing b true → s.tick ≤ b → (d.val, DieCause.clearLate) ∉ s.pav.dieCauses →
    nextResident (endClear d r.cid s) d = some n →
    ∃ u, exec (.ctxClearAck d) s = .next u ∧ (dieOf u d).ctxClear = false ∧ (dieOf u d).current = some n ∧
      (dieOf u d).step = .stamping ∧ (dieOf u d).stampCid = n.cid ∧ (dieOf u d).stampVdie = n.vdie ∧
      (dieOf u d).cidOut = BitVec.ofNat 8 r.cid ∧ (∀ k, k < 320 → .stamp d k n.cid (kselEn s n.cid).toNat ∈ newOuts s u) ∧
      u = { s with dies := u.dies, outs := u.outs }) ∧
  (∀ (d : Fin 32) (rd : LineReads) (hs : List SlotHeader) (s : State) (r : Resident), canonical s = true →
    (dieOf s d).current = some r → (dieOf s d).step = .stamping → isResident s d r = true → semaphoresOk s = true →
    (readsOutcome s (headerReads s d r) rd).status = .ok →
    ∃ u, exec (.stampDone d rd hs) s = .next u ∧ (dieOf u d).coresRun = true ∧ (dieOf u d).step = .idle ∧
      (dieOf u d).cidIn = BitVec.ofNat 8 r.cid ∧ (dieOf u d).switches = (dieOf s d).switches + 1 ∧
      (dieOf u d).sliceEnd = s.tick + 250 * r.slice ∧
      (∀ k h i v, k < 320 → i < 48 → (sliceOf s d).service = true → slotPlace s d r.cid r.vdie k ≠ none → hs[k]? = some h →
        h.valid = true → h.sems[i]? = some v → (∀ w ∈ (sliceOf s d).waits, virtBase ≤ w.sem) → semValue u d (48 * k + i) = v.toNat) ∧
      (∀ k, k ≠ d.val → dieOf u k = dieOf s k) ∧
      u = { s with
        dies := u.dies, perg := u.perg, ctxs := u.ctxs, outs := u.outs, host := { s.host with devCnt := u.host.devCnt }
        fence := { s.fence with chans := u.fence.chans, zeroAt := u.fence.zeroAt } } ∧
      (∀ c, c ≠ r.cid → ctxOf u c = ctxOf s c)) ∧
  (∀ (d : Fin 32) (rd : LineReads) (hs : List SlotHeader) (s : State) (r : Resident), canonical s = true →
    (dieOf s d).current = some r → (dieOf s d).step = .stamping → isResident s d r = true → 1 ≤ r.cid → r.cid ≤ 254 →
    (readsOutcome s (headerReads s d r) rd).status = .tagFail →
    ∃ u, exec (.stampDone d rd hs) s = .next u ∧ (dieOf u d).coresRun = false ∧ (dieOf u d).step = .idle ∧
      (dieOf u d).restoreFail = some s.tick ∧ (∃ f ∈ u.pav.integ, f.cid = r.cid ∧ f.cause = 1 ∧ f.tick = s.tick) ∧
      (dieOf u d).switches = (dieOf s d).switches ∧ (∀ c, (ctxOf u c).state = (ctxOf s c).state) ∧
      u = { s with
        dies := u.dies, pav := { s.pav with integ := u.pav.integ }, ctxs := u.ctxs, splq := u.splq, outs := u.outs
        host := { s.host with devCnt := u.host.devCnt }, fence := { s.fence with chans := u.fence.chans, zeroAt := u.fence.zeroAt } }) ∧
  (∀ (d : Fin 32) (rd : LineReads) (hs : List SlotHeader) (s : State) (r : Resident), canonical s = true →
    (dieOf s d).current = some r → (dieOf s d).step = .stamping → isResident s d r = true →
    (readsOutcome s (headerReads s d r) rd).status = .fenced →
    ∃ u, exec (.stampDone d rd hs) s = .next u ∧ (dieOf u d).coresRun = false ∧ (dieOf u d).step = .idle ∧
      (dieOf u d).restoreFail = (dieOf s d).restoreFail ∧ (dieOf u d).switches = (dieOf s d).switches ∧ u.pav = s.pav ∧
      (∀ k, k ≠ d.val → dieOf u k = dieOf s k) ∧ u.perg = s.perg ∧ u.frames = s.frames ∧ u.orng = s.orng) ∧
  (∀ (d : Fin 32) (s : State) (b : Nat), canonical s = true → roomAt s 0 = true → (dieOf s d).step = .preempting b → b ≤ s.tick →
    preemptBounded s d = true → (d.val, DieCause.preemptLate) ∉ s.pav.dieCauses →
    ∃ u, exec (.preemptTimeout d) s = .next u ∧ dieOf u d = { dieOf s d with preemptLate := some s.tick } ∧
      u.pav = { s.pav with dieCauses := s.pav.dieCauses ++ [(d.val, .preemptLate)] } ∧ recorded u 0 .timeout = true ∧
      (∀ k, k ≠ d.val → dieOf u k = dieOf s k) ∧ u = { s with dies := u.dies, pav := u.pav, splq := u.splq, outs := u.outs }) ∧
  (∀ (d : Fin 32) (s : State) (b : Nat) (sw : Bool), canonical s = true → roomAt s 0 = true → (dieOf s d).step = .clearing b sw →
    b ≤ s.tick → (d.val, DieCause.clearLate) ∉ s.pav.dieCauses →
    ∃ u, exec (.ctxClearTimeout d) s = .next u ∧ dieOf u d = { dieOf s d with clearLate := some s.tick } ∧
      u.pav = { s.pav with dieCauses := s.pav.dieCauses ++ [(d.val, .clearLate)] } ∧ recorded u 0 .timeout = true ∧
      (∀ k, k ≠ d.val → dieOf u k = dieOf s k) ∧ u = { s with dies := u.dies, pav := u.pav, splq := u.splq, outs := u.outs })

/-- Resets of cores and dies (R350, R411, R414, R228, Tables FAULT-5 and ARCH-7): what each does to its core or die; the
partial reset raises the die's generation and starts its reload in tick T; in T + 1 the die is held and its residents forgotten; every other
die's state stays. That the first beat after the release makes a HELD die RUNNING is the model's reading (log 89); a cause of OP 1 that
finds its die RESETTING is logged only, with the model's choice of status (log 142). -/
def Obligations.DieResetsAndHeartbeats : Prop :=
  (∀ (d : Fin 32) (c : Fin 320) (s : State), canonical s = true →
    ∃ u, exec (.coreReset d c) s = .next u ∧ (∀ k, k < 32 → ∀ w ∈ (sliceOf u k).waits, w.from_ ≠ .core d c) ∧
      (∀ k w, k < 32 → w ∈ (sliceOf s k).waits → w.from_ ≠ .core d c → w ∈ (sliceOf u k).waits) ∧
      (∀ k i, semValue u k i = semValue s k i) ∧ u = { s with perg := u.perg }) ∧
  (∀ (d : Fin 32) (s : State), canonical s = true → (∃ c, (d.val, c) ∈ s.pav.dieCauses) → s.pav.pendingReset = none →
    (dieOf s d).state ≠ .resetting → gateOpen s 7 = true →
    ∃ u, exec (.partialReset d) s = .next u ∧ (dieOf u d).state = .resetting ∧ (dieOf u d).gen = genNext (dieOf s d).gen ∧
      (dieOf u d).reload = some s.tick ∧ (dieOf u d).holdDue = some s.tick ∧ (dieOf u d).mr4 = false ∧
      (∀ c, (d.val, c) ∉ u.pav.dieCauses) ∧ (∀ k, k ≠ d.val → (dieOf u k).state = (dieOf s k).state ∧ (dieOf u k).gen = (dieOf s k).gen) ∧
      (∀ r, (dieOf s d).current = some r → ((ctxOf s r.cid).state = .running ∨ (ctxOf s r.cid).state = .draining) →
        (ctxOf u r.cid).state = .fenced ∧ (ctxOf u r.cid).cause = 4) ∧ u.frames = s.frames ∧ u.orng = s.orng) ∧
  (∀ (d : Fin 32) (s : State) (t : Nat), canonical s = true → s.pending = [] → (dieOf s d).holdDue = some t →
    (dieOf s d).state = .resetting →
    ∃ u, step s = .next u ∧ (dieOf u d).state = .resetting ∧ (dieOf u d).gen = (dieOf s d).gen ∧ (dieOf u d).rstN = false ∧
      (dieOf u d).current = none ∧ (dieOf u d).holdDue = none ∧ (dieOf u d).reload = (dieOf s d).reload ∧ (sliceOf u d).service = false ∧
      (∀ k, k < 32 → ∀ w ∈ (sliceOf u k).waits, ofDie d w.from_ = false)) ∧
  (∀ (d : Fin 32) (s : State), canonical s = true → roomAt s 0 = true → (d.val, DieCause.firmware) ∈ s.pav.dieCauses →
    s.pav.pendingReset = none → (dieOf s d).state = .resetting →
    ∃ u, exec (.partialReset d) s = .next u ∧ u.dies = s.dies ∧ (∀ c, (d.val, c) ∉ u.pav.dieCauses) ∧
      recorded u 0 .belvDieResetting = true ∧ u = { s with pav := u.pav, splq := u.splq, outs := u.outs }) ∧
  (∀ (d : Fin 32) (s : State), canonical s = true → roomAt s 0 = true → (dieOf s d).state = .running → s.pav.wdogTicks ≠ 0 →
    (dieOf s d).heartbeat + 2500 * s.pav.wdogTicks.toNat ≤ s.tick →
    ∃ u, exec (.heartbeatMissed d) s = .next u ∧ u.pav = { s.pav with stWdog := some s.tick, dieCauses := s.pav.dieCauses ++ [(d.val, .heartbeat)] } ∧
      (dieOf u d).heartbeat = s.tick ∧ recorded u 0 .timeout = true ∧ (∀ k, k ≠ d.val → dieOf u k = dieOf s k) ∧
      u = { s with dies := u.dies, pav := u.pav, splq := u.splq, outs := u.outs }) ∧
  (∀ (m : Fin 39) (d : Fin 32) (v : Word) (s : State), canonical s = true → m.val = 5 + d.val → v.getLsbD 0 = true →
    ∃ u, exec (.ldgHeartbeat m d v) s = .next u ∧ (dieOf u d).heartbeat = s.tick ∧
      ((dieOf s d).state = .held → (dieOf s d).releasedAt ≠ none → (dieOf u d).state = .running ∧ (dieOf u d).rstN = true) ∧
      ((dieOf s d).state ≠ .held → dieOf u d = { dieOf s d with heartbeat := s.tick }) ∧
      (∀ k, k ≠ d.val → dieOf u k = dieOf s k) ∧ u = { s with dies := u.dies }) ∧
  (∀ (d : Fin 32) (image : Bytes) (s : State) (t : Nat), canonical s = true → (dieOf s d).reload = some t →
    (dieOf s d).state = .resetting → (dieOf s d).holdDue = none → s.tick ≤ t + 1250001 →
    (dieFirmwareCopy s).map (·.length) = some image.length →
    sha384 image = dieFirmwareDigest s → (dieOf s d).reloadAns = none →
    ∃ u, exec (.dieReloadDone d image) s = .next u ∧ (dieOf u d).state = .running ∧ (dieOf u d).mr4 = true ∧ (dieOf u d).rstN = true ∧
      (dieOf u d).reload = none ∧ (∀ k, (dieOf u k).gen = (dieOf s k).gen) ∧ u = { s with dies := u.dies, outs := u.outs }) ∧
  (∀ (d : Fin 32) (image : Bytes) (s : State) (t : Nat), canonical s = true → (dieOf s d).reload = some t →
    (dieOf s d).state = .resetting → (dieOf s d).holdDue = none → s.tick ≤ t + 1250001 →
    (dieFirmwareCopy s).map (·.length) = some image.length → sha384 image ≠ dieFirmwareDigest s →
    ∃ u, exec (.dieReloadDone d image) s = .next u ∧ (dieOf u d).state = .failed ∧ (dieOf u d).rstN = false ∧ u.frames = s.frames) ∧
  (∀ (d : Fin 32) (s : State) (t : Nat), canonical s = true → (dieOf s d).reload = some t → (dieOf s d).state = .resetting →
    t + 1250002 ≤ s.tick →
    ∃ u, exec (.dieReloadTimeout d) s = .next u ∧ dieOf u d = { dieOf s d with state := .failed, rstN := false, reload := none } ∧
      (∀ k, k ≠ d.val → dieOf u k = dieOf s k) ∧ u = { s with dies := u.dies }) ∧
  (∀ (d : Fin 32) (s : State) (t : Nat), canonical s = true → (dieOf s d).releasedAt = some t → (dieOf s d).state = .held →
    t + 1250000 ≤ s.tick →
    ∃ u, exec (.lodgeReadyTimeout d) s = .next u ∧ dieOf u d = { dieOf s d with state := .failed, rstN := false, releasedAt := none } ∧
      (∀ k, k ≠ d.val → dieOf u k = dieOf s k) ∧ u = { s with dies := u.dies }) ∧
  (∀ (m : Fin 39) (v : Word) (s : State), 1 ≤ m.val → m.val ≤ 4 → v.toNat % 4 = 2 → s.pav.pendingReset = none →
    exec (.blockResetRequest m v) s = .next { s with pav := { s.pav with pendingReset := some .firmware, resetAt := s.tick } }) ∧
  (∀ (m : Fin 39) (v : Word) (s : State), 1 ≤ m.val → m.val ≤ 4 → v.toNat % 4 = 1 →
    exec (.dieResetRequest m v) s = .next { s with pav := { s.pav with dieCauses := s.pav.dieCauses ++ [(v.toNat / 256 % 32, .firmware)] } })

/-- A running Lodge takes the request at the head of its queue (R359, Tables SPLQ-8 to SPLQ-10): its effect, then the answer
added to the request's semaphore; a drain or a fence is answered when the context's cores have reached their switch point and its
stamps have been cleared; a request that fails a check is answered with BAD_DESCRIPTOR and does nothing else. -/
def Obligations.LodgesServeTheirRequests : Prop :=
  (∀ (d : Fin 32) (s : State) (es : List Bytes), canonical s = true → (dieOf s d).state = .running → headSvc s d = some es →
    svcOk s es = true → leAt (es.headD []) 1 1 = 1 → (dieOf s d).step ≠ .idle →
    ∃ v, exec (.schedule d) s = .next (answerSvc d (leAt (es.headD []) 6 2) .ok v) ∧ dieOf v d = { dieOf s d with residents := svcResidents es } ∧
      (∀ k, k ≠ d.val → dieOf v k = dieOf s k) ∧ v.splq = (takeSvc d s).splq ∧ v = { s with dies := v.dies, splq := v.splq, outs := v.outs }) ∧
  (∀ (d : Fin 32) (s : State) (es : List Bytes) (n : Resident), canonical s = true → (dieOf s d).state = .running → headSvc s d = some es →
    svcOk s es = true → leAt (es.headD []) 1 1 = 1 → (dieOf s d).step = .idle → (dieOf s d).current = none →
    nextResident (updDie d (fun x => { x with residents := svcResidents es }) s) d = some n →
    ∃ v, exec (.schedule d) s = .next (answerSvc d (leAt (es.headD []) 6 2) .ok v) ∧ (dieOf v d).residents = svcResidents es ∧
      (dieOf v d).current = some n ∧ (dieOf v d).step = .stamping ∧ (dieOf v d).stampCid = n.cid ∧
      (∀ k, k ≠ d.val → dieOf v k = dieOf s k) ∧ v = { s with dies := v.dies, splq := v.splq, outs := v.outs }) ∧
  (∀ (d : Fin 32) (s : State) (es : List Bytes) (r : Resident), canonical s = true → (dieOf s d).state = .running → headSvc s d = some es →
    svcOk s es = true → leAt (es.headD []) 1 1 = 2 → (dieOf s d).current = some r → r.cid = leAt (es.headD []) 2 1 →
    (dieOf s d).step = .idle → (dieOf s d).coresRun = true →
    ∃ v, exec (.drain d) s = .next v ∧ (dieOf v d).step = .evicting (s.tick + preemptTicks (dieOf s d)) r.cid true (leAt (es.headD []) 6 2) ∧
      (∀ x ∈ (dieOf v d).residents, x.cid ≠ r.cid) ∧ (∀ k, k < 32 → ∀ w ∈ (sliceOf v k).waits, ofDie d w.from_ = false) ∧
      (∀ k, k ≠ d.val → dieOf v k = dieOf s k) ∧
      v = { s with dies := v.dies, perg := v.perg, splq := v.splq, outs := v.outs }) ∧
  (∀ (d : Fin 32) (s : State) (es : List Bytes) (r : Resident), canonical s = true → (dieOf s d).state = .running → headSvc s d = some es →
    svcOk s es = true → leAt (es.headD []) 1 1 = 2 → (dieOf s d).current = some r → r.cid = leAt (es.headD []) 2 1 →
    (dieOf s d).step = .idle → (dieOf s d).coresRun = false →
    ∃ v, exec (.drain d) s = .next v ∧ (dieOf v d).step = .unstamping r.cid (leAt (es.headD []) 6 2) ∧ (dieOf v d).stampCid = 0 ∧
      (∀ k, k < 320 → .stamp d k 0 0 ∈ newOuts s v) ∧ (∀ x ∈ (dieOf v d).residents, x.cid ≠ r.cid) ∧
      (∀ c, (ctxOf v c).state = (ctxOf s c).state ∧ (ctxOf v c).drain = (ctxOf s c).drain) ∧ v.frames = s.frames ∧ v.orng = s.orng) ∧
  (∀ (d : Fin 32) (s : State) (es : List Bytes), canonical s = true → (dieOf s d).state = .running → headSvc s d = some es →
    svcOk s es = true → leAt (es.headD []) 1 1 = 2 → (dieOf s d).current = none →
    ∃ v, exec (.drain d) s = .next (answerSvc d (leAt (es.headD []) 6 2) .ok v) ∧ (dieOf v d).current = none ∧
      (∀ x ∈ (dieOf v d).residents, x.cid ≠ leAt (es.headD []) 2 1) ∧
      (∀ k, (ctxOf s (leAt (es.headD []) 2 1)).drain = some k → ∃ k', (ctxOf v (leAt (es.headD []) 2 1)).drain = some k' ∧
        k'.lodges = k.lodges.filter (· ≠ d.val) ∧ k'.deadline = k.deadline) ∧ v.frames = s.frames ∧ v.orng = s.orng) ∧
  (∀ (d : Fin 32) (s : State) (es : List Bytes) (r : Resident), canonical s = true → (dieOf s d).state = .running → headSvc s d = some es →
    svcOk s es = true → leAt (es.headD []) 1 1 = 3 → (dieOf s d).current = some r → r.cid = leAt (es.headD []) 2 1 →
    (dieOf s d).step = .idle → (dieOf s d).coresRun = true →
    ∃ v, exec (.fence d) s = .next v ∧ (dieOf v d).step = .evicting (s.tick + preemptTicks (dieOf s d)) r.cid false (leAt (es.headD []) 6 2) ∧
      (∀ x ∈ (dieOf v d).residents, x.cid ≠ r.cid) ∧ (∀ k, k < 32 → ∀ w ∈ (sliceOf v k).waits, ofDie d w.from_ = false) ∧
      (∀ k, k ≠ d.val → dieOf v k = dieOf s k) ∧
      v = { s with dies := v.dies, perg := v.perg, splq := v.splq, outs := v.outs }) ∧
  (∀ (d : Fin 32) (s : State) (es : List Bytes) (r : Resident), canonical s = true → (dieOf s d).state = .running → headSvc s d = some es →
    svcOk s es = true → leAt (es.headD []) 1 1 = 3 → (dieOf s d).current = some r → r.cid = leAt (es.headD []) 2 1 →
    (dieOf s d).step = .idle → (dieOf s d).coresRun = false →
    ∃ v, exec (.fence d) s = .next v ∧ (dieOf v d).step = .unstamping r.cid (leAt (es.headD []) 6 2) ∧ (dieOf v d).stampCid = 0 ∧
      (∀ k, k < 320 → .stamp d k 0 0 ∈ newOuts s v) ∧ (∀ x ∈ (dieOf v d).residents, x.cid ≠ r.cid) ∧
      (∀ c, (ctxOf v c).state = (ctxOf s c).state ∧ (ctxOf v c).drain = (ctxOf s c).drain) ∧ v.frames = s.frames ∧ v.orng = s.orng) ∧
  (∀ (d : Fin 32) (s : State) (es : List Bytes), canonical s = true → (dieOf s d).state = .running → headSvc s d = some es →
    svcOk s es = true → leAt (es.headD []) 1 1 = 3 → (dieOf s d).current = none →
    ∃ v, exec (.fence d) s = .next (answerSvc d (leAt (es.headD []) 6 2) .ok v) ∧ (dieOf v d).current = none ∧
      (∀ x ∈ (dieOf v d).residents, x.cid ≠ leAt (es.headD []) 2 1) ∧
      (∀ k, (ctxOf s (leAt (es.headD []) 2 1)).drain = some k → ∃ k', (ctxOf v (leAt (es.headD []) 2 1)).drain = some k' ∧
        k'.lodges = k.lodges.filter (· ≠ d.val) ∧ k'.deadline = k.deadline) ∧ v.frames = s.frames ∧ v.orng = s.orng) ∧
  (∀ (d : Fin 32) (s : State) (r : Resident) (t a : Nat), canonical s = true → (dieOf s d).current = some r →
    (dieOf s d).step = .evicting t r.cid false a → s.tick ≤ t → (d.val, DieCause.preemptLate) ∉ s.pav.dieCauses →
    ∃ v, exec (.saveComplete d) s = .next v ∧ (dieOf v d).step = .unstamping r.cid a ∧ (dieOf v d).coresRun = false ∧
      (dieOf v d).stampCid = 0 ∧ (∀ k, k < 320 → .stamp d k 0 0 ∈ newOuts s v) ∧ (∀ c, (ctxOf v c).state = (ctxOf s c).state) ∧
      (∀ k, k ≠ d.val → dieOf v k = dieOf s k) ∧ v.frames = s.frames ∧ v.orng = s.orng ∧ v.fence = s.fence) ∧
  (∀ (d : Fin 32) (rd : LineReads) (hs : List SlotHeader) (s : State) (cid a : Nat), canonical s = true →
    (dieOf s d).step = .unstamping cid a →
    ∃ v, exec (.stampDone d rd hs) s = .next (answerSvc d a .ok v) ∧ (dieOf v d).step = .clearing (s.tick + 500) false ∧
      (dieOf v d).ctxClear = true ∧ (dieOf v d).coresRun = false ∧
      (∀ k, (ctxOf s cid).drain = some k → ∃ k', (ctxOf v cid).drain = some k' ∧ k'.lodges = k.lodges.filter (· ≠ d.val) ∧ k'.deadline = k.deadline) ∧
      (∀ k, k ≠ d.val → dieOf v k = dieOf s k) ∧ v = { s with dies := v.dies, ctxs := v.ctxs }) ∧
  (∀ (d : Fin 32) (s : State) (es : List Bytes), canonical s = true → (dieOf s d).state = .running → headSvc s d = some es →
    svcOk s es = true → leAt (es.headD []) 1 1 = 4 → (ctxOf s (leAt (es.headD []) 2 1)).state = .destroying →
    ∃ v, exec (.destroy d) s = .next (answerSvc d (leAt (es.headD []) 6 2) .ok v) ∧ (ctxOf v (leAt (es.headD []) 2 1)).home = none ∧
      (ctxOf v (leAt (es.headD []) 2 1)).backing = [] ∧
      (∀ k, k < 32 → ∀ w ∈ (sliceOf v k).waits, w.cid ≠ leAt (es.headD []) 2 1 ∨ ofDie d w.from_ = false) ∧
      v = { s with ctxs := v.ctxs, perg := v.perg, splq := v.splq, outs := v.outs } ∧
      (∀ c, c ≠ leAt (es.headD []) 2 1 → ctxOf v c = ctxOf s c)) ∧
  (∀ (d : Fin 32) (s : State) (es : List Bytes), canonical s = true → (dieOf s d).state = .running → headSvc s d = some es →
    svcOk s es = true → leAt (es.headD []) 1 1 = 5 →
    ∃ u, exec (.reload d) s = .next u ∧ dieOf u d = { dieOf s d with reload := some s.tick, reloadAns := some (leAt (es.headD []) 6 2) } ∧
      (∀ k, k ≠ d.val → dieOf u k = dieOf s k) ∧ u = { s with dies := u.dies, splq := u.splq, outs := u.outs }) ∧
  (∀ (d : Fin 32) (s : State) (es : List Bytes), (dieOf s d).state = .running → headSvc s d = some es → svcOk s es = false →
    exec (.drain d) s = .next (answerSvc d (leAt (es.headD []) 6 2) .badDescriptor (takeSvc d s)))

/-! ## Memory fence (04_memory_fence.md) -/

/-- Requests at a fence channel (R86 to R96, R103, R116, Table FENCE-7). A request that passes rows 1 to 3 and whose key is
cached goes to memory, a write as ciphertext with its tag; without a key it parks and raises one fill; a write under a sealed
entry is refused, nothing is stored, and its context's fault is sampled; a request of rows 1 to 3 is refused without data. No
other channel changes, but for the lines of a scrub job that a refused scrub write stops. -/
def Obligations.FenceAcceptsAndRefuses : Prop :=
  (∀ (r : FenceReq) (s : State) (e : KcEntry), canonical s = true → passesRows r.ch (asReq s r none) s = true →
    (chanOf s r.ch).parked = [] → findEntry s.tick r.cid r.ksel (chanOf s r.ch).entries = some e →
    ∃ u, exec (.fenceReadRequest r) s = .next u ∧
      chanOf u r.ch = { hitChan (chanOf s r.ch) (asReq s r none) e with reads := (chanOf s r.ch).reads ++ [⟨asReq s r none, e, false⟩] } ∧
      u.outs = s.outs ++ [.mcReq r.ch false r.line.toNat 0 0] ∧ (∀ n, n ≠ r.ch.val → chanOf u n = chanOf s n) ∧
      u = { s with fence := { s.fence with chans := u.fence.chans }, outs := u.outs }) ∧
  (∀ (r : FenceReq) (d : BitVec 512) (s : State) (e : KcEntry), canonical s = true → passesRows r.ch (asReq s r (some d)) s = true →
    (chanOf s r.ch).parked = [] → findEntry s.tick r.cid r.ksel (chanOf s r.ch).entries = some e → entrySealed s.tick e = false →
    ∃ u, exec (.fenceWriteRequest r d) s = .next u ∧
      chanOf u r.ch = { hitChan (chanOf s r.ch) (asReq s r (some d)) e with writes := (chanOf s r.ch).writes ++ [asReq s r (some d)] } ∧
      u.outs = s.outs ++ [.mcReq r.ch true r.line.toNat (encryptLine e r.line.toNat d).1 (encryptLine e r.line.toNat d).2] ∧
      (∀ n, n ≠ r.ch.val → chanOf u n = chanOf s n) ∧ u = { s with fence := { s.fence with chans := u.fence.chans }, outs := u.outs }) ∧
  (∀ (r : FenceReq) (d : BitVec 512) (s : State) (e : KcEntry), canonical s = true → passesRows r.ch (asReq s r (some d)) s = true →
    (chanOf s r.ch).parked = [] → findEntry s.tick r.cid r.ksel (chanOf s r.ch).entries = some e → entrySealed s.tick e = true →
    ∃ u, exec (.fenceWriteRequest r d) s = .next u ∧ (∃ row, .fenceRsp r.ch r.port r.tag.toNat 2 row 0 ∈ newOuts s u) ∧
      (∀ ln x y, .mcReq r.ch.val true ln x y ∉ newOuts s u) ∧ (chanOf u r.ch).writes = (chanOf s r.ch).writes ∧
      (∃ f ∈ u.pav.integ, f.cid = r.cid.val ∧ f.cause = 2 ∧ f.tick = s.tick) ∧ (chanOf u r.ch).sealedWrite = some s.tick ∧
      (∀ n, n ≠ r.ch.val → chanOf u n = { chanOf s n with intQ := (chanOf u n).intQ }) ∧
      (r.port ≠ .internal .scrub → ∀ n, n ≠ r.ch.val → chanOf u n = chanOf s n) ∧ (∀ c, (ctxOf u c).state = (ctxOf s c).state) ∧ u.frames = s.frames) ∧
  (∀ (r : FenceReq) (d : Option (BitVec 512)) (s : State), canonical s = true → passesRows r.ch (asReq s r d) s = true →
    (chanOf s r.ch).parked = [] → findEntry s.tick r.cid r.ksel (chanOf s r.ch).entries = none →
    fillOutstanding (chanOf s r.ch) r.cid r.ksel = false → liveFills (chanOf s r.ch) < 4 →
    ∃ u, exec (match d with | none => .fenceReadRequest r | some d => .fenceWriteRequest r d) s = .next u ∧
      (chanOf u r.ch).parked = [asReq s r d] ∧ (chanOf u r.ch).fills = (chanOf s r.ch).fills ++ [⟨r.cid, r.ksel, true, false, false, s.tick⟩] ∧
      (chanOf u r.ch).entries = (chanOf s r.ch).entries ∧ u.outs = s.outs ∧ (∀ n, n ≠ r.ch.val → chanOf u n = chanOf s n) ∧
      u = { s with fence := { s.fence with chans := u.fence.chans } }) ∧
  (∀ (r : FenceReq) (s : State), canonical s = true → (chanOf s r.ch).parked.length < 64 →
    (reservedReq (asReq s r none) = true ∨ ((isInternal (asReq s r none) = true ∨ gateOpen s 1 = true) ∧
      (routeOk s r.ch r.line.toNat = false ∨ cidRefused s r.ch r.cid = true))) →
    ∃ u row, exec (.fenceReadRequest r) s = .next u ∧ .fenceRsp r.ch r.port r.tag.toNat 2 row 0 ∈ newOuts s u ∧ row ≤ 3 ∧
      (∀ ln x y w, .mcReq r.ch.val w ln x y ∉ newOuts s u) ∧ (chanOf u r.ch).reads = (chanOf s r.ch).reads ∧
      (∀ n, n ≠ r.ch.val → chanOf u n = { chanOf s n with intQ := (chanOf u n).intQ }) ∧
      (r.port ≠ .internal .scrub → ∀ n, n ≠ r.ch.val → chanOf u n = chanOf s n) ∧ (∀ c, (ctxOf u c).state = (ctxOf s c).state) ∧ u.frames = s.frames ∧
      u.pav.integ = s.pav.integ)

/-- Lines and acknowledgements from memory (R92, R102 to R107): both commands complete in every state, a read or a write leaving
its channel with one response (mc_rsp carries no tag: it answers the oldest read in flight, log 110); a line whose tag holds is answered decrypted; one whose tag
fails or that is flagged is answered without data, recorded, and its tenant's fault is sampled; one of a CID that is refused
meanwhile is answered without data. The count falls by one. -/
def Obligations.MemoryAnswersAreChecked : Prop :=
  (∀ (ch : Fin 512) (d : BitVec 512) (tag : Word) (uerr : Bool) (s : State), canonical s = true →
    ∃ u, exec (.mcResponse ch d tag uerr) s = .next u ∧ (chanOf u ch).reads = (chanOf s ch).reads.tail ∧
      (∀ f, (chanOf s ch).reads.head? = some f → ∃ kind row x, .fenceRsp ch f.req.port f.req.tag kind row x ∈ newOuts s u) ∧
      ((chanOf s ch).reads = [] → u = s)) ∧
  (∀ (ch : Fin 512) (pos : Nat) (s : State), canonical s = true →
    ∃ u, exec (.mcWack ch pos) s = .next u ∧ (chanOf u ch).writes = (chanOf s ch).writes.eraseIdx pos ∧
      (∀ r, (chanOf s ch).writes[pos]? = some r → .fenceRsp ch r.port r.tag 1 (if isInternal r then 8 else 0) 0 ∈ newOuts s u) ∧
      ((chanOf s ch).writes[pos]? = none → u = s)) ∧
  (∀ (ch : Fin 512) (d p : BitVec 512) (tag : Word) (s : State) (f : ReadFlight) (fs : List ReadFlight), canonical s = true →
    (chanOf s ch).reads = f :: fs → f.refused = false → s.pav.tamper = false → cidRefused s ch f.req.cid = false →
    decryptLine f.key f.req.line d tag = some p → f.req.port ≠ .internal .memoryRead →
    ∃ u, exec (.mcResponse ch d tag false) s = .next u ∧
      u.outs = s.outs ++ [.fenceRsp ch f.req.port f.req.tag 0 (if isInternal f.req then 8 else 0) p] ∧
      chanOf u ch = { chanOf s ch with reads := fs, counts := mapMod 0 (chanOf s ch).counts f.req.cid (· - 1) } ∧
      u.ctxs = (countUp 0 f.req.cid 1 s).ctxs ∧ u.host = (countUp 0 f.req.cid 1 s).host ∧
      u = { s with ctxs := u.ctxs, host := u.host, fence := { s.fence with chans := u.fence.chans, zeroAt := u.fence.zeroAt }, outs := u.outs }) ∧
  (∀ (ch : Fin 512) (d p : BitVec 512) (tag : Word) (s : State) (f : ReadFlight) (fs : List ReadFlight) (m : MemRead), canonical s = true →
    (chanOf s ch).reads = f :: fs → f.refused = false → s.pav.tamper = false → cidRefused s ch f.req.cid = false →
    decryptLine f.key f.req.line d tag = some p → f.req.port = .internal .memoryRead →
    s.fence.memReads.find? (fun m => m.cid == f.req.cid && m.lines.any (fun l => l.1 == f.req.line && l.2.isNone)) = some m →
    (∀ l ∈ m.lines, l.1 ≠ f.req.line → l.2.isSome = true) →
    ∃ v, exec (.mcResponse ch d tag false) s = .next (countUp 0 f.req.cid 1 (finish m.waiter .ok
        (slice (m.lines.flatMap (fun l => leBv 64 (if l.1 = f.req.line then p else l.2.getD 0))) m.off m.len) v)) ∧
      v.fence.memReads = s.fence.memReads.filter (fun x => x != m) ∧ (chanOf v ch).reads = fs ∧
      v.outs = s.outs ++ [.fenceRsp ch (.internal .memoryRead) f.req.tag 0 8 p] ∧ v.ctxs = s.ctxs) ∧
  (∀ (ch : Fin 512) (d : BitVec 512) (tag : Word) (uerr : Bool) (s : State) (f : ReadFlight) (fs : List ReadFlight), canonical s = true →
    (chanOf s ch).reads = f :: fs → f.refused = false → s.pav.tamper = false → cidRefused s ch f.req.cid = false →
    (uerr = true ∨ decryptLine f.key f.req.line d tag = none) → 1 ≤ f.req.cid → f.req.cid ≤ 254 →
    ∃ u, exec (.mcResponse ch d tag uerr) s = .next u ∧ (∃ row, .fenceRsp ch f.req.port f.req.tag 2 row 0 ∈ newOuts s u) ∧
      (∀ x k row, .fenceRsp ch f.req.port f.req.tag k row x ∈ newOuts s u → x = 0) ∧ (chanOf u ch).reads = fs ∧
      ((chanOf u ch).uerr = some s.tick ∨ uerr = false) ∧ ((chanOf u ch).tagFail = some s.tick ∨ uerr = true) ∧
      u.pav.integ = s.pav.integ ++ [⟨ch, f.req.cid, 1, s.tick⟩] ∧
      (∀ n, n ≠ ch.val → chanOf u n = { chanOf s n with intQ := (chanOf u n).intQ }) ∧
      (f.req.port ≠ .internal .scrub → ∀ n, n ≠ ch.val → chanOf u n = chanOf s n) ∧
      (∀ c, (ctxOf u c).state = (ctxOf s c).state) ∧ u.frames = s.frames) ∧
  (∀ (ch : Fin 512) (d : BitVec 512) (tag : Word) (uerr : Bool) (s : State) (f : ReadFlight) (fs : List ReadFlight), canonical s = true →
    (chanOf s ch).reads = f :: fs → f.refused = false → s.pav.tamper = false → cidRefused s ch 0 = false →
    (uerr = true ∨ decryptLine f.key f.req.line d tag = none) → f.req.cid = 0 → s.pav.cid0Failed = false →
    ∃ u, exec (.mcResponse ch d tag uerr) s = .next u ∧ (chanOf u ch).cid0From = some ((chanOf s ch).cid0From.getD (s.tick + 1)) ∧
      u.pav.delayed = s.pav.delayed ++ [(s.tick + 2500, .cid0Integrity)] ∧ u.pav.integ = s.pav.integ ∧ (chanOf u ch).reads = fs) ∧
  (∀ (ch : Fin 512) (d : BitVec 512) (tag : Word) (uerr : Bool) (s : State) (f : ReadFlight) (fs : List ReadFlight), canonical s = true →
    (chanOf s ch).reads = f :: fs → (f.refused = true ∨ cidRefused s ch f.req.cid = true) →
    ∃ u, exec (.mcResponse ch d tag uerr) s = .next u ∧
      .fenceRsp ch f.req.port f.req.tag 2 (if isInternal f.req then 3 else 0) 0 ∈ newOuts s u ∧
      ((f.req.port = .fabric ∨ ∃ die, f.req.port = .internal (.lodge die)) → newOuts s u =
        [.fenceRsp ch f.req.port f.req.tag 2 (if isInternal f.req then 3 else 0) 0] ∧ u.pav = s.pav ∧ u.ctxs = s.ctxs) ∧
      (chanOf u ch).reads = fs ∧ (chanOf u ch).cntRefuse = satAdd (chanOf s ch).cntRefuse 1 ∧ u.pav.integ = s.pav.integ) ∧
  (∀ (ch : Fin 512) (pos : Nat) (s : State) (r : ChanReq), canonical s = true → (chanOf s ch).writes[pos]? = some r →
    r.port ≠ .internal .memoryRead →
    ∃ u, exec (.mcWack ch pos) s = .next u ∧ u.outs = s.outs ++ [.fenceRsp ch r.port r.tag 1 (if isInternal r then 8 else 0) 0] ∧
      chanOf u ch = { chanOf s ch with writes := (chanOf s ch).writes.eraseIdx pos, counts := mapMod 0 (chanOf s ch).counts r.cid (· - 1) } ∧
      u.ctxs = (countUp 1 r.cid 1 s).ctxs ∧ u.host = (countUp 1 r.cid 1 s).host ∧
      u = { s with ctxs := u.ctxs, host := u.host, fence := { s.fence with chans := u.fence.chans, zeroAt := u.fence.zeroAt }, outs := u.outs })

/-- Fills and pushes (R96 to R98, R188, R247 to R249): a raised fill is served by one key-bus message; a message that opens under
the drop's key with a rising COUNTER installs its key, one that does not is asked for once more and then refuses what waited;
a push installs a pinned entry and is acknowledged; an unacknowledged one is sent again and then fails. After a tamper no message is
taken, and the fill of a request that misses reports KEY_ZEROIZED (R98). -/
def Obligations.FillsAndPushesAreChecked : Prop :=
  (∀ (ch : Fin 512) (cid : Fin 256) (k : Fin 4) (s : State), canonical s = true → gateOpen s 1 = true → s.orng.zeroized = false →
    (∃ f ∈ (chanOf s ch).fills, f.cid = cid.val ∧ f.ksel = k.val ∧ f.asked = true ∧ f.from_ ≤ s.tick) → resolvePair s cid k = none →
    (∃ bk, deviceKey (busSlot (ch.val / 16)) s = some bk) →
    ∃ u m, exec (.fillRequest (.fence ch cid k)) s = .next u ∧ newOuts s u = [.kbus (ch.val / 16) m] ∧
      u.orng.fillCnt = satAdd s.orng.fillCnt 1 ∧ (∀ f ∈ (chanOf u ch).fills, f.cid = cid.val → f.ksel = k.val → f.from_ ≤ s.tick → f.asked = false) ∧
      u.orng.slots = s.orng.slots ∧ u = { s with orng := u.orng, fence := u.fence, outs := u.outs, sund := granted8 s }) ∧
  (∀ (ch : Fin 512) (cid : Fin 256) (k : Fin 4) (s : State) (n1 n2 id sel : Nat) (ka kb bk : Bytes), canonical s = true →
    gateOpen s 1 = true → s.orng.zeroized = false → (∃ f ∈ (chanOf s ch).fills, f.cid = cid.val ∧ f.ksel = k.val ∧ f.asked = true ∧ f.from_ ≤ s.tick) →
    resolvePair s cid k = some (n1, n2, id, sel) → (engineKey n1 s).1 = some ka → (engineKey n2 s).1 = some kb →
    deviceKey (busSlot (ch.val / 16)) s = some bk →
    ∃ u, exec (.fillRequest (.fence ch cid k)) s = .next u ∧
      newOuts s u = [.kbus (ch.val / 16) (kbusSeal bk (kbusHeader 0 cid k (bit (fillSealed s sel id)) id sel (ch.val % 16))
        ((dropOf s (ch.val / 16)).sent + 1) ((oddKey s cid k).getD (fit 64 ka ++ fit 32 kb)))] ∧
      u.orng.fillCnt = satAdd s.orng.fillCnt 1 ∧ (dropOf u (ch.val / 16)).sent = (dropOf s (ch.val / 16)).sent + 1 ∧
      u.orng.slots = s.orng.slots ∧ u = { s with orng := u.orng, fence := u.fence, outs := u.outs, sund := granted8 s }) ∧
  (∀ (d : Fin 32) (msg plain : Bytes) (s : State) (ch : Nat) (f : Fill) (rest : List Fill), canonical s = true →
    localChan d (leAt msg 6 2) = some ch → leAt msg 0 1 = 0 → s.pav.tamper = false → (chanOf s ch).parked = [] →
    takeFill (leAt msg 1 1) (leAt msg 2 1) (chanOf s ch).fills = some (f, rest) → kbusOpen (dropOf s d) msg = some plain →
    f.cancelled = false → testBit (leAt msg 3 1) 1 = false → testBit (leAt msg 3 1) 2 = false →
    ∃ u e, exec (.fenceFillMessage d msg) s = .next u ∧ (chanOf u ch).entries = installEntry s.tick e (chanOf s ch).entries ∧
      e.cid = leAt msg 1 1 ∧ e.ksel = leAt msg 2 1 ∧ e.k1 = slice plain 0 32 ∧ e.k2 = slice plain 32 32 ∧ e.kt = slice plain 64 32 ∧
      e.sealedAt = (if testBit (leAt msg 3 1) 0 then some ((groupOf s (leAt msg 4 1)).fillSealed.getD 0) else none) ∧ (chanOf u ch).fills = rest ∧
      (dropOf u d).last = leAt msg 8 8 ∧ (∀ n, n ≠ ch → chanOf u n = chanOf s n) ∧
      u = { s with orng := { s.orng with drops := u.orng.drops }, fence := { s.fence with chans := u.fence.chans } }) ∧
  (∀ (d : Fin 32) (msg : Bytes) (s : State) (ch : Nat) (f : Fill) (rest : List Fill), canonical s = true →
    localChan d (leAt msg 6 2) = some ch → leAt msg 0 1 = 0 → s.pav.tamper = false →
    takeFill (leAt msg 1 1) (leAt msg 2 1) (chanOf s ch).fills = some (f, rest) → kbusOpen (dropOf s d) msg = none →
    f.cancelled = false → f.retried = false →
    ∃ u, exec (.fenceFillMessage d msg) s = .next u ∧ (chanOf u ch).fills = rest ++ [{ f with asked := true, retried := true, from_ := s.tick }] ∧
      (chanOf u ch).entries = (chanOf s ch).entries ∧ u = { s with fence := { s.fence with chans := u.fence.chans } }) ∧
  (∀ (d : Fin 32) (msg : Bytes) (s : State) (ch : Nat) (f : Fill) (rest : List Fill), canonical s = true → roomAt s 0 = true →
    localChan d (leAt msg 6 2) = some ch → leAt msg 0 1 = 0 → s.pav.tamper = false → (chanOf s ch).parked = [] →
    takeFill (leAt msg 1 1) (leAt msg 2 1) (chanOf s ch).fills = some (f, rest) → kbusOpen (dropOf s d) msg = none →
    f.cancelled = false → f.retried = true →
    (leAt msg 1 1, (statusCode .keyBlobInvalid).toNat, recordState s (leAt msg 1 1)) ∉ (chanOf s ch).recs →
    ∃ u, exec (.fenceFillMessage d msg) s = .next u ∧ (chanOf u ch).fills = rest ∧ (chanOf u ch).kbusErr = some s.tick ∧
      (chanOf u ch).entries = (chanOf s ch).entries ∧ recorded u 0 .keyBlobInvalid = true) ∧
  (∀ (d : Fin 32) (msg : Bytes) (s : State) (ch : Nat), canonical s = true → localChan d (leAt msg 6 2) = some ch → leAt msg 0 1 = 0 →
    s.pav.tamper = true → exec (.fenceFillMessage d msg) s = .next s) ∧
  (∀ (r : FenceReq) (s : State), canonical s = true → s.pav.tamper = true → (isInternal (asReq s r none) = true ∨ gateOpen s 1 = true) →
    reservedReq (asReq s r none) = false → routeOk s r.ch r.line.toNat = true → cidRefused s r.ch r.cid = false →
    (chanOf s r.ch).parked.length < 64 →
    ∃ u, exec (.fenceReadRequest r) s = .next u ∧
      .kbusReply (r.ch.val / 16) (kbusHeader 0 r.cid r.ksel 4 0 0 (r.ch.val % 16)) ∈ newOuts s u ∧
      .fenceRsp r.ch r.port r.tag.toNat 2 (if isInternal (asReq s r none) then 4 else 0) 0 ∈ newOuts s u ∧
      (chanOf u r.ch).noKey = some s.tick ∧ (chanOf u r.ch).fills = (chanOf s r.ch).fills ∧ (chanOf u r.ch).reads = (chanOf s r.ch).reads) ∧
  (∀ (d : Fin 32) (msg plain : Bytes) (s : State) (e : Nat) (f : Nat × Bool × Bool), canonical s = true →
    localEngine d (leAt msg 6 2) = some e → leAt msg 0 1 = 1 → s.pav.tamper = false →
    (engOf s e).jobFills.find? (fun f => f.1 == leAt msg 4 1 && !f.2.1) = some f → kbusOpen (dropOf s d) msg = some plain →
    testBit (leAt msg 3 1) 1 = false → testBit (leAt msg 3 1) 2 = false → (engOf s e).txPark = [] → (engOf s e).rxPark = [] →
    (engOf s e).closeDue = [] →
    ∃ u, exec (.jobFillMessage d msg) s = .next u ∧ cachedJobKey u e (leAt msg 4 1) = some (fit 32 plain) ∧
      (∀ f ∈ (engOf u e).jobFills, f.1 ≠ leAt msg 4 1) ∧ (dropOf u d).last = leAt msg 8 8 ∧ (∀ n, n ≠ e → engOf u n = engOf s n) ∧
      u = { s with orng := { s.orng with drops := u.orng.drops }, link := { s.link with engines := u.link.engines } }) ∧
  (∀ (d : Fin 32) (msg plain : Bytes) (s : State) (f : Nat × Bool), canonical s = true →
    (grEngOf s d).fills.find? (fun f => f.1 == leAt msg 1 1) = some f → leAt msg 0 1 = 2 → leAt msg 6 2 = 19 →
    (d.val, leAt msg 1 1) ∉ s.grnhFills → kbusOpen (dropOf s d) msg = some plain → testBit (leAt msg 3 1) 1 = false →
    testBit (leAt msg 3 1) 2 = false →
    ∃ u, exec (.samplingKeyFillMessage d msg) s = .next u ∧ (grEngOf u d).keys.head? = some (leAt msg 1 1, some (fit 32 plain)) ∧
      (∀ f ∈ (grEngOf u d).fills, f.1 ≠ leAt msg 1 1) ∧ (dropOf u d).last = leAt msg 8 8 ∧ (∀ n, n ≠ d.val → grEngOf u n = grEngOf s n) ∧
      u = { s with orng := { s.orng with drops := u.orng.drops }, grnh := { s.grnh with engines := u.grnh.engines } }) ∧
  (∀ (d : Fin 32) (msg plain : Bytes) (s : State) (ch : Nat), canonical s = true → leAt msg 0 1 = 3 → s.pav.tamper = false →
    kbusOpen (dropOf s d) msg = some plain → localChan d (leAt msg 6 2) = some ch → (chanOf s ch).parked = [] →
    ∃ u e, exec (.pushMessage d msg) s = .next u ∧ newOuts s u = [.kbusReply d (leNat 8 (leAt msg 8 8))] ∧
      (chanOf u ch).entries = installEntry s.tick e (chanOf s ch).entries ∧ e.pinned = true ∧ e.k1 = slice plain 0 32 ∧
      e.kt = slice plain 64 32 ∧ (∀ p ∈ u.orng.pushes, p.drop ≠ d.val ∨ p.counter ≠ leAt msg 8 8) ∧
      (dropOf u d).last = leAt msg 8 8 ∧ (∀ n, n ≠ ch → chanOf u n = chanOf s n)) ∧
  (∀ (d : Fin 32) (msg plain : Bytes) (s : State) (e : Nat), canonical s = true → leAt msg 0 1 = 3 → s.pav.tamper = false →
    kbusOpen (dropOf s d) msg = some plain → localEngine d (leAt msg 6 2) = some e → (engOf s e).txPark = [] → (engOf s e).closeDue = [] →
    ∃ u, exec (.pushMessage d msg) s = .next u ∧ newOuts s u = [.kbusReply d (leNat 8 (leAt msg 8 8))] ∧
      engOf u e = { engOf s e with keys := mapSet [] (engOf s e).keys (leAt msg 2 1 % 4) (fit 32 plain) } ∧
      (∀ p ∈ u.orng.pushes, p.drop ≠ d.val ∨ p.counter ≠ leAt msg 8 8) ∧ (dropOf u d).last = leAt msg 8 8 ∧
      (∀ n, n ≠ e → engOf u n = engOf s n) ∧ u.fence = s.fence) ∧
  (∀ (d : Fin 32) (s : State) (p : Push), canonical s = true → roomAt s 1 = true →
    s.orng.pushes.find? (fun p => p.drop == d.val && decide (p.tick + 250 ≤ s.tick)) = some p →
    (p.resent = true ∨ ∃ bk, deviceKey (busSlot d) s = some bk) →
    ∃ u, exec (.pushAckTimeout d) s = .next u ∧
      (p.resent = false → (∃ m, newOuts s u = [.kbus d m]) ∧ u.orng.kbusFail = s.orng.kbusFail ∧
        (∃ q ∈ u.orng.pushes, q.resent = true ∧ q.tick = s.tick ∧ q.plain = p.plain)) ∧
      (p.resent = true → u.orng.kbusFail = some s.tick ∧ recorded u 1 .timeout = true ∧ u.orng.pushes = s.orng.pushes.filter (· != p)) ∧
      u = { s with orng := u.orng, splq := u.splq, outs := u.outs })

/-- Locked changes and scrubs (R16, R17, R99, R110, R116): a written change takes one of eight places or sets ERR; the oldest that may commit does, a later one over
groups of its own not waiting for it; a commit acts
on every channel of its groups in its tick, so that an invalidated entry serves requests of that tick and none later; a
frame whose lines have all been acknowledged leaves the scrub queue, and a bind's frame is then initialised. -/
def Obligations.LockedChangesAndScrubs : Prop :=
  (∀ (m : Fin 39) (id : Fin 256) (mask : BitVec 4) (s : State) (c : Instr) (op : LockOp), 1 ≤ m.val → m.val ≤ 4 →
    (c, op) ∈ [(Instr.lockInvalidatePairs m id mask, LockOp.pairs id mask), (.lockInvalidateCid m id, .ofCid id),
      (.lockInvalidateGroup m id, .ofGroup id), (.lockSealGroup m id, .sealGroup id), (.lockInvalidateAll m, .all)] →
    exec c s = .next { s with fence := if s.fence.locks.length < 8 then { s.fence with locks := s.fence.locks ++ [⟨op, s.fence.lockGroups, .firmware, s.tick⟩] }
      else { s.fence with lockErr := some s.tick } }) ∧
  (∀ (s : State) (l : Lock) (ls : List Lock), canonical s = true → s.fence.locks = l :: ls → l.owner = .firmware → s.fence.lockWait = [] →
    s.fence.lastCommit < s.tick →
    ∃ u, exec .lockedChangeCommit s = .next u ∧ u.fence.locks = ls ∧ u.sund.lockLast = BitVec.ofNat 32 s.tick ∧ u.fence.lastCommit = s.tick ∧
      (∀ n, n < 512 → l.groups.getLsbD (n / 32) = false → chanOf u n = chanOf s n) ∧
      (∀ n, n < 512 → l.groups.getLsbD (n / 32) = true → (chanOf u n).entries = (chanOf s n).entries.map (lockEntry l.op s.tick) ∧
        (chanOf u n).parked = (chanOf s n).parked ∧ (chanOf u n).reads = (chanOf s n).reads ∧ (chanOf u n).writes = (chanOf s n).writes) ∧
      (∀ n e t, n < 512 → l.groups.getLsbD (n / 32) = true → e ∈ (chanOf s n).entries → e.dead = none → l.op = .ofCid e.cid → s.tick < t →
        lockEntry l.op s.tick e ∈ (chanOf u n).entries ∧ entryLive s.tick (lockEntry l.op s.tick e) = true ∧
        entryLive t (lockEntry l.op s.tick e) = false) ∧
      ((∃ g, l.op = .sealGroup g ∧ groupOf u g = { groupOf s g with fillSealed := some ((groupOf s g).fillSealed.getD s.tick) } ∧
          ∀ k, k ≠ g → groupOf u k = groupOf s k) ∨ u.groups = s.groups) ∧
      ((∃ g, l.op = .sealGroup g) → ∃ g, l.op = .sealGroup g ∧ (groupOf u g).fillSealed = some ((groupOf s g).fillSealed.getD s.tick)) ∧
      u = { s with fence := u.fence, groups := u.groups, sund := { s.sund with lockLast := u.sund.lockLast } }) ∧
  (∀ (s : State) (a l : Lock) (ls : List Lock), canonical s = true → s.fence.locks = a :: l :: ls → l.owner = .firmware → s.fence.lockWait = [] →
    lockFree s [] a = false → lockFree s [a] l = true →
    ∃ u, exec .lockedChangeCommit s = .next u ∧ u.fence.locks = a :: ls ∧ u.fence.lastCommit = s.tick ∧
      (∀ n, n < 512 → l.groups.getLsbD (n / 32) = false → chanOf u n = chanOf s n)) ∧
  (∀ (n : Fin 524288) (s : State) (x : ScrubFrame) (j : ScrubJob), canonical s = true → scrubInProgress s n = some x →
    s.fence.jobs.find? (fun j => j.no == x.job) = some j → 1 < j.left → frameWritten s n = true →
    ∃ u, exec (.scrubFrameDone n) s = .next u ∧ u.fence.scrub = s.fence.scrub.erase x ∧ frameOf u n = frameScrubbed j.for_ (frameOf s n) ∧
      (∃ k ∈ u.fence.jobs, k.no = j.no ∧ k.left = j.left - 1) ∧ (∀ m, m ≠ n.val → frameOf u m = frameOf s m) ∧
      u.ctxs = (countUp 6 x.cid 1 (noteScrubbed j.for_ s)).ctxs ∧ u.outs = s.outs) ∧
  (∀ (n : Fin 524288) (s : State), frameWritten s n = false → exec (.scrubFrameDone n) s = .next s) ∧
  (∀ (n : Fin 524288) (s : State) (x : ScrubFrame) (j : ScrubJob), canonical s = true → scrubInProgress s n = some x →
    s.fence.jobs.find? (fun j => j.no == x.job) = some j → j.left ≤ 1 → frameWritten s n = true →
    ∃ v, exec (.scrubFrameDone n) s = .next (finish j.waiter .ok [] v) ∧ v.fence.scrub = s.fence.scrub.erase x ∧
      frameOf v n = frameScrubbed j.for_ (frameOf s n) ∧ (∀ k ∈ v.fence.jobs, k.no ≠ j.no) ∧ (∀ m, m ≠ n.val → frameOf v m = frameOf s m))

/-! ## Link fence (05_link_fence.md) -/

/-- Egress (R117 to R121, R124, R131, R403, Tables LINK-2 to LINK-5): a beat of an OPEN job opens a frame; a beat of a job not held,
or not OPEN for its CID, is dropped, counted and recorded; a beat of another job closes the open frame first; a frame without a beat
for 8 ticks leaves as one sealed frame in beats of 256 bytes under the next JSEQ and the next HSEQ, and puts the link in the
job's link set; without a job key it parks behind a fill; at the end of JSEQ it is dropped; the frame that takes HSEQ to its end
makes the link FAILED. Other links and jobs do not change. -/
def Obligations.EgressSealsOrRefuses : Prop :=
  (∀ (e : Fin 96) (cid : Fin 256) (job : BitVec 16) (data : Bytes) (s : State) (j : Nat), canonical s = true →
    linkAllowed s = true → linkCarries s e = true → jobById s job = some j → egressOpen s j cid = true →
    (jobOf s j).closed.contains e.val = false → (engOf s e).egress = none →
    ∃ u, exec (.linkEgressBeat e cid job data) s = .next u ∧ (engOf u e).egress = some ⟨j, fit 256 data, s.tick⟩ ∧
      (∀ n, n ≠ e.val → engOf u n = engOf s n) ∧ u = { s with link := { s.link with engines := u.link.engines } }) ∧
  (∀ (e : Fin 96) (cid : Fin 256) (job : BitVec 16) (data : Bytes) (s : State), canonical s = true → roomAt s 0 = true →
    linkAllowed s = true → linkCarries s e = true →
    (jobById s job = none ∨ ∃ j, jobById s job = some j ∧ egressOpen s j cid = false) → changesJob s e job = none →
    mapGet 0 (engOf s e).recs (statusCode .notPermitted).toNat ≤ s.tick →
    ∃ u, exec (.linkEgressBeat e cid job data) s = .next u ∧ (engOf u e).egress = (engOf s e).egress ∧
      (engOf u e).cntDrop = satAdd (engOf s e).cntDrop 1 ∧ (engOf u e).egressRefused = raise s.tick (engOf s e).egressRefused ∧
      recorded u 0 .notPermitted = true ∧ (∀ n, n ≠ e.val → engOf u n = engOf s n) ∧ u.link.jobs = s.link.jobs ∧
      u = { s with link := { s.link with engines := u.link.engines }, splq := u.splq, outs := u.outs }) ∧
  (∀ (e : Fin 96) (cid : Fin 256) (job : BitVec 16) (data : Bytes) (s : State) (j : Nat), canonical s = true →
    linkAllowed s = true → linkCarries s e = true → changesJob s e job = some j → canSubmit s e j = true →
    exec (.linkEgressBeat e cid job data) s = exec (.linkEgressBeat e cid job data) (closeEgress e s)) ∧
  (∀ (e : Fin 96) (s : State) (g : Egress) (key : Bytes), canonical s = true → (engOf s e).egress = some g →
    g.last + 8 ≤ s.tick → linkCarries s e = true → cachedJobKey s e g.job = some key →
    mapGet 0 (jobOf s g.job).jseq e < 2 ^ 64 - 1 → (engOf s e).txSeq < 2 ^ 47 - 1 →
    ∃ u hdr f, exec (.egressFrameClose e) s = .next u ∧
      hdr = jobHeader (jobOf s g.job).id s.link.endpoint (mapGet 0 (jobOf s g.job).jseq e) g.data.length 0 e (jobOf s g.job).plain ∧
      f = hopHeader (engOf s e).txSeq (authClass s e) (engOf s e).kphase 0 ++ (hdr ++ sealJob key
        (jobNonce s.link.endpoint 0 e (mapGet 0 (jobOf s g.job).jseq e)) hdr g.data (jobOf s g.job).plain) ∧
      newOuts s u = [.linkFrame e (linkBeats (f ++ (if authClass s e then hopTag (hopKey (engOf s e) (engOf s e).kphase 0)
        (engOf s e).txSeq f else zeros 8)))] ∧ e.val ∈ (jobOf u g.job).links ∧
      (engOf u e).egress = none ∧ (engOf u e).txSeq = (engOf s e).txSeq + 1 ∧
      mapGet 0 (jobOf u g.job).jseq e = mapGet 0 (jobOf s g.job).jseq e + 1 ∧ (∀ n, n ≠ e.val → engOf u n = engOf s n) ∧
      (∀ n, n ≠ g.job → jobOf u n = jobOf s n) ∧
      u = { countUp 2 (jobOf s g.job).cid g.data.length s with
        link := { s.link with engines := u.link.engines, jobs := u.link.jobs }, outs := u.outs }) ∧
  (∀ (e : Fin 96) (s : State) (g : Egress) (key : Bytes), canonical s = true → roomAt s 1 = true → (engOf s e).egress = some g →
    g.last + 8 ≤ s.tick → linkCarries s e = true → cachedJobKey s e g.job = some key → (engOf s e).exch = none →
    mapGet 0 (jobOf s g.job).jseq e < 2 ^ 64 - 1 → 2 ^ 47 - 1 ≤ (engOf s e).txSeq →
    ∃ u, exec (.egressFrameClose e) s = .next u ∧ (engOf u e).state = .failed ∧ (engOf u e).failedAt = s.tick ∧
      recorded u 1 .timeout = true ∧ (engOf u e).txPark = [] ∧ (engOf u e).rxPark = [] ∧
      (∀ n, n ≠ e.val → engOf u n = engOf s n) ∧ (∀ n, n ≠ g.job → jobOf u n = jobOf s n) ∧ u.orng = s.orng) ∧
  (∀ (e : Fin 96) (s : State) (g : Egress) (key : Bytes), canonical s = true → (engOf s e).egress = some g →
    g.last + 8 ≤ s.tick → linkCarries s e = true → cachedJobKey s e g.job = some key →
    2 ^ 64 - 1 ≤ mapGet 0 (jobOf s g.job).jseq e →
    ∃ u, exec (.egressFrameClose e) s = .next u ∧ (engOf u e).egress = none ∧ (engOf u e).cntDrop = satAdd (engOf s e).cntDrop 1 ∧
      (engOf u e).egressRefused = raise s.tick (engOf s e).egressRefused ∧ (engOf u e).txSeq = (engOf s e).txSeq ∧
      (∀ n, n ≠ e.val → engOf u n = engOf s n) ∧ u = { s with link := { s.link with engines := u.link.engines } }) ∧
  (∀ (e : Fin 96) (s : State) (g : Egress), canonical s = true → (engOf s e).egress = some g →
    g.last + 8 ≤ s.tick → linkCarries s e = true → cachedJobKey s e g.job = none → (engOf s e).txPark.length < 8 →
    ∃ u, exec (.egressFrameClose e) s = .next u ∧ (engOf u e).egress = none ∧
      (engOf u e).txPark = (engOf s e).txPark ++ [(g.job, 0, g.data)] ∧ (∃ f ∈ (engOf u e).jobFills, f.1 = g.job) ∧
      (∀ n, n ≠ e.val → engOf u n = engOf s n) ∧ u = { s with link := { s.link with engines := u.link.engines } })

/-- Ingress (R120, R123, R130, R136, R137, R403, Table LINK-9): LINK_INGRESS_FRAME completes in every state, and what it delivers it delivers
at its own engine; a data frame that passes every row is delivered whole and its HSEQ becomes the
last accepted one; a frame that fails the hop layer, the job tag, the member ranges or names no job held here is not delivered,
is counted under its row and changes no job's state; a first fragment of a JOIN or GRANT is kept for its message, and so is the
first hop-control frame of a message (its fragment numbering: log 120). -/
def Obligations.IngressChecksInOrder : Prop :=
  (∀ (e : Fin 96) (beats : Nat) (f : Bytes) (s : State), canonical s = true →
    ∃ u, exec (.linkIngressFrame e beats f) s = .next u ∧ (∀ n x p, .linkDeliver n x p ∈ newOuts s u → n = e.val) ∧
      (∀ n, n ≠ e.val → engOf u n = engOf s n) ∧ (∀ c, (ctxOf u c).state = (ctxOf s c).state) ∧ u.frames = s.frames ∧
      (linkAllowed s = false → u = s)) ∧
  (∀ (e : Fin 96) (beats : Nat) (f : Bytes) (s : State) (j : Nat) (key p : Bytes), canonical s = true → linkAllowed s = true →
    linkCarries s e = true → row1 s e (parseFrame f) = true → row2 s e (parseFrame f) f = true → (parseFrame f).seq < 2 ^ 47 - 1 → (parseFrame f).type = 0 →
    beats = (frameLen (parseFrame f) + 255) / 256 → (parseFrame f).len ≤ 4096 → (parseFrame f).dir = 0 → (parseFrame f).jres = 0 →
    plainOk s (parseFrame f) = true → jobById s (parseFrame f).job = some j → (jobOf s j).closed.contains e.val = false →
    inRanges (parseFrame f).ep (jobOf s j).ranges = true → (jobOf s j).state = .open_ → cachedJobKey s e j = some key →
    openJob_ key (jobNonce (parseFrame f).ep (parseFrame f).dir (parseFrame f).eng (parseFrame f).jseq) (slice f 8 16)
      (slice f 24 (parseFrame f).len) (slice f (24 + (parseFrame f).len) 16) (parseFrame f).plain = some p →
    ∃ u, exec (.linkIngressFrame e beats f) s = .next u ∧ newOuts s u = [.linkDeliver e (parseFrame f).job.toNat (linkBeats p)] ∧
      mapGet 0 (engOf u e).rxSeq (bit (parseFrame f).phase) = (parseFrame f).seq ∧ e.val ∈ (jobOf u j).links ∧
      (jobOf u j).state = .open_ ∧ (∀ n, n ≠ e.val → engOf u n = engOf s n) ∧ (∀ n, n ≠ j → jobOf u n = jobOf s n) ∧
      u = { countUp 3 (jobOf s j).cid p.length s with
        link := { s.link with engines := u.link.engines, jobs := u.link.jobs }, outs := u.outs }) ∧
  (∀ (e : Fin 96) (beats : Nat) (f : Bytes) (s : State), canonical s = true → linkAllowed s = true → linkCarries s e = true →
    (row1 s e (parseFrame f) = false ∨ (keyOnItsWay s e (parseFrame f) = false ∧ row2 s e (parseFrame f) f = false)) →
    ∃ u, exec (.linkIngressFrame e beats f) s = .next u ∧ (∀ n x p, .linkDeliver n x p ∉ newOuts s u) ∧
      (engOf u e).cntHopTag = satAdd (engOf s e).cntHopTag 1 ∧ (engOf u e).hopTag = raise s.tick (engOf s e).hopTag ∧
      (engOf u e).badHop = (s.tick :: (engOf s e).badHop).take 64 ∧ (engOf u e).rxSeq = (engOf s e).rxSeq ∧
      (engOf u e).state = (engOf s e).state ∧ (∀ n, n ≠ e.val → engOf u n = engOf s n) ∧
      u = { s with link := { s.link with engines := u.link.engines }, splq := u.splq, outs := u.outs }) ∧
  (∀ (e : Fin 96) (beats : Nat) (f : Bytes) (s : State) (j : Nat) (key : Bytes), canonical s = true → linkAllowed s = true →
    linkCarries s e = true → row1 s e (parseFrame f) = true → row2 s e (parseFrame f) f = true → (parseFrame f).seq < 2 ^ 47 - 1 → (parseFrame f).type = 0 →
    beats = (frameLen (parseFrame f) + 255) / 256 → (parseFrame f).len ≤ 4096 → (parseFrame f).dir ≤ 2 → (parseFrame f).jres = 0 →
    plainOk s (parseFrame f) = true → jobById s (parseFrame f).job = some j → (jobOf s j).closed.contains e.val = false →
    inRanges (parseFrame f).ep (jobOf s j).ranges = true → (jobOf s j).state ≠ .keying → cachedJobKey s e j = some key →
    openJob_ key (jobNonce (parseFrame f).ep (parseFrame f).dir (parseFrame f).eng (parseFrame f).jseq) (slice f 8 16)
      (slice f 24 (parseFrame f).len) (slice f (24 + (parseFrame f).len) 16) (parseFrame f).plain = none →
    ∃ u, exec (.linkIngressFrame e beats f) s = .next u ∧ (∀ n x p, .linkDeliver n x p ∉ newOuts s u) ∧
      (engOf u e).cntJobTag = satAdd (engOf s e).cntJobTag 1 ∧ (engOf u e).jobTag = raise s.tick (engOf s e).jobTag ∧
      (jobOf u j).bad = (s.tick :: (jobOf s j).bad).take 16 ∧ (jobOf u j).state = (jobOf s j).state ∧
      (∀ n, n ≠ e.val → engOf u n = engOf s n) ∧ (∀ n, n ≠ j → jobOf u n = jobOf s n) ∧ u.link.ctl = s.link.ctl ∧
      u = { s with link := { s.link with engines := u.link.engines, jobs := u.link.jobs }, splq := u.splq, outs := u.outs }) ∧
  (∀ (e : Fin 96) (beats : Nat) (f : Bytes) (s : State), canonical s = true → linkAllowed s = true → linkCarries s e = true →
    row1 s e (parseFrame f) = true → row2 s e (parseFrame f) f = true → (parseFrame f).seq < 2 ^ 47 - 1 → (parseFrame f).type = 0 →
    beats = (frameLen (parseFrame f) + 255) / 256 → (parseFrame f).len ≤ 4096 → (parseFrame f).dir ≤ 2 → (parseFrame f).jres = 0 →
    plainOk s (parseFrame f) = true → ingressHeld s e (parseFrame f) = false →
    ∃ u, exec (.linkIngressFrame e beats f) s = .next u ∧
      (jobById s (parseFrame f).job = none → (∀ n x p, .linkDeliver n x p ∉ newOuts s u) ∧ u.link.jobs = s.link.jobs ∧
        (engOf u e).cntUnknown = satAdd (engOf s e).cntUnknown 1 ∧ (engOf u e).unknownJob = raise s.tick (engOf s e).unknownJob) ∧
      (∀ j, jobById s (parseFrame f).job = some j → (jobOf s j).closed.contains e.val = false →
        inRanges (parseFrame f).ep (jobOf s j).ranges = false →
        (∀ n x p, .linkDeliver n x p ∉ newOuts s u) ∧ u.link.jobs = s.link.jobs ∧
        (engOf u e).cntMember = satAdd (engOf s e).cntMember 1 ∧ (engOf u e).notMember = raise s.tick (engOf s e).notMember)) ∧
  (∀ (e : Fin 96) (beats : Nat) (f : Bytes) (s : State), canonical s = true → linkAllowed s = true → linkCarries s e = true →
    row1 s e (parseFrame f) = true → row2 s e (parseFrame f) f = true → (parseFrame f).seq < 2 ^ 47 - 1 → (parseFrame f).type = 0 →
    beats = (frameLen (parseFrame f) + 255) / 256 → (parseFrame f).len ≤ 4096 → ((parseFrame f).dir = 3 ∨ (parseFrame f).dir = 4) →
    (parseFrame f).jres = 0 → (parseFrame f).plain = true → (parseFrame f).frag = 0 → (engOf s e).asm = [] →
    ∃ u, exec (.linkIngressFrame e beats f) s = .next u ∧ newOuts s u = [] ∧
      (engOf u e).asm = [⟨decide ((parseFrame f).dir = 4), (parseFrame f).job, (parseFrame f).ep, [slice f 8 (32 + (parseFrame f).len)],
        (parseFrame f).last⟩] ∧ (engOf u e).cntDrop = (engOf s e).cntDrop ∧
      (∀ j, jobById s (parseFrame f).job = some j → e.val ∈ (jobOf u j).links) ∧ (∀ n, n ≠ e.val → engOf u n = engOf s n) ∧
      (∀ n, (jobOf u n).state = (jobOf s n).state) ∧
      u = { s with link := { s.link with engines := u.link.engines, jobs := u.link.jobs } }) ∧
  (∀ (e : Fin 96) (beats : Nat) (f : Bytes) (s : State), canonical s = true → linkAllowed s = true →
    ((engOf s e).state = .keying ∨ linkCarries s e = true ∨ (engOf s e).state = .quarantined) →
    row1 s e (parseFrame f) = true → keyOnItsWay s e (parseFrame f) = false → row2 s e (parseFrame f) f = true →
    (parseFrame f).seq < 2 ^ 47 - 1 → (parseFrame f).type = 1 → beats = (frameLen (parseFrame f) + 255) / 256 →
    (parseFrame f).len ≤ 4090 → 1 ≤ leAt f 8 1 → leAt f 8 1 ≤ 4 → leAt f 9 1 = 0 →
    ∃ u, exec (.linkIngressFrame e beats f) s = .next u ∧ newOuts s u = [] ∧
      (engOf u e).hopAsm = (engOf s e).hopAsm.filter (fun a => a.type != leAt f 8 1) ++
        [⟨leAt f 8 1, slice f 14 (parseFrame f).len, 1, decide (leAt f 10 1 = 1)⟩] ∧
      mapGet 0 (engOf u e).rxSeq (seqSpace s e (parseFrame f)) = (parseFrame f).seq ∧ (engOf u e).state = (engOf s e).state ∧
      (engOf u e).exch = (engOf s e).exch ∧ (∀ n, n ≠ e.val → engOf u n = engOf s n) ∧
      u = { s with link := { s.link with engines := u.link.engines } })

/-- Hop-key exchanges (R122, R123, R237, R249, Tables LINK-7 and ORNG-7): a link whose peer appears enters KEYING and sends HELLO,
its ephemeral keys in two working slots; the HELLO of a rekey that the peer alone has started begins one here too; each of the
peer's messages that has come whole and passes its checks is answered by the next one; ENCAP
puts both hop keys of the phase into their slots; FINISH under the right key makes the link READY, pushes them to the engine and
empties the working slots; a message that fails makes a link in KEYING FAILED. No other link and no job changes. -/
def Obligations.HopExchangesEndReadyOrFailed : Prop :=
  (∀ (e : Fin 96) (s : State), canonical s = true → (engOf s e).up = false → linkAllowed s = true → drawReady s = true →
    (freeWorking 2 s).length = 2 → (engOf s e).exch = none →
    ∃ u x, exec (.lnkUpRise e) s = .next u ∧ (engOf u e).up = true ∧ (engOf u e).upAt = s.tick ∧ (engOf u e).state = .keying ∧
      (engOf u e).exch = some x ∧ x.peer = none ∧ x.rekey = false ∧ x.start = s.tick ∧ newOuts s u ≠ [] ∧
      (∀ o ∈ newOuts s u, ∃ f, o = .linkFrame e f) ∧ freeWorking 2 s = [x.ecdhSlot, x.kemSlot] ∧
      (∀ n ∈ [x.ecdhSlot, x.kemSlot], (slotOf u n).state = .active ∧ (slotOf u n).attr = attrWrap) ∧
      (∀ n, n ≠ x.ecdhSlot → n ≠ x.kemSlot → slotOf u n = slotOf s n) ∧
      (∀ n, n ≠ e.val → engOf u n = engOf s n) ∧ u.link.jobs = s.link.jobs) ∧
  (∀ (e : Fin 96) (m : HelloMsg) (s : State) (x : Exchange) (sec : Bytes), canonical s = true → (engOf s e).exch = some x →
    x.peer = none → hopCame s e 1 (helloBytes m) = true → linkAllowed s = true → m.ep ≠ s.link.endpoint → deviceKey x.ecdhSlot s = some sec →
    (Config.ecdhShared sec m.ecdh).isSome = true →
    ((engOf s e).state = .keying ∨ (((engOf s e).state = .rekeying ∨ (engOf s e).state = .quarantined) ∧
      (engOf s e).txSeq + (deviceChain s).length + 1 < 2 ^ 47)) →
    ∃ u, exec (.hopHello e m) s = .next u ∧ (engOf u e).exch = some { x with peer := some m } ∧
      (engOf u e).state = (engOf s e).state ∧ newOuts s u ≠ [] ∧ (∀ o ∈ newOuts s u, ∃ f, o = .linkFrame e f) ∧
      (∀ n, n ≠ e.val → engOf u n = engOf s n) ∧
      u = { s with link := { s.link with engines := u.link.engines }, outs := u.outs }) ∧
  (∀ (e : Fin 96) (m : HelloMsg) (s : State) (x : Exchange) (sec : Bytes), canonical s = true → roomAt s 1 = true →
    (engOf s e).exch = some x → x.peer = none → hopCame s e 1 (helloBytes m) = true → linkAllowed s = true →
    (engOf s e).state = .keying → m.ep = s.link.endpoint →
    deviceKey x.ecdhSlot s = some sec → runningDg s = [] →
    ∃ u, exec (.hopHello e m) s = .next u ∧ (engOf u e).exch = none ∧ (engOf u e).state = .failed ∧
      (engOf u e).failedAt = s.tick ∧ (engOf u e).keyFail = raise s.tick (engOf s e).keyFail ∧ recorded u 1 .notPermitted = true ∧
      (slotOf u x.ecdhSlot).state = .empty ∧ (slotOf u x.kemSlot).state = .empty ∧
      (∀ n x, .linkFrame n x ∉ newOuts s u) ∧ (∀ n, n ≠ e.val → engOf u n = engOf s n) ∧ u.link.jobs = s.link.jobs) ∧
  (∀ (e : Fin 96) (m : HelloMsg) (s : State), canonical s = true → (engOf s e).exch = none → hopCame s e 1 (helloBytes m) = true →
    linkAllowed s = true → ((engOf s e).state = .ready ∨ (engOf s e).state = .quarantined) → helloQueued s e = false →
    drawReady s = true → (freeWorking 2 s).length = 2 → txKeyed s e = true → m.ep ≠ s.link.endpoint →
    (∀ a, (Config.ecdhShared a m.ecdh).isSome = true) → (engOf s e).txSeq + (deviceChain s).length + 2 < 2 ^ 47 →
    ∃ u x, exec (.hopHello e m) s = .next u ∧ (engOf u e).exch = some x ∧ x.rekey = true ∧ x.peer = some m ∧ x.start = s.tick ∧
      (engOf u e).state = (if (engOf s e).state = .ready then .rekeying else .quarantined) ∧
      (engOf u e).keys = (engOf s e).keys ∧ (engOf u e).kphase = (engOf s e).kphase ∧
      (∀ o ∈ newOuts s u, ∃ f, o = .linkFrame e f) ∧ (∀ n, n ≠ e.val → engOf u n = engOf s n) ∧ u.link.jobs = s.link.jobs) ∧
  (∀ (e : Fin 96) (chain : Bytes) (s : State) (x : Exchange) (m : HelloMsg) (keys : Bytes × Bytes) (n : Nat), canonical s = true →
    (engOf s e).exch = some x → x.peer = some m → x.peerKeys = none → hopCame s e 2 chain = true → linkAllowed s = true →
    chainVerify (trustAnchor s) chain = some keys → Config.chainLifecycle chain = s.otp.code → signReady s = true →
    drawReady s = true → freeWorking 1 s = [n] →
    ((engOf s e).state = .keying ∨ (((engOf s e).state = .rekeying ∨ (engOf s e).state = .quarantined) ∧
      (engOf s e).txSeq + (Config.kemEncap m.kem (drbg 32 s).1).1.length + 4724 < 2 ^ 47)) →
    ∃ u y, exec (.hopCert e chain) s = .next u ∧ (engOf u e).exch = some y ∧
      y = { x with peerKeys := some keys, peerChain := chain, ownCt := (Config.kemEncap m.kem (drbg 32 s).1).1, ownSlot := some n } ∧
      (slotOf u n).state = .active ∧ (slotOf u n).attr = attrDerive ∧ (∀ k, k ≠ n → slotOf u k = slotOf s k) ∧
      (engOf u e).state = (engOf s e).state ∧ newOuts s u ≠ [] ∧ (∀ o ∈ newOuts s u, ∃ f, o = .linkFrame e f) ∧
      (∀ n, n ≠ e.val → engOf u n = engOf s n) ∧ u.link.jobs = s.link.jobs) ∧
  (∀ (e : Fin 96) (chain : Bytes) (s : State) (x : Exchange) (m : HelloMsg), canonical s = true → roomAt s 1 = true →
    (engOf s e).exch = some x → x.peer = some m → x.peerKeys = none → hopCame s e 2 chain = true → linkAllowed s = true →
    (engOf s e).state = .keying →
    (chainVerify (trustAnchor s) chain = none ∨ Config.chainLifecycle chain ≠ s.otp.code) → runningDg s = [] →
    ∃ u, exec (.hopCert e chain) s = .next u ∧ (engOf u e).state = .failed ∧ (engOf u e).exch = none ∧
      recorded u 1 .notPermitted = true ∧ (slotOf u x.ecdhSlot).state = .empty ∧ (slotOf u x.kemSlot).state = .empty ∧
      (∀ n, n ≠ e.val → engOf u n = engOf s n) ∧ u.link.jobs = s.link.jobs) ∧
  (∀ (e : Fin 96) (ct sig : Bytes) (s : State) (x : Exchange) (m : HelloMsg) (keys : Bytes × Bytes) (sec seed own z h : Bytes) (o k : Nat),
    canonical s = true → (engOf s e).exch = some x → x.peer = some m → x.peerKeys = some keys → x.finSlot = none →
    hopCame s e 3 (ct ++ sig) = true → linkAllowed s = true → hybridOk keys (encapHash s x m x.peerChain ct) sig = true →
    drawReady s = true →
    deviceKey x.ecdhSlot s = some sec → deviceKey x.kemSlot s = some seed → x.ownSlot = some o → deviceKey o s = some own →
    z = (Config.ecdhShared sec m.ecdh).getD [] ++ sideOrder (isSideA s m) own (Config.kemDecap seed ct) →
    h = exchangeHash s { x with peerCt := ct } m → freeWorking 1 s = [k] →
    ((engOf s e).state = .keying ∨ (((engOf s e).state = .rekeying ∨ (engOf s e).state = .quarantined) ∧
      (engOf s e).txSeq + 1 < 2 ^ 47)) →
    ∃ u, exec (.hopEncap e ct sig) s = .next u ∧ (engOf u e).exch = some { x with peerCt := ct, finSlot := some k } ∧
      (∀ d, d < 2 → ∃ key mask, key = kdf z (ascii (if isSideA s m = decide (d = 0) then "OCN-HOP-AB" else "OCN-HOP-BA")) h 256 ∧
        slotOf u (hopSlot e (bit (nextPhase (engOf s e) x.rekey)) d) = { state := .active, attr := attrEngine, len := key.length, active := mkHalf (hopSlot e (bit (nextPhase (engOf s e) x.rekey)) d) 0 key mask }) ∧
      (slotOf u k).state = .active ∧ (slotOf u k).attr = attrEnc ∧ (engOf u e).state = (engOf s e).state ∧
      newOuts s u ≠ [] ∧ (∀ o ∈ newOuts s u, ∃ f, o = .linkFrame e f) ∧
      (∀ n, n ≠ e.val → engOf u n = engOf s n) ∧ u.link.jobs = s.link.jobs) ∧
  (∀ (e : Fin 96) (mac fin k0 k1 : Bytes) (s : State) (x : Exchange) (m : HelloMsg) (n : Nat) (phase : Bool), canonical s = true →
    (engOf s e).exch = some x → x.peer = some m → x.finSlot = some n → hopCame s e 4 mac = true → linkAllowed s = true →
    deviceKey n s = some fin → mac = hmac384 fin (exchangeTranscript s x m) → phase = nextPhase (engOf s e) x.rekey →
    (∀ k ∈ [x.ecdhSlot, x.kemSlot, n] ++ x.ownSlot.toList, workingBase ≤ k) → loadsHeld s = true →
    (∀ d, d < 2 → (slotOf s (hopSlot e (bit phase) d)).pending = false) →
    deviceKey (hopSlot e (bit phase) 0) s = some k0 → deviceKey (hopSlot e (bit phase) 1) s = some k1 →
    (engOf s e).closeDue = [] → (engOf s e).txPark = [] → mapWf [] (engOf s e).keys = true → runningDg s = [] →
    ∃ u, exec (.hopFinish e mac) s = .next u ∧ (engOf u e).state = .ready ∧ (engOf u e).kphase = phase ∧ (engOf u e).txSeq = 1 ∧
      (engOf u e).peerEp = m.ep ∧ (engOf u e).exch = none ∧ (∀ d, d < 2 → hopKey (engOf u e) phase d = []) ∧
      (u.orng.pushes.drop s.orng.pushes.length).map (fun p => (p.drop, p.unit, p.plain.2)) =
        [((engineUnit e).1, (engineUnit e).2, k0), ((engineUnit e).1, (engineUnit e).2, k1)] ∧
      (∀ k ∈ [x.ecdhSlot, x.kemSlot, n] ++ x.ownSlot.toList, (slotOf u k).state = .empty) ∧
      (∀ d, d < 2 → slotOf u (hopSlot e (bit phase) d) = slotOf s (hopSlot e (bit phase) d)) ∧
      (∀ n, n ≠ e.val → engOf u n = engOf s n) ∧ u.link.jobs = s.link.jobs) ∧
  (∀ (e : Fin 96) (mac fin : Bytes) (s : State) (x : Exchange) (m : HelloMsg) (n : Nat), canonical s = true → roomAt s 1 = true →
    (engOf s e).exch = some x → x.peer = some m → x.finSlot = some n → hopCame s e 4 mac = true → deviceKey n s = some fin →
    linkAllowed s = true →
    (engOf s e).state = .keying → mac ≠ hmac384 fin (exchangeTranscript s x m) → runningDg s = [] →
    ∃ u, exec (.hopFinish e mac) s = .next u ∧ (engOf u e).state = .failed ∧ (engOf u e).exch = none ∧
      recorded u 1 .notPermitted = true ∧
      (∀ d, d < 2 → (slotOf u (hopSlot e (bit (nextPhase (engOf s e) x.rekey)) d)).state = .empty) ∧
      (slotOf u n).state = .empty ∧ (∀ n, n ≠ e.val → engOf u n = engOf s n) ∧ u.link.jobs = s.link.jobs)

/-- Timers, thresholds and commands of links (R123, R124, R137, R139): the end of an exchange's 50 ms, a FAILED link's retry,
HSEQ at 2^46, LINK_REKEY, a failed rekey's retry and its end, the end of the old phase, lnk_up falling, and both thresholds of
bad tags. No other link or job changes. The 50 ms of a rekey (log 123), the status TIMEOUT at the end of HSEQ (log 119) and
LINK_REKEY's NOT_PERMITTED (log 80) are the model's choices. -/
def Obligations.LinkTimersAndThresholds : Prop :=
  (∀ (e : Fin 96) (s : State), canonical s = true → roomAt s 1 = true → (engOf s e).state = .keying → (engOf s e).upAt + 12500000 ≤ s.tick →
    runningDg s = [] →
    ∃ u, exec (.keyingTimeout e) s = .next u ∧ (engOf u e).state = .failed ∧ (engOf u e).failedAt = s.tick ∧ (engOf u e).exch = none ∧
      recorded u 1 .timeout = true ∧ (∀ n, n ≠ e.val → engOf u n = engOf s n) ∧ u.link.jobs = s.link.jobs) ∧
  (∀ (e : Fin 96) (s : State) (x : Exchange), canonical s = true → (engOf s e).state = .rekeying → (engOf s e).exch = some x →
    x.start + 12500000 ≤ s.tick →
    ∃ u, exec (.keyingTimeout e) s = .next u ∧ engOf u e = { engOf s e with state := .ready, exch := none, hopAsm := [], retryAt := some (s.tick + 250000) } ∧
      (slotOf u x.ecdhSlot).state = .empty ∧ (slotOf u x.kemSlot).state = .empty ∧
      (∀ n, n ≠ e.val → engOf u n = engOf s n) ∧ u.link.jobs = s.link.jobs ∧ u.frames = s.frames) ∧
  (∀ (e : Fin 96) (s : State), canonical s = true → (engOf s e).state = .failed → (engOf s e).up = true → linkAllowed s = true →
    (engOf s e).failedAt + 250000000 ≤ s.tick → drawReady s = true → (freeWorking 2 s).length = 2 → (engOf s e).exch = none →
    ∃ u x, exec (.linkRetryTimer e) s = .next u ∧ (engOf u e).state = .keying ∧ (engOf u e).exch = some x ∧ x.rekey = false ∧
      x.start = s.tick ∧ (engOf u e).upAt = s.tick ∧ (∀ n, n ≠ e.val → engOf u n = engOf s n) ∧ u.link.jobs = s.link.jobs) ∧
  (∀ (e : Fin 96) (s : State), canonical s = true → (engOf s e).state = .ready → (engOf s e).exch = none → (engOf s e).retryAt = none →
    drawReady s = true → (freeWorking 2 s).length = 2 → txKeyed s e = true → (engOf s e).txSeq < 2 ^ 47 - 1 → 2 ^ 46 ≤ hopSeqTop (engOf s e) →
    ∃ u x, exec (.hseqRekeyThreshold e) s = .next u ∧ (engOf u e).state = .rekeying ∧ (engOf u e).exch = some x ∧ x.rekey = true ∧
      (engOf u e).keys = (engOf s e).keys ∧ (engOf u e).kphase = (engOf s e).kphase ∧ (∀ n, n ≠ e.val → engOf u n = engOf s n) ∧
      u.link.jobs = s.link.jobs) ∧
  (∀ (m : MgmtHdr) (s : State), canonical s = true → mgmtOk m s = true → m.unit.toNat < 96 → (engOf s m.unit.toNat).exch = none →
    drawReady s = true → (freeWorking 2 s).length = 2 → txKeyed s m.unit.toNat = true → (engOf s m.unit.toNat).txSeq < 2 ^ 47 - 1 →
    ∃ u, exec (.linkRekey m) s = .next u ∧ (∀ n, n ≠ m.unit.toNat → engOf u n = engOf s n) ∧ u.link.jobs = s.link.jobs ∧
      ((engOf s m.unit.toNat).state = .ready → replied s u m .ok = true ∧ (engOf u m.unit.toNat).state = .rekeying ∧
        (engOf u m.unit.toNat).exch ≠ none) ∧
      ((engOf s m.unit.toNat).state ≠ .ready → replied s u m .notPermitted = true ∧ u.link = s.link)) ∧
  (∀ (e : Fin 96) (s : State) (t : Nat), canonical s = true → (engOf s e).retryAt = some t → t ≤ s.tick → (engOf s e).exch = none →
    roomAt s 1 = true → drawReady s = true → (freeWorking 2 s).length = 2 → txKeyed s e = true →
    ∃ u, exec (.rekeyRetryTimer e) s = .next u ∧ (engOf u e).retryAt = none ∧ (∀ n, n ≠ e.val → engOf u n = engOf s n) ∧
      u.link.jobs = s.link.jobs ∧
      (hopSeqTop (engOf s e) < 2 ^ 47 - 1 → (engOf s e).txSeq < 2 ^ 47 - 1 → ∃ x, (engOf u e).exch = some x ∧ x.rekey = true ∧ x.start = s.tick) ∧
      (2 ^ 47 - 1 ≤ hopSeqTop (engOf s e) → (engOf u e).state = .failed ∧ recorded u 1 .timeout = true)) ∧
  (∀ (e : Fin 96) (s : State) (t : Nat), canonical s = true → mapWf [] (engOf s e).keys = true → (engOf s e).oldUntil = some t → t ≤ s.tick →
    ∃ u, exec (.oldPhaseExpiry e) s = .next u ∧ (engOf u e).oldUntil = none ∧ (engOf u e).state = (engOf s e).state ∧
      (∀ d, d < 2 → (slotOf u (hopSlot e (bit (!(engOf s e).rxPhase)) d)).state = .empty ∧
        hopKey (engOf u e) (!(engOf s e).rxPhase) d = [] ∧
        hopKey (engOf u e) (engOf s e).rxPhase d = hopKey (engOf s e) (engOf s e).rxPhase d) ∧
      (∀ n, n ≠ e.val → engOf u n = engOf s n) ∧ u.link.jobs = s.link.jobs) ∧
  (∀ (e : Fin 96) (s : State), canonical s = true →
    ∃ u, exec (.lnkUpFall e) s = .next u ∧ (engOf u e).up = false ∧ (engOf u e).state = .down ∧ (engOf u e).keys = [] ∧
      (engOf u e).exch = none ∧ (engOf u e).txPark = [] ∧ (engOf u e).rxPark = [] ∧ (engOf u e).egress = none ∧
      (engOf u e).asm = [] ∧ (engOf u e).hopAsm = [] ∧
      (engOf u e).cntDrop = satAdd (engOf s e).cntDrop (((engOf s e).txPark.filter (fun p => p.2.1 != 1)).length +
        (engOf s e).rxPark.length + bit (engOf s e).egress.isSome) ∧
      (engOf u e).closeDue = (engOf s e).closeDue ++ ((engOf s e).txPark.filter (fun p => p.2.1 == 1)).map (·.1) ∧
      (∀ n, n ≠ e.val → engOf u n = engOf s n) ∧ u.link.jobs = s.link.jobs ∧
      ((engOf s e).exch = none → u = { s with link := { s.link with engines := u.link.engines } })) ∧
  (∀ (j : Fin 256) (s : State) (t : Nat), canonical s = true → roomAt s 1 = true → (jobOf s j).badDue = some t → t < s.tick →
    ((jobOf s j).state = .open_ ∨ (jobOf s j).state = .keying) →
    ∃ u, exec (.jobTagThreshold j) s = .next u ∧ (jobOf u j).state = .suspended ∧ (jobOf u j).bad = [] ∧ (jobOf u j).badDue = none ∧
      recorded u 1 .lnkfJobTag = true ∧ (∀ n, n ≠ j.val → jobOf u n = jobOf s n) ∧
      (∀ n, (engOf u n).state = (engOf s n).state ∧ (engOf u n).keys = (engOf s n).keys ∧ (engOf u n).jobKeys = (engOf s n).jobKeys) ∧
      ((jobOf s j).state = .open_ → ∀ n, ∀ p ∈ (engOf u n).txPark, p ∈ (engOf s n).txPark ∧ (p.1 = j.val → p.2.1 ≠ 0))) ∧
  (∀ (e : Fin 96) (s : State) (t : Nat), canonical s = true → (engOf s e).hopDue = some t → t < s.tick → (engOf s e).exch = none →
    drawReady s = true → (freeWorking 2 s).length = 2 → linkCarries s e = true → (engOf s e).txSeq < 2 ^ 47 - 1 →
    ∃ u x, exec (.hopTagThreshold e) s = .next u ∧ (engOf u e).state = .quarantined ∧ (engOf u e).quarantine = raise s.tick (engOf s e).quarantine ∧
      (engOf u e).badHop = [] ∧ (engOf u e).exch = some x ∧ x.rekey = true ∧ (∀ n, n ≠ e.val → engOf u n = engOf s n) ∧
      u.link.jobs = s.link.jobs)

/-- Jobs (R127 to R134, Table LINK-9A): a leader's job is OPEN at the lowest FREE entry under a drawn key, a member's is KEYING
for 100 ms; a job without links is FREE as soon as it closes, with its generation advanced; one with links sends JOB_CLOSE
and awaits CLOSE_ACK for 2 ms; a JOIN whose fragments have come is answered by the leader with GRANT, a GRANT installs the key,
both are relayed unchanged under a new hop header by a device that is not their destination, and discarded and logged where a
check fails; a FENCED context's close is refused. The lowest FREE entry (log 156), the zero IV of a GRANT (log 81) and the bytes that an
operator job's token stands for (log 52) are the model's. -/
def Obligations.JobsOpenAndClose : Prop :=
  (∀ (m : MgmtHdr) (id lep : BitVec 16) (leader plain : Bool) (rs : List EpRange) (s : State) (j : Nat), canonical s = true →
    mgmtOk m s = true → 1 ≤ rs.length → rs.length ≤ 16 → (plain = true → plainInForce s = true) →
    mayOpen s leader lep (rs.map (fun r => (r.1.toNat, r.2.toNat))) = true → jobById s id = none → drawReady s = true →
    leastBelow 256 (fun j => decide ((jobOf s j).state = .free)) = some j → openBlocked leader s = none →
    (∀ e, routeTo s lep = some e → (engOf s e).txSeq + 8 < 2 ^ 47) →
    ∃ u, exec (.jobOpenOp m id leader lep plain rs) s = .next u ∧ (jobOf u j).id = id ∧ (jobOf u j).cid = 0 ∧
      (jobOf u j).plain = plain ∧ (jobOf u j).ranges = rs.map (fun r => (r.1.toNat, r.2.toNat)) ∧ (jobOf u j).gen = (jobOf s j).gen ∧
      (leader = true → (jobOf u j).state = .open_ ∧ (slotOf u (jobSlot j)).state = .active ∧ replied s u m .ok = true) ∧
      (leader = false → (jobOf u j).state = .keying ∧ (jobOf u j).deadline = s.tick + 25000000 ∧ u.mgmt.length = s.mgmt.length + 1) ∧
      (leader = false → ∃ a k, freeWorking 2 s = [a, k] ∧ (jobOf u j).ecdhSlot = some a ∧ (jobOf u j).kemSlot = some k ∧
        (slotOf u a).attr = attrWrap ∧ (slotOf u k).attr = attrWrap) ∧
      (∀ n, n ≠ j → jobOf u n = jobOf s n) ∧ u.ctxs = s.ctxs ∧ u.frames = s.frames) ∧
  (∀ (h : HostCmd) (s : State) (b : Bytes) (j : Nat), canonical s = true → hostOk opJobLinkOpen h s = true → h.cid.val ≠ 0 →
    opNat h 22 2 = (ctxOf s h.cid).gen.toNat → opNat h 22 2 ≠ 0 →
    cmrsOk s h.cid = true → ((ctxOf s h.cid).state = .keyed ∨ (ctxOf s h.cid).state = .running) → h.buf = .data b →
    consentSigned (ctxOf s h.cid) (fit h.bufLen b) = true →
    mayOpen s (decide ((opByte h 20).toNat = 1)) (BitVec.ofNat 16 (leAt (fit h.bufLen b) 4 2)) (tokenRanges (fit h.bufLen b)) = true →
    jobById s (BitVec.ofNat 16 (leAt (fit h.bufLen b) 2 2)) = none → drawReady s = true →
    leastBelow 256 (fun j => decide ((jobOf s j).state = .free)) = some j → openBlocked (decide ((opByte h 20).toNat = 1)) s = none →
    (∀ e, routeTo s (BitVec.ofNat 16 (leAt (fit h.bufLen b) 4 2)) = some e → (engOf s e).txSeq + 8 < 2 ^ 47) →
    ∃ u, exec (.jobLinkOpen h) s = .next u ∧ (jobOf u j).id = BitVec.ofNat 16 (leAt (fit h.bufLen b) 2 2) ∧
      (jobOf u j).cid = h.cid.val ∧ (jobOf u j).plain = false ∧ (jobOf u j).digest = sha384 (fit h.bufLen b) ∧
      ((opByte h 20).toNat = 1 → (jobOf u j).state = .open_ ∧ (slotOf u (jobSlot j)).cid = h.cid.val ∧ completed s u h .ok = true) ∧
      ((opByte h 20).toNat ≠ 1 → (jobOf u j).state = .keying ∧ (jobOf u j).deadline = s.tick + 25000000) ∧
      mapGet (zeros 48) (ctxOf u h.cid).cmr 5 = sha384 (mapGet (zeros 48) (ctxOf s h.cid).cmr 5 ++ sha384 (slice (fit h.bufLen b) 0 96)) ∧
      (∀ n, n ≠ j → jobOf u n = jobOf s n) ∧ (∀ c, c ≠ h.cid.val → (ctxOf u c).state = (ctxOf s c).state) ∧ u.frames = s.frames) ∧
  (∀ (h : HostCmd) (s : State), canonical s = true → hostOk opJobLinkClose h s = true →
    jobCloseCheck (opByte h 20).toNat h.cid h.gen s = none → (jobOf s (opByte h 20).toNat).links = [] →
    (jobOf s (opByte h 20).toNat).openW = .none → (jobOf s (opByte h 20).toNat).timedOut = false →
    (jobOf s (opByte h 20).toNat).awaiting = [] → linksHolding s (opByte h 20).toNat = [] → runningDg s = [] →
    ∃ u, exec (.jobLinkClose h) s = .next u ∧ (jobOf u (opByte h 20).toNat).state = .free ∧
      (jobOf u (opByte h 20).toNat).gen = genNext (jobOf s (opByte h 20).toNat).gen ∧ completed s u h .ok = true ∧
      (slotOf u (jobSlot (opByte h 20).toNat)).state = .empty ∧ (∀ n, n ≠ (opByte h 20).toNat → jobOf u n = jobOf s n)) ∧
  (∀ (h : HostCmd) (s : State), canonical s = true → hostOk opJobLinkClose h s = true → h.cid.val ≠ 0 → h.gen ≠ 0 →
    h.gen = (jobOf s (opByte h 20).toNat).gen → (ctxOf s h.cid).state = .fenced →
    ∃ u, exec (.jobLinkClose h) s = .next u ∧ completed s u h .ctxFenced = true ∧ u.link = s.link ∧ u.orng = s.orng) ∧
  (∀ (m : MgmtHdr) (s : State) (e : Nat), canonical s = true → mgmtOk m s = true → m.unit.toNat < 256 →
    jobCloseCheck m.unit.toNat 0 m.gen s = none → (jobOf s m.unit.toNat).links = [e] → (jobOf s m.unit.toNat).awaiting = [] →
    linkCarries s e = true → (engOf s e).egress = none → (cachedJobKey s e m.unit.toNat).isSome = true →
    mapGet 0 (jobOf s m.unit.toNat).jseq e < 2 ^ 64 - 1 → (engOf s e).txSeq < 2 ^ 47 - 1 → linksHolding s m.unit.toNat = [] →
    ∃ u f, exec (.jobCloseOp m) s = .next u ∧ (jobOf u m.unit.toNat).state = .closing ∧ newOuts s u = [.linkFrame e f] ∧
      (jobOf u m.unit.toNat).awaiting = [(e, s.tick + 500000)] ∧ (jobOf u m.unit.toNat).closeW = .mgmt m.tag.val ∧
      (∀ n, n ≠ m.unit.toNat → jobOf u n = jobOf s n) ∧ (∀ n, n ≠ e → engOf u n = engOf s n) ∧ u.orng = s.orng) ∧
  (∀ (m : JobMsg) (s s1 : State) (fs : List Bytes) (j : Nat) (key : Bytes), canonical s = true → linkAllowed s = true →
    linkOpen (engOf s m.engine) = true → takeAsm false m s = some (fs, s1) → m.destEp = s.link.endpoint → jobById s m.jobId = some j →
    joinOk j m s = true → drawReady s = true → (freeWorking 2 s).length = 2 → loadsHeld s = true → signReady s = true →
    deviceKey (jobSlot j) s = some key → (∀ a, (Config.ecdhShared a m.ecdh).isSome = true) →
    ∃ v g a r z, exec (.join m) s = .next (sendJobMsg (some m.engine.val) j 4 g v) ∧ g.destEp = m.srcEp ∧ g.srcEp = s.link.endpoint ∧
      g.jobId = m.jobId ∧ g.digest = (jobOf s j).digest ∧ g.ecdh = Config.ecdhPublic a ∧ Config.ecdhShared a m.ecdh = some z ∧
      g.kem = (Config.kemEncap m.kem r).1 ∧
      g.wrapped = (gcmSeal (kdf (z ++ (Config.kemEncap m.kem r).2) (ascii "OCN-GRANT") (jobOf s j).digest 256) (zeros 12) [] key).1 ++
        (gcmSeal (kdf (z ++ (Config.kemEncap m.kem r).2) (ascii "OCN-GRANT") (jobOf s j).digest 256) (zeros 12) [] key).2 ∧
      v.link.jobs = s.link.jobs ∧ v.outs = s.outs ∧ (∀ n, n < workingBase → slotOf v n = slotOf s n) ∧
      (∀ n, n ≠ m.engine.val → engOf v n = engOf s n)) ∧
  (∀ (m : JobMsg) (grant : Bool) (s s1 : State) (fs : List Bytes) (e : Nat), canonical s = true → linkAllowed s = true →
    linkOpen (engOf s m.engine) = true → takeAsm grant m s = some (fs, s1) → m.destEp ≠ s.link.endpoint →
    routeTo s m.destEp = some e → e < 96 → linkCarries s e = true →
    exec (if grant then .grant m else .join m) s = .next (fs.foldl (fun t f => sendHop e 0 f t)
      (match jobById s m.jobId with | some j => addLink e j s1 | none => s1))) ∧
  (∀ (m : JobMsg) (grant : Bool) (s s1 : State) (f : Bytes) (e : Nat), canonical s = true → linkAllowed s = true →
    linkOpen (engOf s m.engine) = true → takeAsm grant m s = some ([f], s1) → m.destEp ≠ s.link.endpoint →
    routeTo s m.destEp = some e → e < 96 → linkCarries s e = true → (engOf s e).txSeq < 2 ^ 47 - 1 →
    ∃ u g, exec (if grant then .grant m else .join m) s = .next u ∧
      g = hopHeader (engOf s e).txSeq (authClass s e) (engOf s e).kphase 0 ++ f ∧
      newOuts s u = [.linkFrame e (linkBeats (g ++ (if authClass s e then hopTag (hopKey (engOf s e) (engOf s e).kphase 0)
        (engOf s e).txSeq g else zeros 8)))] ∧
      u.link.jobs = (match jobById s m.jobId with | some j => addLink e j s | none => s).link.jobs ∧ u.orng = s.orng ∧
      (∀ n, n ≠ e → n ≠ m.engine.val → engOf u n = engOf s n)) ∧
  (∀ (m : JobMsg) (s s1 : State) (fs : List Bytes) (j : Nat) (key : Bytes), canonical s = true → linkAllowed s = true →
    linkOpen (engOf s m.engine) = true → takeAsm true m s = some (fs, s1) → m.destEp = s.link.endpoint → jobById s m.jobId = some j →
    grantOk j m s = true → (freeWorking 1 s).isEmpty = false → drawReady s = true → grantKey j m s = some key → loadsHeld s = true →
    ∃ v, exec (.grant m) s = .next (finish (jobOf s j).openW .ok (leNat 1 j) v) ∧
      jobOf v j = { jobOf s j with state := .open_, openW := .none, ecdhSlot := none, kemSlot := none } ∧
      (slotOf v (jobSlot j)).state = .active ∧ (slotOf v (jobSlot j)).cid = (jobOf s j).cid ∧ (slotOf v (jobSlot j)).len = key.length ∧
      (∀ n ∈ (jobOf s j).ecdhSlot.toList ++ (jobOf s j).kemSlot.toList, n ≠ jobSlot j → (slotOf v n).state = .empty) ∧
      (∀ n, n ≠ j → jobOf v n = jobOf s n) ∧ (∀ n, n ≠ m.engine.val → engOf v n = engOf s n)) ∧
  (∀ (m : JobMsg) (grant : Bool) (s s1 : State) (fs : List Bytes), canonical s = true → roomAt s 0 = true → linkAllowed s = true →
    linkOpen (engOf s m.engine) = true → takeAsm grant m s = some (fs, s1) → m.destEp = s.link.endpoint →
    (∀ j, jobById s m.jobId = some j → (if grant then grantOk j m s else joinOk j m s) = false) →
    mapGet 0 (engOf s m.engine).recs (statusCode .notPermitted).toNat ≤ s.tick →
    ∃ u, exec (if grant then .grant m else .join m) s = .next u ∧ recorded u 0 .notPermitted = true ∧
      (∀ n x, .linkFrame n x ∉ newOuts s u) ∧ u.link.jobs = s.link.jobs ∧ u.orng = s.orng) ∧
  (∀ (j : Fin 256) (s : State), canonical s = true → (jobOf s j).state = .keying → (jobOf s j).deadline ≤ s.tick →
    (jobOf s j).links = [] → (jobOf s j).awaiting = [] → linksHolding s j = [] →
    ∃ v, exec (.memberKeyingTimeout j) s = .next (finish (jobOf s j).openW .timeout [] v) ∧ (jobOf v j).state = .free ∧
      (jobOf v j).gen = genNext (jobOf s j).gen ∧ (∀ n, n ≠ j.val → jobOf v n = jobOf s n)) ∧
  (∀ (e : Fin 96) (id : BitVec 16) (s s1 : State) (c : CtlFrame), canonical s = true → takeCtl e id false s = some (c, s1) →
    (engOf s e).egress = none → (jobOf s c.job).state = .open_ → (cachedJobKey s e c.job).isSome = true → linkCarries s e = true →
    mapGet 0 (jobOf s c.job).jseq e < 2 ^ 64 - 1 → (engOf s e).txSeq < 2 ^ 47 - 1 → roomAt s 1 = true →
    ∃ u f, exec (.jobClose e id) s = .next u ∧ .linkFrame e f ∈ newOuts s u ∧ e.val ∈ (jobOf u c.job).closed ∧
      (jobOf u c.job).state = .open_ ∧ recorded u 1 .ok = true ∧ u.link.ctl = s.link.ctl.erase c ∧
      (∀ n, n ≠ c.job → jobOf u n = jobOf s n) ∧ (∀ n, n ≠ e.val → engOf u n = engOf s n) ∧ u.orng = s.orng) ∧
  (∀ (e : Fin 96) (id : BitVec 16) (s s1 : State) (c : CtlFrame) (t : Nat), canonical s = true → takeCtl e id true s = some (c, s1) →
    (jobOf s c.job).state = .closing → (jobOf s c.job).awaiting = [(e.val, t)] →
    ∃ u, exec (.closeAck e id) s = .next u ∧ (jobOf u c.job).state = .free ∧ (jobOf u c.job).gen = genNext (jobOf s c.job).gen ∧
      (slotOf u (jobSlot c.job)).state = .empty ∧ u.link.ctl = (s.link.ctl.erase c).filter (fun x => x.job != c.job) ∧
      (∀ n, n ≠ c.job → jobOf u n = jobOf s n)) ∧
  (∀ (e : Fin 96) (j : Fin 256) (s : State) (t : Nat), canonical s = true → (jobOf s j).state = .closing →
    (jobOf s j).awaiting = [(e.val, t)] → t ≤ s.tick →
    ∃ u, exec (.closeTimerExpiry e j) s = .next u ∧ (jobOf u j).state = .free ∧ (jobOf u j).gen = genNext (jobOf s j).gen ∧
      (engOf u e).closeTimeout = raise s.tick (engOf s e).closeTimeout ∧ (slotOf u (jobSlot j)).state = .empty ∧
      (∀ n, n ≠ j.val → jobOf u n = jobOf s n))

/-! ## Greenhouse (08_greenhouse_verification.md) -/

/-- Receipts and decisions (R184 to R192, R201): a receipt reaches its die's queue under the CID, virtual die and core of the
stamp; OP_BEGIN opens an operation, or counts it as untracked where 8,192 are open; OP_END compares the tiles seen with those
declared; a tile of a context RUNNING in its decision tick is counted and, where u lies below rate_eff, takes the lowest free check slot, else its
pin is answered; a malformed receipt is a mismatch; without the sampling key a fill is raised and the receipt waits; before the key-distribution gate the engines take none. -/
def Obligations.ReceiptsAreCountedAndSampled : Prop :=
  (∀ (die : Fin 32) (core : Fin 320) (e : QEntry) (s : State), canonical s = true → (dieOf s die).rstN = true →
    (qOf s (2 + die)).items = [] → (qOf s (2 + die)).opens = [] → (qOf s (2 + die)).ignoring = [] → (qOf s (2 + die)).order = [] →
    crossFull s.tick (qOf s (2 + die)) = false → e.last = true → byteAt (fit 63 e.payload) 5 = 1 → (dieOf s die).stampCid < 256 →
    ∃ u, exec (.receipt die core [e]) s = .next u ∧ headRcpt u die = some (1, parseRcpt [portHeader s die core e.payload]) ∧
      (parseRcpt [portHeader s die core e.payload]).cid = (dieOf s die).stampCid ∧
      (parseRcpt [portHeader s die core e.payload]).core = core.val ∧ (∀ q, q ≠ 2 + die.val → qOf u q = qOf s q) ∧
      (∀ d, d ≠ die.val → grEngOf u d = grEngOf s d) ∧ u.grnh.opens = s.grnh.opens ∧
      u = { s with splq := u.splq, outs := u.outs, grnh := { s.grnh with engines := u.grnh.engines } }) ∧
  (∀ (die : Fin 32) (s : State), enginesOn s = false →
    exec (.opBegin die) s = .next s ∧ exec (.opEnd die) s = .next s ∧ exec (.samplingDecision die) s = .next s) ∧
  (∀ (die : Fin 32) (core : Fin 320) (es : List QEntry) (s : State), (dieOf s die).rstN = false →
    exec (.receipt die core es) s = .next s) ∧
  (∀ (die : Fin 32) (s : State) (n : Nat) (r : Rcpt), canonical s = true → enginesOn s = true → headRcpt s die = some (n, r) → r.kind = kOpBegin →
    r.cid ≠ 0 → r.cid ≠ 255 → rcptStatic n r = true → beginBad s r = false →
    ∃ v, exec (.opBegin die) s = .next (answerRcpt die r v) ∧ (ctxOf v r.cid).opSeq = some r.opseq ∧
      (grEngOf v die).cntReceipts = satAdd (grEngOf s die).cntReceipts 1 ∧ v.splq = (takeRcpt die s).splq ∧
      (s.grnh.opens.length < 8192 → v.grnh.opens = s.grnh.opens ++ [⟨r.cid, r.vdie, r.opseq, r.aux, 0⟩] ∧ v.grnh.untracked = s.grnh.untracked) ∧
      (8192 ≤ s.grnh.opens.length → v.grnh.opens = s.grnh.opens ∧ (grEngOf v die).untracked = raise s.tick (grEngOf s die).untracked ∧
        ∃ u ∈ v.grnh.untracked, u.cid = r.cid ∧ u.vdie = r.vdie) ∧
      (∀ x, x ≠ r.cid → ctxOf v x = ctxOf s x) ∧ (∀ d, d ≠ die.val → grEngOf v d = grEngOf s d) ∧ v.perg = s.perg ∧ v.frames = s.frames) ∧
  (∀ (die : Fin 32) (s : State) (n : Nat) (r : Rcpt) (o : OpenOp), canonical s = true → enginesOn s = true → headRcpt s die = some (n, r) → r.kind = kOpEnd →
    r.cid ≠ 0 → r.cid ≠ 255 → rcptStatic n r = true → openOp s r.cid r.vdie r.opseq = some o →
    ∃ v, exec (.opEnd die) s = .next (retire die r v) ∧ v.grnh.opens = s.grnh.opens.filter (fun x => x != o) ∧
      (grEngOf v die).missing = (if o.seen < o.tiles then raise s.tick (grEngOf s die).missing else (grEngOf s die).missing) ∧
      (grEngOf v die).mismatch = (if o.tiles < o.seen then raise s.tick (grEngOf s die).mismatch else (grEngOf s die).mismatch) ∧
      (∀ x, x ≠ r.cid → ctxOf v x = ctxOf s x) ∧ (∀ d, d ≠ die.val → grEngOf v d = grEngOf s d) ∧ v.frames = s.frames) ∧
  (∀ (die : Fin 32) (s : State) (n : Nat) (r : Rcpt) (k : Bytes) (i : Nat), canonical s = true → enginesOn s = true → headRcpt s die = some (n, r) →
    r.kind ≠ kOpBegin → r.kind ≠ kOpEnd → r.cid ≠ 0 → r.cid ≠ 255 → rcptStatic n r = true → tileTracked s r = true →
    (headDecision s die r).1 = true → (grEngOf s die).keys.find? (fun x => x.1 == r.cid) = some (r.cid, some k) →
    sampleU k r < rateEff s (headDecision s die r).2 * 65536 → i < 16 → mapGet none (grEngOf s die).slots i = none →
    (∀ x, x < i → mapGet none (grEngOf s die).slots x ≠ none) →
    ∃ u c, exec (.samplingDecision die) s = .next u ∧ checkAt u die i = some c ∧ c.rcpt = r ∧
      c.fence = (headDecision s die r).2.fence ∧ c.copied = false ∧ c.fetched = false ∧
      (grEngOf u die).cntSelected = satAdd (grEngOf s die).cntSelected 1 ∧ u.outs = (takeRcpt die s).outs ++ copyOuts die r ∧
      u.splq = (takeRcpt die s).splq ∧ u.perg = s.perg ∧ (∀ d, d ≠ die.val → grEngOf u d = grEngOf s d) ∧
      (∀ x, x ≠ r.cid → ctxOf u x = ctxOf s x)) ∧
  (∀ (die : Fin 32) (s : State) (n : Nat) (r : Rcpt) (k : Bytes), canonical s = true → enginesOn s = true → headRcpt s die = some (n, r) →
    r.kind ≠ kOpBegin → r.kind ≠ kOpEnd → r.cid ≠ 0 → r.cid ≠ 255 → rcptStatic n r = true → tileTracked s r = true →
    ((headDecision s die r).1 = false ∨ (grEngOf s die).keys.find? (fun x => x.1 == r.cid) = some (r.cid, some k) ∧
      rateEff s (headDecision s die r).2 * 65536 ≤ sampleU k r) →
    ∃ v, exec (.samplingDecision die) s = .next (answerRcpt die r v) ∧ (grEngOf v die).slots = (grEngOf s die).slots ∧
      (grEngOf v die).cntReceipts = satAdd (grEngOf s die).cntReceipts 1 ∧ (grEngOf v die).cntSelected = (grEngOf s die).cntSelected ∧
      v.grnh.opens.length = s.grnh.opens.length ∧ v.splq = (takeRcpt die s).splq ∧ v.perg = s.perg ∧
      (∀ x, x ≠ r.cid → ctxOf v x = ctxOf s x)) ∧
  (∀ (die : Fin 32) (s : State) (n : Nat) (r : Rcpt), canonical s = true → enginesOn s = true → headRcpt s die = some (n, r) →
    r.kind ≠ kOpBegin → r.kind ≠ kOpEnd → r.cid ≠ 0 → r.cid ≠ 255 → (rcptStatic n r = false ∨ tileTracked s r = false) →
    ∃ v, exec (.samplingDecision die) s = .next (answerRcpt die r v) ∧ (grEngOf v die).malformed = raise s.tick (grEngOf s die).malformed ∧
      (grEngOf v die).mismatch = raise s.tick (grEngOf s die).mismatch ∧
      (grEngOf v die).cntMismatch = satAdd (grEngOf s die).cntMismatch 1 ∧ (grEngOf v die).slots = (grEngOf s die).slots ∧
      ((headDecision s die r).2.fence = true → ∃ f ∈ v.pav.integ, f.unit = 512 + die.val ∧ f.cid = r.cid ∧ f.cause = 3) ∧
      ((headDecision s die r).2.fence = false → v.pav.integ = s.pav.integ) ∧
      (∀ x, x ≠ r.cid → ctxOf v x = ctxOf s x)) ∧
  (∀ (die : Fin 32) (s : State) (n : Nat) (r : Rcpt), canonical s = true → enginesOn s = true → headRcpt s die = some (n, r) →
    r.kind ≠ kOpBegin → r.kind ≠ kOpEnd → r.cid ≠ 0 → r.cid ≠ 255 → rcptStatic n r = true → tileTracked s r = true →
    (headDecision s die r).1 = true → (grEngOf s die).keys.find? (fun x => x.1 == r.cid) = none → s.pav.tamper = false →
    (grEngOf s die).fills.any (fun f => f.1 == r.cid) = false →
    ∃ u, exec (.samplingDecision die) s = .next u ∧ u.grnhFills = s.grnhFills ++ [(die.val, r.cid)] ∧
      (grEngOf u die).fills = (grEngOf s die).fills ++ [(r.cid, false)] ∧ headRcpt u die = some (n, r) ∧
      u = { s with grnh := { s.grnh with engines := u.grnh.engines }, grnhFills := u.grnhFills })

/-- Checks (R191, R193 to R200, R202): a copy that ends well is staged, answers the pin and asks for the operands; the fetch that ends well
completes the data; a copy or fetch that fails, with the effects of the row that refused it at its channel (R87, R103), or a check whose context is FENCED, drops the sample; a verdict counts the check
and frees its slot, and a mismatch is noticed and, under FENCE, sampled as a fault of unit 512 + die with CAUSE 3. -/
def Obligations.ChecksEndInAVerdictOrADrop : Prop :=
  (∀ (die : Fin 32) (slot : Fin 16) (f : Fetched) (s : State) (c : Check), canonical s = true → checkAt s die slot = some c →
    c.copied = false → copyTurn s die c = true → f.status = .ok →
    ∃ u, exec (.outputCopyDone die slot f) s = .next u ∧ checkAt u die slot = some { c with copied := true, copies := f.parts } ∧
      u.outs = (answerRcpt die c.rcpt (putCheck die slot { c with copied := true, copies := f.parts } s)).outs ++
        .stage die (stagingFrame die slot) f.parts.flatten :: operandOuts die c.rcpt ∧
      (∀ d, d ≠ die.val → grEngOf u d = grEngOf s d) ∧ u.frames = s.frames ∧ u.pav = s.pav) ∧
  (∀ (die : Fin 32) (slot : Fin 16) (f : Fetched) (s : State) (c : Check), canonical s = true → checkAt s die slot = some c →
    c.copied = true → c.fetched = false → (checksOf s die).all (fun x => x.2.copied) = true → f.status = .ok →
    ∃ v, exec (.operandFetchDone die slot f) s = .next (settleRetires v) ∧
      checkAt v die slot = some { c with fetched := true, data := tileData c.rcpt.ops f.parts } ∧
      (∀ d, d ≠ die.val → grEngOf v d = grEngOf s d) ∧ v = { s with grnh := { s.grnh with engines := v.grnh.engines } }) ∧
  (∀ (die : Fin 32) (slot : Fin 16) (f : Fetched) (s : State) (c : Check), canonical s = true → checkAt s die slot = some c →
    mapWf none (grEngOf s die).slots = true → f.status ≠ .ok → c.fetched = false →
    (if c.copied then (checksOf s die).all (fun x => x.2.copied) else copyTurn s die c) = true →
    ∃ u, (if c.copied then exec (.operandFetchDone die slot f) s else exec (.outputCopyDone die slot f) s) = .next u ∧
      checkAt u die slot = none ∧ (grEngOf u die).drop = raise s.tick (grEngOf s die).drop ∧
      (grEngOf u die).cntDropped = satAdd (grEngOf s die).cntDropped 1 ∧ (∀ x, x ≠ slot.val → checkAt u die x = checkAt s die x) ∧
      (∀ d, d ≠ die.val → grEngOf u d = grEngOf s d) ∧
      (f.status ≠ .tagFail → f.status ≠ .uerr → u.pav.integ = s.pav.integ) ∧
      ((f.status = .tagFail ∨ f.status = .uerr) → 1 ≤ c.rcpt.cid → c.rcpt.cid ≤ 254 →
        ∃ x ∈ u.pav.integ, x.cid = c.rcpt.cid ∧ x.cause = 1 ∧ x.tick = s.tick) ∧
      (f.status = .refused → (chanOf u (lineChan f.line.toNat)).routeErr = raise s.tick (chanOf s (lineChan f.line.toNat)).routeErr) ∧
      (f.status = .noKey → (chanOf u (lineChan f.line.toNat)).noKey = raise s.tick (chanOf s (lineChan f.line.toNat)).noKey) ∧
      (f.status = .fenced ∨ f.status = .refused ∨ f.status = .reserved →
        (chanOf u (lineChan f.line.toNat)).cntRefuse = satAdd (chanOf s (lineChan f.line.toNat)).cntRefuse 1)) ∧
  (∀ (die : Fin 32) (slot : Fin 16) (s : State) (c : Check), canonical s = true → checkAt s die slot = some c →
    mapWf none (grEngOf s die).slots = true → c.copied = true → c.fetched = true → s.pav.tamper = false →
    fencedBefore s c.rcpt.cid = false → verdictOf c.rcpt c.copies c.data = none →
    ∃ u, exec (.checkVerdict die slot) s = .next u ∧ checkAt u die slot = none ∧
      (grEngOf u die).cntChecked = satAdd (grEngOf s die).cntChecked 1 ∧ (grEngOf u die).mismatch = (grEngOf s die).mismatch ∧
      (∀ x, x ≠ slot.val → checkAt u die x = checkAt s die x) ∧ (∀ d, d ≠ die.val → grEngOf u d = grEngOf s d) ∧
      (∀ x, x ≠ c.rcpt.cid → ctxOf u x = ctxOf s x) ∧ u = { s with ctxs := u.ctxs, grnh := { s.grnh with engines := u.grnh.engines } }) ∧
  (∀ (die : Fin 32) (slot : Fin 16) (s : State) (c : Check) (reason : Nat), canonical s = true → roomAt s 1 = true →
    checkAt s die slot = some c → mapWf none (grEngOf s die).slots = true → c.copied = true → c.fetched = true →
    s.pav.tamper = false → fencedBefore s c.rcpt.cid = false → verdictOf c.rcpt c.copies c.data = some reason →
    ∃ u, exec (.checkVerdict die slot) s = .next u ∧ checkAt u die slot = none ∧ recorded u 1 .grnhMismatch = true ∧
      (grEngOf u die).mismatch = raise s.tick (grEngOf s die).mismatch ∧
      (grEngOf u die).cntMismatch = satAdd (grEngOf s die).cntMismatch 1 ∧
      (c.fence = true → ∃ f ∈ u.pav.integ, f.unit = 512 + die.val ∧ f.cid = c.rcpt.cid ∧ f.cause = 3 ∧ f.tick = s.tick) ∧
      (c.fence = false → u.pav = s.pav) ∧ (∀ d, d ≠ die.val → grEngOf u d = grEngOf s d) ∧ u.frames = s.frames) ∧
  (∀ (die : Fin 32) (slot : Fin 16) (s : State) (c : Check), canonical s = true → checkAt s die slot = some c →
    mapWf none (grEngOf s die).slots = true →
    ((ctxOf s c.rcpt.cid).state = .fenced ∨ (ctxOf s c.rcpt.cid).state = .destroying ∨ (dieOf s die).state ≠ .running) →
    ∃ u, exec (.checkDrop die slot) s = .next u ∧ checkAt u die slot = none ∧ (grEngOf u die).drop = raise s.tick (grEngOf s die).drop ∧
      (grEngOf u die).cntDropped = satAdd (grEngOf s die).cntDropped 1 ∧ (grEngOf u die).cntMismatch = (grEngOf s die).cntMismatch ∧
      (∀ x, x ≠ slot.val → checkAt u die x = checkAt s die x) ∧ (∀ d, d ≠ die.val → grEngOf u d = grEngOf s d) ∧
      u.pav.integ = s.pav.integ)

/-! ## Pergola (15_pergola_semaphores.md) -/

/-- Operations on a core semaphore that nothing waits on, from a core outside a stamp gap (R338 to R345, R347, R353, Tables
PERG-2 and PERG-3), below index 15,360 and for REALIGN of two such semaphores: ADD saturates at 1,048,575 and SUB clamps at 0, each with its sticky bit; READ answers the value in two
cycles; a wait that N satisfies is answered OK at once, WAIT_SUB lowering the value by N, and any other is held under the
core's own index; REALIGN leaves P − C and 0; code 0 and a core's SET are refused. No other semaphore changes. That a WAIT_SUB satisfied at once
advances the slice's pointer is the model's choice (log 20). -/
def Obligations.SemaphoreOperations : Prop :=
  ∀ (op : PergOp) (c : Fin 320) (s : State), canonical s = true → semaphoresOk s = true → op.port = .core c →
    (dieOf s op.die).rstN = true → stampGap s op.die = false → op.sem.val < 15360 →
    (∀ w ∈ (sliceOf s op.die).waits, w.sem ≠ op.sem.val) →
    (∃ u, exec (.add op) s = .next u ∧ semValue u op.die op.sem = min (semValue s op.die op.sem + op.n.toNat) 1048575 ∧
      (∀ k, k ≠ op.sem.val → semValue u op.die k = semValue s op.die k) ∧
      (sliceOf u op.die).saturated = (if 1048575 < semValue s op.die op.sem + op.n.toNat then raise s.tick (sliceOf s op.die).saturated
        else (sliceOf s op.die).saturated) ∧
      (∀ d, d ≠ op.die.val → sliceOf u d = sliceOf s d) ∧ u = { s with perg := u.perg, splq := u.splq, outs := u.outs, sund := granted8 s }) ∧
    (∃ u, exec (.sub op) s = .next u ∧ semValue u op.die op.sem = semValue s op.die op.sem - op.n.toNat ∧
      (∀ k, k ≠ op.sem.val → semValue u op.die k = semValue s op.die k) ∧
      (sliceOf u op.die).underflow = (if semValue s op.die op.sem < op.n.toNat then raise s.tick (sliceOf s op.die).underflow
        else (sliceOf s op.die).underflow) ∧
      (∀ d, d ≠ op.die.val → sliceOf u d = sliceOf s d) ∧ u = { s with perg := u.perg, splq := u.splq, outs := u.outs, sund := granted8 s }) ∧
    (∃ u, exec (.read op) s = .next u ∧ newOuts s u = [.wake op.die c (BitVec.ofNat 16 (semValue s op.die op.sem)),
        .wake op.die c (BitVec.ofNat 16 (semValue s op.die op.sem / 65536))] ∧ u = { s with outs := u.outs, sund := granted8 s }) ∧
    (coreWaits s op.die c = false → op.n.toNat ≤ semValue s op.die op.sem →
      ∃ u v, exec (.waitGe op) s = .next u ∧ exec (.waitSub op) s = .next v ∧ newOuts s u = [.wake op.die c 0] ∧
        newOuts s v = [.wake op.die c 0] ∧ u = { s with outs := u.outs, sund := granted8 s } ∧
        semValue v op.die op.sem = semValue s op.die op.sem - op.n.toNat ∧
        (sliceOf v op.die).ptr = ((sliceOf s op.die).ptr + 1) % 1360 ∧
        (∀ k, k ≠ op.sem.val → semValue v op.die k = semValue s op.die k) ∧ (∀ d, d ≠ op.die.val → sliceOf v d = sliceOf s d) ∧
        v = { s with perg := v.perg, outs := v.outs, sund := granted8 s }) ∧
    (coreWaits s op.die c = false → semValue s op.die op.sem < op.n.toNat →
      ∃ u v, exec (.waitGe op) s = .next u ∧ exec (.waitSub op) s = .next v ∧
        sliceOf u op.die = { sliceOf s op.die with waits := (sliceOf s op.die).waits ++
          [⟨c, op.sem, op.n.toNat, false, (dieOf s op.die).stampCid, .core op.die c, s.tick⟩] } ∧
        sliceOf v op.die = { sliceOf s op.die with waits := (sliceOf s op.die).waits ++
          [⟨c, op.sem, op.n.toNat, true, (dieOf s op.die).stampCid, .core op.die c, s.tick⟩] } ∧
        u = { s with perg := u.perg, sund := granted8 s } ∧ v = { s with perg := v.perg, sund := granted8 s }) ∧
    (∃ u, exec (.set op) s = .next u ∧ (∀ k, semValue u op.die k = semValue s op.die k) ∧
      (sliceOf u op.die).badOp = raise s.tick (sliceOf s op.die).badOp ∧ u = { s with perg := u.perg, splq := u.splq, outs := u.outs, sund := granted8 s }) ∧
    (∃ u, exec (.pergolaNullOperation op) s = .next u ∧ (∀ k, semValue u op.die k = semValue s op.die k) ∧
      (sliceOf u op.die).badOp = raise s.tick (sliceOf s op.die).badOp ∧ u = { s with perg := u.perg, splq := u.splq, outs := u.outs, sund := granted8 s }) ∧
    (op.n.toNat % 16384 < 15360 → op.n.toNat % 16384 ≠ op.sem.val → (∀ w ∈ (sliceOf s op.die).waits, w.sem ≠ op.n.toNat % 16384) →
      ∃ u, exec (.realign op) s = .next u ∧ semValue u op.die (op.n.toNat % 16384) = 0 ∧
        semValue u op.die op.sem = semValue s op.die op.sem - semValue s op.die (op.n.toNat % 16384) ∧
        (sliceOf u op.die).drift = (if semValue s op.die op.sem < semValue s op.die (op.n.toNat % 16384) ∨
            (bits op.n.toNat 14 5 < 20 ∧ 2 ^ bits op.n.toNat 14 5 < semValue s op.die op.sem - semValue s op.die (op.n.toNat % 16384))
          then raise s.tick (sliceOf s op.die).drift else (sliceOf s op.die).drift) ∧
        (∀ k, k ≠ op.sem.val → k ≠ op.n.toNat % 16384 → semValue u op.die k = semValue s op.die k) ∧
        u = { s with perg := u.perg, splq := u.splq, outs := u.outs, sund := granted8 s })

/-- Waits and the ring (R341, R342, R344, R346, R348, R351): a value that reaches N wakes the one waiter with OK, and a WAIT_SUB
takes its N from the value; a privileged semaphore bound elsewhere is reached over the ring and changed there, or sent on where it has been bound elsewhere
meanwhile; an unbound one
is changed in its backing block; the internal port's SET writes a value; a core's wait that is WAIT_TICKS old is released with
PERG_WAIT_TIMEOUT; in a stamp gap the die port discards. -/
def Obligations.WaitersAndTheRing : Prop :=
  (∀ (op : PergOp) (s : State) (cid : Fin 256) (w : PWait), canonical s = true → semaphoresOk s = true → op.port = .internal cid →
    op.sem.val < 15360 → (sliceOf s op.die).waits = [w] → w.sem = op.sem.val → op.n.toNat ≠ 0 →
    w.n ≤ semValue s op.die op.sem + op.n.toNat → semValue s op.die op.sem + op.n.toNat ≤ 1048575 →
    ∃ u, exec (.add op) s = .next u ∧ (sliceOf u op.die).waits = [] ∧
      semValue u op.die op.sem = semValue s op.die op.sem + op.n.toNat - (if w.sub then w.n else 0) ∧
      (∀ die core, w.from_ = .core die core → newOuts s u = [.wake die core 0]) ∧
      (∀ k, k ≠ op.sem.val → semValue u op.die k = semValue s op.die k) ∧ u = { s with perg := u.perg, outs := u.outs, sund := granted8 s }) ∧
  (∀ (op : PergOp) (s : State) (cid : Fin 256), canonical s = true → semaphoresOk s = true → op.port = .internal cid →
    op.sem.val < 15360 → (∀ w ∈ (sliceOf s op.die).waits, w.sem ≠ op.sem.val) →
    ∃ u, exec (.set op) s = .next u ∧ semValue u op.die op.sem = op.n.toNat ∧
      (∀ k, k ≠ op.sem.val → semValue u op.die k = semValue s op.die k) ∧ (∀ d, d ≠ op.die.val → sliceOf u d = sliceOf s d) ∧
      u = { s with perg := u.perg, sund := granted8 s }) ∧
  (∀ (op : PergOp) (s : State) (cid : Fin 256) (h : Nat), cid.val ≠ 0 → cid.val ≠ 255 → op.port = .internal cid →
    15360 ≤ op.sem.val → op.sem.val < 15872 → (ctxOf s cid).home = some h → h ≠ op.die.val →
    exec (.add op) s = .next { s with sund := granted8 s, perg := { s.perg with ring := s.perg.ring ++ [⟨h, op.die, .add, op.sem, op.n.toNat, cid, .internal op.die, s.tick⟩] } }) ∧
  (∀ (h : Fin 32) (s : State) (m : RingMsg) (rest : List RingMsg) (x : Nat), takeRing h s.perg.ring = some (m, rest) →
    (ctxOf s m.cid).home = some x → x ≠ h.val →
    exec (.ringOperation h) s = .next { s with sund := granted8 s, perg := { s.perg with ring := rest ++ [{ m with home := x, src := h, tick := s.tick }] } }) ∧
  (∀ (h : Fin 32) (s : State) (m : RingMsg) (rest : List RingMsg), canonical s = true → semaphoresOk s = true →
    takeRing h s.perg.ring = some (m, rest) → (ctxOf s m.cid).home = some h.val → m.code = .add →
    semValue s h m.sem + m.n ≤ 1048575 → (∀ w ∈ (sliceOf s h).waits, w.sem ≠ m.sem) →
    ∃ u, exec (.ringOperation h) s = .next u ∧ semValue u h m.sem = semValue s h m.sem + m.n ∧ u.perg.ring = rest ∧
      (∀ k, k ≠ m.sem → semValue u h k = semValue s h k) ∧ (∀ d, d ≠ h.val → sliceOf u d = sliceOf s d) ∧ u = { s with perg := u.perg, sund := granted8 s }) ∧
  (∀ (op : PergOp) (s : State) (cid : Fin 256), canonical s = true → semaphoresOk s = true → cid.val ≠ 0 → cid.val ≠ 255 →
    op.port = .internal cid → 15360 ≤ op.sem.val → op.sem.val < 15872 → (ctxOf s cid).home = none →
    mapGet 0 (ctxOf s cid).backing (op.sem - 15360) + op.n.toNat ≤ 1048575 →
    ∃ u, exec (.add op) s = .next u ∧
      mapGet 0 (ctxOf u cid).backing (op.sem - 15360) = mapGet 0 (ctxOf s cid).backing (op.sem - 15360) + op.n.toNat ∧
      (∀ x, x ≠ cid.val → ctxOf u x = ctxOf s x) ∧ u = { s with ctxs := u.ctxs, sund := granted8 s }) ∧
  (∀ (die : Fin 32) (core : Fin 320) (s : State) (d : Nat) (w : PWait), canonical s = true → semaphoresOk s = true → roomAt s 0 = true →
    waitOfCore s die core = some (d, w) → (sliceOf s die).waitTicks ≠ 0 → w.tick + (sliceOf s die).waitTicks.toNat ≤ s.tick →
    w.from_ = .core die core → mapGet 0 (sliceOf s die).recs (statusCode .pergWaitTimeout).toNat ≤ s.tick →
    ∃ u, exec (.waitTimeout die core) s = .next u ∧ .wake die core (statusCode .pergWaitTimeout) ∈ newOuts s u ∧
      w ∉ (sliceOf u d).waits ∧ (sliceOf u die).timeout = raise s.tick (sliceOf s die).timeout ∧
      (sliceOf u die).cntTimeout = satAdd (sliceOf s die).cntTimeout 1 ∧ recorded u 0 .pergWaitTimeout = true ∧
      (∀ x k, semValue u x k = semValue s x k) ∧ u = { s with perg := u.perg, splq := u.splq, outs := u.outs, sund := granted9 s }) ∧
  (∀ (op : PergOp) (c : Fin 320) (s : State), canonical s = true → op.port = .core c → (dieOf s op.die).rstN = true →
    stampGap s op.die = true →
    ∃ u, exec (.add op) s = .next u ∧ (sliceOf u op.die).cntDrop = satAdd (sliceOf s op.die).cntDrop 1 ∧
      (sliceOf u op.die).stampDrop = raise s.tick (sliceOf s op.die).stampDrop ∧ (sliceOf u op.die).sems = (sliceOf s op.die).sems ∧
      u = { s with perg := u.perg })

/-! ## Spill queues (16_spill_queues.md) -/

/-- Entries and packets (R358, R360 to R369): an accepted one-entry packet is committed behind all earlier ones, under the PRODUCER
of its port; no port reaches a context's queue by number, and a core's write reaches the one of its stamp; an entry that
finds the queue or the receipt port's crossing FULL, or a packet shorter than declared, is discarded, counted and sticky; a read returns the first entry of
the earliest-committed packet, or 64 zero bytes; a burst and a read of the middle move entries without changing their order, a
read with a failed tag brings none and resets the block under R106;
an idle queue raises its notice; an open packet that times out fails with LENGTH_SHORT; a write of a core stamped 0 or 255 is
counted in queue 0's CNT_DROP. No other queue changes but the fault log. The model's choices: a read reaches an entry of the middle
at once (log 130), a packet that timed out is ignored up to its END (log 16), the ports of queues 0 and 1 bear their source kind
(log 145). -/
def Obligations.QueuesKeepPacketsInOrder : Prop :=
  (∀ (q : Fin 320) (port : Fin 320) (producer : BitVec 6) (e : QEntry) (s : State), canonical s = true →
    (q.val < 2 ∨ 33 < q.val ∧ q.val < 66) → (qOf s q).items.length < 64 → openOf (qOf s q) port = none → (qOf s q).ignoring.contains port.val = false →
    e.last = true → declaredOf q (fit 63 e.payload) = 1 →
    ∃ u, exec (.splqEntryWrite (.queue q port producer) e) s = .next u ∧
      (qOf u q).items.map (fun i => (i.payload, i.producer)) = (qOf s q).items.map (fun i => (i.payload, i.producer)) ++
        [(fit 63 e.payload, if q.val ≤ 1 then BitVec.ofNat 6 port else 0)] ∧
      (qOf u q).order = (qOf s q).order ++ [(qOf s q).nextPkt] ∧ (qOf u q).drop = (qOf s q).drop ∧
      (∀ n, n ≠ q.val → qOf u n = qOf s n) ∧ u = { s with splq := u.splq, outs := u.outs }) ∧
  (∀ (q : Fin 320) (port : Fin 320) (producer : BitVec 6) (e : QEntry) (s : State), canonical s = true →
    (q.val = 1 ∨ 33 < q.val ∧ q.val < 66) → roomAt s 0 = true → qFull (canSpill s) (qOf s q) = true → openOf (qOf s q) port = none →
    (qOf s q).ignoring.contains port.val = false →
    ∃ u, exec (.splqEntryWrite (.queue q port producer) e) s = .next u ∧ recorded u 0 .splqOverrun = true ∧
      (qOf u q).items.map (·.payload) = (qOf s q).items.map (·.payload) ∧ (qOf u q).order = (qOf s q).order ∧
      (qOf u q).overrun = some s.tick ∧ (qOf u q).drop = satAdd (qOf s q).drop 1 ∧
      (∀ n, n ≠ q.val → n ≠ 0 → qOf u n = qOf s n) ∧ u = { s with splq := u.splq, outs := u.outs }) ∧
  (∀ (q : Fin 320) (port : Fin 320) (producer : BitVec 6) (e : QEntry) (s : State), canonical s = true →
    33 < q.val → q.val < 66 → roomAt s 0 = true → (qOf s q).items.length < 64 → openOf (qOf s q) port = none →
    (qOf s q).ignoring.contains port.val = false → (∀ i ∈ (qOf s q).items, i.pkt ≠ (qOf s q).nextPkt) →
    e.last = true → 1 < declaredOf q (fit 63 e.payload) →
    ∃ u, exec (.splqEntryWrite (.queue q port producer) e) s = .next u ∧ recorded u 0 .lengthShort = true ∧
      (qOf u q).items.map (·.payload) = (qOf s q).items.map (·.payload) ∧ (qOf u q).order = (qOf s q).order ∧
      (qOf u q).lenShort = some s.tick ∧ (qOf u q).drop = satAdd (qOf s q).drop 1 ∧
      (∀ n, n ≠ q.val → n ≠ 0 → qOf u n = qOf s n)) ∧
  (∀ (q port : Fin 320) (producer : BitVec 6) (e : QEntry) (s : State), 66 ≤ q.val →
    exec (.splqEntryWrite (.queue q port producer) e) s = .next s) ∧
  (∀ (die : Fin 32) (core : Fin 320) (e : QEntry) (s : State) (c : Nat), canonical s = true → (dieOf s die).rstN = true →
    (dieOf s die).stampCid = c → 1 ≤ c → c ≤ 254 → (qOf s (65 + c)).items.length < 64 →
    openOf (qOf s (65 + c)) (320 * die + core) = none → (qOf s (65 + c)).ignoring.contains (320 * die.val + core.val) = false → e.last = true →
    ∃ u, exec (.splqEntryWrite (.ctxPrivate die core) e) s = .next u ∧
      (qOf u (65 + c)).items.map (fun i => (i.payload, i.producer)) =
        (qOf s (65 + c)).items.map (fun i => (i.payload, i.producer)) ++ [(fit 63 e.payload, BitVec.ofNat 6 (dieOf s die).stampVdie)] ∧
      (qOf u (65 + c)).order = (qOf s (65 + c)).order ++ [(qOf s (65 + c)).nextPkt] ∧
      (∀ n, n ≠ 65 + c → qOf u n = qOf s n) ∧ u = { s with splq := u.splq, outs := u.outs }) ∧
  (∀ (die : Fin 32) (core : Fin 320) (e : QEntry) (s : State), canonical s = true → roomAt s 0 = true → (dieOf s die).rstN = true →
    crossFull s.tick (qOf s (2 + die)) = true → openOf (qOf s (2 + die)) core = none →
    (qOf s (2 + die)).ignoring.contains core.val = false →
    ∃ u, exec (.receipt die core [e]) s = .next u ∧ recorded u 0 .splqOverrun = true ∧
      (qOf u (2 + die)).items.map (·.payload) = (qOf s (2 + die)).items.map (·.payload) ∧
      (qOf u (2 + die)).order = (qOf s (2 + die)).order ∧ (qOf u (2 + die)).overrun = some s.tick ∧
      (qOf u (2 + die)).drop = satAdd (qOf s (2 + die)).drop 1 ∧ (∀ n, n ≠ 0 → n ≠ 2 + die.val → qOf u n = qOf s n) ∧
      u.perg = s.perg ∧ u.grnh.opens = s.grnh.opens) ∧
  (∀ (die : Fin 32) (core : Fin 320) (e : QEntry) (s : State), canonical s = true → (dieOf s die).rstN = true →
    ((dieOf s die).stampCid = 0 ∨ (dieOf s die).stampCid = 255) →
    ∃ u, exec (.splqEntryWrite (.ctxPrivate die core) e) s = .next u ∧ qOf u 0 = { qOf s 0 with drop := satAdd (qOf s 0).drop 1 } ∧
      (∀ n, n ≠ 0 → qOf u n = qOf s n) ∧ u = { s with splq := u.splq }) ∧
  (∀ (q : Fin 320) (s : State) (p : Nat) (ps : List Nat) (i : QItem) (rest : List QItem), canonical s = true →
    (qOf s q).order = p :: ps → pktHeld (qOf s q) p = false → takeFirst p (qOf s q).items = some (i, rest) →
    (i.loc = .middle → selectRow s (lineChan (midLine (qOf s q) i.pos)) (middleReq (qOf s q) false i) = .ok) →
    ∃ u, exec (.consumerRead q) s = .next u ∧ .queueEntry q (entryBytes i) ∈ newOuts s u ∧
      (qOf u q).items.map (·.payload) = rest.map (·.payload) ∧ (qOf u q).order = (if i.last then ps else p :: ps) ∧
      (qOf u q).lastRead = s.tick ∧ (∀ n, n ≠ q.val → qOf u n = qOf s n) ∧
      (1 < q.val → i.loc ≠ .middle → u = { s with splq := u.splq, outs := u.outs }) ∧
      (1 < q.val → u = { s with splq := u.splq, outs := u.outs, ctxs := u.ctxs, host := { s.host with devCnt := u.host.devCnt }
                                fence := { s.fence with chans := u.fence.chans, zeroAt := u.fence.zeroAt } }) ∧
      (q.val = 0 → s.pav.flog.length < 16384 → u.pav.flog = s.pav.flog ++ [entryBytes i] ∧ u.pav.flogSeq = s.pav.flogSeq + 1)) ∧
  (∀ (q : Fin 320) (s : State), canonical s = true →
    ((qOf s q).order = [] ∨ ∃ p ps, (qOf s q).order = p :: ps ∧ pktHeld (qOf s q) p = true) →
    ∃ u, exec (.consumerRead q) s = .next u ∧ .queueEntry q (zeros 64) ∈ newOuts s u ∧
      (qOf u q).items.map (·.payload) = (qOf s q).items.map (·.payload) ∧ (∀ n, n ≠ q.val → qOf u n = qOf s n) ∧
      u = { s with splq := u.splq, outs := u.outs }) ∧
  (∀ (q : Fin 320) (s : State), canonical s = true → 0 < qCountAt (qOf s q) .spilling → qCountAt (qOf s q) .spilling ≤ 16 →
    (∀ i ∈ itemsAt (qOf s q) .spilling, selectRow s (lineChan (midLine (qOf s q) i.pos)) (middleReq (qOf s q) true i) = .ok) →
    ∃ u, exec (.spillBurstDone q) s = .next u ∧ u.splq = (putQ q (burstDone (qOf s q)) s).splq ∧
      (∀ i ∈ (burstDone (qOf s q)).items, i.loc ≠ .spilling) ∧
      (qOf u q).items.map (·.payload) = (qOf s q).items.map (·.payload) ∧ (qOf u q).order = (qOf s q).order ∧
      (∀ n, n ≠ q.val → qOf u n = qOf s n) ∧
      u = { s with splq := u.splq, outs := u.outs, ctxs := u.ctxs, host := { s.host with devCnt := u.host.devCnt }
                   fence := { s.fence with chans := u.fence.chans, zeroAt := u.fence.zeroAt } }) ∧
  (∀ (q : Fin 320) (s : State) (i : QItem), canonical s = true → q.val ≠ 0 → i ∈ itemsAt (qOf s q) .spilling →
    selectRow s (lineChan (midLine (qOf s q) i.pos)) (middleReq (qOf s q) true i) ≠ .ok →
    ∃ u, exec (.spillBurstDone q) s = .next u ∧ (∀ n, n ≠ 0 → qOf u n = qOf s n) ∧ u.pav.delayed = s.pav.delayed) ∧
  (∀ (q : Fin 320) (rd : LineReads) (s : State), canonical s = true → 0 < qCountAt (qOf s q) .fetching →
    qCountAt (qOf s q) .fetching ≤ 16 → (readsOutcome s (middleReads s q) rd).status = .ok →
    ∃ u, exec (.middleReadDone q rd) s = .next u ∧ u.splq = (putQ q (fetchDone (qOf s q)) s).splq ∧
      (∀ i ∈ (fetchDone (qOf s q)).items, i.loc ≠ .fetching) ∧
      (qOf u q).items.map (·.payload) = (qOf s q).items.map (·.payload) ∧ (qOf u q).order = (qOf s q).order ∧
      (∀ n, n ≠ q.val → qOf u n = qOf s n) ∧
      u = { s with splq := u.splq, outs := u.outs, ctxs := u.ctxs, host := { s.host with devCnt := u.host.devCnt }
                   fence := { s.fence with chans := u.fence.chans, zeroAt := u.fence.zeroAt } }) ∧
  (∀ (q : Fin 320) (rd : LineReads) (s : State), canonical s = true → 0 < qCountAt (qOf s q) .fetching → s.pav.cid0Failed = false →
    (readsOutcome s (middleReads s q) rd).status = .tagFail →
    ∃ u r, exec (.middleReadDone q rd) s = .next u ∧ u.pav.delayed = s.pav.delayed ++ [(s.tick + 2500, .cid0Integrity)] ∧
      (middleReads s q)[rd.served]? = some r ∧ (chanOf u (lineChan r.line)).cid0From ≠ none ∧
      (chanOf u (lineChan r.line)).tagFail = raise s.tick (chanOf s (lineChan r.line)).tagFail ∧
      (qOf u q).midFail = true ∧ (∀ n, 1 < n → n ≠ q.val → qOf u n = qOf s n) ∧
      (1 < q.val → (qOf u q).items = (qOf s q).items ∧ (qOf u q).order = (qOf s q).order)) ∧
  (∀ (q : Fin 320) (s : State), canonical s = true → (qOf s q).order ≠ [] → (qOf s q).lastRead + qTimeout (qOf s q) ≤ s.tick →
    ∃ u, exec (.splqTimeoutNotice q) s = .next u ∧ newOuts s u = [.consumerSignal q] ∧
      qOf u q = { qOf s q with notice := some s.tick, lastRead := s.tick } ∧ (∀ n, n ≠ q.val → qOf u n = qOf s n) ∧
      u = { s with splq := u.splq, outs := u.outs, sund := granted9 s }) ∧
  (∀ (q : Fin 320) (port : Nat) (s : State) (o : OpenPkt), canonical s = true → 33 < q.val → roomAt s 0 = true →
    openOf (qOf s q) port = some o → o.lastTick + qTimeout (qOf s q) ≤ s.tick →
    ∃ u, exec (.packetShortTimeout q port) s = .next u ∧ recorded u 0 .lengthShort = true ∧ (qOf u q).lenShort = some s.tick ∧
      (∀ i ∈ (qOf u q).items, i.pkt ≠ o.pkt) ∧ openOf (qOf u q) port = none ∧ port ∈ (qOf u q).ignoring ∧
      (qOf u q).order = (qOf s q).order ∧ (∀ n, n ≠ q.val → n ≠ 0 → qOf u n = qOf s n))

/-! ## Orangery (10_orangery_keys.md) -/

/-- Slots under the mailbox (R231 to R239, R243, Table ORNG-4), the key-use gate open and no zeroisation: a re-masking draws a
fresh mask once in its period and leaves the key as it is; a derivation writes its targets only, and one whose key input,
attribute, or targets' CID is not its row's is refused (of the labels OCN-OWNER and of no table: logs 140, 147); zeroising empties a slot of its CID; a compare
and a check value answer from the whole key and change nothing; a use under another attribute or CID is refused; a slot whose
code fails becomes BAD and is recorded; after a zeroisation every operation is refused. -/
def Obligations.VaultOperationsUseWholeKeys : Prop :=
  (∀ (n : Fin 4096) (s : State) (t : Nat), canonical s = true → s.orng.maskStart = some t → (slotOf s n).state = .active →
    drawReady s = true → s.orng.queue.any (fun q => decide (q.2 = .remask n)) = false → remaskLate s t n ≤ 256 →
    remasked s (slotOf s n) (remaskLate s t n) = false → halfOk n 0 (slotOf s n).active = true →
    ∃ u, exec (.remask n) s = .next u ∧
      slotOf u n = { slotOf s n with active := remaskHalf n (slotOf s n).active (drawMask s).1, maskedAt := some s.tick } ∧
      halfKey (slotOf u n).active (slotOf u n).len = halfKey (slotOf s n).active (slotOf s n).len ∧
      halfOk n 0 (slotOf u n).active = true ∧ (∀ k, k ≠ n.val → slotOf u k = slotOf s k) ∧
      u.orng.requests = s.orng.requests + 1 ∧
      u = { s with orng := { s.orng with slots := u.orng.slots, maxDefer := u.orng.maxDefer, dkey := u.orng.dkey, dv := u.orng.dv, requests := u.orng.requests } }) ∧
  (∀ (n : Fin 4096) (s : State) (t : Nat), s.orng.maskStart = some t → remasked s (slotOf s n) (remaskLate s t n) = true →
    exec (.remask n) s = .next s) ∧
  (∀ (n : Fin 4096) (s : State) (t : Nat), canonical s = true → roomAt s 0 = true → s.orng.maskStart = some t →
    (slotOf s n).state = .active → drawReady s = true → s.orng.queue.any (fun q => decide (q.2 = .remask n)) = false → remaskLate s t n ≤ 256 →
    remasked s (slotOf s n) (remaskLate s t n) = false → halfOk n 0 (slotOf s n).active = false →
    ∃ u, exec (.remask n) s = .next u ∧ (slotOf u n).state = .bad ∧ (slotOf u n).active = {} ∧ u.orng.slotBad = some s.tick ∧
      recorded u 0 .keySlotBad = true ∧ (∀ k, k ≠ n.val → slotOf u k = slotOf s k)) ∧
  (∀ (d : DeriveReq) (s : State) (t : Fin 4096) (ki : Bytes), canonical s = true → s.orng.zeroized = false → gateOpen s 0 = true →
    deriveRange d = true → deriveForm d s = true → useSlot d.ki attrDerive d.cid s = ((.ok, ki), s) → d.targets = [t] → slotOf s t = {} →
    drawReady s = true → (t.val < 2480 ∨ 2992 ≤ t.val) → (kdf ki d.label (deriveContext d s) d.bits).length ≤ 64 →
    ∃ u, exec (.derive d) s = .next u ∧ newOuts s u = [.mailbox .ok []] ∧ (slotOf u t).state = .active ∧ (slotOf u t).attr = targetAttr d t ∧
      (slotOf u t).cid = d.cid.val ∧ halfKey (slotOf u t).active (slotOf u t).len = kdf ki d.label (deriveContext d s) d.bits ∧
      (∀ k, k ≠ t.val → slotOf u k = slotOf s k) ∧
      u = { s with orng := { s.orng with slots := u.orng.slots, dkey := u.orng.dkey, dv := u.orng.dv, requests := u.orng.requests }, outs := u.outs }) ∧
  (∀ (d : DeriveReq) (s s1 : State) (ki : Bytes), s.orng.zeroized = false → gateOpen s 0 = true → deriveRange d = true →
    deriveStates d s = .ok → deriveForm d s = true → useSlot d.ki attrDerive d.cid s = ((.ok, ki), s1) →
    (drawReady s1 = true → exec (.derive d) s = .next (emit (.mailbox .ok []) ((d.targets.zip (deriveParts
      (kdf ki d.label (deriveContext d s1) d.bits) d.targets.length)).foldl (fun t p => fillTarget d p.1 p.2 t) s1))) ∧
    (s1.orng.ready = false → exec (.derive d) s = .next (emit (.mailbox .notPermitted []) s1))) ∧
  (∀ (d : DeriveReq) (s : State), d.label = ascii "OCN-OWNER" → deriveContext d s = leNat 2 (mapGet 0 s.otp.thermo 2)) ∧
  (∀ (d : DeriveReq) (s : State), s.orng.zeroized = false → gateOpen s 0 = true → deriveRange d = true →
    (deriveStates d s ≠ .ok → exec (.derive d) s = .next (emit (.mailbox (deriveStates d s) []) s)) ∧
    (deriveStates d s = .ok → deriveForm d s = false → exec (.derive d) s = .next (emit (.mailbox .keyAttrDenied []) s)) ∧
    (∀ st s1 k, deriveStates d s = .ok → deriveForm d s = true → useSlot d.ki attrDerive d.cid s = ((st, k), s1) → st ≠ .ok →
      exec (.derive d) s = .next (emit (.mailbox st []) s1))) ∧
  (∀ (n : Fin 4096) (cid : Fin 256) (s : State), canonical s = true → s.orng.zeroized = false → gateOpen s 0 = true →
    (slotOf s n).state ≠ .empty → (slotOf s n).cid = cid.val → (∀ l ∈ s.orng.loads, l.slots.contains n.val = false) →
    ∃ u, exec (.zeroise n cid) s = .next u ∧ .mailbox .ok [] ∈ newOuts s u ∧ slotOf u n = {} ∧ (∀ c ∈ u.dgst.cache, c.slot ≠ n.val) ∧
      (∀ e r, (dgOf u e).run = some r → 1 ≤ e → e ≤ 3 → r.req.op ≠ 1 → r.req.slot ≠ n.val) ∧
      (∀ k, k ≠ n.val → (slotOf s k).state = .empty → slotOf u k = slotOf s k) ∧ u.frames = s.frames ∧ u.fence = s.fence) ∧
  (∀ (n : Fin 4096) (cid : Fin 256) (s : State), s.orng.zeroized = false → gateOpen s 0 = true → (slotOf s n).state ≠ .empty →
    (slotOf s n).cid ≠ cid.val → exec (.zeroise n cid) s = .next (emit (.mailbox .keyAttrDenied []) s)) ∧
  (∀ (n : Fin 4096) (cid : Fin 256) (v : Bytes) (s : State), s.orng.zeroized = false → gateOpen s 0 = true →
    (slotOf s n).state = .active → halfOk n 0 (slotOf s n).active = true →
    exec (.compare n cid v) s = .next (emit (.mailbox (if (slotOf s n).attr ≠ attrRef ∨ (slotOf s n).cid ≠ cid.val then .keyAttrDenied
      else if halfKey (slotOf s n).active (slotOf s n).len = v then .ok else .dgstCompareFail) []) s)) ∧
  (∀ (n : Fin 4096) (s : State), s.orng.zeroized = false → gateOpen s 0 = true → (slotOf s n).state = .active →
    halfOk n 0 (slotOf s n).active = true →
    (opensSet n = true → (slotOf s (n + 1)).state = .active ∧ halfOk (n + 1) 0 (slotOf s (n + 1)).active = true) →
    exec (.keyCheckValue n) s = .next (emit (.mailbox .ok (keyCheckValueOf (halfKey (slotOf s n).active (slotOf s n).len ++
      (if opensSet n then halfKey (slotOf s (n + 1)).active (slotOf s (n + 1)).len else [])))) s)) ∧
  (∀ (n : Fin 4096) (cid : Fin 256) (v : Bytes) (s : State), s.orng.zeroized = false → gateOpen s 0 = true →
    (slotOf s n).state = .active → (slotOf s n).attr = attrRef → (slotOf s n).cid = cid.val → halfOk n 0 (slotOf s n).active = false →
    exec (.compare n cid v) s = .next (emit (.mailbox .keySlotBad []) (slotFail n false s))) ∧
  (∀ (n : Fin 4096) (cid : Fin 256) (b : Bool) (v : Bytes) (d : DeriveReq) (t : LoadTarget) (s : State), s.orng.zeroized = true →
    (∀ c ∈ [.blobLoad t v, .zeroise n cid, .compare n cid v, .keyCheckValue n], exec c s = .next (emit (.mailbox .keyZeroized []) s)) ∧
    exec (.blobExport n cid b) s = .next (emit (.mailbox (if 3248 ≤ n.val then .keyZeroized else .notPermitted) []) s) ∧
    exec (.derive d) s = .next (emit (.mailbox (if deriveRange d = true then .keyZeroized else .notPermitted) []) s))

/-- Loads, blobs, the entropy source and the bus keys (R240 to R246, R250 to R252, Table ORNG-8): a blob is taken into a free
working slot's pending half and serves only after its verification and commit; a failed verification clears the pending half;
only a working slot is exported, wrapped under a drawn IV; a block that fails its tests is counted, the third in succession
puts the DRBG in ERROR; a reseed takes a block, seeds CTR_DRBG and serves
what waited; a request that queued 250,000 ticks is refused; the bus keys are established
drop by drop. -/
def Obligations.LoadsEntropyAndBusKeys : Prop :=
  (∀ (cid : Fin 256) (attr : BitVec 5) (blob : Bytes) (s : State) (n : Nat), canonical s = true → s.orng.zeroized = false →
    gateOpen s 0 = true → (freeWorking 1 s) = [n] → drawReady s = true → checkSlot (blobKeySlot blob) s = s →
    ∃ u l, exec (.blobLoad (.working cid attr) blob) s = .next u ∧ u.orng.loads = s.orng.loads ++ [l] ∧ l.slots = [n] ∧ l.for_ = .blob ∧
      l.attrs = [attr] ∧ l.commitS = none ∧ (slotOf u n).pending = true ∧ (slotOf u n).state = .empty ∧ (slotOf u n).cid = cid.val ∧
      l.result = (openBlob blob (fun c a _ => decide (c = cid.val) && decide (a = attr) && true && (slotOf s n).group.isNone) s).1 ∧
      (∀ k, k ≠ n → slotOf u k = slotOf s k) ∧ u = { s with orng := { s.orng with slots := u.orng.slots, loads := u.orng.loads, dkey := u.orng.dkey, dv := u.orng.dv, requests := u.orng.requests } }) ∧
  (∀ (n : Fin 4096) (s : State) (l : KeyLoad), loadAt s n = some l → l.commitS = none → loadOutcome l s = .ok →
    exec (.keyLoadVerified n) s = .next { s with orng := { s.orng with loads := s.orng.loads.map (fun x =>
      if x = l then { x with commitS := some (s.tick + 1) } else x) } }) ∧
  (∀ (n : Fin 4096) (s : State) (l : KeyLoad), canonical s = true → loadAt s n = some l → l.commitS = none → l.for_ = .blob →
    l.slots = [n.val] → loadOutcome l s ≠ .ok → halfOk n 1 (slotOf s n).pend = true →
    ∃ u, exec (.keyLoadVerified n) s = .next u ∧ (slotOf u n).pending = false ∧ (slotOf u n).state = (slotOf s n).state ∧
      ((slotOf s n).state ≠ .empty → (slotOf u n).active = (slotOf s n).active) ∧ u.orng.blobFail = some s.tick ∧ l ∉ u.orng.loads ∧
      (∀ k, k ≠ n.val → slotOf u k = slotOf s k) ∧ u.ctxs = s.ctxs ∧ u.frames = s.frames) ∧
  (∀ (n : Fin 4096) (s : State) (l : KeyLoad), canonical s = true → roomAt s 0 = true → loadAt s n = some l → l.commitS = none →
    l.for_ = .blob → l.slots = [n.val] → halfOk n 1 (slotOf s n).pend = false →
    ∃ u, exec (.keyLoadVerified n) s = .next u ∧ (slotOf u n).state = .bad ∧ (slotOf u n).active = {} ∧ (slotOf u n).pending = false ∧
      u.orng.slotBad = some s.tick ∧ u.orng.blobFail = some s.tick ∧ recorded u 0 .keySlotBad = true ∧ l ∉ u.orng.loads ∧
      (∀ k, k ≠ n.val → slotOf u k = slotOf s k)) ∧
  (∀ (n : Fin 4096) (s : State) (l : KeyLoad) (t k : Nat) (a : BitVec 5), canonical s = true → loadAt s n = some l → l.commitS = some t →
    t < s.tick → l.for_ = .blob → l.slots = [n.val] → l.lens = [k] → l.attrs = [a] → k ≤ 64 →
    (slotOf s n).state = .empty →
    ∃ u, exec (.keyLoadCommit n) s = .next u ∧ (slotOf u n).state = .active ∧ (slotOf u n).attr = a ∧ (slotOf u n).len = k ∧
      (slotOf u n).pending = false ∧ halfKey (slotOf u n).active k = halfKey (slotOf s n).pend k ∧
      halfOk n 0 (slotOf u n).active = halfOk n 1 (slotOf s n).pend ∧ l ∉ u.orng.loads ∧
      (∀ x, x ≠ n.val → slotOf u x = slotOf s x) ∧ u.ctxs = s.ctxs ∧ u.frames = s.frames ∧ u.fence = s.fence) ∧
  (∀ (n : Fin 4096) (cid : Fin 256) (perBoot : Bool) (s : State) (kw : Bytes), canonical s = true → s.orng.zeroized = false →
    gateOpen s 0 = true → 3248 ≤ n.val → (slotOf s n).state = .active → (slotOf s n).cid = cid.val →
    halfOk n 0 (slotOf s n).active = true → deviceKey (if perBoot then 13 else 12) s = some kw →
    (drawReady s = true → ∃ u b, exec (.blobExport n cid perBoot) s = .next u ∧ newOuts s u = [.mailbox .ok b] ∧ u.orng.slots = s.orng.slots ∧
      leAt b 3 1 = cid.val ∧ slice b 12 12 = (drbg 12 s).1 ∧ u.orng.requests = s.orng.requests + 1 ∧
      u = { s with orng := { s.orng with dkey := u.orng.dkey, dv := u.orng.dv, requests := u.orng.requests }, outs := u.outs }) ∧
    (s.orng.ready = false → exec (.blobExport n cid perBoot) s = .next (emit (.mailbox .notPermitted []) s)) ∧
    (s.orng.ready = true → genWaits s = true → exec (.blobExport n cid perBoot) s = .next { s with
      orng := { s.orng with queue := s.orng.queue ++ [(s.tick, .exportBlob n cid perBoot)] } })) ∧
  (∀ (n : Fin 4096) (cid : Fin 256) (perBoot : Bool) (s : State), gateOpen s 0 = true → n.val < 3248 →
    exec (.blobExport n cid perBoot) s = .next (emit (.mailbox .notPermitted []) s)) ∧
  (∀ (raw : Bytes) (s : State), raw.length = 128 → s.orng.zeroized = false →
    (rctRun (rawBits raw) s.orng.runBit s.orng.runLen false).2.2 = false → aptFail (rawBits raw) = false →
    ∃ u, exec (.entropyBlock raw) s = .next u ∧ u.orng.failRun = 0 ∧
      u.orng.pool = (s.orng.pool ++ [hmac384 (zeros 48) raw]).drop (s.orng.pool.length + 1 - if s.orng.ready then 1 else 2) ∧
      u.orng.slots = s.orng.slots ∧ u = { s with orng := u.orng }) ∧
  (∀ (raw : Bytes) (s : State), canonical s = true → roomAt s 1 = true → raw.length = 128 → s.orng.zeroized = false →
    ((rctRun (rawBits raw) s.orng.runBit s.orng.runLen false).2.2 = true ∨ aptFail (rawBits raw) = true) →
    (s.orng.failRun < 2 ∨ s.orng.error = true ∨ s.orng.queue = []) →
    ∃ u, exec (.entropyBlock raw) s = .next u ∧ u.orng.entFail = some s.tick ∧ u.orng.failRun = s.orng.failRun + 1 ∧
      u.orng.pool = s.orng.pool ∧ u.orng.slots = s.orng.slots ∧
      (s.orng.failRun < 2 → u.orng.ready = s.orng.ready ∧ u.orng.error = s.orng.error ∧ u.splq = s.splq) ∧
      (2 ≤ s.orng.failRun → s.orng.error = false → u.orng.ready = false ∧ u.orng.error = true ∧ recorded u 1 .notPermitted = true)) ∧
  (∀ (s : State) (b : Bytes) (rest : List Bytes), s.orng.ready = true → reseedDue s = true → s.orng.pool = b :: rest →
    exec .drbgReseed s = .next (s.orng.queue.foldl (fun t q => serveGen q.2 t) { s with orng := { s.orng with
      pool := rest, queue := [], requests := 0, lastSeed := s.tick, reseeds := s.orng.reseeds + 1
      dkey := (drbgUpdate (seedMaterial b) s.orng.dkey s.orng.dv).1, dv := (drbgUpdate (seedMaterial b) s.orng.dkey s.orng.dv).2 } })) ∧
  (∀ (s : State) (t : Nat) (g : GenReq) (rest : List (Nat × GenReq)), s.orng.queue = (t, g) :: rest → t + 250000 ≤ s.tick →
    exec .generateQueueTimeout s = .next (refuseGen .busy g { s with orng := { s.orng with queue := rest } }) ∧
    ((∃ n c b, g = .exportBlob n c b) ∨ (∃ d, g = .derive d) ∨ (∃ x b, g = .load x b) →
      exec .generateQueueTimeout s = .next (emit (.mailbox .busy []) { s with orng := { s.orng with queue := rest } }))) ∧
  (∀ s : State, canonical s = true → isVerified s = true → s.boot.belvDone = true → s.orng.booting = false → s.orng.kbusReady = false →
    drawReady s = true → s.orng.zeroized = false →
    ∃ u pub, exec .kbusEstablish s = .next u ∧ pub = Config.ecdhPublic (drbg 48 s).1 ∧ (newOuts s u).length = 32 ∧
      (∀ d, d < 32 → .kbus d pub ∈ newOuts s u) ∧ u.orng.kbusPub = pub ∧ u.orng.booting = true ∧ (slotOf u 16).state = .active ∧
      (∀ k, k ≠ 16 → slotOf u k = slotOf s k) ∧ u.fence = s.fence ∧ u.gates = s.gates) ∧
  (∀ (n : Fin 32) (pub conf x sec : Bytes) (s : State), canonical s = true → s.orng.booting = true → s.orng.zeroized = false → drawReady s = true →
    s.orng.kbusUp.getLsbD n = false → (dropOf s n).attempts < 2 → deviceKey 16 s = some sec → Config.ecdhShared sec pub = some x →
    conf = kbusConf (kdf x (ascii "OCN-KBUS") (leNat 1 n ++ fit 32 s.belv.nonce) 256) n →
    s.orng.kbusUp ||| (1#32 <<< n.val) ≠ BitVec.allOnes 32 →
    ∃ u, exec (.kbusConfirmation n pub conf) s = .next u ∧ u.orng.kbusUp = s.orng.kbusUp ||| (1#32 <<< n.val) ∧
      (dropOf u n).key = some (kdf x (ascii "OCN-KBUS") (leNat 1 n ++ fit 32 s.belv.nonce) 256) ∧ (dropOf u n).last = 0 ∧
      (slotOf u (busSlot n)).state = .active ∧ (∀ k, k ≠ busSlot n → slotOf u k = slotOf s k) ∧
      (∀ k, k ≠ n.val → dropOf u k = dropOf s k) ∧ u.gates = s.gates ∧ u.outs = s.outs) ∧
  (∀ (n : Fin 32) (pub conf : Bytes) (s : State), canonical s = true → s.orng.booting = true → s.orng.zeroized = false → drawReady s = true →
    s.orng.kbusUp.getLsbD n = false → (dropOf s n).attempts < 2 → checkSlot 16 s = s →
    (deviceKey 16 s).bind (fun sec => Config.ecdhShared sec pub) = none →
    ∃ u, exec (.kbusConfirmation n pub conf) s = .next u ∧ (dropOf u n).attempts = (dropOf s n).attempts + 1 ∧
      u.orng.kbusUp = s.orng.kbusUp ∧ u.orng.slots = s.orng.slots ∧
      ((dropOf s n).attempts = 1 → u.orng.kbusFail = some s.tick ∧ u.outs = s.outs) ∧
      ((dropOf s n).attempts = 0 → newOuts s u = [.kbus n s.orng.kbusPub] ∧ u.orng.kbusFail = s.orng.kbusFail))

/-! ## Digest engines (11_digest_engines.md) -/

/-- Requests (R257 to R269): one that passes R259 with an engine free starts on the lowest free one, from the initial chaining
value; a malformed one is answered BAD_DESCRIPTOR and changes nothing; a keyed one is held while the key-use gate is closed and
answered KEY_ZEROIZED after a zeroisation; while UNIT_EN is clear the answer is BUSY (the model's choice: log 39). A finished
request answers the digest of its message, sets the compare pair, and frees its engine; a read that times out clears the
engine; a pre-empted hash is exported at its boundary to its export address and completes with DGST_PREEMPTED, its engine taken
by the request that pre-empts it. -/
def Obligations.DigestRequestsRunAndAnswer : Prop :=
  (∀ (requester : Fin 37) (addr : BitVec 26) (d : Bytes) (s : State) (r : DgReq) (e : Nat), canonical s = true →
    r = parseDg requester addr.toNat 0 d → r.op = 1 → (∀ x y, (dgOf s x).run = some y → y.preempt ≠ some r) → s.dgst.enabled = true → dgCheck r d s = .ok →
    s.dgst.queue = [] → freeDg s = some e → r.resume = false → dgReachOk r = true →
    ∃ u, exec (.digestHash requester ⟨addr, d⟩) s = .next u ∧
      (dgOf u e).run = some ⟨r, s.dgst.started, algInit r.alg, 0, [], none, s.tick⟩ ∧
      .digestPos requester (64 * addr.toNat) 0 ∈ newOuts s u ∧
      u.dgst.queue = [] ∧ u.dgst.started = s.dgst.started + 1 ∧ (∀ x, x ≠ e → dgOf u x = dgOf s x) ∧
      u = { s with dgst := u.dgst, outs := u.outs }) ∧
  (∀ (requester : Fin 37) (addr : BitVec 26) (cid : Fin 256) (d : Bytes) (s : State) (r : DgReq) (op : Nat) (key : Bytes) (e : Nat),
    canonical s = true → (op = 2 ∨ op = 3) → r = parseDg requester addr.toNat cid d → r.op = op →
    gateOpen s 0 = true → (∀ x y, (dgOf s x).run = some y → y.preempt ≠ some r) →
    s.dgst.enabled = true → dgCheck r d s = .ok → s.dgst.queue = [] → freeDg s = some e → r.resume = false → dgReachOk r = true →
    useSlot r.slot (dgAttr r) cid s = ((.ok, key), s) → s.dgst.cache = [] →
    ∃ u, (if op = 2 then exec (.hmacGen requester cid ⟨addr, d⟩) s else exec (.hmacCheck requester cid ⟨addr, d⟩) s) = .next u ∧
      (dgOf u e).run = some ⟨r, s.dgst.started, (hmacStates r.alg key).1, 0, (hmacStates r.alg key).2, none, s.tick⟩ ∧
      (∃ c ∈ u.dgst.cache, c.slot = r.slot) ∧ (∀ x, x ≠ e → dgOf u x = dgOf s x) ∧ u.orng = s.orng ∧
      u = { s with dgst := u.dgst, outs := u.outs }) ∧
  (∀ (requester : Fin 37) (addr : BitVec 26) (cid : Fin 256) (d : Bytes) (s : State) (r : DgReq) (st : Status),
    r = parseDg requester addr.toNat cid d →
    (st = .busy ∧ s.dgst.enabled = false ∨ st = dgCheck r d s ∧ st ≠ .ok ∧ s.dgst.enabled = true) →
    ((r.op = 1 ∨ r.op = 0 ∨ 3 < r.op) → exec (.digestHash requester ⟨addr, d⟩) s = .next (emit (.digest requester (64 * addr.toNat) st []) s)) ∧
    ((r.op = 2 ∨ r.op = 0 ∨ 3 < r.op) → exec (.hmacGen requester cid ⟨addr, d⟩) s = .next (emit (.digest requester (64 * addr.toNat) st []) s)) ∧
    ((r.op = 3 ∨ r.op = 0 ∨ 3 < r.op) → exec (.hmacCheck requester cid ⟨addr, d⟩) s = .next (emit (.digest requester (64 * addr.toNat) st []) s))) ∧
  (∀ (requester : Fin 37) (addr : BitVec 26) (cid : Fin 256) (d : Bytes) (s : State) (r : DgReq) (op : Nat),
    (op = 2 ∨ op = 3) → r = parseDg requester addr.toNat cid d → r.op = op → s.dgst.enabled = true → dgCheck r d s = .ok →
    s.orng.zeroized = false → gateOpen s 0 = false → (slotOf s r.slot).state = .active →
    (if op = 2 then exec (.hmacGen requester cid ⟨addr, d⟩) s else exec (.hmacCheck requester cid ⟨addr, d⟩) s) = .next s) ∧
  (∀ (requester : Fin 37) (addr : BitVec 26) (cid : Fin 256) (d : Bytes) (s : State) (r : DgReq) (op e : Nat), canonical s = true →
    (op = 2 ∨ op = 3) → r = parseDg requester addr.toNat cid d → r.op = op → s.dgst.enabled = true → dgCheck r d s = .ok →
    s.orng.zeroized = true → s.dgst.queue = [] → freeDg s = some e → r.extend = false →
    (∀ x y, (dgOf s x).run = some y → y.preempt ≠ some r) →
    ∃ u, (if op = 2 then exec (.hmacGen requester cid ⟨addr, d⟩) s else exec (.hmacCheck requester cid ⟨addr, d⟩) s) = .next u ∧
      .digest requester (64 * addr.toNat) .keyZeroized [] ∈ newOuts s u ∧ (∀ x, dgOf u x = dgOf s x) ∧ u.dgst.queue = []) ∧
  (∀ (r : DgReq) (d : Bytes) (s : State), r.op < 1 ∨ 3 < r.op → dgCheck r d s = .badDescriptor) ∧
  (∀ (e : Fin 4) (data expected : Bytes) (s : State) (run : DgRun), canonical s = true → (dgOf s e).run = some run →
    run.done + data.length = run.req.len → run.req.extend = false → s.dgst.queue = [] →
    ∃ u, exec (.digestDone e data expected) s = .next u ∧ (dgOf u e).run = none ∧
      newOuts s u = [.digest run.req.requester run.req.desc (if (run.req.compare || decide (run.req.op = 3)) = true ∧ finalDigest run data ≠ expected then .dgstCompareFail
        else .ok) (finalDigest run data)] ∧
      ((run.req.compare = true ∨ run.req.op = 3) → finalDigest run data = expected → (dgOf u e).cmpA = 0x5a ∧ (dgOf u e).cmpB = 0xa5) ∧
      ((run.req.compare = true ∨ run.req.op = 3) → finalDigest run data ≠ expected →
        (dgOf u e).cmpA = 0xa5 ∧ (dgOf u e).cmpB = 0x5a ∧ (dgOf u e).cmpFail = some s.tick) ∧
      (run.req.compare = false → run.req.op ≠ 3 → (dgOf u e).cmpA = (dgOf s e).cmpA ∧ (dgOf u e).cmpB = (dgOf s e).cmpB) ∧
      (∀ x, x ≠ e.val → dgOf u x = dgOf s x) ∧ u = { s with dgst := u.dgst, outs := u.outs }) ∧
  (∀ (e : Fin 4) (s : State) (run : DgRun), canonical s = true → (dgOf s e).run = some run → s.dgst.queue = [] →
    (s.tick < run.since + 2500 → exec (.dgstReadTimeout e) s = .next s) ∧ (run.since + 2500 ≤ s.tick →
    ∃ u, exec (.dgstReadTimeout e) s = .next u ∧ newOuts s u = [.digest run.req.requester run.req.desc .timeout []] ∧
      dgOf u e = { dgOf s e with run := none, cmpA := 0, cmpB := 0, errClear := some s.tick } ∧
      (∀ x, x ≠ e.val → dgOf u x = dgOf s x) ∧ u = { s with dgst := u.dgst, outs := u.outs })) ∧
  (∀ (e : Fin 4) (processed : Bytes) (s : State) (run : DgRun) (q : DgReq), canonical s = true → (dgOf s e).run = some run →
    run.preempt = some q → s.dgst.queue = [q] → q.op = 1 → q.resume = false → (q.extend && s.belv.ready) = false →
    (∀ x y, x ≠ e.val → (dgOf s x).run = some y → y.preempt ≠ some q) → dgReachOk q = true →
    run.req.op = 1 → processed.length % 128 = 0 → run.done + processed.length < run.req.len →
    ∃ u, exec (.dgstPreempted e processed) s = .next u ∧
      (dgOf u e).run = some ⟨q, s.dgst.started, algInit q.alg, 0, [], none, s.tick⟩ ∧ (dgOf u e).preempted = some s.tick ∧
      newOuts s u = [.digestExport run.req.requester run.req.export_ (exportRecord { run with
          chain := algAbsorb run.req.alg run.chain processed, done := run.done + processed.length }
          (algAbsorb run.req.alg run.chain processed) (algAbsorb run.req.alg run.chain processed).length),
        .digest run.req.requester run.req.desc .dgstPreempted [], .digestPos q.requester q.desc 0] ∧ u.dgst.queue = [] ∧
      (∀ x, x ≠ e.val → dgOf u x = dgOf s x) ∧ u = { s with dgst := u.dgst, outs := u.outs }) ∧
  (∀ (m : Fin 39) (v : Word) (s : State), s.dgst.queue = [] → writeReach m 0x30404 = true →
    exec (.unitEn m v) s = .next { s with dgst := { s.dgst with enabled := v.getLsbD 0 } })

/-! ## OTP and life cycle (12_otp_and_lifecycle.md) -/

/-- The controller is free to take a command from the Gatehouse: the OTP-programming gate is open, no command runs, no tamper, no
supply alarm, both supplies in their windows (R282, R283). -/
def otpReady (v : Supplies) (s : State) : Bool :=
  gateOpen s 5 && s.otp.cmd.isNone && !s.pav.tamper && s.pav.supply.isNone && suppliesOk v

/-- Controller commands (R270 to R293). PROGRAM, LOCK, THERMO_ADVANCE, GEN_UDS and LCYC_ADVANCE, permitted, begin to burn exactly
the bits the manual gives; each is refused with its status, burning nothing, where Tables OTP-6 and OTP-8 do not permit it. A pulse
burns the bits that verify; the last word's success ends the command with OK, a third failure with OTP_MARGINAL; a supply that
leaves its window stops it. A completed transition is PENDING and a block reset follows 2,500 ticks later; one to Returned erases the
settings and owner-records regions first (the model's reading: log 149). -/
def Obligations.ControllerBurnsWhatIsPermitted : Prop :=
  (∀ (m : Fin 39) (w : Fin 2048) (v : Supplies) (s : State) (r : Nat), writeReach m 0x40008 = true → otpReady v s = true →
    regionOfWord w = some r → w.val ≠ (otpRegion r).digest → arrayLocked s (otpRegion r).lock = false → arrayWord s w = 0 →
    (s.otp.state = 0 ∨ (s.otp.state = 1 ∧ r ≠ 0)) →
    exec (.program m w v) s = .next { s with otp := { s.otp with cmd := some ⟨[(w.val, otpEncode s.otp.wdata)], 0, .command, .none⟩ } }) ∧
  (∀ (m : Fin 39) (w : Fin 2048) (v : Supplies) (s : State), writeReach m 0x40008 = true → otpReady v s = true →
    (regionOfWord w = none ∨ (∃ r, regionOfWord w = some r ∧ arrayLocked s (otpRegion r).lock = true) ∨ 2 ≤ s.otp.state ∨
      (∃ d, w.val ≠ 95 ∧ w.val ≠ 130 ∧ w.val ≠ 156 ∧ arrayWord s w ≠ 0 ∧ otpDecode (arrayWord s w) = some d)) →
    exec (.program m w v) s = .next { s with otp := { s.otp with cmdStatus := statusCode .notPermitted, cmdPulses := 0 } }) ∧
  (∀ (m : Fin 39) (r : Fin 2048) (v : Supplies) (reads : List SensedWord) (s : State), writeReach m 0x40008 = true → otpReady v s = true → r.val ≤ 2 →
    arrayLocked s (otpRegion r).lock = false → (s.otp.state = 0 ∨ (s.otp.state = 1 ∧ r.val ≠ 0)) →
    (regionComplete (rereadVal reads s) (otpRegion r) = true →
      exec (.lock m r ⟨v, reads⟩) s = .next { s with otp := { s.otp with cmd := some ⟨neededBurns s [((otpRegion r).lock, 0xffffffff)], 0, .command, .none⟩ } }) ∧
    (regionComplete (rereadVal reads s) (otpRegion r) = false →
      exec (.lock m r ⟨v, reads⟩) s = .next { s with otp := { s.otp with
        lockRefused := raise s.tick s.otp.lockRefused, cmdStatus := statusCode .otpLockIncomplete, cmdPulses := 0 } })) ∧
  (∀ (m : Fin 39) (c : Fin 2048) (v : Supplies) (s : State), writeReach m 0x40008 = true → otpReady v s = true →
    (s.otp.state < 4 → c.val ≤ 3 → thermoNow s c < 128 → arrayLocked s 63 = false →
      exec (.thermoAdvance m c v) s = .next { s with otp := { s.otp with cmd := some ⟨neededBurns s (thermoBurns s c), 0, .command, .none⟩ } }) ∧
    ((4 ≤ s.otp.state ∨ 3 < c.val ∨ thermoNow s c = 128 ∨ arrayLocked s 63 = true) →
      exec (.thermoAdvance m c v) s = .next { s with otp := { s.otp with cmdStatus := statusCode .notPermitted, cmdPulses := 0 } })) ∧
  (∀ (m : Fin 39) (v : Supplies) (s : State), writeReach m 0x40008 = true → otpReady v s = true → s.otp.state = 0 →
    arrayLocked s 127 = false → (∀ x, x < 16 → arrayWord s (64 + x) = 0) → drawReady s = true →
    ∃ u c, exec (.genUds m v) s = .next u ∧ u.otp.cmd = some c ∧ c.pulses = 0 ∧ c.burns.map (·.1) = (List.range 16).map (64 + ·) ∧
      c.burns.map (·.2) = (List.range 16).map (fun i => otpEncode (word (leAt (drbg 64 s).1 (4 * i) 4))) ∧
      u = { s with otp := { s.otp with cmd := u.otp.cmd }, orng := { s.orng with dkey := u.orng.dkey, dv := u.orng.dv, requests := u.orng.requests } }) ∧
  (∀ (m : Fin 39) (h : MgmtHdr) (x : Fin 2048) (v : Supplies) (s : State), writeReach m 0x40008 = true → otpReady v s = true →
    (advanceCheck (eraseOwner x s) x = none → neededBurns s (advanceBurns s x) ≠ [] →
      exec (.lcycAdvance m x v) s = .next { eraseOwner x s with otp := { s.otp with cmd := some ⟨neededBurns s (advanceBurns s x), 0, .advance x, .none⟩ } } ∧
      (mgmtOk h s = true → ∃ u, exec (.mgmtLcycAdvance h x v) s = .next u ∧
        u.otp = { s.otp with cmd := some ⟨neededBurns s (advanceBurns s x), 0, .advance x, .mgmt h.tag⟩ } ∧
        u = { eraseOwner x s with otp := u.otp, mgmt := u.mgmt, sund := u.sund, band := heard h.assoc s })) ∧
    (∀ st, advanceCheck (eraseOwner x s) x = some st →
      exec (.lcycAdvance m x v) s = .next { eraseOwner x s with otp := { s.otp with cmdStatus := statusCode st, cmdPulses := 0 } } ∧
      (mgmtOk h s = true → ∃ u, exec (.mgmtLcycAdvance h x v) s = .next u ∧ replied s u h st = true ∧ u.otp.cmd = none ∧ u.otp.array = s.otp.array))) ∧
  (∀ (m : Fin 39) (v : Supplies) (s : State), writeReach m 0x40008 = true → otpReady v s = true → canonical s = true → s.otp.state = 2 →
    (∀ c, (ctxOf s c).state = .free) → gateOpen s 6 = true →
    ∃ u, exec (.lcycAdvance m 3 v) s = .next u ∧ (∀ a, 0x08100000 ≤ a → a < 0x08600000 → mapGet 0xff u.flash a = 0xff) ∧
      (∀ a, (a < 0x08100000 ∨ 0x08600000 ≤ a) → mapGet 0xff u.flash a = mapGet 0xff s.flash a) ∧ u.otp.array = s.otp.array ∧
      (thermoNow s 1 < 128 → thermoNow s 2 < 128 → ∃ c, u.otp.cmd = some c ∧ c.for_ = .advance 3)) ∧
  (∀ (failed : BitVec 40) (s : State) (c : OtpCmd) (w : Nat) (b : BitVec 40) (rest : List (Nat × BitVec 40)), s.otp.cmd = some c →
    c.burns = (w, b) :: rest → c.waiter = .none → s.otp.repairAt = none →
    ∃ u, exec (.otpPulseEnd failed) s = .next u ∧
      u.otp.array = mapMod 0 s.otp.array w (· ||| (b &&& ~~~failed)) ∧
      (b &&& failed = 0 → rest ≠ [] → u.otp.cmd = some { c with burns := rest, pulses := 0 } ∧ u = { s with otp := u.otp }) ∧
      (b &&& failed = 0 → rest = [] → u.otp.cmd = none ∧ u.otp.cmdStatus = statusCode .ok ∧
        (c.for_ = .command → u = { s with otp := u.otp }) ∧
        (∀ x, c.for_ = .advance x → u.otp.pending = x ∧ u.otp.state = s.otp.state ∧ (s.tick + 2500, ResetCause.lifeCycle) ∈ u.pav.delayed ∧
          u = { s with otp := u.otp, pav := u.pav })) ∧
      (b &&& failed ≠ 0 → c.pulses < 2 → u.otp.cmd = some { c with burns := (w, b &&& failed) :: rest, pulses := c.pulses + 1 } ∧ u = { s with otp := u.otp }) ∧
      (b &&& failed ≠ 0 → 2 ≤ c.pulses → u.otp.cmd = none ∧ u.otp.cmdStatus = statusCode .otpMarginal ∧
        u.otp.verifyFail = raise s.tick s.otp.verifyFail ∧ u = { s with otp := u.otp })) ∧
  (∀ (v : Supplies) (burned : BitVec 40) (s : State) (c : OtpCmd) (w : Nat) (b : BitVec 40) (rest : List (Nat × BitVec 40)), s.otp.cmd = some c →
    c.burns = (w, b) :: rest → c.waiter = .none → s.otp.repairAt = none → suppliesOk v = false →
    ∃ u, exec (.programmingSupplyAbort v burned) s = .next u ∧ u.otp.cmd = none ∧ u.otp.cmdStatus = statusCode .otpSupplyWindow ∧
      u.otp.supplyAbort = raise s.tick s.otp.supplyAbort ∧ u.otp.array = mapMod 0 s.otp.array w (· ||| (b &&& burned)) ∧ u = { s with otp := u.otp }) ∧
  (∀ (m : Fin 39) (e : Fin 16) (w : BitVec 11) (valid : Bool) (value : Word) (s : State), writeReach m (0x40100 + 8 * e.val) = true →
    (s.otp.sensed = true → s.otp.state ≤ 1 → s.belv.ready = false → mapWf (zeros 48) s.belv.mr = true →
      (128 ≤ w.toNat ∧ w.toNat ≤ 129) ∨ (144 ≤ w.toNat ∧ w.toNat ≤ 155) →
      ∃ u, exec (.overrideWrite m e w valid value) s = .next u ∧ u.otp.ovr = mapSet {} s.otp.ovr e ⟨w, valid, value⟩ ∧
        mrOf u 1 = sha384 (mrOf s 1 ++ (leBv 2 w ++ leBv 4 value ++ zeros 42)) ∧ (∀ r, r ≠ 1 → mrOf u r = mrOf s r) ∧
        u = { s with otp := { s.otp with ovr := u.otp.ovr }, belv := { s.belv with mr := u.belv.mr, log := u.belv.log } }) ∧
    (2 ≤ s.otp.state ∨ s.belv.ready = true ∨ w.toNat < 128 ∨ (129 < w.toNat ∧ w.toNat < 144) ∨ 155 < w.toNat →
      ∃ u, exec (.overrideWrite m e w valid value) s = .next u ∧ u.otp = s.otp ∧ u.belv = s.belv ∧
        (roomAt s 0 = true → mapGet 0 s.pav.notPerm m ≤ s.tick → recorded u 0 .notPermitted = true))) ∧
  (∀ (reads : List SensedWord) (s : State), s.boot.romDone = true → s.otp.sensed = false → s.otp.cmd = none →
    repairOf reads (senseAll reads s) = none → canonical s = true →
    ∃ u, exec (.otpSensingDone reads) s = .next u ∧ u.otp.sensed = true ∧ u.boot.phase = 2 ∧
      u.otp.state = (lcVote (senseAll reads s)).1 ∧ u.otp.agree = (lcVote (senseAll reads s)).2 ∧ u.otp.array = s.otp.array ∧
      u.otp.shadow = (senseAll reads s).otp.shadow ∧ u.otp.cmd = none ∧ u.flash = s.flash ∧
      ((lcVote (senseAll reads s)).1 = 5 → roomAt s 1 = true → recorded u 1 .lcycInvalid = true)) ∧
  (∀ (reads : List SensedWord) (s : State) (c x : Nat), s.boot.romDone = true → s.otp.sensed = false → s.otp.cmd = none →
    repairOf reads (senseAll reads s) = some (c, x) →
    ∃ u, exec (.otpSensingDone reads) s = .next u ∧ u.otp.sensed = false ∧ u.otp.repairAt = some c ∧
      u.otp.cmd = some ⟨[(c, copyTarget x &&& ~~~((readsOf reads s c).1 &&& (readsOf reads s c).2))], 0, .command, .none⟩ ∧
      u.otp.repairReads = readsOf reads s c ∧ u.otp.array = s.otp.array ∧
      u = { s with otp := u.otp })

/-! ## Gatehouse boot (13_gatehouse_boot.md) -/

/-- What a boot restart leaves of `s` for a failed attempt with a status (R307): everything a block reset clears is cleared,
BOOT_ATTEMPT keeps the failed slot, its status and the count, and BOOT_READY_TIME goes on counting. -/
def restartedAfter (st : Status) (s t : State) : Bool :=
  decide (t = { keptByBlockReset .bootRestart s with boot := t.boot }) && decide (t.boot.excluded = s.boot.excluded ||| (1#2 <<< s.boot.slot.getD 0)) &&
  decide (t.boot.attempts = min 2 (s.boot.attempts + 1)) && decide (t.boot.lastFail = statusCode st) && decide (t.boot.fails = mapSet .ok s.boot.fails (s.boot.slot.getD 0) st) &&
  decide (t.boot.failSlot = s.boot.slot.getD 0) && t.boot.restarted && decide (t.boot.fallback = some 0) && decide (t.boot.phase = 0) &&
  decide (t.boot.verA = 0) && decide (t.boot.verB = 0) && decide (t.boot.before = s.boot.before + s.tick)

/-- MR `r` has been extended with `d`, and no other measurement register has changed (R216). -/
def extended (r : Nat) (d : Bytes) (s t : State) : Prop :=
  mrOf t r = sha384 (mrOf s r ++ fit 48 d) ∧ ∀ x, x ≠ r → mrOf t x = mrOf s x

/-- Boot up to VERIFIED and its failures (R295 to R311): the ROM measures itself into MR0; the DRBG loads the device keys and seeds
every generation; selection takes the better slot that passes Table BOOT-7; each part's digest goes into its MR and DGST0's pair, and
its resident bytes stand in their place, a mismatch clears both verification registers; VERIFIED opens gates 0 and 1 where they may open; a failed attempt, a timeout and a
missing FREEZE restart the boot with the slot excluded (the earliest tick of the read timeout: log 153); a deferred check sets the pair of an engine (which: log 143), its mismatch fails the attempt or the dies of a TYPE 5 part; FREEZE
extends MR8 once, after control firmware has streamed. -/
def Obligations.BootChoosesMeasuresAndVerifies : Prop :=
  (∀ s : State, s.boot.romDone = false → s.belv.ready = false → mapWf (zeros 48) s.belv.mr = true →
    ∃ u, exec .bootRomStart s = .next u ∧ extended 0 Config.romDigest s u ∧
      u = { s with boot := { s.boot with romDone := true, phase := 1 }, belv := { s.belv with mr := u.belv.mr, log := u.belv.log } }) ∧
  (∀ s : State, canonical s = true → s.otp.sensed = true → 2 ≤ s.orng.blocks → s.orng.ready = false → s.orng.error = false → s.orng.zeroized = false →
    ∃ u, exec .drbgReady s = .next u ∧ u.orng.ready = true ∧ u.orng.blocks = s.orng.blocks - 2 ∧ u.orng.maskStart = some s.tick ∧
      u.orng.pool = s.orng.pool.drop 2 ∧ u.orng.lastSeed = s.tick ∧
      u.belv.identOk = identComplete s ∧ u.belv.publicOnly = decide (publicReason s ≠ 0) ∧
      (∀ k, k ∈ [8, 9, 10, 11, 13, 14, 15] → (slotOf u k).state = .active) ∧
      ((slotOf u 0).state = .active ↔ identComplete s = true ∨ (slotOf s 0).state = .active) ∧
      (∀ k, 16 ≤ k → slotOf u k = slotOf s k) ∧
      (∀ c, 1 ≤ c → c ≤ 254 → (ctxOf u c).gen ≠ 0 ∧ ctxOf u c = { ctxOf s c with gen := (ctxOf u c).gen }) ∧
      (∀ j, j < 256 → (jobOf u j).gen ≠ 0) ∧ (∀ d, d < 32 → (dieOf u d).gen ≠ 0) ∧
      u.otp = s.otp ∧ u.flash = s.flash ∧ u.gates = s.gates ∧ u.boot = s.boot ∧ u.outs = s.outs) ∧
  (∀ s : State, s.boot.phase = 2 → s.orng.ready = true → s.boot.noImage = false → s.pav.tamper = false → s.orng.error = false →
    mapWf (zeros 48) s.belv.mr = true → canonical s = true → checkSlot 14 s = s → checkSlot 15 s = s →
    ∃ (u : State) (q : State) (a b : Status) (pick : Option Nat), q = { s with logv := scanLog s } ∧ a = slotStatus q 0 ∧ b = slotStatus q 1 ∧
      pick = chooseSlot q a b ∧ exec .slotSelection s = .next u ∧ u.boot.slot = pick ∧ u.boot.statusA = a ∧ u.boot.statusB = b ∧
      u.boot.phase = (if pick.isSome then 3 else 2) ∧ u.boot.noImage = pick.isNone ∧ u.boot.floor = (floorOf q).1 ∧ u.boot.xspi = some (xspiMode s) ∧
      (∀ x, x ≠ 1 → mrOf u x = mrOf s x) ∧ u.gates = s.gates ∧ u.otp = s.otp ∧ u.orng = s.orng ∧
      (pick = none → u.flash = s.flash ∧ (roomAt s 0 = true → recorded u 0 .bootNoImage = true))) ∧
  (∀ (s : State) (a b : Status),
    (a ≠ .ok → b ≠ .ok → chooseSlot s a b = none) ∧ (b ≠ .ok → chooseSlot s .ok b = some 0) ∧ (a ≠ .ok → chooseSlot s a .ok = some 1) ∧
    (headerSeq (slotHeader s 1) < headerSeq (slotHeader s 0) → chooseSlot s .ok .ok = some 0) ∧
    (headerSeq (slotHeader s 0) < headerSeq (slotHeader s 1) → chooseSlot s .ok .ok = some 1) ∧
    (slotRank s 0 = slotRank s 1 → chooseSlot s .ok .ok = some 0)) ∧
  (∀ (s : State) (n : Nat), (s.boot.excluded.getLsbD n = true ∨ slotRecord s n = none ∨ headerSvn (slotHeader s n) < (floorOf s).1) →
    slotStatus s n ≠ .ok) ∧
  (∀ (s : State) (p : PartEntry) (k : Nat), s.boot.phase = 3 → k = s.boot.parts.length → k < 4 → s.boot.failed = none → s.belv.ready = false →
    s.orng.error = false → s.dgst.cut0 = false → partOfType (slotHeader s (s.boot.slot.getD 0)) (k + 1) = some p → mapWf (zeros 48) s.belv.mr = true → canonical s = true →
    ∃ u dg im, dg = sha384 (imgPartBytes s (s.boot.slot.getD 0) p) ∧
      im = mapSet [] s.boot.images (k + 1) ((imgPartBytes s (s.boot.slot.getD 0) p).take p.resident) ∧ exec .dgst0ImageEnd s = .next u ∧ extended (k + 2) dg s u ∧
      (dg = p.digest → u.boot = { s.boot with parts := s.boot.parts ++ [true], images := im } ∧ (dgOf u 0).cmpA = 0x5a ∧ (dgOf u 0).cmpB = 0xa5) ∧
      (dg ≠ p.digest → u.boot = { s.boot with parts := s.boot.parts ++ [false], images := im, verA := 0, verB := 0, failed := some .dgstCompareFail } ∧
        (dgOf u 0).cmpA = 0xa5 ∧ (dgOf u 0).cmpB = 0x5a) ∧
      (∀ e, e ≠ 0 → dgOf u e = dgOf s e) ∧
      u = { s with boot := u.boot, dgst := u.dgst, grnh := u.grnh, belv := { s.belv with mr := u.belv.mr, log := u.belv.log } }) ∧
  (∀ s : State, s.boot.phase = 3 → s.boot.parts.length < 4 → s.boot.failed = none → s.orng.error = false → s.dgst.cut0 = true →
    exec .dgst0ImageEnd s = .next { s with boot := { s.boot with verA := 0, verB := 0, failed := some .dgstCompareFail } }) ∧
  (∀ (s : State) (h : Bytes), s.boot.phase = 3 → s.boot.failed = none → s.boot.parts.length = 4 → noRestart s = false →
    h = slotHeader s (s.boot.slot.getD 0) →
    (headerSigned s h = true → attemptLate s = false →
      ∃ u, exec .verified s = .next u ∧ u.boot = { s.boot with verA := 0x5a, verB := 0xa5, phase := 4, deferred := deferredParts h
                                                               dieParts := heldParts h, settings := settingsNow s, ownSettings := settingsNow s } ∧
        u.grnh.verified = true ∧
        u.gates = s.gates ||| ((if s.orng.kbusReady then 3#8 else 1#8) &&& gatesAllowed s) ∧ u.otp = s.otp ∧ u.flash = s.flash ∧
        (s.orng.kbusReady = false → u.orng = s.orng ∧ u.outs = s.outs) ∧
        ((∀ k, k < 64 → (slotOf s k).state = .active → halfOk k 0 (slotOf s k).active = true) → u.orng.slots = s.orng.slots)) ∧
    (headerSigned s h = true → attemptLate s = true →
      exec .verified s = .next { s with boot := { s.boot with verA := 0, verB := 0, failed := some .timeout } }) ∧
    (headerSigned s h = false →
      exec .verified s = .next { s with boot := { s.boot with verA := 0, verB := 0, failed := some .bootSlotInvalid } })) ∧
  (∀ (s : State) (st : Status), s.boot.failed = some st → noRestart s = true → exec .bootAttemptFail s = .next s) ∧
  (∀ s : State, noRestart s = false →
    (∀ st, s.boot.failed = some st → ∃ u, exec .bootAttemptFail s = .next u ∧ restartedAfter st s u = true) ∧
    (readsFlash s = true → s.boot.attemptAt + 2500 ≤ s.tick →
      ∃ u, exec .bootAttemptTimeout s = .next u ∧ restartedAfter (s.boot.failed.getD .timeout) s u = true) ∧
    (s.tick < s.boot.attemptAt + 2500 → exec .bootAttemptTimeout s = .next s) ∧
    ((s.boot.phase = 3 ∨ s.boot.phase = 4) → s.boot.frozen = false → s.boot.attemptAt + 8750000 ≤ s.tick →
      ∃ u, exec .freezeTimeout s = .next u ∧ restartedAfter .timeout s u = true)) ∧
  (∀ (n : Fin 16) (s : State) (p : PartEntry) (k : Nat), canonical s = true → gateOpen s 1 = true → s.boot.deferred.contains n.val = true →
    s.pav.tamper = false → s.dgst.enabled = true → p = partEntry (slotHeader s (s.boot.slot.getD 0)) n → k = checkEngine s →
    ∃ u same, exec (.deferredCheckDone n) s = .next u ∧ same = decide (sha384 (deferredBytes s p) = (if p.type = 5 then p.digest else p.defer)) ∧
      u = { s with boot := u.boot, dgst := u.dgst, dies := u.dies } ∧
      u.boot.deferred = s.boot.deferred.filter (· != n.val) ∧ u.boot.dieParts = s.boot.dieParts.filter (fun x => x.1 != n.val) ∧
      (dgOf u k).cmpA = (if same then 0x5a else 0xa5) ∧ (dgOf u k).cmpB = (if same then 0xa5 else 0x5a) ∧ (∀ e, e ≠ k → dgOf u e = dgOf s e) ∧
      (same = true → u.boot.failed = s.boot.failed ∧ u.boot.copies = mapSet [] s.boot.copies n (deferredBytes s p)) ∧
      (same = true → p.type = 5 → gateOpen s 7 = true → ∀ d, d < 32 → (dieOf s d).state = .held → (dieOf s d).releasedAt = none →
        ((s.boot.dieParts.filter (fun x => x.1 != n.val)).any (fun x => x.2.contains d) = false → (dieOf u d).releasedAt = some s.tick) ∧
        ((s.boot.dieParts.filter (fun x => x.1 != n.val)).any (fun x => x.2.contains d) = true → dieOf u d = dieOf s d)) ∧
      (p.type ≠ 5 → u.dies = s.dies) ∧
      (same = false → p.type ≠ 5 → u.boot.failed.isSome = true ∧ u.boot.verA = 0 ∧ u.boot.verB = 0) ∧
      (same = false → p.type = 5 → u.boot.failed = s.boot.failed ∧
        (∀ d, d ∈ targetDies p → (dieOf u d).state = .failed ∧ (dieOf u d).rstN = false) ∧ (∀ d, d ∉ targetDies p → dieOf u d = dieOf s d))) ∧
  (∀ (m : Fin 39) (v : Word) (s : State), writeReach m 0x5002C = true → s.belv.ready = false → mapWf (zeros 48) s.belv.mr = true →
    (s.boot.frozen = false → v.getLsbD 0 = true → 2 ≤ s.boot.parts.length →
      ∃ u, exec (.freeze m v) s = .next u ∧ extended 8 (policyRecord s) s u ∧
        u = { s with boot := { s.boot with frozen := true }, link := { s.link with frozen := some (trustedInForce s, plainInForce s) }, belv := { s.belv with mr := u.belv.mr, log := u.belv.log } }) ∧
    ((s.boot.frozen = true ∨ v.getLsbD 0 = false ∨ s.boot.parts.length < 2) → exec (.freeze m v) s = .next s))

/-- The end of the boot and the Potting Shed (R230, R311, R333 to R335): the Belvedere sequence leaves the alias and encapsulation
keys; READY drops the DeviceID keys, the alias certificate signed, opens gates 2 to 7 where they may open and arms every HELD die that no part
holds back; a pending activation is completed in its place (log 152); with no slot the Potting
Shed or HALT is entered; ANNOUNCE, DATA and END write slot A for one sender, and a good image restarts the boot. -/
def Obligations.ReadyOpensTheGatesOrThePottingShedServes : Prop :=
  (∀ s : State, canonical s = true → s.boot.parts.length = 4 → s.boot.belvDone = false → s.orng.zeroized = false → s.belv.ready = false →
    mapWf (zeros 48) s.belv.mr = true → (s.belv.publicOnly = false → gateOpen s 0 = true ∧ drawReady s = true) →
    ∃ u, exec .belvedereSequenceDone s = .next u ∧ u.boot = { s.boot with belvDone := true } ∧ (∀ x, x ≠ 1 → mrOf u x = mrOf s x) ∧
      u.belv.log.length = s.belv.log.length + 1 ∧ u.gates = s.gates ∧ u.otp = s.otp ∧ u.flash = s.flash ∧ u.ctxs = s.ctxs ∧
      (s.belv.publicOnly = true → u.orng = s.orng ∧ u.outs = s.outs) ∧
      (s.belv.publicOnly = false → (∀ k, k < 64 → (slotOf s k).state = .active → halfOk k 0 (slotOf s k).active = true) → (slotOf s 1).state = .active →
        (∀ k, k ∈ [4, 5, 6, 7] → (slotOf u k).state = .active ∧ (slotOf u k).cid = 0) ∧
        (∀ k, k ∉ [4, 5, 6, 7] → slotOf u k = slotOf s k) ∧ u.belv.ecdhPub.length = 97 ∧ u.outs = s.outs)) ∧
  (∀ (s : State) (r : LogRec), readyDue s = true → bootWrites s = true → pendingActivation s = some r →
    ∃ u, exec .ready s = .next u ∧ u.belv.ready = false ∧ u.gates = s.gates ∧ u.updt.hold = true ∧ u.updt.activating = true ∧
      (s.tick + 2500, ResetCause.activation) ∈ u.pav.delayed) ∧
  (∀ s : State, canonical s = true → readyDue s = true → (bootWrites s = true → pendingActivation s = none) →
    ∃ u, exec .ready s = .next u ∧ u.belv.ready = true ∧ u.boot.phase = 5 ∧
      u.gates = s.gates ||| ((if s.grnh.verified then 0xfc#8 else 0x7c#8) &&& gatesAllowed s) ∧ u.host.ready = gateOpen u 2 ∧
      u.boot.readyUs = min 0xffff ((s.boot.before + s.tick) / 250) ∧ u.otp.array = s.otp.array ∧ u.belv.mr = s.belv.mr ∧
      (∀ f, f ∈ reservedFrames s → frameOf u f = { owner := 0, cls := .device }) ∧
      (∀ d, d < 32 → gateOpen u 7 = true → gateOpen u 1 = true → (dieOf s d).state = .held → (dieOf s d).releasedAt = none → heldBack s d = false →
        (dieOf u d).releasedAt = some s.tick) ∧
      (s.belv.publicOnly = true → u.belv.aliasCert = s.belv.aliasCert) ∧
      (s.belv.publicOnly = false → (∀ k, k < 64 → (slotOf s k).state = .active → halfOk k 0 (slotOf s k).active = true) → (∀ e, (engOf s e).up = false) → s.orng.loads = [] → runningDg s = [] →
        (∀ k, k ∈ [1, 2, 3] → (slotOf u k).state = .empty) ∧ (∀ k, k ∉ [1, 2, 3] → slotOf u k = slotOf s k) ∧
        (∀ a b, deviceKey 2 s = some a → deviceKey 3 s = some b →
          u.belv.aliasCert = certificate a b (layerKeys s 4) (aliasFields s)))) ∧
  (∀ s : State, s.boot.phase = 2 → s.boot.noImage = true →
    (shedOff s = false → s.otp.state < 4 → ∃ u, exec .pottingShed s = .next u ∧ u.boot.phase = 6 ∧ u.boot.shed.active = true ∧ u = { s with boot := u.boot }) ∧
    ((shedOff s = true ∨ 4 ≤ s.otp.state) → exec .pottingShed s = .next { s with boot := { s.boot with phase := 7 } })) ∧
  (∀ s : State, s.boot.phase = 6 → s.boot.shed.mac = none → s.boot.shed.announced + 250000000 ≤ s.tick →
    ∃ u p, exec .announce s = .next u ∧ newOuts s u = [.ethernet 0xFFFFFFFFFFFF 0x88B5 p] ∧ p.take 3 = ascii "PS" ++ [1] ∧ 46 ≤ p.length ∧ slice p 16 48 = unitDigest s ∧
      u.boot.shed.announced = s.tick ∧ u = { s with boot := u.boot, outs := u.outs }) ∧
  (∀ (mac : BitVec 48) (off : Nat) (data : Bytes) (s : State), s.boot.phase ≠ 6 → s.pav.tamper = false → s.pav.supply = none →
    exec (.pottingData mac off data) s = .next { s with band := { s.band with cntDrop := satAdd s.band.cntDrop 1, rxDrop := raise s.tick s.band.rxDrop } }) ∧
  (∀ (mac : BitVec 48) (off : Nat) (data : Bytes) (s : State), s.boot.phase = 6 → s.pav.tamper = false → s.pav.supply = none →
    (s.boot.shed.mac = some mac → off = s.boot.shed.written → data.length ≤ 1024 → off + data.length ≤ 0x4000000 →
      ∃ u p, exec (.pottingData mac off data) s = .next u ∧ u.flash = flashPut (0x100000 + off) data s.flash ∧ u.boot.shed.written = off + data.length ∧
        newOuts s u = [.flash (0x100000 + off) data, .ethernet mac 0x88B5 p] ∧ p.take 3 = ascii "PS" ++ [3] ∧ u = { s with boot := u.boot, outs := u.outs, flash := u.flash }) ∧
    (s.boot.shed.mac = some mac → off ≠ s.boot.shed.written →
      exec (.pottingData mac off data) s = .next { s with boot := { s.boot with shed := { s.boot.shed with last := s.tick } } }) ∧
    (∀ o, s.boot.shed.mac = some o → o ≠ mac →
      exec (.pottingData mac off data) s = .next { s with band := { s.band with cntDrop := satAdd s.band.cntDrop 1, rxDrop := raise s.tick s.band.rxDrop } }) ∧
    (s.boot.shed.mac = none → off = 0 → data.length ≤ 1024 → s.logv.half = none → canonical s = true →
      ∃ u, exec (.pottingData mac off data) s = .next u ∧ u.boot.shed.mac = some mac ∧ u.boot.shed.written = data.length ∧
        (∀ a, 0x100000 + data.length ≤ a → a < 0x4100000 → mapGet 0xff u.flash a = 0xff) ∧
        (∀ a, 0x4100000 ≤ a → mapGet 0xff u.flash a = mapGet 0xff s.flash a) ∧ u.gates = s.gates ∧ u.otp = s.otp)) ∧
  (∀ (mac : BitVec 48) (len : Nat) (s : State), s.boot.phase = 6 → s.pav.tamper = false → s.pav.supply = none → s.otp.cmd = none →
    (s.boot.shed.mac = some mac → (shedCheck len s).1 = .ok →
      ∃ u p, exec (.pottingEnd mac len) s = .next u ∧ u.boot.restarted = true ∧ u.boot.phase = 0 ∧ u.gates = 0 ∧ u.orng.slots = [] ∧ u.otp.array = s.otp.array ∧
        .ethernet mac 0x88B5 p ∈ newOuts s u ∧ p.take 3 = ascii "PS" ++ [5] ∧ leAt p 16 2 = 0 ∧ u.boot.excluded = s.boot.excluded) ∧
    (s.boot.shed.mac = some mac → (shedCheck len s).1 ≠ .ok →
      ∃ u p, exec (.pottingEnd mac len) s = .next u ∧ newOuts s u = [.ethernet mac 0x88B5 p] ∧ leAt p 16 2 = (statusCode (shedCheck len s).1).toNat ∧
        u.boot.shed.mac = none ∧ u.boot.shed.written = 0 ∧
        u = { s with boot := u.boot, outs := u.outs, dgst := (shedCheck len s).2.dgst }) ∧
    (s.boot.shed.mac ≠ some mac →
      exec (.pottingEnd mac len) s = .next { s with band := { s.band with cntDrop := satAdd s.band.cntDrop 1, rxDrop := raise s.tick s.band.rxDrop } })) ∧
  (∀ s : State, s.boot.phase = 6 → s.boot.shed.mac.isSome = true → s.boot.shed.last + 2500000000 ≤ s.tick →
    exec .pottingShedTransferTimeout s = .next { s with boot := { s.boot with shed := { s.boot.shed with mac := none, written := 0 } } })

/-! ## Belvedere (09_belvedere_attestation.md) -/

/-- The context an ATTEST_EVIDENCE names may be attested: none named, or a living one with its generation (R60, R219). -/
def attestable (h : HostCmd) (s : State) : Bool :=
  decide (h.cid.val = 0) || (decide (h.gen = (ctxOf s h.cid).gen) && decide (h.gen ≠ 0) && decide ((ctxOf s h.cid).state ≠ .free) &&
    decide ((ctxOf s h.cid).state ≠ .destroying))

/-- BELV_DIE_RESETTING when a die is RESETTING at the snapshot, else OK (R219). -/
def snapshotStatus (s : State) : Status :=
  if s.dies.any (fun e => decide (e.2.state = .resetting)) then .belvDieResetting else .ok

/-- Evidence (R216 to R221, R227): ATTEST_EVIDENCE takes its snapshot at once and queues it for signing, raising the seal counter of a
context whose section is sealed; it is refused in public-only mode, under a pending activation, for a short buffer, for a stale or
dead context and with the signing queue full. SIGNING_DONE writes the record with both signatures. MR_EXTEND extends MR9 to MR15
only, while the log has room. -/
def Obligations.EvidenceIsSnapshotThenSigned : Prop :=
  (∀ (h : HostCmd) (s : State), canonical s = true → hostOk opAttestEvidence h s = true → attestable h s = true → s.belv.publicOnly = false →
    activationPending s = false → evidenceLen s h.cid ≤ h.bufLen → sealStatus s h.cid = .ok →
    (s.belv.queue.length < 16 →
      ∃ u, exec (.attestEvidence h) s = .next u ∧ u.belv = { s.belv with queue := s.belv.queue ++
          [.evidence (.host s.host.nextId) (evidenceBody h.cid (slice h.ops 0 32) s).1 (snapshotStatus s)] } ∧
        (∀ c, c ≠ h.cid.val → ctxOf u c = ctxOf s c) ∧
        (h.cid.val ≠ 0 → (ctxOf u h.cid).sealCnt = (if (ctxOf s h.cid).privSet then (ctxOf s h.cid).sealCnt + 1 else (ctxOf s h.cid).sealCnt) ∧
          ctxOf u h.cid = { ctxOf s h.cid with sealCnt := (ctxOf u h.cid).sealCnt }) ∧
        u.host.inProg.length = s.host.inProg.length + 1 ∧ u.outs = s.outs ∧ u.orng = s.orng ∧ u.frames = s.frames ∧ u.fence = s.fence) ∧
    (16 ≤ s.belv.queue.length →
      ∃ u, exec (.attestEvidence h) s = .next u ∧ completed s u h .busy = true ∧ u.belv = { s.belv with signBusy := raise s.tick s.belv.signBusy } ∧
        u.orng = s.orng)) ∧
  (∀ (h : HostCmd) (s : State), canonical s = true → hostOk opAttestEvidence h s = true → attestable h s = true →
    (s.belv.publicOnly = true → ∃ u, exec (.attestEvidence h) s = .next u ∧ completed s u h .notPermitted = true ∧ u.belv = s.belv) ∧
    (s.belv.publicOnly = false → activationPending s = true →
      ∃ u, exec (.attestEvidence h) s = .next u ∧ completed s u h .belvUpdatePending = true ∧ u.belv = s.belv) ∧
    (s.belv.publicOnly = false → activationPending s = false → h.bufLen < evidenceLen s h.cid →
      ∃ u, exec (.attestEvidence h) s = .next u ∧ completed s u h .lengthShort = true ∧ u.belv = s.belv) ∧
    (s.belv.publicOnly = false → activationPending s = false → evidenceLen s h.cid ≤ h.bufLen → sealStatus s h.cid ≠ .ok →
      ∃ u, exec (.attestEvidence h) s = .next u ∧ completed s u h (sealStatus s h.cid) = true ∧ u.belv = s.belv)) ∧
  (∀ (h : HostCmd) (s : State), canonical s = true → hostOk opAttestEvidence h s = true → h.cid.val ≠ 0 →
    ((h.gen ≠ (ctxOf s h.cid).gen ∨ h.gen = 0) → ∃ u, exec (.attestEvidence h) s = .next u ∧ completed s u h .staleGeneration = true ∧ u.belv = s.belv) ∧
    (h.gen = (ctxOf s h.cid).gen → h.gen ≠ 0 → ((ctxOf s h.cid).state = .free ∨ (ctxOf s h.cid).state = .destroying) →
      ∃ u, exec (.attestEvidence h) s = .next u ∧ completed s u h .ctxGone = true ∧ u.belv = s.belv)) ∧
  (∀ (s : State) (id : Nat) (body d : Bytes) (st : Status) (rest : List SignReq) (ip : InProg), canonical s = true →
    s.belv.queue = .evidence (.host id) body st :: rest → s.host.inProg.find? (fun x => x.id == id) = some ip → ip.dead = false →
    (cplOf s ip.cpl).enable = true → ip.write = .data d → st ≠ .badDescriptor → signReady s = true →
    ∃ u, exec .signingDone s = .next u ∧ .hostWrite ip.buf (body ++ hybridSign body s) ∈ newOuts s u ∧
      (∃ r e b, .completion r e b ∈ newOuts s u ∧ leAt b 0 2 = (statusCode st).toNat ∧ leAt b 2 2 = ip.tag.toNat) ∧
      u.belv = { s.belv with queue := rest, signed := s.belv.signed + 1 } ∧ u.host.inProg = s.host.inProg.filter (fun x => x.id != ip.id) ∧
      u.frames = s.frames ∧ u.orng = s.orng) ∧
  (∀ (s : State) (p : SpdmPort) (code : Nat) (body : Bytes) (hyb sg : Bool) (rest : List SignReq),
    s.belv.queue = .spdm p code body hyb sg :: rest → (sg = true → (deviceKey 4 s).isSome = true) →
    exec .signingDone s = .next (sendSpdm p code (body ++ (if sg then fit 96 (Config.ecdsaSign ((deviceKey 4 s).getD []) body) else []))
      { s with belv := { s.belv with queue := rest, signed := if hyb then s.belv.signed + 1 else s.belv.signed } })) ∧
  (∀ (m : MgmtHdr) (r : Byte) (d : Bytes) (s : State), mgmtOk m s = true → mapWf (zeros 48) s.belv.mr = true → s.belv.ready = true →
    (9 ≤ r.toNat → r.toNat ≤ 15 → d.length = 48 → s.belv.log.length < 512 →
      ∃ u, exec (.mrExtend m r d) s = .next u ∧ replied s u m .ok = true ∧ extended r.toNat d s u ∧ u.belv.log.length = s.belv.log.length + 1) ∧
    ((r.toNat < 9 ∨ 15 < r.toNat) → d.length = 48 →
      ∃ u, exec (.mrExtend m r d) s = .next u ∧ replied s u m .notPermitted = true ∧ u.belv = s.belv) ∧
    (d.length < 48 → ∃ u, exec (.mrExtend m r d) s = .next u ∧ replied s u m .lengthShort = true ∧ u.belv = s.belv) ∧
    (48 < d.length → ∃ u, exec (.mrExtend m r d) s = .next u ∧ replied s u m .lengthLong = true ∧ u.belv = s.belv) ∧
    (9 ≤ r.toNat → r.toNat ≤ 15 → d.length = 48 → 512 ≤ s.belv.log.length →
      ∃ u, exec (.mrExtend m r d) s = .next u ∧ replied s u m .notPermitted = true ∧ u.belv = { s.belv with logFull := raise s.tick s.belv.logFull }))

/-- A transport passes a request on: DOE while the mailbox is not Busy; MCTP in a record of an established association, with the
management gate open, outside public-only mode and a supply alarm, on a tag with no message outstanding (R315, R316, R400, R413). -/
def spdmReaches (p : SpdmPort) (s : State) : Bool :=
  !spdmDropped p s && !spdmBooting p s && !spdmTagBusy p s &&
  (match p with | .doe _ => true | .mctp a _ => (mapGet none s.band.assocs a.assoc.val).isSome)

/-- The block once it has taken a request (R21, R45, R225, R315): an MCTP message refreshes its association and advances MGMT_PTR, a
DOE object makes the mailbox Busy, and the session it is secured under has heard a message. -/
def spdmHeard (p : SpdmPort) (s : State) : State :=
  spdmTaken p (match p with | .doe _ => s | .mctp a _ => { s with band := heard a.assoc s })

/-- A session is the one that a request is secured under. -/
def onSession (p : SpdmPort) (x : Session) : Bool := decide (x.port = p.transport) && decide (p.session = some x.id)

/-- No sequence number of a session ends with the next message of a port (R225). -/
def numbersLeft (p : SpdmPort) (s : State) : Bool :=
  decide (p.session = none) || s.belv.sessions.all (fun x => decide (x.rx < 2 ^ 32 - 2) && decide (x.tx < 2 ^ 32 - 2))

/-- SPDM is served on a port: READY, no activation pending, no zeroisation, and its session, where it has one, established. -/
def spdmOpen (p : SpdmPort) (s : State) : Bool :=
  spdmReaches p s && s.belv.ready && !activationPending s && !s.orng.zeroized && sessionServed p (spdmHeard p s)

/-- Signing requests are served: not in public-only mode, and the DRBG draws. -/
def spdmSigns (p : SpdmPort) (s : State) : Bool := spdmOpen p s && !s.belv.publicOnly && drawReady s

/-- SPDM and the DOE mailbox (R21, R45, R46, R223 to R227, R252, R316, R400, Table BELV-10): every request that reaches the block answers on
its port; signed answers wait in the signing queue; sessions are begun within the limit, finished by their MAC and ended by idleness;
until READY, and under an activation, ResponseNotReady answers; after a zeroisation Unspecified; public-only mode refuses what signs;
a session whose sequence number runs out ends, and its secret leaves its slot; the mailbox is Busy from a request to its answer, emptied by
an abort, and discards bad objects. -/
def Obligations.SpdmAndTheMailboxAnswer : Prop :=
  (∀ (p : SpdmPort) (code : Nat) (b : Bytes) (t u : State), u = sendSpdm p code b t →
    (∀ x, p = .doe x → u.host.doe = { t.host.doe with busy := false, ready := true, response := b }) ∧
    (p.session = none → u.belv = t.belv) ∧
    (numbersLeft p t = true → newOuts t u = [.spdm p code b] ∧ u = { t with belv := u.belv, host := u.host, outs := u.outs } ∧
      u.host = { t.host with doe := u.host.doe } ∧ ((∃ a x, p = .mctp a x) → u.host = t.host) ∧
      u.belv = { t.belv with sessions := t.belv.sessions.map (fun x => if onSession p x then { x with tx := x.tx + 1 } else x) }) ∧
    (p.session ≠ none → ∀ x ∈ u.belv.sessions, x.rx < 2 ^ 32 - 1 ∧ x.tx < 2 ^ 32 - 1)) ∧
  (∀ (p : SpdmPort) (s u : State), spdmReaches p s = true → u = spdmHeard p s →
    (∀ x, p = .doe x → u.host.doe = { s.host.doe with busy := true, ready := false, response := [], arriving := none }) ∧
    (p.session = none → u.belv = s.belv) ∧
    (numbersLeft p s = true → u = { s with belv := u.belv, host := u.host, sund := u.sund, band := u.band } ∧
      (∀ x, p = .doe x → u.sund = s.sund ∧ u.band = s.band) ∧
      (∀ a x, p = .mctp a x → u.sund = { s.sund with mgmtPtr := s.sund.mgmtPtr + 1 } ∧ u.band = heard a.assoc s ∧ u.host = s.host) ∧
      u.belv = { s.belv with sessions := s.belv.sessions.map (fun x => if onSession p x then { x with rx := x.rx + 1, last := s.tick } else x) }) ∧
    (p.session ≠ none → ∀ x ∈ u.belv.sessions, x.rx < 2 ^ 32 - 1 ∧ x.tx < 2 ^ 32 - 1)) ∧
  (∀ (gone : Session → Bool) (s u : State), u = endSessions gone s → u.belv = { s.belv with sessions := s.belv.sessions.filter (fun x => !gone x) } ∧
    (∀ x ∈ s.belv.sessions, gone x = true → (slotOf u x.slot).state = .empty) ∧
    (runningDg s = [] → s.orng.loads = [] → canonical s = true →
      ∀ k, (∀ x ∈ s.belv.sessions, gone x = true → x.slot ≠ k) → slotOf u k = slotOf s k)) ∧
  (∀ (a : MctpSrc) (x : Option (BitVec 32)) (s : State), s.pav.supply = none → gateOpen s 3 = true → s.belv.publicOnly = false →
    (mapGet none s.band.assocs a.assoc.val).isSome = true → tagBusy s a.tag.val = true →
    exec (.getVersion (.mctp a x)) s = .next (spdmError (.mctp a x) 0x03 { s with band := heard a.assoc s })) ∧
  (∀ (p : SpdmPort) (s t : State), spdmOpen p s = true → t = spdmHeard p s →
    exec (.getVersion p) s = .next (sendSpdm p 0x04 [1, 0x00, 0x13] t) ∧
    exec (.getCapabilities p) s = .next (sendSpdm p 0x61 (leNat 4 (if s.belv.publicOnly then 0x2 else 0x2F6)) t) ∧
    (∀ base, testBit (leAt base 0 4) 7 = true → exec (.negotiateAlgorithms p base) s = .next (sendSpdm p 0x63 (leNat 4 0x80 ++ leNat 4 2 ++
      leNat 4 4 ++ leNat 2 (if s.belv.publicOnly then 0 else 0x10) ++ leNat 2 (if s.belv.publicOnly then 0 else 2) ++ leNat 2 1) t)) ∧
    (∀ base, testBit (leAt base 0 4) 7 = false → exec (.negotiateAlgorithms p base) s = .next (spdmError p 0x01 t)) ∧
    exec (.getDigests p) s = .next (sendSpdm p 0x01 (leNat 1 (bit (offered s 0) + 2 * bit (offered s 1)) ++
      (if offered s 0 then sha384 (servedChain s 0) else []) ++ (if offered s 1 then sha384 (servedChain s 1) else [])) t) ∧
    (∀ (slot : Byte) (off len : Nat), offered s slot.toNat = true → off < (servedChain s slot.toNat).length →
      ∃ part, part = ((servedChain s slot.toNat).drop off).take len ∧ exec (.getCertificate p slot off len) s =
        .next (sendSpdm p 0x02 (leNat 1 slot.toNat ++ leNat 2 part.length ++ leNat 2 ((servedChain s slot.toNat).length - off - part.length) ++ part) t)) ∧
    (∀ (slot : Byte) (off len : Nat), offered s slot.toNat = false → exec (.getCertificate p slot off len) s = .next (spdmError p 0x01 t)) ∧
    (∀ code : Byte, spdmSupported code.toNat = false → exec (.spdmUnsupportedRequest p code) s = .next (spdmError p 0x07 t))) ∧
  (∀ (p : SpdmPort) (s t : State), spdmSigns p s = true → t = spdmHeard p s → s.belv.queue.length < 16 →
    (∀ (slot : Byte) (nonce : Bytes) (c : Byte) (sum : Bytes), offered s slot.toNat = true → summaryHash s c.toNat = some sum →
      ∃ u, exec (.challenge p slot nonce c) s = .next u ∧ u.belv = { t.belv with queue := s.belv.queue ++
          [.spdm p 0x03 (sha384 (servedChain s slot.toNat) ++ (drbg 32 t).1 ++ sum ++ nonce ++ leNat 8 s.tick ++ s.belv.nonce) false true] } ∧
        u.outs = t.outs ∧ u.orng.slots = t.orng.slots) ∧
    (∀ (slot : Byte) (nonce : Bytes) (c : Byte), (offered s slot.toNat = false ∨ summaryHash s c.toNat = none) →
      exec (.challenge p slot nonce c) s = .next (spdmError p 0x01 t)) ∧
    (∀ (i : Byte) (nonce v : Bytes), i.toNat ≠ 0 → i.toNat ≠ 0x20 → i.toNat ≠ 0xff → measValue s nonce i.toNat = some v →
      exec (.getMeasurements p i false nonce) s = .next (sendSpdm p 0x60 (measBlock i.toNat v) t) ∧
      ∃ u, exec (.getMeasurements p i true nonce) s = .next u ∧ u.belv = { t.belv with queue := s.belv.queue ++
          [.spdm p 0x60 (measBlock i.toNat v ++ (drbg 32 t).1 ++ nonce ++ leNat 8 s.tick ++ s.belv.nonce) false true] } ∧ u.outs = t.outs) ∧
    (∀ (nonce v : Bytes), signReady t = true → measValue t nonce 0x20 = some v →
      ∃ u, exec (.getMeasurements p 0x20 false nonce) s = .next u ∧ u.outs = t.outs ∧
        u.belv = { t.belv with queue := s.belv.queue ++ [.spdm p 0x60 (measBlock 0x20 v) true false] }) ∧
    (∀ nonce : Bytes, exec (.getMeasurements p 0 false nonce) s = .next (sendSpdm p 0x60 [18] t)) ∧
    (∀ (i : Byte) (nonce : Bytes), (17 ≤ i.toNat ∧ i.toNat < 0x20 ∨ 0x22 ≤ i.toNat ∧ i.toNat ≠ 0xff) →
      ∀ sg, exec (.getMeasurements p i sg nonce) s = .next (spdmError p 0x01 t)) ∧
    (∀ (id : BitVec 32) (ecdh x : Bytes) (n : Nat), (t.belv.sessions.filter (fun x => decide (x.port = p.transport))).length < maxSessions s →
      (∀ x ∈ t.belv.sessions, x.port = p.transport → x.id ≠ id) → canonical t = true → (freeWorking 2 t).length = 2 → freeWorking 1 t = [n] →
      Config.ecdhShared (drbg 48 t).1 ecdh = some x →
      ∃ u m, exec (.keyExchange p id ecdh) s = .next u ∧
        u.belv.sessions = t.belv.sessions ++ [{ port := p.transport, id := id, slot := n, up := false, last := s.tick }] ∧
        slotOf u n = { state := .active, attr := attrDerive, len := x.length, active := mkHalf n 0 x m } ∧ (∀ k, k ≠ n → slotOf u k = slotOf t k) ∧
        u.belv.queue = s.belv.queue ++ [.spdm p 0x64 (leBv 4 id ++ Config.ecdhPublic (drbg 48 t).1 ++ ecdh ++ leNat 8 s.tick ++ s.belv.nonce)
          false true] ∧ u.outs = t.outs) ∧
    (∀ (id : BitVec 32) (ecdh : Bytes), (t.belv.sessions.filter (fun x => decide (x.port = p.transport))).length < maxSessions s →
      (∀ x ∈ t.belv.sessions, x.port = p.transport → x.id ≠ id) → (freeWorking 2 t).length < 2 →
      exec (.keyExchange p id ecdh) s = .next (spdmError p 0x03 t)) ∧
    (∀ (id : BitVec 32) (ecdh : Bytes), maxSessions s ≤ (t.belv.sessions.filter (fun x => decide (x.port = p.transport))).length →
      exec (.keyExchange p id ecdh) s = .next (spdmError p 0x0A t)) ∧
    (∀ (id : BitVec 32) (mac : Bytes), (∀ x ∈ t.belv.sessions, ¬ (x.port = p.transport ∧ x.id = id)) →
      exec (.spdmFinish p id mac) s = .next (spdmError p 0x0B t)) ∧
    (∀ (id : BitVec 32) (mac : Bytes) (x : Session), t.belv.sessions.find? (fun y => decide (y.port = p.transport) && y.id == id) = some x →
      ((deviceKey x.slot t).map Config.spdmFinished = some mac → exec (.spdmFinish p id mac) s = .next (sendSpdm p 0x65 [] { t with
        belv := { t.belv with sessions := t.belv.sessions.filter (fun y => y != x) ++ [{ x with up := true, last := s.tick }] } })) ∧
      ((deviceKey x.slot t).map Config.spdmFinished ≠ some mac → exec (.spdmFinish p id mac) s = .next (spdmError p 0x05
        (endSessions (fun y => y == x) (checkSlot x.slot t)))))) ∧
  (∀ (p : SpdmPort) (s t : State), spdmOpen p s = true → t = spdmHeard p s → s.belv.publicOnly = true →
    (∀ a b c, exec (.challenge p a b c) s = .next (spdmError p 0x07 t)) ∧
    (∀ i sg nonce, exec (.getMeasurements p i sg nonce) s = .next (spdmError p 0x07 t)) ∧
    (∀ id b, exec (.keyExchange p id b) s = .next (spdmError p 0x07 t)) ∧ (∀ id b, exec (.spdmFinish p id b) s = .next (spdmError p 0x07 t))) ∧
  (∀ (p : SpdmPort) (s t : State), spdmReaches p s = true → t = spdmHeard p s → (s.belv.ready = false ∨ activationPending s = true) →
    exec (.getVersion p) s = .next (spdmRetry p 0x84 t) ∧ exec (.getCapabilities p) s = .next (spdmRetry p 0xE1 t) ∧
    exec (.getDigests p) s = .next (spdmRetry p 0x81 t) ∧ (∀ b, exec (.negotiateAlgorithms p b) s = .next (spdmRetry p 0xE3 t)) ∧
    (∀ a b c, exec (.getCertificate p a b c) s = .next (spdmRetry p 0x82 t)) ∧ (∀ a b c, exec (.challenge p a b c) s = .next (spdmRetry p 0x83 t)) ∧
    (∀ a b c, exec (.getMeasurements p a b c) s = .next (spdmRetry p 0xE0 t)) ∧ (∀ a b, exec (.keyExchange p a b) s = .next (spdmRetry p 0xE4 t)) ∧
    (∀ a b, exec (.spdmFinish p a b) s = .next (spdmRetry p 0xE5 t))) ∧
  (∀ (p : SpdmPort) (s : State), spdmReaches p s = true → s.belv.ready = true → activationPending s = false →
    (s.orng.zeroized = true → exec (.getVersion p) s = .next (spdmError p 0x05 (spdmHeard p s)) ∧
      (∀ a b c, exec (.challenge p a b c) s = .next (spdmError p 0x05 (spdmHeard p s)))) ∧
    (s.orng.zeroized = false → sessionServed p (spdmHeard p s) = false →
      exec (.getVersion p) s = .next (spdmError p 0x0B (spdmHeard p s)))) ∧
  (∀ (p : SpdmTransport) (id : BitVec 32) (s : State), exec (.sessionIdleTimeout p id) s = .next (endSessions (fun x =>
    decide (x.port = p) && x.id == id && decide (x.last + 250000000 * max 1 s.belv.idleS.toNat ≤ s.tick)) s)) ∧
  (∀ (b : Byte) (s : State), s.host.doe.busy = false → s.belv.ready = true → b.toNat ≤ 2 →
    ∃ u, exec (.doeDiscovery b) s = .next u ∧ newOuts s u = [.doe 0 (leNat 2 1 ++ leNat 1 b.toNat ++ leNat 1 ((b.toNat + 1) % 3))] ∧
      u.host.doe.ready = true ∧ u = { s with host := { s.host with doe := u.host.doe }, outs := u.outs }) ∧
  (∀ (b : Byte) (s : State), s.host.doe.busy = false → s.belv.ready = false →
    exec (.doeDiscovery b) s = .next (spdmRetry (.doe none) 0 { s with host := { s.host with doe := { s.host.doe with arriving := none } } })) ∧
  (∀ s : State, exec .doeAbort s = .next { s with host := { s.host with doe := {} }
                                                  orng := { s.orng with queue := s.orng.queue.filter (fun q => !drawsForDoe q.2) }
                                                  belv := { s.belv with queue := s.belv.queue.filter (fun r => !forDoe r) } }) ∧
  (∀ (t : Byte) (decl len : Nat) (s : State), s.host.doe.busy = false → len ≤ 65536 → len < decl → t.toNat ≤ 2 →
    exec (.doeObjectError t decl len) s = .next { s with host := { s.host with doe := { s.host.doe with arriving := some s.tick } } }) ∧
  (∀ (s : State) (last : Nat), s.host.doe.arriving = some last →
    (last + 250000000 ≤ s.tick → roomAt s 0 = true → ∃ u, exec .doeObjectTimeout s = .next u ∧ recorded u 0 .lengthShort = true ∧
      u = { s with host := { s.host with doe := { s.host.doe with arriving := none } }, splq := u.splq, outs := u.outs }) ∧
    (s.tick < last + 250000000 → exec .doeObjectTimeout s = .next s)) ∧
  (∀ s : State, s.host.doe.arriving = none → exec .doeObjectTimeout s = .next s) ∧
  (∀ (t : Byte) (decl len : Nat) (s : State), s.host.doe.busy = false → (65536 < len ∨ decl < len ∨ 2 < t.toNat) →
    ∃ u, exec (.doeObjectError t decl len) s = .next u ∧ u.host = { s.host with doe := { s.host.doe with error := true, arriving := none } } ∧
      ((65536 < len ∨ decl < len) → roomAt s 0 = true → recorded u 0 .lengthLong = true) ∧ (len ≤ 65536 → len ≤ decl → u.splq = s.splq))

/-! ## Bandstand (14_update_and_bandstand.md) -/

/-- The answer to a management command stands among the outputs, with its data. -/
def answered (s u : State) (m : MgmtHdr) (op : Nat) (data : Bytes) : Prop := .mgmtReply m.tag.val op .ok 0 0 data ∈ newOuts s u

/-- Only the ports, the management pointer and the idle time of the command's association have changed. -/
def onlyAnswered (s u : State) (m : MgmtHdr) : Prop :=
  u = { s with outs := u.outs, sund := { s.sund with mgmtPtr := s.sund.mgmtPtr + 1 }, band := heard m.assoc s }

/-- The port and its stores (R314 to R317, R368, R406): a trusted peer's handshake takes the lowest free association, any other is
refused and counted, Ocenaip presenting its own chain, signed by its alias key; a handshake for another port is dropped; idleness ends an association; before the management gate every datagram gets the booting reply, in HALT BOOT_NO_IMAGE (log 70), and ICMPv6
none (Table PORT-4); after it ICMPv6 for an address of Bandstand is answered, for another dropped, dropped frames counted;
GET_INFO, EVENTS_READ and FAULT_LOG_READ answer and change nothing else but the idle time of their association; an unlisted
opcode receives BAD_DESCRIPTOR. -/
def Obligations.BandstandAdmitsAndAnswers : Prop :=
  (∀ (h : DtlsHello) (tr sig key : Bytes) (s : State), h.port = udpPort s → onlyBooting s = false → peerTrusted h.chain tr sig s = true →
    deviceKey 4 s = some key → activeAssocs s < maxAssocs s → (∃ k, k < maxAssocs s ∧ mapGet none s.band.assocs k = none) →
    ∃ u k, exec (.dtlsHandshake h tr sig) s = .next u ∧ k < maxAssocs s ∧ mapGet none s.band.assocs k = none ∧
      (∀ x, x < k → mapGet none s.band.assocs x ≠ none) ∧
      u = emit (.dtls true (deviceChain s) (Config.ecdsaSign key tr))
        { s with band := { s.band with assocs := mapSet none s.band.assocs k (some s.tick), handshakes := s.band.handshakes + 1 } }) ∧
  (∀ (h : DtlsHello) (tr sig : Bytes) (s : State), h.port = udpPort s → onlyBooting s = false →
    (peerTrusted h.chain tr sig s = false ∨ deviceKey 4 s = none ∨ maxAssocs s ≤ activeAssocs s ∨
      (∀ k, k < maxAssocs s → mapGet none s.band.assocs k ≠ none)) →
    exec (.dtlsHandshake h tr sig) s = .next (emit (.dtls false [] []) (checkSlot 4 { s with band := { s.band with
      authFail := raise s.tick s.band.authFail, cntAuth := satAdd s.band.cntAuth 1 } }))) ∧
  (∀ s : State, (s.band.port = 0 → udpPort s = 0xC04E) ∧ (s.band.port ≠ 0 → udpPort s = s.band.port)) ∧
  (∀ (h : DtlsHello) (tr sig : Bytes) (s : State), h.port ≠ udpPort s → exec (.dtlsHandshake h tr sig) s = exec .bandstandFrameDropped s) ∧
  (∀ s : State, onlyBooting s = true →
    (s.boot.phase ≠ 7 → exec .bootingDatagram s = .next (emit (.ocnBoot s.boot.phase) s) ∧
      ∀ h tr sig, h.port = udpPort s → exec (.dtlsHandshake h tr sig) s = .next (emit (.ocnBoot s.boot.phase) s)) ∧
    (s.boot.phase = 7 → exec .bootingDatagram s = .next (emit (.bandStatus .bootNoImage) s) ∧
      ∀ h tr sig, h.port = udpPort s → exec (.dtlsHandshake h tr sig) s = .next (emit (.bandStatus .bootNoImage) s))) ∧
  (∀ (a : Fin 4) (s : State) (t : Nat), mapGet none s.band.assocs a = some t →
    (t + 15000000000 ≤ s.tick → exec (.associationIdleTimeout a) s = .next { s with band := { s.band with assocs := mapSet none s.band.assocs a none } }) ∧
    (s.tick < t + 15000000000 → exec (.associationIdleTimeout a) s = .next s)) ∧
  (∀ (echo : Bool) (target : BitVec 128) (body : Bytes) (s : State),
    (gateOpen s 3 = false → exec (.icmpv6Request echo ⟨target, body⟩) s = .next s) ∧
    (gateOpen s 3 = true → ownAddress target s = true →
      exec (.icmpv6Request echo ⟨target, body⟩) s = .next (emit (.icmp target ((if echo then 129 else 136) :: body)) s)) ∧
    (gateOpen s 3 = true → ownAddress target s = false →
      exec (.icmpv6Request echo ⟨target, body⟩) s = exec .bandstandFrameDropped s)) ∧
  (∀ (m : LateMessage) (s : State), lateStatus m s = (if m.declared < m.length ∨ 65536 < m.declared then some .lengthLong
    else if m.length < m.declared ∧ m.last + 250000000 ≤ s.tick then some .lengthShort else none)) ∧
  (∀ (m : LateMessage) (s : State), (lateStatus m s = none → exec (.mctpMessageTimeout m) s = .next s) ∧
    (∀ st, lateStatus m s = some st → s.pav.supply = none → s.pav.tamper = false → onlyBooting s = false →
      (mapGet none s.band.assocs m.src.assoc ≠ none → tagBusy s m.src.tag = false →
        exec (.mctpMessageTimeout m) s = .next (emit (.mgmtReply m.src.tag 0 st 0 0 []) s)) ∧
      (mapGet none s.band.assocs m.src.assoc ≠ none → tagBusy s m.src.tag = true →
        exec (.mctpMessageTimeout m) s = .next (emit (.mgmtReply m.src.tag 0 .busy 0 0 []) s)) ∧
      (mapGet none s.band.assocs m.src.assoc = none → exec (.mctpMessageTimeout m) s = .next s))) ∧
  (∀ s : State, exec .bandstandFrameDropped s = .next { s with band := { s.band with
    cntDrop := satAdd s.band.cntDrop 1, rxDrop := raise s.tick s.band.rxDrop } }) ∧
  (∀ (up : Bool) (s : State), exec (.sgmiiLinkChange up) s = .next { s with band := { s.band with linkUp := up } }) ∧
  (∀ (m : MgmtHdr) (s : State), mgmtOk m s = true →
    (∀ op : Byte, mgmtOpcodes.contains op.toNat = false →
      ∃ u, exec (.mgmtUnlistedOpcode m op) s = .next u ∧ replied s u m .badDescriptor = true ∧ onlyAnswered s u m) ∧
    (∃ u, exec (.getInfo m) s = .next u ∧ answered s u m 0x01 (leBv 4 Config.buildCfg ++ leBv 4 s.otp.code ++ leNat 1 (s.boot.slot.getD 255) ++
      leNat 1 (slotCode s 0) ++ leNat 1 (slotCode s 1) ++ leBv 2 (mapGet 0 s.updt.gens 0) ++ leBv 2 (mapGet 0 s.updt.gens 1)) ∧ onlyAnswered s u m) ∧
    (∀ start, ∃ u, exec (.eventsRead m start) s = .next u ∧
      answered s u m 0x50 (storeReply s.pav.eventSeq (storeRead s.pav.events s.pav.eventSeq (word start))) ∧ onlyAnswered s u m) ∧
    (∀ start r, r = storeRead s.pav.flog s.pav.flogSeq (word start) → ∃ u, exec (.faultLogRead m start) s = .next u ∧
      answered s u m 0x51 (storeReply s.pav.flogSeq r) ∧
      u = { s with outs := u.outs, sund := { s.sund with mgmtPtr := s.sund.mgmtPtr + 1 }, band := heard m.assoc s, pav := { s.pav with stFlogLost := if r.2.1 then raise s.tick s.pav.stFlogLost else s.pav.stFlogLost } }))

/-- The log is uninitialised, or its active half has 256 KiB left. -/
def logRoom (s : State) : Bool :=
  match s.logv.half with
  | some h => decide (h ≤ 1) && decide (s.logv.pos + 0x40000 ≤ halfSize)
  | none => true

/-- A command on slot `n` that passes R24. -/
def namesSlot (m : MgmtHdr) (n : Nat) (s : State) : Bool :=
  decide (m.unit.toNat = n) && decide (n < 2) && decide (m.gen = mapGet 0 s.updt.gens n) && decide (m.gen ≠ 0)

/-- What a confirmation of the running slot `n` leaves (R328). -/
def confirmedSlot (n : Nat) (s u : State) : Prop :=
  u.updt.confirmed = raise s.tick s.updt.confirmed ∧ u.boot = { s.boot with trial := false } ∧ u.otp.array = s.otp.array ∧
  isConfirmed u n s.boot.seq = true ∧ isRetired u (1 - n) = true

/-- Management commands on fuses, memory, settings and slots (R318 to R320, R328, R330): KEYGEN_EPOCH under a signature with its role
burns counter 3; CTX_MEMORY_READ sends its lines to the fence only under consent; SETTINGS_WRITE writes free space and appends its
record, and the settings in force stay those of this boot; UPDT_CONFIRM and the expiry of AUTO_CONFIRM_S confirm the running slot in trial and retire the other; UPDT_DISCARD retires a
slot that is not running; each is refused otherwise, changing nothing. Where the vault has not both record keys, those that append
records are refused with the status of the missing one (log 135); one whose message is longer than 64 KiB is LENGTH_LONG (log 151). -/
def Obligations.ManagementActsOnlyWhereItMay : Prop :=
  (∀ (m : MgmtHdr) (chain sig e d : Bytes) (v : Supplies) (s : State), mgmtOk m s = true → chainVerify (trustAnchor s) chain = some (e, d) →
    (Config.keygenRole chain && Config.ecdsaVerify e (epochMessage s) (slice sig 0 96) && Config.mldsaVerify d (epochMessage s) (slice sig 96 4627)) = true →
    chain.length + sig.length ≤ 65523 → otpReady v s = true → s.otp.state < 4 → thermoNow s 3 < 128 → arrayLocked s 63 = false →
    ∃ u, exec (.keygenEpoch m chain sig v) s = .next u ∧ u.otp = { s.otp with cmd := some ⟨neededBurns s (thermoBurns s 3), 0, .command, .mgmt m.tag⟩ } ∧
      u = { s with otp := u.otp, mgmt := u.mgmt, sund := u.sund, band := heard m.assoc s }) ∧
  (∀ (m : MgmtHdr) (chain sig : Bytes) (v : Supplies) (s : State), mgmtOk m s = true →
    (chain.length + sig.length ≤ 65523 → (∀ e d, chainVerify (trustAnchor s) chain = some (e, d) →
        (Config.keygenRole chain && Config.ecdsaVerify e (epochMessage s) (slice sig 0 96) && Config.mldsaVerify d (epochMessage s) (slice sig 96 4627)) = false) →
      ∃ u, exec (.keygenEpoch m chain sig v) s = .next u ∧ replied s u m .notPermitted = true ∧ onlyAnswered s u m) ∧
    (65523 < chain.length + sig.length →
      ∃ u, exec (.keygenEpoch m chain sig v) s = .next u ∧ replied s u m .lengthLong = true ∧ onlyAnswered s u m)) ∧
  (∀ (m : MgmtHdr) (cid : Fin 256) (ksel : Fin 4) (addr : BitVec 64) (len : Nat) (s : State) (a : State), mgmtOk m s = true →
    m.unit.toNat = cid → 1 ≤ cid.val → cid.val ≤ 254 → 64 ≤ len → len ≤ 4096 → len % 64 = 0 →
    a = { s with mgmt := s.mgmt ++ [⟨m.tag.val, 0x38, .ctx cid.val⟩], sund := { s.sund with mgmtPtr := s.sund.mgmtPtr + 1 }, band := heard m.assoc s } →
    (m.gen = (ctxOf s cid).gen → m.gen ≠ 0 → memoryReadAllowed s cid ksel = true →
      ∃ lines, lines = (List.range ((addr.toNat + len - 1) / 64 + 1 - addr.toNat / 64)).map (· + addr.toNat / 64) ∧
        exec (.ctxMemoryRead m cid ksel addr len) s = .next (lines.foldl
          (fun s l => presentReq (l / 64 % Config.channels) ⟨.internal .memoryRead, l, cid.val, ksel.val, 0, none, 0⟩ s)
          { a with fence := { s.fence with memReads := s.fence.memReads ++
            [⟨cid.val, addr.toNat % 64, len, lines.map (fun l => (l, none)), .mgmt m.tag.val⟩] } })) ∧
    (m.gen = (ctxOf s cid).gen → m.gen ≠ 0 → memoryReadAllowed s cid ksel = false →
      ∃ u, exec (.ctxMemoryRead m cid ksel addr len) s = .next u ∧ onlyAnswered s u m ∧
        replied s u m (if (ctxOf s cid).state = .fenced ∧ (ctxOf s cid).fencedAt = s.tick then .ctxFenced else .notPermitted) = true) ∧
    ((m.gen ≠ (ctxOf s cid).gen ∨ m.gen = 0) →
      ∃ u, exec (.ctxMemoryRead m cid ksel addr len) s = .next u ∧ replied s u m .staleGeneration = true ∧ onlyAnswered s u m)) ∧
  (∀ (m : MgmtHdr) (b : Bytes) (s : State), mgmtOk m s = true → canonical s = true →
    (b.length ≤ 65523 → slotInTrial s 0 = false → slotInTrial s 1 = false → activationPending s = false → gateOpen s 6 = true → logRoom s = true → recordStatus s = none →
      ∃ u, exec (.settingsWrite m b) s = .next u ∧ replied s u m .ok = true ∧
        (∀ k, k < b.length → mapGet 0xff u.flash (settingsBase + settingsFree s + k) = b.getD k 0) ∧
        (∃ r, u.logv.recs.getLast? = some r ∧ r.kind = 7 ∧
          r.payload = leNat 4 (settingsFree s) ++ leNat 4 b.length ++ sha384 b) ∧
        u = { s with flash := u.flash, logv := u.logv, outs := u.outs, sund := u.sund, band := heard m.assoc s }) ∧
    (∀ st, b.length ≤ 65523 → slotInTrial s 0 = false → slotInTrial s 1 = false → activationPending s = false → gateOpen s 6 = true →
      recordStatus s = some st → ∃ u, exec (.settingsWrite m b) s = .next u ∧ replied s u m st = true ∧ u.flash = s.flash ∧ u.logv = s.logv) ∧
    (b.length ≤ 65523 → (slotInTrial s 0 = true ∨ slotInTrial s 1 = true ∨ activationPending s = true ∨ gateOpen s 6 = false) →
      ∃ u, exec (.settingsWrite m b) s = .next u ∧ replied s u m .notPermitted = true ∧ onlyAnswered s u m) ∧
    (65523 < b.length → ∃ u, exec (.settingsWrite m b) s = .next u ∧ replied s u m .lengthLong = true ∧ onlyAnswered s u m)) ∧
  (∀ (m : MgmtHdr) (n : Nat) (s : State), mgmtOk m s = true → namesSlot m n s = true → logRoom s = true → s.boot.seq < 2 ^ 64 →
    (s.boot.slot = some n → slotInTrial s n = true → recordStatus s = none →
      ∃ u, exec (.updtConfirm m) s = .next u ∧ replied s u m .ok = true ∧ confirmedSlot n s u) ∧
    ((s.boot.slot ≠ some n ∨ slotInTrial s n = false) →
      ∃ u, exec (.updtConfirm m) s = .next u ∧ replied s u m .notPermitted = true ∧ onlyAnswered s u m) ∧
    (s.boot.slot ≠ some n → (slotInTrial s n = true ∨ ∃ q dg, slotRecord s n = some (1, q, dg)) → pendingActivation s = none → s.updt.activating = false →
      recordStatus s = none →
      ∃ u, exec (.updtDiscard m) s = .next u ∧ replied s u m .ok = true ∧ isRetired u n = true ∧
        u.boot = s.boot ∧ u.otp = s.otp) ∧
    ((s.boot.slot = some n ∨ s.updt.activating = true) →
      ∃ u, exec (.updtDiscard m) s = .next u ∧ replied s u m .notPermitted = true ∧ onlyAnswered s u m)) ∧
  (∀ (m : MgmtHdr) (n : Nat) (s : State), mgmtOk m s = true → m.unit.toNat = n → n < 2 → (m.gen ≠ mapGet 0 s.updt.gens n ∨ m.gen = 0) →
    (∃ u, exec (.updtConfirm m) s = .next u ∧ replied s u m .staleGeneration = true ∧ onlyAnswered s u m) ∧
    (∃ u, exec (.updtDiscard m) s = .next u ∧ replied s u m .staleGeneration = true ∧ onlyAnswered s u m)) ∧
  (∀ (s : State) (t n : Nat), autoConfirm s = some t → s.belv.ready = true → s.boot.slot = some n → n < 2 → slotInTrial s n = true → s.pav.tamper = false →
    s.pav.supply = none → s.boot.readyAt + 250000000 * t ≤ s.tick → (∀ e ∈ s.dies, e.2.state ≠ .failed) → logRoom s = true → s.boot.seq < 2 ^ 64 →
    recordStatus s = none →
    ∃ u, exec .autoConfirmExpiry s = .next u ∧ confirmedSlot n s u) ∧
  (∀ s : State, (autoConfirm s = none ∨ s.belv.ready = false ∨ ∃ e ∈ s.dies, e.2.state = .failed) → exec .autoConfirmExpiry s = .next s)

/-! ## Firmware update (14_update_and_bandstand.md R321 to R326) -/

/-- A PLDM request is taken: no alarm, not HALT, the management gate open outside public-only mode,
its association established and its tag free (R315, R316). -/
def pldmOk (p : MctpSrc) (s : State) : Bool :=
  overBand p.assoc s && !tagBusy s p.tag.val

/-- A PLDM answer with a status and data has been sent, and nothing but the update's state, the management
pointer and the idle time of its association has changed. -/
def pldmAnswered (s u : State) (p : MctpSrc) (cmd : Nat) (st : Status) (b : Bytes) : Prop :=
  .pldm p.tag.val cmd (leBv 2 (statusCode st) ++ b) ∈ newOuts s u ∧
  u = { s with outs := u.outs, sund := { s.sund with mgmtPtr := s.sund.mgmtPtr + 1 }, band := heard p.assoc s, updt := u.updt }

/-- An update refused (R322): it ends, LAST and REJECT show its status, its vendor result is sent; flash and the log stand. -/
def updateRefused (s u : State) (cmd : Nat) (st : Status) : Prop :=
  u.updt = { s.updt with current := none, reject := raise s.tick s.updt.reject, lastStatus := statusCode st } ∧
  .pldmEvent cmd (vendorResult st) ∈ newOuts s u ∧ u.flash = s.flash ∧ u.logv = s.logv ∧ u.boot = s.boot ∧
  (roomAt s 1 = true → recorded u 1 st = true)

/-- A firmware update (R321 to R326): one at a time, and only where nothing stands in its way; the image is requested chunk by chunk,
its header and delta header are checked when they are there, a complete image is rebuilt into the slot that is not running, and
its digests, compared by an engine whose pair is read (which engine: log 143), decide between STAGED and a refusal; activation needs every context FREE, writes a new-format settings block where the format changes (log 47), marks the slot VALID, holds the intake and
schedules the block reset; a cancelled update erases nothing. Where the vault has not both record keys, staging and activation are
refused with the status of the missing one (log 135). The message layouts are the model's (log 43). -/
def Obligations.UpdatesAreStagedThenActivated : Prop :=
  (∀ (p : MctpSrc) (s : State), pldmOk p s = true →
    (∃ u, exec (.queryDeviceIdentifiers p) s = .next u ∧ pldmAnswered s u p 0x01 .ok (deviceClass s ++ unitDigest s) ∧ u.updt = s.updt) ∧
    (∃ u, exec (.getFirmwareParameters p) s = .next u ∧ pldmAnswered s u p 0x02 .ok (firmwareParameters s) ∧ u.updt = s.updt) ∧
    (∃ u, exec (.getStatus p) s = .next u ∧
      pldmAnswered s u p 0x1B .ok (leNat 1 (updtPhase s) ++ leNat 4 s.updt.progress ++ leBv 2 s.updt.lastStatus) ∧ u.updt = s.updt) ∧
    (∀ code : Byte, pldmCommands.contains code.toNat = false → ∃ u, exec (.pldmUnsupportedCommand p code) s = .next u ∧
      newOuts s u = [.pldm p.tag.val code.toNat [5]] ∧
      u = { s with outs := u.outs, sund := { s.sund with mgmtPtr := s.sund.mgmtPtr + 1 }, band := heard p.assoc s })) ∧
  (∀ (p : MctpSrc) (s : State), pldmOk p s = true →
    (s.updt.current = none → slotInTrial s 0 = false → slotInTrial s 1 = false → activationPending s = false → otherValid s = false → gateOpen s 6 = true →
      ∃ u, exec (.requestUpdate p) s = .next u ∧ pldmAnswered s u p 0x10 .ok [] ∧
        u.updt = { s.updt with current := some { tag := p.tag.val, last := s.tick }, progress := 0 }) ∧
    (s.updt.current = none → (slotInTrial s 0 = true ∨ slotInTrial s 1 = true ∨ activationPending s = true ∨ otherValid s = true ∨ gateOpen s 6 = false) →
      ∃ u, exec (.requestUpdate p) s = .next u ∧ pldmAnswered s u p 0x10 .notPermitted [] ∧ u.updt = s.updt) ∧
    (s.updt.current.isSome = true → ∃ u, exec (.requestUpdate p) s = .next u ∧ pldmAnswered s u p 0x10 .busy [] ∧ u.updt = s.updt)) ∧
  (∀ (p : MctpSrc) (c : BitVec 16) (size : Nat) (s : State) (x : Update), pldmOk p s = true → s.updt.current = some x →
    (c = 1 → ∃ u, exec (.passComponentTable p c) s = .next u ∧ pldmAnswered s u p 0x13 .ok [] ∧ u.updt = s.updt) ∧
    (c ≠ 1 → (∃ u, exec (.passComponentTable p c) s = .next u ∧ pldmAnswered s u p 0x13 .badDescriptor [] ∧ u.updt = s.updt) ∧
      ∃ u, exec (.updateComponent p c size) s = .next u ∧ pldmAnswered s u p 0x14 .badDescriptor [] ∧ u.updt = s.updt) ∧
    (c = 1 → x.size = none → ∃ u, exec (.updateComponent p c size) s = .next u ∧ pldmAnswered s u p 0x14 .ok [] ∧
      .pldmRequest 0 (min 4096 size) ∈ newOuts s u ∧
      u.updt = { s.updt with current := some { x with size := some size, image := [], last := s.tick, phase := 1 } }) ∧
    (∃ u, exec (.cancelUpdateComponent p) s = .next u ∧ pldmAnswered s u p 0x1C .ok [] ∧
      u.updt = { s.updt with current := some { x with size := none, image := [], phase := 0 } }) ∧
    (∃ u, exec (.cancelUpdate p) s = .next u ∧ pldmAnswered s u p 0x1D .ok [] ∧ u.updt = { s.updt with current := none })) ∧
  (∀ (p : MctpSrc) (off : Nat) (data : Bytes) (s : State) (x : Update) (size : Nat), pldmOk p s = true → s.updt.current = some x →
    x.size = some size → x.phase < 3 → off = x.image.length → data ≠ [] →
    (4096 < data.length → ∃ u, exec (.firmwareData p off data) s = .next u ∧ updateRefused s u 0x16 .lengthLong) ∧
    (data.length ≤ 4096 → x.image.length + data.length < size → headerStatus x.image (x.image ++ data) s = .ok → deltaStatus x.image (x.image ++ data) s = .ok →
      ∃ u, exec (.firmwareData p off data) s = .next u ∧
        .pldmRequest (off + data.length) (min 4096 (size - (off + data.length))) ∈ newOuts s u ∧
        (∃ y, u.updt.current = some y ∧ y.image = x.image ++ data ∧ y.last = s.tick ∧ y.size = some size) ∧
        u = { s with outs := u.outs, sund := { s.sund with mgmtPtr := s.sund.mgmtPtr + 1 }, band := heard p.assoc s, updt := u.updt }) ∧
    (size < x.image.length + data.length → ∃ u, exec (.firmwareData p off data) s = .next u ∧ updateRefused s u 0x16 .lengthLong) ∧
    (∀ st, data.length ≤ 4096 → x.image.length + data.length ≤ size → headerStatus x.image (x.image ++ data) s = st → st ≠ .ok →
      ∃ u, exec (.firmwareData p off data) s = .next u ∧ updateRefused s u 0x16 st) ∧
    (∀ st, data.length ≤ 4096 → x.image.length + data.length ≤ size → headerStatus x.image (x.image ++ data) s = .ok → deltaStatus x.image (x.image ++ data) s = st → st ≠ .ok →
      ∃ u, exec (.firmwareData p off data) s = .next u ∧ updateRefused s u 0x16 st) ∧
    (∀ ops, data.length ≤ 4096 → x.image.length + data.length = size → headerStatus x.image (x.image ++ data) s = .ok → deltaStatus x.image (x.image ++ data) s = .ok →
      32896 ≤ size → deltaOps (x.image ++ data) s = .ok ops → canonical s = true → logRoom s = true →
      recordStatus s = none →
      ∃ u, exec (.firmwareData p off data) s = .next u ∧ u.updt.current = some { x with image := x.image ++ data, phase := 3 } ∧
        u.updt.progress = (deltaRun s ops).length ∧ .pldmEvent 0x16 0 ∈ newOuts s u ∧
        (∀ k, k < 32768 → mapGet 0xff u.flash (slotBase (otherSlot s) + k) = (x.image ++ data).getD k 0) ∧
        (∀ k, k < (deltaRun s ops).length → mapGet 0xff u.flash (slotBase (otherSlot s) + 32768 + k) = (deltaRun s ops).getD k 0) ∧
        u.boot = s.boot ∧ u.gates = s.gates ∧ u.otp = s.otp ∧ u.orng = s.orng) ∧
    (∀ ops st, data.length ≤ 4096 → x.image.length + data.length = size → headerStatus x.image (x.image ++ data) s = .ok → deltaStatus x.image (x.image ++ data) s = .ok →
      32896 ≤ size → deltaOps (x.image ++ data) s = .ok ops → recordStatus s = some st →
      ∃ u, exec (.firmwareData p off data) s = .next u ∧ u.updt.current = none ∧ u.updt.lastStatus = statusCode st ∧
        .pldmEvent 0x16 (vendorResult st) ∈ newOuts s u ∧ u.flash = s.flash ∧ u.logv = s.logv)) ∧
  (∀ (s : State) (x : Update), s.updt.current = some x → x.size.isSome = true → x.phase < 3 →
    (x.last + 2500000000 ≤ s.tick → ∃ u, exec .firmwareDataTimeout s = .next u ∧ updateRefused s u 0x16 .lengthShort) ∧
    (s.tick < x.last + 2500000000 → exec .firmwareDataTimeout s = .next s)) ∧
  (∀ (s : State) (x : Update) (h : Bytes), s.updt.current = some x → x.phase = 3 → s.pav.supply = none → s.pav.tamper = false →
    h = slotHeader s (otherSlot s) → s.boot.slot.getD 0 ≤ 1 → s.dgst.enabled = true →
    ((∀ p ∈ partsOf h, sha384 (imgPartBytes s (otherSlot s) p) = p.digest) → recordStatus s = none →
      ∃ u, exec .stagingDone s = .next u ∧ u.updt.current = none ∧ u.updt.raise_ = testBit (leAt (deltaHead x.image) 6 2) 0 ∧
        u.updt.autoS = leAt (deltaHead x.image) 8 4 ∧ .pldmEvent 0x17 0 ∈ newOuts s u ∧ .pldmEvent 0x18 0 ∈ newOuts s u ∧
        stagedImage u = some (otherSlot s, headerSeq h, manifestDigest h) ∧
        (partsOf h ≠ [] → (dgOf u (checkEngine s)).cmpA = 0x5a ∧ (dgOf u (checkEngine s)).cmpB = 0xa5) ∧ u.boot = s.boot ∧ u.orng = s.orng) ∧
    (∀ p, p ∈ partsOf h → sha384 (imgPartBytes s (otherSlot s) p) ≠ p.digest →
      ∃ u, exec .stagingDone s = .next u ∧ updateRefused s u 0x17 .dgstCompareFail ∧
        (dgOf u (checkEngine s)).cmpA = 0xa5 ∧ (dgOf u (checkEngine s)).cmpB = 0x5a)) ∧
  (∀ (p : MctpSrc) (s : State), pldmOk p s = true →
    (∀ n seq dg, stagedImage s = some (n, seq, dg) → n ≤ 1 → s.updt.activating = false → (∀ e ∈ s.ctxs, e.2.state = .free) → logRoom s = true →
      recordStatus s = none →
      ∃ u, exec (.activateFirmware p) s = .next u ∧ .pldm p.tag.val 0x1A (leBv 2 (statusCode .ok)) ∈ newOuts s u ∧ u.updt.hold = true ∧
        u.updt.activating = true ∧ (s.tick + 2500, ResetCause.activation) ∈ u.pav.delayed ∧ slotRecord u n = some (2, seq, dg) ∧
        (∃ r, activationOf u n seq = some r ∧ r.payload = activationPayload n seq dg s.updt.raise_ s.updt.autoS (settingsFree s) (newFormat dg s)) ∧
        (∀ b, newFormat dg s = some b → ∀ k, k < b.length → mapGet 0xff u.flash (settingsBase + settingsFree s + k) = b.getD k 0) ∧
        u.ctxs = s.ctxs ∧ u.boot = s.boot ∧ u.otp = s.otp ∧ u.orng = s.orng) ∧
    (∀ n seq dg, stagedImage s = some (n, seq, dg) → s.updt.activating = false → (∃ e ∈ s.ctxs, e.2.state ≠ .free) →
      ∃ u, exec (.activateFirmware p) s = .next u ∧ .pldmEvent 0x1A 0x77 ∈ newOuts s u ∧ u.updt.lastStatus = statusCode .ctxState ∧
        u.updt.hold = s.updt.hold ∧ u.flash = s.flash ∧ u.logv = s.logv) ∧
    (stagedImage s ≠ none → s.updt.activating = true →
      ∃ u, exec (.activateFirmware p) s = .next u ∧ pldmAnswered s u p 0x1A .busy [] ∧ u.updt = s.updt) ∧
    (stagedImage s = none → ∃ u, exec (.activateFirmware p) s = .next u ∧ pldmAnswered s u p 0x1A .notPermitted [] ∧ u.updt = s.updt)) ∧
  (∀ s : State, s.boot.slot = some 0 ∨ s.boot.slot = some 1 ∨ s.boot.slot = none → otherSlot s ≤ 1 ∧ (s.boot.slot = some 0 → otherSlot s = 1) ∧
    (s.boot.slot = some 1 → otherSlot s = 0))

/-! ## Rules stated whole -/

/-- R271 whole: the coding of an ECC word, its columns, its check bits, its decoding by the syndrome with one bit corrected, and no
programmed word blank; a word burned by PROGRAM's pulse reads as its data. -/
def Obligations.OtpWordsCorrectOneBit : Prop :=
  (∀ d : Word, otpCheck (otpEncode d) = otpParity d ^^^ 0x5a ∧ otpData (otpEncode d) = d ∧ otpEncode d ≠ 0) ∧
  (∀ k, k < 32 → popCount 8 (otpColumn k).toNat = 3 ∧
    ((List.range (otpColumn k).toNat).filter (fun v => popCount 8 v == 3)).length = k) ∧
  (∀ (d : Word) (j : Nat), j < 8 → (otpParity d).getLsbD j =
    (List.range 32).foldl (fun p k => xor p ((otpColumn k).getLsbD j && d.getLsbD k)) false) ∧
  (∀ (w : BitVec 40) (syn : BitVec 8), syn = otpParity (otpData w) ^^^ otpCheck w ^^^ 0x5a →
    (syn = 0 → otpDecode w = some (otpData w)) ∧
    (∀ k, k < 32 → syn = otpColumn k → otpDecode w = some (otpData w ^^^ (1#32 <<< k))) ∧
    (∀ j, j < 8 → syn = 1#8 <<< j → otpDecode w = some (otpData w)) ∧
    (syn ≠ 0 → (∀ k, k < 32 → syn ≠ otpColumn k) → (∀ j, j < 8 → syn ≠ 1#8 <<< j) → otpDecode w = none)) ∧
  (∀ (d : Word) (k : Nat), k < 40 → otpDecode (otpEncode d) = some d ∧ otpDecode (otpEncode d ^^^ (1#40 <<< k)) = some d) ∧
  (∀ (s : State) (w : Nat) (d : Word), canonical s = true → arrayWord s w = 0 → s.otp.repairAt = none →
    s.otp.cmd = some ⟨[(w, otpEncode d)], 0, .command, .none⟩ →
    ∃ u, exec (.otpPulseEnd 0) s = .next u ∧ arrayWord u w = otpEncode d ∧ arrayVal u w = some d ∧ (∀ x, x ≠ w → arrayWord u x = arrayWord s x))

/-- R275 whole: a lock word is locked when at least 16 of its 32 data bits read burned, and LOCK of a complete region that is not
locked burns every one of the 32 that is still unburned; after a pulse that verifies, all are burned and the region is locked. -/
def Obligations.LockBurnsAllBitsOfTheLockWord : Prop :=
  (∀ d : Word, lockedData d = true ↔ 16 ≤ ((List.range 32).filter (fun k => d.getLsbD k)).length) ∧
  (∀ (m : Fin 39) (r : Fin 2048) (v : Supplies) (reads : List SensedWord) (s : State) (w : Nat), canonical s = true → writeReach m 0x40008 = true → otpReady v s = true →
    r.val ≤ 2 → w = (otpRegion r).lock → arrayLocked s w = false → (s.otp.state = 0 ∨ (s.otp.state = 1 ∧ r.val ≠ 0)) →
    regionComplete (rereadVal reads s) (otpRegion r) = true →
    ∃ u b, exec (.lock m r ⟨v, reads⟩) s = .next u ∧ u.otp.cmd = some ⟨[(w, b)], 0, .command, .none⟩ ∧ u.otp.array = s.otp.array ∧
      (∀ k, k < 32 → b.getLsbD k = !(arrayWord s w).getLsbD k) ∧ (∀ k, 32 ≤ k → b.getLsbD k = false) ∧
      ∃ t, exec (.otpPulseEnd 0) u = .next t ∧ (∀ k, k < 32 → (arrayWord t w).getLsbD k = true) ∧ arrayLocked t w = true ∧
        (∀ x, x ≠ w → arrayWord t x = arrayWord s x))

/-- R239 whole: KEY_CHECK_VALUE answers the leftmost 8 bytes of HMAC-SHA-384 under m over "OCN-KCV" and m's length; for the slot that
opens a private set or a group m is K1 ∥ K2 ∥ KT, the keys of that slot and the next; for any other it is the slot's key. -/
def Obligations.KeyCheckValuesAreEightBytesOfHmac : Prop :=
  (∀ m : Bytes, keyCheckValueOf m = (hmac384 m (ascii "OCN-KCV" ++ leNat 2 m.length)).take 8 ∧ (keyCheckValueOf m).length = 8) ∧
  (∀ (n : Fin 4096) (s : State) (key : Bytes), s.orng.zeroized = false → gateOpen s 0 = true → opensSet n = false →
    (slotOf s n).state = .active → halfOk n 0 (slotOf s n).active = true → key = halfKey (slotOf s n).active (slotOf s n).len →
    exec (.keyCheckValue n) s = .next (emit (.mailbox .ok ((hmac384 key (ascii "OCN-KCV" ++ leNat 2 key.length)).take 8)) s)) ∧
  (∀ (n : Nat) (h : n < 4096) (s : State) (k12 kt : Bytes), s.orng.zeroized = false → gateOpen s 0 = true →
    ((∃ c, 1 ≤ c ∧ c ≤ 254 ∧ n = ctxSlot c 0) ∨ (∃ g, g < 256 ∧ n = groupSlot g)) →
    (slotOf s n).state = .active → (slotOf s n).len = 64 → halfOk n 0 (slotOf s n).active = true → k12 = halfKey (slotOf s n).active 64 →
    (slotOf s (n + 1)).state = .active → (slotOf s (n + 1)).len = 32 → halfOk (n + 1) 0 (slotOf s (n + 1)).active = true →
    kt = halfKey (slotOf s (n + 1)).active 32 →
    exec (.keyCheckValue ⟨n, h⟩) s = .next (emit (.mailbox .ok ((hmac384 (k12 ++ kt) (ascii "OCN-KCV" ++ leNat 2 96)).take 8)) s))
end

