-- ==== Sys2Proof/Laws/Map.lean ====
section
/-! SUPPORT. Laws of the finite maps: what a changed map reads as, and that every operation keeps the canonical form. -/

namespace Sys2Proof.Laws

open Sys2Proof.Machine

variable {α : Type}

/-- Keys that all lie above `b` lie above every smaller bound. -/
theorem mapAbove_mono {m : NMap α} {a b : Nat} (h : mapAbove b m = true) (hab : a ≤ b) : mapAbove a m = true := by
  cases m with
  | nil => rfl
  | cons e m => simp [mapAbove] at h ⊢; exact ⟨by omega, h.2⟩

/-- A key below the bound reads as the default. -/
theorem mapGet_below {d : α} {m : NMap α} {b k : Nat} (h : mapAbove b m = true) (hk : k < b) : mapGet d m k = d := by
  cases m with
  | nil => rfl
  | cons e m =>
    simp [mapAbove] at h
    have h1 : ¬ k = e.1 := by omega
    have h2 : k < e.1 := by omega
    simp [mapGet, h1, h2]

/-- An erased key reads as the default. -/
theorem mapGet_mapErase_same {d : α} {m : NMap α} {b k : Nat} (h : mapAbove b m = true) :
    mapGet d (mapErase m k) k = d := by
  induction m generalizing b with
  | nil => rfl
  | cons e m ih =>
    simp [mapAbove] at h
    by_cases h1 : k = e.1
    · have h3 : k < e.1 + 1 := by omega
      simpa [mapErase, h1] using mapGet_below (d := d) h.2 (h1 ▸ h3)
    · by_cases h2 : k < e.1
      · simp [mapErase, mapGet, h1, h2]
      · simpa [mapErase, mapGet, h1, h2] using ih h.2

/-- Erasing a key leaves every other key as it was. -/
theorem mapGet_mapErase_other {d : α} {m : NMap α} {b k j : Nat} (h : mapAbove b m = true) (hj : j ≠ k) :
    mapGet d (mapErase m k) j = mapGet d m j := by
  induction m generalizing b with
  | nil => rfl
  | cons e m ih =>
    simp [mapAbove] at h
    by_cases h1 : k = e.1
    · subst h1
      by_cases h4 : j < e.1
      · simpa [mapErase, mapGet, hj, h4] using mapGet_below (d := d) h.2 (by omega : j < e.1 + 1)
      · simp [mapErase, mapGet, hj, h4]
    · by_cases h2 : k < e.1
      · simp [mapErase, h1, h2]
      · simp [mapErase, mapGet, h1, h2, ih h.2]

/-- A put key reads as its value. -/
theorem mapGet_mapPut_same {d : α} {m : NMap α} {k : Nat} {v : α} : mapGet d (mapPut m k v) k = v := by
  induction m with
  | nil => simp [mapPut, mapGet]
  | cons e m ih =>
    by_cases h1 : k = e.1
    · simp [mapPut, mapGet, h1]
    · by_cases h2 : k < e.1
      · simp [mapPut, mapGet, h1, h2]
      · simpa [mapPut, mapGet, h1, h2] using ih

/-- Putting a key leaves every other key as it was. -/
theorem mapGet_mapPut_other {d : α} {m : NMap α} {b k j : Nat} {v : α} (h : mapAbove b m = true) (hj : j ≠ k) :
    mapGet d (mapPut m k v) j = mapGet d m j := by
  induction m generalizing b with
  | nil => simp [mapPut, mapGet, hj]
  | cons e m ih =>
    simp [mapAbove] at h
    by_cases h1 : k = e.1
    · subst h1; simp [mapPut, mapGet, hj]
    · by_cases h2 : k < e.1
      · by_cases h3 : j < k
        · have h4 : ¬ j = e.1 := by omega
          have h5 : j < e.1 := by omega
          simp [mapPut, mapGet, h1, h2, hj, h3, h4, h5]
        · simp [mapPut, mapGet, h1, h2, hj, h3]
      · simp [mapPut, mapGet, h1, h2, ih h.2]

/-- The keys of a map with a key put stay above a bound below both. -/
theorem mapAbove_mapPut {m : NMap α} {b k : Nat} {v : α} (h : mapAbove b m = true) (hk : b ≤ k) :
    mapAbove b (mapPut m k v) = true := by
  induction m generalizing b with
  | nil => simp [mapPut, mapAbove, hk]
  | cons e m ih =>
    simp [mapAbove] at h
    by_cases h1 : k = e.1
    · simp only [mapPut, h1, if_true, mapAbove, decide_eq_true h.1, Bool.true_and]; exact h.2
    · by_cases h2 : k < e.1
      · simp only [mapPut, h1, h2, if_false, if_true, mapAbove, decide_eq_true hk, Bool.true_and, h.2, Bool.and_true]
        simp; omega
      · have h3 : mapAbove (e.1 + 1) (mapPut m k v) = true := ih h.2 (by omega)
        simp [mapPut, h1, h2, mapAbove, h.1, h3]

/-- The keys of a map with a key erased stay above its bound. -/
theorem mapAbove_mapErase {m : NMap α} {b k : Nat} (h : mapAbove b m = true) : mapAbove b (mapErase m k) = true := by
  induction m generalizing b with
  | nil => rfl
  | cons e m ih =>
    simp [mapAbove] at h
    by_cases h1 : k = e.1
    · simpa [mapErase, h1] using mapAbove_mono h.2 (by omega)
    · by_cases h2 : k < e.1
      · simp [mapErase, h1, h2, mapAbove, h]
      · simp [mapErase, h1, h2, mapAbove, h.1, ih h.2]

/-- No entry of an erased map is new. -/
theorem mem_mapErase {m : NMap α} {k : Nat} {e : Nat × α} (h : e ∈ mapErase m k) : e ∈ m := by
  induction m with
  | nil => exact h
  | cons x m ih =>
    by_cases h1 : k = x.1
    · simp [mapErase, h1] at h; exact List.mem_cons_of_mem _ h
    · by_cases h2 : k < x.1
      · simpa [mapErase, h1, h2] using h
      · simp [mapErase, h1, h2] at h
        rcases h with h | h
        · exact h ▸ List.mem_cons_self ..
        · exact List.mem_cons_of_mem _ (ih h)

/-- An entry of a map with a key put is the new one or an old one. -/
theorem mem_mapPut {m : NMap α} {k : Nat} {v : α} {e : Nat × α} (h : e ∈ mapPut m k v) : e = (k, v) ∨ e ∈ m := by
  induction m with
  | nil => simpa [mapPut] using h
  | cons x m ih =>
    by_cases h1 : k = x.1
    · simp [mapPut, h1] at h
      rcases h with h | h
      · exact Or.inl (by rw [h, h1])
      · exact Or.inr (List.mem_cons_of_mem _ h)
    · by_cases h2 : k < x.1
      · simpa [mapPut, h1, h2] using h
      · simp [mapPut, h1, h2] at h
        rcases h with h | h
        · exact Or.inr (h ▸ List.mem_cons_self ..)
        · exact (ih h).imp id (List.mem_cons_of_mem _)

variable [DecidableEq α]

/-- Setting a key keeps the canonical form. -/
theorem mapWf_mapSet {d : α} {m : NMap α} {k : Nat} {v : α} (h : mapWf d m = true) : mapWf d (mapSet d m k v) = true := by
  simp only [mapWf, Bool.and_eq_true, List.all_eq_true, decide_eq_true_eq] at h ⊢
  unfold mapSet
  split
  · exact ⟨mapAbove_mapErase h.1, fun e he => h.2 e (mem_mapErase he)⟩
  · rename_i hv
    refine ⟨mapAbove_mapPut h.1 (Nat.zero_le _), fun e he => ?_⟩
    rcases mem_mapPut he with rfl | he
    · exact hv
    · exact h.2 e he

/-- Changing a key keeps the canonical form. -/
theorem mapWf_mapMod {d : α} {m : NMap α} {k : Nat} {f : α → α} (h : mapWf d m = true) : mapWf d (mapMod d m k f) = true :=
  mapWf_mapSet h

/-- Changing every listed entry keeps keys above their bound. -/
theorem mapAbove_mapAll {d : α} {f : Nat → α → α} {m : NMap α} {b : Nat} (h : mapAbove b m = true) :
    mapAbove b (mapAll d f m) = true := by
  induction m generalizing b with
  | nil => rfl
  | cons e m ih =>
    simp [mapAbove] at h
    by_cases h1 : f e.1 e.2 = d
    · have h2 := mapAbove_mono (ih h.2) (by omega : b ≤ e.1 + 1)
      simpa [mapAll, h1] using h2
    · have h2 := ih h.2
      simp only [mapAll] at h2
      simp [mapAll, h1, mapAbove, h.1, h2]

/-- Changing every listed entry keeps the canonical form. -/
theorem mapWf_mapAll {d : α} {f : Nat → α → α} {m : NMap α} (h : mapWf d m = true) : mapWf d (mapAll d f m) = true := by
  simp only [mapWf, Bool.and_eq_true, List.all_eq_true, decide_eq_true_eq] at h ⊢
  refine ⟨mapAbove_mapAll h.1, fun e he => ?_⟩
  simp only [mapAll, List.mem_filterMap] at he
  obtain ⟨x, _, hx⟩ := he
  split at hx
  · cases hx
  · cases hx; assumption

/-- A set key reads as its value. -/
theorem mapGet_mapSet_same {d : α} {m : NMap α} {k : Nat} {v : α} (h : mapWf d m = true) : mapGet d (mapSet d m k v) k = v := by
  simp only [mapWf, Bool.and_eq_true] at h
  unfold mapSet
  split
  · rename_i hv; rw [mapGet_mapErase_same h.1, hv]
  · exact mapGet_mapPut_same

/-- Setting a key leaves every other key as it was. -/
theorem mapGet_mapSet_other {d : α} {m : NMap α} {k j : Nat} {v : α} (h : mapWf d m = true) (hj : j ≠ k) :
    mapGet d (mapSet d m k v) j = mapGet d m j := by
  simp only [mapWf, Bool.and_eq_true] at h
  unfold mapSet
  split
  · exact mapGet_mapErase_other h.1 hj
  · exact mapGet_mapPut_other h.1 hj

/-- A changed key reads as its changed value. -/
theorem mapGet_mapMod_same {d : α} {m : NMap α} {k : Nat} {f : α → α} (h : mapWf d m = true) :
    mapGet d (mapMod d m k f) k = f (mapGet d m k) := mapGet_mapSet_same h

/-- Changing a key leaves every other key as it was. -/
theorem mapGet_mapMod_other {d : α} {m : NMap α} {k j : Nat} {f : α → α} (h : mapWf d m = true) (hj : j ≠ k) :
    mapGet d (mapMod d m k f) j = mapGet d m j := mapGet_mapSet_other h hj

end Sys2Proof.Laws
end

