-- ==== Sys2Proof/Laws/State.lean ====
section
/-! SUPPORT. What each update of the state leaves alone: one lemma per update and field, true by unfolding. -/

namespace Sys2Proof.Laws

open Sys2Proof.Machine

/-! updCtx -/

@[simp] theorem updCtx_pending (c : Nat) (f : Ctx → Ctx) (s : State) : (updCtx c f s).pending = s.pending := rfl
@[simp] theorem updCtx_outs (c : Nat) (f : Ctx → Ctx) (s : State) : (updCtx c f s).outs = s.outs := rfl
@[simp] theorem updCtx_free (c : Nat) (f : Ctx → Ctx) (s : State) : (updCtx c f s).free = s.free := rfl
@[simp] theorem updCtx_tick (c : Nat) (f : Ctx → Ctx) (s : State) : (updCtx c f s).tick = s.tick := rfl
@[simp] theorem updCtx_gates (c : Nat) (f : Ctx → Ctx) (s : State) : (updCtx c f s).gates = s.gates := rfl
@[simp] theorem updCtx_sund (c : Nat) (f : Ctx → Ctx) (s : State) : (updCtx c f s).sund = s.sund := rfl
@[simp] theorem updCtx_pav (c : Nat) (f : Ctx → Ctx) (s : State) : (updCtx c f s).pav = s.pav := rfl
@[simp] theorem updCtx_host (c : Nat) (f : Ctx → Ctx) (s : State) : (updCtx c f s).host = s.host := rfl
@[simp] theorem updCtx_mgmt (c : Nat) (f : Ctx → Ctx) (s : State) : (updCtx c f s).mgmt = s.mgmt := rfl
@[simp] theorem updCtx_groups (c : Nat) (f : Ctx → Ctx) (s : State) : (updCtx c f s).groups = s.groups := rfl
@[simp] theorem updCtx_frames (c : Nat) (f : Ctx → Ctx) (s : State) : (updCtx c f s).frames = s.frames := rfl
@[simp] theorem updCtx_dies (c : Nat) (f : Ctx → Ctx) (s : State) : (updCtx c f s).dies = s.dies := rfl
@[simp] theorem updCtx_splq (c : Nat) (f : Ctx → Ctx) (s : State) : (updCtx c f s).splq = s.splq := rfl
@[simp] theorem updCtx_orng (c : Nat) (f : Ctx → Ctx) (s : State) : (updCtx c f s).orng = s.orng := rfl
@[simp] theorem updCtx_fence (c : Nat) (f : Ctx → Ctx) (s : State) : (updCtx c f s).fence = s.fence := rfl
@[simp] theorem updCtx_link (c : Nat) (f : Ctx → Ctx) (s : State) : (updCtx c f s).link = s.link := rfl
@[simp] theorem updCtx_perg (c : Nat) (f : Ctx → Ctx) (s : State) : (updCtx c f s).perg = s.perg := rfl
@[simp] theorem updCtx_grnh (c : Nat) (f : Ctx → Ctx) (s : State) : (updCtx c f s).grnh = s.grnh := rfl
@[simp] theorem updCtx_grnhFills (c : Nat) (f : Ctx → Ctx) (s : State) : (updCtx c f s).grnhFills = s.grnhFills := rfl
@[simp] theorem updCtx_dgst (c : Nat) (f : Ctx → Ctx) (s : State) : (updCtx c f s).dgst = s.dgst := rfl
@[simp] theorem updCtx_otp (c : Nat) (f : Ctx → Ctx) (s : State) : (updCtx c f s).otp = s.otp := rfl
@[simp] theorem updCtx_flash (c : Nat) (f : Ctx → Ctx) (s : State) : (updCtx c f s).flash = s.flash := rfl
@[simp] theorem updCtx_logv (c : Nat) (f : Ctx → Ctx) (s : State) : (updCtx c f s).logv = s.logv := rfl
@[simp] theorem updCtx_boot (c : Nat) (f : Ctx → Ctx) (s : State) : (updCtx c f s).boot = s.boot := rfl
@[simp] theorem updCtx_belv (c : Nat) (f : Ctx → Ctx) (s : State) : (updCtx c f s).belv = s.belv := rfl
@[simp] theorem updCtx_updt (c : Nat) (f : Ctx → Ctx) (s : State) : (updCtx c f s).updt = s.updt := rfl
@[simp] theorem updCtx_band (c : Nat) (f : Ctx → Ctx) (s : State) : (updCtx c f s).band = s.band := rfl
@[simp] theorem updCtx_power (c : Nat) (f : Ctx → Ctx) (s : State) : (updCtx c f s).power = s.power := rfl

/-! updGroup -/

@[simp] theorem updGroup_pending (g : Nat) (f : Group → Group) (s : State) : (updGroup g f s).pending = s.pending := rfl
@[simp] theorem updGroup_outs (g : Nat) (f : Group → Group) (s : State) : (updGroup g f s).outs = s.outs := rfl
@[simp] theorem updGroup_free (g : Nat) (f : Group → Group) (s : State) : (updGroup g f s).free = s.free := rfl
@[simp] theorem updGroup_tick (g : Nat) (f : Group → Group) (s : State) : (updGroup g f s).tick = s.tick := rfl
@[simp] theorem updGroup_gates (g : Nat) (f : Group → Group) (s : State) : (updGroup g f s).gates = s.gates := rfl
@[simp] theorem updGroup_sund (g : Nat) (f : Group → Group) (s : State) : (updGroup g f s).sund = s.sund := rfl
@[simp] theorem updGroup_pav (g : Nat) (f : Group → Group) (s : State) : (updGroup g f s).pav = s.pav := rfl
@[simp] theorem updGroup_host (g : Nat) (f : Group → Group) (s : State) : (updGroup g f s).host = s.host := rfl
@[simp] theorem updGroup_mgmt (g : Nat) (f : Group → Group) (s : State) : (updGroup g f s).mgmt = s.mgmt := rfl
@[simp] theorem updGroup_ctxs (g : Nat) (f : Group → Group) (s : State) : (updGroup g f s).ctxs = s.ctxs := rfl
@[simp] theorem updGroup_frames (g : Nat) (f : Group → Group) (s : State) : (updGroup g f s).frames = s.frames := rfl
@[simp] theorem updGroup_dies (g : Nat) (f : Group → Group) (s : State) : (updGroup g f s).dies = s.dies := rfl
@[simp] theorem updGroup_splq (g : Nat) (f : Group → Group) (s : State) : (updGroup g f s).splq = s.splq := rfl
@[simp] theorem updGroup_orng (g : Nat) (f : Group → Group) (s : State) : (updGroup g f s).orng = s.orng := rfl
@[simp] theorem updGroup_fence (g : Nat) (f : Group → Group) (s : State) : (updGroup g f s).fence = s.fence := rfl
@[simp] theorem updGroup_link (g : Nat) (f : Group → Group) (s : State) : (updGroup g f s).link = s.link := rfl
@[simp] theorem updGroup_perg (g : Nat) (f : Group → Group) (s : State) : (updGroup g f s).perg = s.perg := rfl
@[simp] theorem updGroup_grnh (g : Nat) (f : Group → Group) (s : State) : (updGroup g f s).grnh = s.grnh := rfl
@[simp] theorem updGroup_grnhFills (g : Nat) (f : Group → Group) (s : State) : (updGroup g f s).grnhFills = s.grnhFills := rfl
@[simp] theorem updGroup_dgst (g : Nat) (f : Group → Group) (s : State) : (updGroup g f s).dgst = s.dgst := rfl
@[simp] theorem updGroup_otp (g : Nat) (f : Group → Group) (s : State) : (updGroup g f s).otp = s.otp := rfl
@[simp] theorem updGroup_flash (g : Nat) (f : Group → Group) (s : State) : (updGroup g f s).flash = s.flash := rfl
@[simp] theorem updGroup_logv (g : Nat) (f : Group → Group) (s : State) : (updGroup g f s).logv = s.logv := rfl
@[simp] theorem updGroup_boot (g : Nat) (f : Group → Group) (s : State) : (updGroup g f s).boot = s.boot := rfl
@[simp] theorem updGroup_belv (g : Nat) (f : Group → Group) (s : State) : (updGroup g f s).belv = s.belv := rfl
@[simp] theorem updGroup_updt (g : Nat) (f : Group → Group) (s : State) : (updGroup g f s).updt = s.updt := rfl
@[simp] theorem updGroup_band (g : Nat) (f : Group → Group) (s : State) : (updGroup g f s).band = s.band := rfl
@[simp] theorem updGroup_power (g : Nat) (f : Group → Group) (s : State) : (updGroup g f s).power = s.power := rfl

/-! updFrame -/

@[simp] theorem updFrame_pending (n : Nat) (f : Frame → Frame) (s : State) : (updFrame n f s).pending = s.pending := rfl
@[simp] theorem updFrame_outs (n : Nat) (f : Frame → Frame) (s : State) : (updFrame n f s).outs = s.outs := rfl
@[simp] theorem updFrame_free (n : Nat) (f : Frame → Frame) (s : State) : (updFrame n f s).free = s.free := rfl
@[simp] theorem updFrame_tick (n : Nat) (f : Frame → Frame) (s : State) : (updFrame n f s).tick = s.tick := rfl
@[simp] theorem updFrame_gates (n : Nat) (f : Frame → Frame) (s : State) : (updFrame n f s).gates = s.gates := rfl
@[simp] theorem updFrame_sund (n : Nat) (f : Frame → Frame) (s : State) : (updFrame n f s).sund = s.sund := rfl
@[simp] theorem updFrame_pav (n : Nat) (f : Frame → Frame) (s : State) : (updFrame n f s).pav = s.pav := rfl
@[simp] theorem updFrame_host (n : Nat) (f : Frame → Frame) (s : State) : (updFrame n f s).host = s.host := rfl
@[simp] theorem updFrame_mgmt (n : Nat) (f : Frame → Frame) (s : State) : (updFrame n f s).mgmt = s.mgmt := rfl
@[simp] theorem updFrame_ctxs (n : Nat) (f : Frame → Frame) (s : State) : (updFrame n f s).ctxs = s.ctxs := rfl
@[simp] theorem updFrame_groups (n : Nat) (f : Frame → Frame) (s : State) : (updFrame n f s).groups = s.groups := rfl
@[simp] theorem updFrame_dies (n : Nat) (f : Frame → Frame) (s : State) : (updFrame n f s).dies = s.dies := rfl
@[simp] theorem updFrame_splq (n : Nat) (f : Frame → Frame) (s : State) : (updFrame n f s).splq = s.splq := rfl
@[simp] theorem updFrame_orng (n : Nat) (f : Frame → Frame) (s : State) : (updFrame n f s).orng = s.orng := rfl
@[simp] theorem updFrame_fence (n : Nat) (f : Frame → Frame) (s : State) : (updFrame n f s).fence = s.fence := rfl
@[simp] theorem updFrame_link (n : Nat) (f : Frame → Frame) (s : State) : (updFrame n f s).link = s.link := rfl
@[simp] theorem updFrame_perg (n : Nat) (f : Frame → Frame) (s : State) : (updFrame n f s).perg = s.perg := rfl
@[simp] theorem updFrame_grnh (n : Nat) (f : Frame → Frame) (s : State) : (updFrame n f s).grnh = s.grnh := rfl
@[simp] theorem updFrame_grnhFills (n : Nat) (f : Frame → Frame) (s : State) : (updFrame n f s).grnhFills = s.grnhFills := rfl
@[simp] theorem updFrame_dgst (n : Nat) (f : Frame → Frame) (s : State) : (updFrame n f s).dgst = s.dgst := rfl
@[simp] theorem updFrame_otp (n : Nat) (f : Frame → Frame) (s : State) : (updFrame n f s).otp = s.otp := rfl
@[simp] theorem updFrame_flash (n : Nat) (f : Frame → Frame) (s : State) : (updFrame n f s).flash = s.flash := rfl
@[simp] theorem updFrame_logv (n : Nat) (f : Frame → Frame) (s : State) : (updFrame n f s).logv = s.logv := rfl
@[simp] theorem updFrame_boot (n : Nat) (f : Frame → Frame) (s : State) : (updFrame n f s).boot = s.boot := rfl
@[simp] theorem updFrame_belv (n : Nat) (f : Frame → Frame) (s : State) : (updFrame n f s).belv = s.belv := rfl
@[simp] theorem updFrame_updt (n : Nat) (f : Frame → Frame) (s : State) : (updFrame n f s).updt = s.updt := rfl
@[simp] theorem updFrame_band (n : Nat) (f : Frame → Frame) (s : State) : (updFrame n f s).band = s.band := rfl
@[simp] theorem updFrame_power (n : Nat) (f : Frame → Frame) (s : State) : (updFrame n f s).power = s.power := rfl

/-! updDie -/

@[simp] theorem updDie_pending (d : Nat) (f : Die → Die) (s : State) : (updDie d f s).pending = s.pending := rfl
@[simp] theorem updDie_outs (d : Nat) (f : Die → Die) (s : State) : (updDie d f s).outs = s.outs := rfl
@[simp] theorem updDie_free (d : Nat) (f : Die → Die) (s : State) : (updDie d f s).free = s.free := rfl
@[simp] theorem updDie_tick (d : Nat) (f : Die → Die) (s : State) : (updDie d f s).tick = s.tick := rfl
@[simp] theorem updDie_gates (d : Nat) (f : Die → Die) (s : State) : (updDie d f s).gates = s.gates := rfl
@[simp] theorem updDie_sund (d : Nat) (f : Die → Die) (s : State) : (updDie d f s).sund = s.sund := rfl
@[simp] theorem updDie_pav (d : Nat) (f : Die → Die) (s : State) : (updDie d f s).pav = s.pav := rfl
@[simp] theorem updDie_host (d : Nat) (f : Die → Die) (s : State) : (updDie d f s).host = s.host := rfl
@[simp] theorem updDie_mgmt (d : Nat) (f : Die → Die) (s : State) : (updDie d f s).mgmt = s.mgmt := rfl
@[simp] theorem updDie_ctxs (d : Nat) (f : Die → Die) (s : State) : (updDie d f s).ctxs = s.ctxs := rfl
@[simp] theorem updDie_groups (d : Nat) (f : Die → Die) (s : State) : (updDie d f s).groups = s.groups := rfl
@[simp] theorem updDie_frames (d : Nat) (f : Die → Die) (s : State) : (updDie d f s).frames = s.frames := rfl
@[simp] theorem updDie_splq (d : Nat) (f : Die → Die) (s : State) : (updDie d f s).splq = s.splq := rfl
@[simp] theorem updDie_orng (d : Nat) (f : Die → Die) (s : State) : (updDie d f s).orng = s.orng := rfl
@[simp] theorem updDie_fence (d : Nat) (f : Die → Die) (s : State) : (updDie d f s).fence = s.fence := rfl
@[simp] theorem updDie_link (d : Nat) (f : Die → Die) (s : State) : (updDie d f s).link = s.link := rfl
@[simp] theorem updDie_perg (d : Nat) (f : Die → Die) (s : State) : (updDie d f s).perg = s.perg := rfl
@[simp] theorem updDie_grnh (d : Nat) (f : Die → Die) (s : State) : (updDie d f s).grnh = s.grnh := rfl
@[simp] theorem updDie_grnhFills (d : Nat) (f : Die → Die) (s : State) : (updDie d f s).grnhFills = s.grnhFills := rfl
@[simp] theorem updDie_dgst (d : Nat) (f : Die → Die) (s : State) : (updDie d f s).dgst = s.dgst := rfl
@[simp] theorem updDie_otp (d : Nat) (f : Die → Die) (s : State) : (updDie d f s).otp = s.otp := rfl
@[simp] theorem updDie_flash (d : Nat) (f : Die → Die) (s : State) : (updDie d f s).flash = s.flash := rfl
@[simp] theorem updDie_logv (d : Nat) (f : Die → Die) (s : State) : (updDie d f s).logv = s.logv := rfl
@[simp] theorem updDie_boot (d : Nat) (f : Die → Die) (s : State) : (updDie d f s).boot = s.boot := rfl
@[simp] theorem updDie_belv (d : Nat) (f : Die → Die) (s : State) : (updDie d f s).belv = s.belv := rfl
@[simp] theorem updDie_updt (d : Nat) (f : Die → Die) (s : State) : (updDie d f s).updt = s.updt := rfl
@[simp] theorem updDie_band (d : Nat) (f : Die → Die) (s : State) : (updDie d f s).band = s.band := rfl
@[simp] theorem updDie_power (d : Nat) (f : Die → Die) (s : State) : (updDie d f s).power = s.power := rfl

/-! updQ -/

@[simp] theorem updQ_pending (q : Nat) (f : SpillQ → SpillQ) (s : State) : (updQ q f s).pending = s.pending := rfl
@[simp] theorem updQ_outs (q : Nat) (f : SpillQ → SpillQ) (s : State) : (updQ q f s).outs = s.outs := rfl
@[simp] theorem updQ_free (q : Nat) (f : SpillQ → SpillQ) (s : State) : (updQ q f s).free = s.free := rfl
@[simp] theorem updQ_tick (q : Nat) (f : SpillQ → SpillQ) (s : State) : (updQ q f s).tick = s.tick := rfl
@[simp] theorem updQ_gates (q : Nat) (f : SpillQ → SpillQ) (s : State) : (updQ q f s).gates = s.gates := rfl
@[simp] theorem updQ_sund (q : Nat) (f : SpillQ → SpillQ) (s : State) : (updQ q f s).sund = s.sund := rfl
@[simp] theorem updQ_pav (q : Nat) (f : SpillQ → SpillQ) (s : State) : (updQ q f s).pav = s.pav := rfl
@[simp] theorem updQ_host (q : Nat) (f : SpillQ → SpillQ) (s : State) : (updQ q f s).host = s.host := rfl
@[simp] theorem updQ_mgmt (q : Nat) (f : SpillQ → SpillQ) (s : State) : (updQ q f s).mgmt = s.mgmt := rfl
@[simp] theorem updQ_ctxs (q : Nat) (f : SpillQ → SpillQ) (s : State) : (updQ q f s).ctxs = s.ctxs := rfl
@[simp] theorem updQ_groups (q : Nat) (f : SpillQ → SpillQ) (s : State) : (updQ q f s).groups = s.groups := rfl
@[simp] theorem updQ_frames (q : Nat) (f : SpillQ → SpillQ) (s : State) : (updQ q f s).frames = s.frames := rfl
@[simp] theorem updQ_dies (q : Nat) (f : SpillQ → SpillQ) (s : State) : (updQ q f s).dies = s.dies := rfl
@[simp] theorem updQ_orng (q : Nat) (f : SpillQ → SpillQ) (s : State) : (updQ q f s).orng = s.orng := rfl
@[simp] theorem updQ_fence (q : Nat) (f : SpillQ → SpillQ) (s : State) : (updQ q f s).fence = s.fence := rfl
@[simp] theorem updQ_link (q : Nat) (f : SpillQ → SpillQ) (s : State) : (updQ q f s).link = s.link := rfl
@[simp] theorem updQ_perg (q : Nat) (f : SpillQ → SpillQ) (s : State) : (updQ q f s).perg = s.perg := rfl
@[simp] theorem updQ_grnh (q : Nat) (f : SpillQ → SpillQ) (s : State) : (updQ q f s).grnh = s.grnh := rfl
@[simp] theorem updQ_grnhFills (q : Nat) (f : SpillQ → SpillQ) (s : State) : (updQ q f s).grnhFills = s.grnhFills := rfl
@[simp] theorem updQ_dgst (q : Nat) (f : SpillQ → SpillQ) (s : State) : (updQ q f s).dgst = s.dgst := rfl
@[simp] theorem updQ_otp (q : Nat) (f : SpillQ → SpillQ) (s : State) : (updQ q f s).otp = s.otp := rfl
@[simp] theorem updQ_flash (q : Nat) (f : SpillQ → SpillQ) (s : State) : (updQ q f s).flash = s.flash := rfl
@[simp] theorem updQ_logv (q : Nat) (f : SpillQ → SpillQ) (s : State) : (updQ q f s).logv = s.logv := rfl
@[simp] theorem updQ_boot (q : Nat) (f : SpillQ → SpillQ) (s : State) : (updQ q f s).boot = s.boot := rfl
@[simp] theorem updQ_belv (q : Nat) (f : SpillQ → SpillQ) (s : State) : (updQ q f s).belv = s.belv := rfl
@[simp] theorem updQ_updt (q : Nat) (f : SpillQ → SpillQ) (s : State) : (updQ q f s).updt = s.updt := rfl
@[simp] theorem updQ_band (q : Nat) (f : SpillQ → SpillQ) (s : State) : (updQ q f s).band = s.band := rfl
@[simp] theorem updQ_power (q : Nat) (f : SpillQ → SpillQ) (s : State) : (updQ q f s).power = s.power := rfl

/-! updRing -/

@[simp] theorem updRing_pending (r : Nat) (f : CmdRing → CmdRing) (s : State) : (updRing r f s).pending = s.pending := rfl
@[simp] theorem updRing_outs (r : Nat) (f : CmdRing → CmdRing) (s : State) : (updRing r f s).outs = s.outs := rfl
@[simp] theorem updRing_free (r : Nat) (f : CmdRing → CmdRing) (s : State) : (updRing r f s).free = s.free := rfl
@[simp] theorem updRing_tick (r : Nat) (f : CmdRing → CmdRing) (s : State) : (updRing r f s).tick = s.tick := rfl
@[simp] theorem updRing_gates (r : Nat) (f : CmdRing → CmdRing) (s : State) : (updRing r f s).gates = s.gates := rfl
@[simp] theorem updRing_sund (r : Nat) (f : CmdRing → CmdRing) (s : State) : (updRing r f s).sund = s.sund := rfl
@[simp] theorem updRing_pav (r : Nat) (f : CmdRing → CmdRing) (s : State) : (updRing r f s).pav = s.pav := rfl
@[simp] theorem updRing_mgmt (r : Nat) (f : CmdRing → CmdRing) (s : State) : (updRing r f s).mgmt = s.mgmt := rfl
@[simp] theorem updRing_ctxs (r : Nat) (f : CmdRing → CmdRing) (s : State) : (updRing r f s).ctxs = s.ctxs := rfl
@[simp] theorem updRing_groups (r : Nat) (f : CmdRing → CmdRing) (s : State) : (updRing r f s).groups = s.groups := rfl
@[simp] theorem updRing_frames (r : Nat) (f : CmdRing → CmdRing) (s : State) : (updRing r f s).frames = s.frames := rfl
@[simp] theorem updRing_dies (r : Nat) (f : CmdRing → CmdRing) (s : State) : (updRing r f s).dies = s.dies := rfl
@[simp] theorem updRing_splq (r : Nat) (f : CmdRing → CmdRing) (s : State) : (updRing r f s).splq = s.splq := rfl
@[simp] theorem updRing_orng (r : Nat) (f : CmdRing → CmdRing) (s : State) : (updRing r f s).orng = s.orng := rfl
@[simp] theorem updRing_fence (r : Nat) (f : CmdRing → CmdRing) (s : State) : (updRing r f s).fence = s.fence := rfl
@[simp] theorem updRing_link (r : Nat) (f : CmdRing → CmdRing) (s : State) : (updRing r f s).link = s.link := rfl
@[simp] theorem updRing_perg (r : Nat) (f : CmdRing → CmdRing) (s : State) : (updRing r f s).perg = s.perg := rfl
@[simp] theorem updRing_grnh (r : Nat) (f : CmdRing → CmdRing) (s : State) : (updRing r f s).grnh = s.grnh := rfl
@[simp] theorem updRing_grnhFills (r : Nat) (f : CmdRing → CmdRing) (s : State) : (updRing r f s).grnhFills = s.grnhFills := rfl
@[simp] theorem updRing_dgst (r : Nat) (f : CmdRing → CmdRing) (s : State) : (updRing r f s).dgst = s.dgst := rfl
@[simp] theorem updRing_otp (r : Nat) (f : CmdRing → CmdRing) (s : State) : (updRing r f s).otp = s.otp := rfl
@[simp] theorem updRing_flash (r : Nat) (f : CmdRing → CmdRing) (s : State) : (updRing r f s).flash = s.flash := rfl
@[simp] theorem updRing_logv (r : Nat) (f : CmdRing → CmdRing) (s : State) : (updRing r f s).logv = s.logv := rfl
@[simp] theorem updRing_boot (r : Nat) (f : CmdRing → CmdRing) (s : State) : (updRing r f s).boot = s.boot := rfl
@[simp] theorem updRing_belv (r : Nat) (f : CmdRing → CmdRing) (s : State) : (updRing r f s).belv = s.belv := rfl
@[simp] theorem updRing_updt (r : Nat) (f : CmdRing → CmdRing) (s : State) : (updRing r f s).updt = s.updt := rfl
@[simp] theorem updRing_band (r : Nat) (f : CmdRing → CmdRing) (s : State) : (updRing r f s).band = s.band := rfl
@[simp] theorem updRing_power (r : Nat) (f : CmdRing → CmdRing) (s : State) : (updRing r f s).power = s.power := rfl

/-! updCpl -/

@[simp] theorem updCpl_pending (r : Nat) (f : CplRing → CplRing) (s : State) : (updCpl r f s).pending = s.pending := rfl
@[simp] theorem updCpl_outs (r : Nat) (f : CplRing → CplRing) (s : State) : (updCpl r f s).outs = s.outs := rfl
@[simp] theorem updCpl_free (r : Nat) (f : CplRing → CplRing) (s : State) : (updCpl r f s).free = s.free := rfl
@[simp] theorem updCpl_tick (r : Nat) (f : CplRing → CplRing) (s : State) : (updCpl r f s).tick = s.tick := rfl
@[simp] theorem updCpl_gates (r : Nat) (f : CplRing → CplRing) (s : State) : (updCpl r f s).gates = s.gates := rfl
@[simp] theorem updCpl_sund (r : Nat) (f : CplRing → CplRing) (s : State) : (updCpl r f s).sund = s.sund := rfl
@[simp] theorem updCpl_pav (r : Nat) (f : CplRing → CplRing) (s : State) : (updCpl r f s).pav = s.pav := rfl
@[simp] theorem updCpl_mgmt (r : Nat) (f : CplRing → CplRing) (s : State) : (updCpl r f s).mgmt = s.mgmt := rfl
@[simp] theorem updCpl_ctxs (r : Nat) (f : CplRing → CplRing) (s : State) : (updCpl r f s).ctxs = s.ctxs := rfl
@[simp] theorem updCpl_groups (r : Nat) (f : CplRing → CplRing) (s : State) : (updCpl r f s).groups = s.groups := rfl
@[simp] theorem updCpl_frames (r : Nat) (f : CplRing → CplRing) (s : State) : (updCpl r f s).frames = s.frames := rfl
@[simp] theorem updCpl_dies (r : Nat) (f : CplRing → CplRing) (s : State) : (updCpl r f s).dies = s.dies := rfl
@[simp] theorem updCpl_splq (r : Nat) (f : CplRing → CplRing) (s : State) : (updCpl r f s).splq = s.splq := rfl
@[simp] theorem updCpl_orng (r : Nat) (f : CplRing → CplRing) (s : State) : (updCpl r f s).orng = s.orng := rfl
@[simp] theorem updCpl_fence (r : Nat) (f : CplRing → CplRing) (s : State) : (updCpl r f s).fence = s.fence := rfl
@[simp] theorem updCpl_link (r : Nat) (f : CplRing → CplRing) (s : State) : (updCpl r f s).link = s.link := rfl
@[simp] theorem updCpl_perg (r : Nat) (f : CplRing → CplRing) (s : State) : (updCpl r f s).perg = s.perg := rfl
@[simp] theorem updCpl_grnh (r : Nat) (f : CplRing → CplRing) (s : State) : (updCpl r f s).grnh = s.grnh := rfl
@[simp] theorem updCpl_grnhFills (r : Nat) (f : CplRing → CplRing) (s : State) : (updCpl r f s).grnhFills = s.grnhFills := rfl
@[simp] theorem updCpl_dgst (r : Nat) (f : CplRing → CplRing) (s : State) : (updCpl r f s).dgst = s.dgst := rfl
@[simp] theorem updCpl_otp (r : Nat) (f : CplRing → CplRing) (s : State) : (updCpl r f s).otp = s.otp := rfl
@[simp] theorem updCpl_flash (r : Nat) (f : CplRing → CplRing) (s : State) : (updCpl r f s).flash = s.flash := rfl
@[simp] theorem updCpl_logv (r : Nat) (f : CplRing → CplRing) (s : State) : (updCpl r f s).logv = s.logv := rfl
@[simp] theorem updCpl_boot (r : Nat) (f : CplRing → CplRing) (s : State) : (updCpl r f s).boot = s.boot := rfl
@[simp] theorem updCpl_belv (r : Nat) (f : CplRing → CplRing) (s : State) : (updCpl r f s).belv = s.belv := rfl
@[simp] theorem updCpl_updt (r : Nat) (f : CplRing → CplRing) (s : State) : (updCpl r f s).updt = s.updt := rfl
@[simp] theorem updCpl_band (r : Nat) (f : CplRing → CplRing) (s : State) : (updCpl r f s).band = s.band := rfl
@[simp] theorem updCpl_power (r : Nat) (f : CplRing → CplRing) (s : State) : (updCpl r f s).power = s.power := rfl

/-! emit -/

@[simp] theorem emit_pending (o : Out) (s : State) : (emit o s).pending = s.pending := rfl
@[simp] theorem emit_free (o : Out) (s : State) : (emit o s).free = s.free := rfl
@[simp] theorem emit_tick (o : Out) (s : State) : (emit o s).tick = s.tick := rfl
@[simp] theorem emit_gates (o : Out) (s : State) : (emit o s).gates = s.gates := rfl
@[simp] theorem emit_sund (o : Out) (s : State) : (emit o s).sund = s.sund := rfl
@[simp] theorem emit_pav (o : Out) (s : State) : (emit o s).pav = s.pav := rfl
@[simp] theorem emit_host (o : Out) (s : State) : (emit o s).host = s.host := rfl
@[simp] theorem emit_mgmt (o : Out) (s : State) : (emit o s).mgmt = s.mgmt := rfl
@[simp] theorem emit_ctxs (o : Out) (s : State) : (emit o s).ctxs = s.ctxs := rfl
@[simp] theorem emit_groups (o : Out) (s : State) : (emit o s).groups = s.groups := rfl
@[simp] theorem emit_frames (o : Out) (s : State) : (emit o s).frames = s.frames := rfl
@[simp] theorem emit_dies (o : Out) (s : State) : (emit o s).dies = s.dies := rfl
@[simp] theorem emit_splq (o : Out) (s : State) : (emit o s).splq = s.splq := rfl
@[simp] theorem emit_orng (o : Out) (s : State) : (emit o s).orng = s.orng := rfl
@[simp] theorem emit_fence (o : Out) (s : State) : (emit o s).fence = s.fence := rfl
@[simp] theorem emit_link (o : Out) (s : State) : (emit o s).link = s.link := rfl
@[simp] theorem emit_perg (o : Out) (s : State) : (emit o s).perg = s.perg := rfl
@[simp] theorem emit_grnh (o : Out) (s : State) : (emit o s).grnh = s.grnh := rfl
@[simp] theorem emit_grnhFills (o : Out) (s : State) : (emit o s).grnhFills = s.grnhFills := rfl
@[simp] theorem emit_dgst (o : Out) (s : State) : (emit o s).dgst = s.dgst := rfl
@[simp] theorem emit_otp (o : Out) (s : State) : (emit o s).otp = s.otp := rfl
@[simp] theorem emit_flash (o : Out) (s : State) : (emit o s).flash = s.flash := rfl
@[simp] theorem emit_logv (o : Out) (s : State) : (emit o s).logv = s.logv := rfl
@[simp] theorem emit_boot (o : Out) (s : State) : (emit o s).boot = s.boot := rfl
@[simp] theorem emit_belv (o : Out) (s : State) : (emit o s).belv = s.belv := rfl
@[simp] theorem emit_updt (o : Out) (s : State) : (emit o s).updt = s.updt := rfl
@[simp] theorem emit_band (o : Out) (s : State) : (emit o s).band = s.band := rfl
@[simp] theorem emit_power (o : Out) (s : State) : (emit o s).power = s.power := rfl

/-! draw -/

@[simp] theorem draw_pending (s : State) : (draw s).2.pending = s.pending := rfl
@[simp] theorem draw_outs (s : State) : (draw s).2.outs = s.outs := rfl
@[simp] theorem draw_tick (s : State) : (draw s).2.tick = s.tick := rfl
@[simp] theorem draw_gates (s : State) : (draw s).2.gates = s.gates := rfl
@[simp] theorem draw_sund (s : State) : (draw s).2.sund = s.sund := rfl
@[simp] theorem draw_pav (s : State) : (draw s).2.pav = s.pav := rfl
@[simp] theorem draw_host (s : State) : (draw s).2.host = s.host := rfl
@[simp] theorem draw_mgmt (s : State) : (draw s).2.mgmt = s.mgmt := rfl
@[simp] theorem draw_ctxs (s : State) : (draw s).2.ctxs = s.ctxs := rfl
@[simp] theorem draw_groups (s : State) : (draw s).2.groups = s.groups := rfl
@[simp] theorem draw_frames (s : State) : (draw s).2.frames = s.frames := rfl
@[simp] theorem draw_dies (s : State) : (draw s).2.dies = s.dies := rfl
@[simp] theorem draw_splq (s : State) : (draw s).2.splq = s.splq := rfl
@[simp] theorem draw_orng (s : State) : (draw s).2.orng = s.orng := rfl
@[simp] theorem draw_fence (s : State) : (draw s).2.fence = s.fence := rfl
@[simp] theorem draw_link (s : State) : (draw s).2.link = s.link := rfl
@[simp] theorem draw_perg (s : State) : (draw s).2.perg = s.perg := rfl
@[simp] theorem draw_grnh (s : State) : (draw s).2.grnh = s.grnh := rfl
@[simp] theorem draw_grnhFills (s : State) : (draw s).2.grnhFills = s.grnhFills := rfl
@[simp] theorem draw_dgst (s : State) : (draw s).2.dgst = s.dgst := rfl
@[simp] theorem draw_otp (s : State) : (draw s).2.otp = s.otp := rfl
@[simp] theorem draw_flash (s : State) : (draw s).2.flash = s.flash := rfl
@[simp] theorem draw_logv (s : State) : (draw s).2.logv = s.logv := rfl
@[simp] theorem draw_boot (s : State) : (draw s).2.boot = s.boot := rfl
@[simp] theorem draw_belv (s : State) : (draw s).2.belv = s.belv := rfl
@[simp] theorem draw_updt (s : State) : (draw s).2.updt = s.updt := rfl
@[simp] theorem draw_band (s : State) : (draw s).2.band = s.band := rfl
@[simp] theorem draw_power (s : State) : (draw s).2.power = s.power := rfl

/-! putQ -/

@[simp] theorem putQ_pending (n : Nat) (q : SpillQ) (s : State) : (putQ n q s).pending = s.pending := rfl
@[simp] theorem putQ_free (n : Nat) (q : SpillQ) (s : State) : (putQ n q s).free = s.free := rfl
@[simp] theorem putQ_tick (n : Nat) (q : SpillQ) (s : State) : (putQ n q s).tick = s.tick := rfl
@[simp] theorem putQ_gates (n : Nat) (q : SpillQ) (s : State) : (putQ n q s).gates = s.gates := rfl
@[simp] theorem putQ_sund (n : Nat) (q : SpillQ) (s : State) : (putQ n q s).sund = s.sund := rfl
@[simp] theorem putQ_pav (n : Nat) (q : SpillQ) (s : State) : (putQ n q s).pav = s.pav := rfl
@[simp] theorem putQ_host (n : Nat) (q : SpillQ) (s : State) : (putQ n q s).host = s.host := rfl
@[simp] theorem putQ_mgmt (n : Nat) (q : SpillQ) (s : State) : (putQ n q s).mgmt = s.mgmt := rfl
@[simp] theorem putQ_ctxs (n : Nat) (q : SpillQ) (s : State) : (putQ n q s).ctxs = s.ctxs := rfl
@[simp] theorem putQ_groups (n : Nat) (q : SpillQ) (s : State) : (putQ n q s).groups = s.groups := rfl
@[simp] theorem putQ_frames (n : Nat) (q : SpillQ) (s : State) : (putQ n q s).frames = s.frames := rfl
@[simp] theorem putQ_dies (n : Nat) (q : SpillQ) (s : State) : (putQ n q s).dies = s.dies := rfl
@[simp] theorem putQ_orng (n : Nat) (q : SpillQ) (s : State) : (putQ n q s).orng = s.orng := rfl
@[simp] theorem putQ_fence (n : Nat) (q : SpillQ) (s : State) : (putQ n q s).fence = s.fence := rfl
@[simp] theorem putQ_link (n : Nat) (q : SpillQ) (s : State) : (putQ n q s).link = s.link := rfl
@[simp] theorem putQ_perg (n : Nat) (q : SpillQ) (s : State) : (putQ n q s).perg = s.perg := rfl
@[simp] theorem putQ_grnh (n : Nat) (q : SpillQ) (s : State) : (putQ n q s).grnh = s.grnh := rfl
@[simp] theorem putQ_grnhFills (n : Nat) (q : SpillQ) (s : State) : (putQ n q s).grnhFills = s.grnhFills := rfl
@[simp] theorem putQ_dgst (n : Nat) (q : SpillQ) (s : State) : (putQ n q s).dgst = s.dgst := rfl
@[simp] theorem putQ_otp (n : Nat) (q : SpillQ) (s : State) : (putQ n q s).otp = s.otp := rfl
@[simp] theorem putQ_flash (n : Nat) (q : SpillQ) (s : State) : (putQ n q s).flash = s.flash := rfl
@[simp] theorem putQ_logv (n : Nat) (q : SpillQ) (s : State) : (putQ n q s).logv = s.logv := rfl
@[simp] theorem putQ_boot (n : Nat) (q : SpillQ) (s : State) : (putQ n q s).boot = s.boot := rfl
@[simp] theorem putQ_belv (n : Nat) (q : SpillQ) (s : State) : (putQ n q s).belv = s.belv := rfl
@[simp] theorem putQ_updt (n : Nat) (q : SpillQ) (s : State) : (putQ n q s).updt = s.updt := rfl
@[simp] theorem putQ_band (n : Nat) (q : SpillQ) (s : State) : (putQ n q s).band = s.band := rfl
@[simp] theorem putQ_power (n : Nat) (q : SpillQ) (s : State) : (putQ n q s).power = s.power := rfl

/-! postRecord -/

@[simp] theorem postRecord_pending (q k : Nat) (p : Bytes) (s : State) : (postRecord q k p s).pending = s.pending := rfl
@[simp] theorem postRecord_free (q k : Nat) (p : Bytes) (s : State) : (postRecord q k p s).free = s.free := rfl
@[simp] theorem postRecord_tick (q k : Nat) (p : Bytes) (s : State) : (postRecord q k p s).tick = s.tick := rfl
@[simp] theorem postRecord_gates (q k : Nat) (p : Bytes) (s : State) : (postRecord q k p s).gates = s.gates := rfl
@[simp] theorem postRecord_sund (q k : Nat) (p : Bytes) (s : State) : (postRecord q k p s).sund = s.sund := rfl
@[simp] theorem postRecord_pav (q k : Nat) (p : Bytes) (s : State) : (postRecord q k p s).pav = s.pav := rfl
@[simp] theorem postRecord_host (q k : Nat) (p : Bytes) (s : State) : (postRecord q k p s).host = s.host := rfl
@[simp] theorem postRecord_mgmt (q k : Nat) (p : Bytes) (s : State) : (postRecord q k p s).mgmt = s.mgmt := rfl
@[simp] theorem postRecord_ctxs (q k : Nat) (p : Bytes) (s : State) : (postRecord q k p s).ctxs = s.ctxs := rfl
@[simp] theorem postRecord_groups (q k : Nat) (p : Bytes) (s : State) : (postRecord q k p s).groups = s.groups := rfl
@[simp] theorem postRecord_frames (q k : Nat) (p : Bytes) (s : State) : (postRecord q k p s).frames = s.frames := rfl
@[simp] theorem postRecord_dies (q k : Nat) (p : Bytes) (s : State) : (postRecord q k p s).dies = s.dies := rfl
@[simp] theorem postRecord_orng (q k : Nat) (p : Bytes) (s : State) : (postRecord q k p s).orng = s.orng := rfl
@[simp] theorem postRecord_fence (q k : Nat) (p : Bytes) (s : State) : (postRecord q k p s).fence = s.fence := rfl
@[simp] theorem postRecord_link (q k : Nat) (p : Bytes) (s : State) : (postRecord q k p s).link = s.link := rfl
@[simp] theorem postRecord_perg (q k : Nat) (p : Bytes) (s : State) : (postRecord q k p s).perg = s.perg := rfl
@[simp] theorem postRecord_grnh (q k : Nat) (p : Bytes) (s : State) : (postRecord q k p s).grnh = s.grnh := rfl
@[simp] theorem postRecord_grnhFills (q k : Nat) (p : Bytes) (s : State) : (postRecord q k p s).grnhFills = s.grnhFills := rfl
@[simp] theorem postRecord_dgst (q k : Nat) (p : Bytes) (s : State) : (postRecord q k p s).dgst = s.dgst := rfl
@[simp] theorem postRecord_otp (q k : Nat) (p : Bytes) (s : State) : (postRecord q k p s).otp = s.otp := rfl
@[simp] theorem postRecord_flash (q k : Nat) (p : Bytes) (s : State) : (postRecord q k p s).flash = s.flash := rfl
@[simp] theorem postRecord_logv (q k : Nat) (p : Bytes) (s : State) : (postRecord q k p s).logv = s.logv := rfl
@[simp] theorem postRecord_boot (q k : Nat) (p : Bytes) (s : State) : (postRecord q k p s).boot = s.boot := rfl
@[simp] theorem postRecord_belv (q k : Nat) (p : Bytes) (s : State) : (postRecord q k p s).belv = s.belv := rfl
@[simp] theorem postRecord_updt (q k : Nat) (p : Bytes) (s : State) : (postRecord q k p s).updt = s.updt := rfl
@[simp] theorem postRecord_band (q k : Nat) (p : Bytes) (s : State) : (postRecord q k p s).band = s.band := rfl
@[simp] theorem postRecord_power (q k : Nat) (p : Bytes) (s : State) : (postRecord q k p s).power = s.power := rfl

/-! countUp -/

@[simp] theorem countUp_pending (i c k : Nat) (s : State) : (countUp i c k s).pending = s.pending := rfl
@[simp] theorem countUp_outs (i c k : Nat) (s : State) : (countUp i c k s).outs = s.outs := rfl
@[simp] theorem countUp_free (i c k : Nat) (s : State) : (countUp i c k s).free = s.free := rfl
@[simp] theorem countUp_tick (i c k : Nat) (s : State) : (countUp i c k s).tick = s.tick := rfl
@[simp] theorem countUp_gates (i c k : Nat) (s : State) : (countUp i c k s).gates = s.gates := rfl
@[simp] theorem countUp_sund (i c k : Nat) (s : State) : (countUp i c k s).sund = s.sund := rfl
@[simp] theorem countUp_pav (i c k : Nat) (s : State) : (countUp i c k s).pav = s.pav := rfl
@[simp] theorem countUp_mgmt (i c k : Nat) (s : State) : (countUp i c k s).mgmt = s.mgmt := rfl
@[simp] theorem countUp_groups (i c k : Nat) (s : State) : (countUp i c k s).groups = s.groups := rfl
@[simp] theorem countUp_frames (i c k : Nat) (s : State) : (countUp i c k s).frames = s.frames := rfl
@[simp] theorem countUp_dies (i c k : Nat) (s : State) : (countUp i c k s).dies = s.dies := rfl
@[simp] theorem countUp_splq (i c k : Nat) (s : State) : (countUp i c k s).splq = s.splq := rfl
@[simp] theorem countUp_orng (i c k : Nat) (s : State) : (countUp i c k s).orng = s.orng := rfl
@[simp] theorem countUp_fence (i c k : Nat) (s : State) : (countUp i c k s).fence = s.fence := rfl
@[simp] theorem countUp_link (i c k : Nat) (s : State) : (countUp i c k s).link = s.link := rfl
@[simp] theorem countUp_perg (i c k : Nat) (s : State) : (countUp i c k s).perg = s.perg := rfl
@[simp] theorem countUp_grnh (i c k : Nat) (s : State) : (countUp i c k s).grnh = s.grnh := rfl
@[simp] theorem countUp_grnhFills (i c k : Nat) (s : State) : (countUp i c k s).grnhFills = s.grnhFills := rfl
@[simp] theorem countUp_dgst (i c k : Nat) (s : State) : (countUp i c k s).dgst = s.dgst := rfl
@[simp] theorem countUp_otp (i c k : Nat) (s : State) : (countUp i c k s).otp = s.otp := rfl
@[simp] theorem countUp_flash (i c k : Nat) (s : State) : (countUp i c k s).flash = s.flash := rfl
@[simp] theorem countUp_logv (i c k : Nat) (s : State) : (countUp i c k s).logv = s.logv := rfl
@[simp] theorem countUp_boot (i c k : Nat) (s : State) : (countUp i c k s).boot = s.boot := rfl
@[simp] theorem countUp_belv (i c k : Nat) (s : State) : (countUp i c k s).belv = s.belv := rfl
@[simp] theorem countUp_updt (i c k : Nat) (s : State) : (countUp i c k s).updt = s.updt := rfl
@[simp] theorem countUp_band (i c k : Nat) (s : State) : (countUp i c k s).band = s.band := rfl
@[simp] theorem countUp_power (i c k : Nat) (s : State) : (countUp i c k s).power = s.power := rfl

/-! updEng -/

@[simp] theorem updEng_pending (e : Nat) (f : Engine → Engine) (s : State) : (updEng e f s).pending = s.pending := rfl
@[simp] theorem updEng_outs (e : Nat) (f : Engine → Engine) (s : State) : (updEng e f s).outs = s.outs := rfl
@[simp] theorem updEng_free (e : Nat) (f : Engine → Engine) (s : State) : (updEng e f s).free = s.free := rfl
@[simp] theorem updEng_tick (e : Nat) (f : Engine → Engine) (s : State) : (updEng e f s).tick = s.tick := rfl
@[simp] theorem updEng_gates (e : Nat) (f : Engine → Engine) (s : State) : (updEng e f s).gates = s.gates := rfl
@[simp] theorem updEng_sund (e : Nat) (f : Engine → Engine) (s : State) : (updEng e f s).sund = s.sund := rfl
@[simp] theorem updEng_pav (e : Nat) (f : Engine → Engine) (s : State) : (updEng e f s).pav = s.pav := rfl
@[simp] theorem updEng_host (e : Nat) (f : Engine → Engine) (s : State) : (updEng e f s).host = s.host := rfl
@[simp] theorem updEng_mgmt (e : Nat) (f : Engine → Engine) (s : State) : (updEng e f s).mgmt = s.mgmt := rfl
@[simp] theorem updEng_ctxs (e : Nat) (f : Engine → Engine) (s : State) : (updEng e f s).ctxs = s.ctxs := rfl
@[simp] theorem updEng_groups (e : Nat) (f : Engine → Engine) (s : State) : (updEng e f s).groups = s.groups := rfl
@[simp] theorem updEng_frames (e : Nat) (f : Engine → Engine) (s : State) : (updEng e f s).frames = s.frames := rfl
@[simp] theorem updEng_dies (e : Nat) (f : Engine → Engine) (s : State) : (updEng e f s).dies = s.dies := rfl
@[simp] theorem updEng_splq (e : Nat) (f : Engine → Engine) (s : State) : (updEng e f s).splq = s.splq := rfl
@[simp] theorem updEng_orng (e : Nat) (f : Engine → Engine) (s : State) : (updEng e f s).orng = s.orng := rfl
@[simp] theorem updEng_fence (e : Nat) (f : Engine → Engine) (s : State) : (updEng e f s).fence = s.fence := rfl
@[simp] theorem updEng_perg (e : Nat) (f : Engine → Engine) (s : State) : (updEng e f s).perg = s.perg := rfl
@[simp] theorem updEng_grnh (e : Nat) (f : Engine → Engine) (s : State) : (updEng e f s).grnh = s.grnh := rfl
@[simp] theorem updEng_grnhFills (e : Nat) (f : Engine → Engine) (s : State) : (updEng e f s).grnhFills = s.grnhFills := rfl
@[simp] theorem updEng_dgst (e : Nat) (f : Engine → Engine) (s : State) : (updEng e f s).dgst = s.dgst := rfl
@[simp] theorem updEng_otp (e : Nat) (f : Engine → Engine) (s : State) : (updEng e f s).otp = s.otp := rfl
@[simp] theorem updEng_flash (e : Nat) (f : Engine → Engine) (s : State) : (updEng e f s).flash = s.flash := rfl
@[simp] theorem updEng_logv (e : Nat) (f : Engine → Engine) (s : State) : (updEng e f s).logv = s.logv := rfl
@[simp] theorem updEng_boot (e : Nat) (f : Engine → Engine) (s : State) : (updEng e f s).boot = s.boot := rfl
@[simp] theorem updEng_belv (e : Nat) (f : Engine → Engine) (s : State) : (updEng e f s).belv = s.belv := rfl
@[simp] theorem updEng_updt (e : Nat) (f : Engine → Engine) (s : State) : (updEng e f s).updt = s.updt := rfl
@[simp] theorem updEng_band (e : Nat) (f : Engine → Engine) (s : State) : (updEng e f s).band = s.band := rfl
@[simp] theorem updEng_power (e : Nat) (f : Engine → Engine) (s : State) : (updEng e f s).power = s.power := rfl

/-! updJob -/

@[simp] theorem updJob_pending (j : Nat) (f : Job → Job) (s : State) : (updJob j f s).pending = s.pending := rfl
@[simp] theorem updJob_outs (j : Nat) (f : Job → Job) (s : State) : (updJob j f s).outs = s.outs := rfl
@[simp] theorem updJob_free (j : Nat) (f : Job → Job) (s : State) : (updJob j f s).free = s.free := rfl
@[simp] theorem updJob_tick (j : Nat) (f : Job → Job) (s : State) : (updJob j f s).tick = s.tick := rfl
@[simp] theorem updJob_gates (j : Nat) (f : Job → Job) (s : State) : (updJob j f s).gates = s.gates := rfl
@[simp] theorem updJob_sund (j : Nat) (f : Job → Job) (s : State) : (updJob j f s).sund = s.sund := rfl
@[simp] theorem updJob_pav (j : Nat) (f : Job → Job) (s : State) : (updJob j f s).pav = s.pav := rfl
@[simp] theorem updJob_host (j : Nat) (f : Job → Job) (s : State) : (updJob j f s).host = s.host := rfl
@[simp] theorem updJob_mgmt (j : Nat) (f : Job → Job) (s : State) : (updJob j f s).mgmt = s.mgmt := rfl
@[simp] theorem updJob_ctxs (j : Nat) (f : Job → Job) (s : State) : (updJob j f s).ctxs = s.ctxs := rfl
@[simp] theorem updJob_groups (j : Nat) (f : Job → Job) (s : State) : (updJob j f s).groups = s.groups := rfl
@[simp] theorem updJob_frames (j : Nat) (f : Job → Job) (s : State) : (updJob j f s).frames = s.frames := rfl
@[simp] theorem updJob_dies (j : Nat) (f : Job → Job) (s : State) : (updJob j f s).dies = s.dies := rfl
@[simp] theorem updJob_splq (j : Nat) (f : Job → Job) (s : State) : (updJob j f s).splq = s.splq := rfl
@[simp] theorem updJob_orng (j : Nat) (f : Job → Job) (s : State) : (updJob j f s).orng = s.orng := rfl
@[simp] theorem updJob_fence (j : Nat) (f : Job → Job) (s : State) : (updJob j f s).fence = s.fence := rfl
@[simp] theorem updJob_perg (j : Nat) (f : Job → Job) (s : State) : (updJob j f s).perg = s.perg := rfl
@[simp] theorem updJob_grnh (j : Nat) (f : Job → Job) (s : State) : (updJob j f s).grnh = s.grnh := rfl
@[simp] theorem updJob_grnhFills (j : Nat) (f : Job → Job) (s : State) : (updJob j f s).grnhFills = s.grnhFills := rfl
@[simp] theorem updJob_dgst (j : Nat) (f : Job → Job) (s : State) : (updJob j f s).dgst = s.dgst := rfl
@[simp] theorem updJob_otp (j : Nat) (f : Job → Job) (s : State) : (updJob j f s).otp = s.otp := rfl
@[simp] theorem updJob_flash (j : Nat) (f : Job → Job) (s : State) : (updJob j f s).flash = s.flash := rfl
@[simp] theorem updJob_logv (j : Nat) (f : Job → Job) (s : State) : (updJob j f s).logv = s.logv := rfl
@[simp] theorem updJob_boot (j : Nat) (f : Job → Job) (s : State) : (updJob j f s).boot = s.boot := rfl
@[simp] theorem updJob_belv (j : Nat) (f : Job → Job) (s : State) : (updJob j f s).belv = s.belv := rfl
@[simp] theorem updJob_updt (j : Nat) (f : Job → Job) (s : State) : (updJob j f s).updt = s.updt := rfl
@[simp] theorem updJob_band (j : Nat) (f : Job → Job) (s : State) : (updJob j f s).band = s.band := rfl
@[simp] theorem updJob_power (j : Nat) (f : Job → Job) (s : State) : (updJob j f s).power = s.power := rfl

/-! updChan -/

@[simp] theorem updChan_pending (n : Nat) (f : Chan → Chan) (s : State) : (updChan n f s).pending = s.pending := rfl
@[simp] theorem updChan_outs (n : Nat) (f : Chan → Chan) (s : State) : (updChan n f s).outs = s.outs := rfl
@[simp] theorem updChan_free (n : Nat) (f : Chan → Chan) (s : State) : (updChan n f s).free = s.free := rfl
@[simp] theorem updChan_tick (n : Nat) (f : Chan → Chan) (s : State) : (updChan n f s).tick = s.tick := rfl
@[simp] theorem updChan_gates (n : Nat) (f : Chan → Chan) (s : State) : (updChan n f s).gates = s.gates := rfl
@[simp] theorem updChan_sund (n : Nat) (f : Chan → Chan) (s : State) : (updChan n f s).sund = s.sund := rfl
@[simp] theorem updChan_pav (n : Nat) (f : Chan → Chan) (s : State) : (updChan n f s).pav = s.pav := rfl
@[simp] theorem updChan_host (n : Nat) (f : Chan → Chan) (s : State) : (updChan n f s).host = s.host := rfl
@[simp] theorem updChan_mgmt (n : Nat) (f : Chan → Chan) (s : State) : (updChan n f s).mgmt = s.mgmt := rfl
@[simp] theorem updChan_ctxs (n : Nat) (f : Chan → Chan) (s : State) : (updChan n f s).ctxs = s.ctxs := rfl
@[simp] theorem updChan_groups (n : Nat) (f : Chan → Chan) (s : State) : (updChan n f s).groups = s.groups := rfl
@[simp] theorem updChan_frames (n : Nat) (f : Chan → Chan) (s : State) : (updChan n f s).frames = s.frames := rfl
@[simp] theorem updChan_dies (n : Nat) (f : Chan → Chan) (s : State) : (updChan n f s).dies = s.dies := rfl
@[simp] theorem updChan_splq (n : Nat) (f : Chan → Chan) (s : State) : (updChan n f s).splq = s.splq := rfl
@[simp] theorem updChan_orng (n : Nat) (f : Chan → Chan) (s : State) : (updChan n f s).orng = s.orng := rfl
@[simp] theorem updChan_link (n : Nat) (f : Chan → Chan) (s : State) : (updChan n f s).link = s.link := rfl
@[simp] theorem updChan_perg (n : Nat) (f : Chan → Chan) (s : State) : (updChan n f s).perg = s.perg := rfl
@[simp] theorem updChan_grnh (n : Nat) (f : Chan → Chan) (s : State) : (updChan n f s).grnh = s.grnh := rfl
@[simp] theorem updChan_grnhFills (n : Nat) (f : Chan → Chan) (s : State) : (updChan n f s).grnhFills = s.grnhFills := rfl
@[simp] theorem updChan_dgst (n : Nat) (f : Chan → Chan) (s : State) : (updChan n f s).dgst = s.dgst := rfl
@[simp] theorem updChan_otp (n : Nat) (f : Chan → Chan) (s : State) : (updChan n f s).otp = s.otp := rfl
@[simp] theorem updChan_flash (n : Nat) (f : Chan → Chan) (s : State) : (updChan n f s).flash = s.flash := rfl
@[simp] theorem updChan_logv (n : Nat) (f : Chan → Chan) (s : State) : (updChan n f s).logv = s.logv := rfl
@[simp] theorem updChan_boot (n : Nat) (f : Chan → Chan) (s : State) : (updChan n f s).boot = s.boot := rfl
@[simp] theorem updChan_belv (n : Nat) (f : Chan → Chan) (s : State) : (updChan n f s).belv = s.belv := rfl
@[simp] theorem updChan_updt (n : Nat) (f : Chan → Chan) (s : State) : (updChan n f s).updt = s.updt := rfl
@[simp] theorem updChan_band (n : Nat) (f : Chan → Chan) (s : State) : (updChan n f s).band = s.band := rfl
@[simp] theorem updChan_power (n : Nat) (f : Chan → Chan) (s : State) : (updChan n f s).power = s.power := rfl

/-! updSlot -/

@[simp] theorem updSlot_pending (n : Nat) (f : Slot → Slot) (s : State) : (updSlot n f s).pending = s.pending := rfl
@[simp] theorem updSlot_outs (n : Nat) (f : Slot → Slot) (s : State) : (updSlot n f s).outs = s.outs := rfl
@[simp] theorem updSlot_free (n : Nat) (f : Slot → Slot) (s : State) : (updSlot n f s).free = s.free := rfl
@[simp] theorem updSlot_tick (n : Nat) (f : Slot → Slot) (s : State) : (updSlot n f s).tick = s.tick := rfl
@[simp] theorem updSlot_gates (n : Nat) (f : Slot → Slot) (s : State) : (updSlot n f s).gates = s.gates := rfl
@[simp] theorem updSlot_sund (n : Nat) (f : Slot → Slot) (s : State) : (updSlot n f s).sund = s.sund := rfl
@[simp] theorem updSlot_pav (n : Nat) (f : Slot → Slot) (s : State) : (updSlot n f s).pav = s.pav := rfl
@[simp] theorem updSlot_host (n : Nat) (f : Slot → Slot) (s : State) : (updSlot n f s).host = s.host := rfl
@[simp] theorem updSlot_mgmt (n : Nat) (f : Slot → Slot) (s : State) : (updSlot n f s).mgmt = s.mgmt := rfl
@[simp] theorem updSlot_ctxs (n : Nat) (f : Slot → Slot) (s : State) : (updSlot n f s).ctxs = s.ctxs := rfl
@[simp] theorem updSlot_groups (n : Nat) (f : Slot → Slot) (s : State) : (updSlot n f s).groups = s.groups := rfl
@[simp] theorem updSlot_frames (n : Nat) (f : Slot → Slot) (s : State) : (updSlot n f s).frames = s.frames := rfl
@[simp] theorem updSlot_dies (n : Nat) (f : Slot → Slot) (s : State) : (updSlot n f s).dies = s.dies := rfl
@[simp] theorem updSlot_splq (n : Nat) (f : Slot → Slot) (s : State) : (updSlot n f s).splq = s.splq := rfl
@[simp] theorem updSlot_fence (n : Nat) (f : Slot → Slot) (s : State) : (updSlot n f s).fence = s.fence := rfl
@[simp] theorem updSlot_link (n : Nat) (f : Slot → Slot) (s : State) : (updSlot n f s).link = s.link := rfl
@[simp] theorem updSlot_perg (n : Nat) (f : Slot → Slot) (s : State) : (updSlot n f s).perg = s.perg := rfl
@[simp] theorem updSlot_grnh (n : Nat) (f : Slot → Slot) (s : State) : (updSlot n f s).grnh = s.grnh := rfl
@[simp] theorem updSlot_grnhFills (n : Nat) (f : Slot → Slot) (s : State) : (updSlot n f s).grnhFills = s.grnhFills := rfl
@[simp] theorem updSlot_dgst (n : Nat) (f : Slot → Slot) (s : State) : (updSlot n f s).dgst = s.dgst := rfl
@[simp] theorem updSlot_otp (n : Nat) (f : Slot → Slot) (s : State) : (updSlot n f s).otp = s.otp := rfl
@[simp] theorem updSlot_flash (n : Nat) (f : Slot → Slot) (s : State) : (updSlot n f s).flash = s.flash := rfl
@[simp] theorem updSlot_logv (n : Nat) (f : Slot → Slot) (s : State) : (updSlot n f s).logv = s.logv := rfl
@[simp] theorem updSlot_boot (n : Nat) (f : Slot → Slot) (s : State) : (updSlot n f s).boot = s.boot := rfl
@[simp] theorem updSlot_belv (n : Nat) (f : Slot → Slot) (s : State) : (updSlot n f s).belv = s.belv := rfl
@[simp] theorem updSlot_updt (n : Nat) (f : Slot → Slot) (s : State) : (updSlot n f s).updt = s.updt := rfl
@[simp] theorem updSlot_band (n : Nat) (f : Slot → Slot) (s : State) : (updSlot n f s).band = s.band := rfl
@[simp] theorem updSlot_power (n : Nat) (f : Slot → Slot) (s : State) : (updSlot n f s).power = s.power := rfl

/-! updDrop -/

@[simp] theorem updDrop_pending (n : Nat) (f : Drop → Drop) (s : State) : (updDrop n f s).pending = s.pending := rfl
@[simp] theorem updDrop_outs (n : Nat) (f : Drop → Drop) (s : State) : (updDrop n f s).outs = s.outs := rfl
@[simp] theorem updDrop_free (n : Nat) (f : Drop → Drop) (s : State) : (updDrop n f s).free = s.free := rfl
@[simp] theorem updDrop_tick (n : Nat) (f : Drop → Drop) (s : State) : (updDrop n f s).tick = s.tick := rfl
@[simp] theorem updDrop_gates (n : Nat) (f : Drop → Drop) (s : State) : (updDrop n f s).gates = s.gates := rfl
@[simp] theorem updDrop_sund (n : Nat) (f : Drop → Drop) (s : State) : (updDrop n f s).sund = s.sund := rfl
@[simp] theorem updDrop_pav (n : Nat) (f : Drop → Drop) (s : State) : (updDrop n f s).pav = s.pav := rfl
@[simp] theorem updDrop_host (n : Nat) (f : Drop → Drop) (s : State) : (updDrop n f s).host = s.host := rfl
@[simp] theorem updDrop_mgmt (n : Nat) (f : Drop → Drop) (s : State) : (updDrop n f s).mgmt = s.mgmt := rfl
@[simp] theorem updDrop_ctxs (n : Nat) (f : Drop → Drop) (s : State) : (updDrop n f s).ctxs = s.ctxs := rfl
@[simp] theorem updDrop_groups (n : Nat) (f : Drop → Drop) (s : State) : (updDrop n f s).groups = s.groups := rfl
@[simp] theorem updDrop_frames (n : Nat) (f : Drop → Drop) (s : State) : (updDrop n f s).frames = s.frames := rfl
@[simp] theorem updDrop_dies (n : Nat) (f : Drop → Drop) (s : State) : (updDrop n f s).dies = s.dies := rfl
@[simp] theorem updDrop_splq (n : Nat) (f : Drop → Drop) (s : State) : (updDrop n f s).splq = s.splq := rfl
@[simp] theorem updDrop_fence (n : Nat) (f : Drop → Drop) (s : State) : (updDrop n f s).fence = s.fence := rfl
@[simp] theorem updDrop_link (n : Nat) (f : Drop → Drop) (s : State) : (updDrop n f s).link = s.link := rfl
@[simp] theorem updDrop_perg (n : Nat) (f : Drop → Drop) (s : State) : (updDrop n f s).perg = s.perg := rfl
@[simp] theorem updDrop_grnh (n : Nat) (f : Drop → Drop) (s : State) : (updDrop n f s).grnh = s.grnh := rfl
@[simp] theorem updDrop_grnhFills (n : Nat) (f : Drop → Drop) (s : State) : (updDrop n f s).grnhFills = s.grnhFills := rfl
@[simp] theorem updDrop_dgst (n : Nat) (f : Drop → Drop) (s : State) : (updDrop n f s).dgst = s.dgst := rfl
@[simp] theorem updDrop_otp (n : Nat) (f : Drop → Drop) (s : State) : (updDrop n f s).otp = s.otp := rfl
@[simp] theorem updDrop_flash (n : Nat) (f : Drop → Drop) (s : State) : (updDrop n f s).flash = s.flash := rfl
@[simp] theorem updDrop_logv (n : Nat) (f : Drop → Drop) (s : State) : (updDrop n f s).logv = s.logv := rfl
@[simp] theorem updDrop_boot (n : Nat) (f : Drop → Drop) (s : State) : (updDrop n f s).boot = s.boot := rfl
@[simp] theorem updDrop_belv (n : Nat) (f : Drop → Drop) (s : State) : (updDrop n f s).belv = s.belv := rfl
@[simp] theorem updDrop_updt (n : Nat) (f : Drop → Drop) (s : State) : (updDrop n f s).updt = s.updt := rfl
@[simp] theorem updDrop_band (n : Nat) (f : Drop → Drop) (s : State) : (updDrop n f s).band = s.band := rfl
@[simp] theorem updDrop_power (n : Nat) (f : Drop → Drop) (s : State) : (updDrop n f s).power = s.power := rfl

/-! updDg -/

@[simp] theorem updDg_pending (e : Nat) (f : DgEng → DgEng) (s : State) : (updDg e f s).pending = s.pending := rfl
@[simp] theorem updDg_outs (e : Nat) (f : DgEng → DgEng) (s : State) : (updDg e f s).outs = s.outs := rfl
@[simp] theorem updDg_free (e : Nat) (f : DgEng → DgEng) (s : State) : (updDg e f s).free = s.free := rfl
@[simp] theorem updDg_tick (e : Nat) (f : DgEng → DgEng) (s : State) : (updDg e f s).tick = s.tick := rfl
@[simp] theorem updDg_gates (e : Nat) (f : DgEng → DgEng) (s : State) : (updDg e f s).gates = s.gates := rfl
@[simp] theorem updDg_sund (e : Nat) (f : DgEng → DgEng) (s : State) : (updDg e f s).sund = s.sund := rfl
@[simp] theorem updDg_pav (e : Nat) (f : DgEng → DgEng) (s : State) : (updDg e f s).pav = s.pav := rfl
@[simp] theorem updDg_host (e : Nat) (f : DgEng → DgEng) (s : State) : (updDg e f s).host = s.host := rfl
@[simp] theorem updDg_mgmt (e : Nat) (f : DgEng → DgEng) (s : State) : (updDg e f s).mgmt = s.mgmt := rfl
@[simp] theorem updDg_ctxs (e : Nat) (f : DgEng → DgEng) (s : State) : (updDg e f s).ctxs = s.ctxs := rfl
@[simp] theorem updDg_groups (e : Nat) (f : DgEng → DgEng) (s : State) : (updDg e f s).groups = s.groups := rfl
@[simp] theorem updDg_frames (e : Nat) (f : DgEng → DgEng) (s : State) : (updDg e f s).frames = s.frames := rfl
@[simp] theorem updDg_dies (e : Nat) (f : DgEng → DgEng) (s : State) : (updDg e f s).dies = s.dies := rfl
@[simp] theorem updDg_splq (e : Nat) (f : DgEng → DgEng) (s : State) : (updDg e f s).splq = s.splq := rfl
@[simp] theorem updDg_orng (e : Nat) (f : DgEng → DgEng) (s : State) : (updDg e f s).orng = s.orng := rfl
@[simp] theorem updDg_fence (e : Nat) (f : DgEng → DgEng) (s : State) : (updDg e f s).fence = s.fence := rfl
@[simp] theorem updDg_link (e : Nat) (f : DgEng → DgEng) (s : State) : (updDg e f s).link = s.link := rfl
@[simp] theorem updDg_perg (e : Nat) (f : DgEng → DgEng) (s : State) : (updDg e f s).perg = s.perg := rfl
@[simp] theorem updDg_grnh (e : Nat) (f : DgEng → DgEng) (s : State) : (updDg e f s).grnh = s.grnh := rfl
@[simp] theorem updDg_grnhFills (e : Nat) (f : DgEng → DgEng) (s : State) : (updDg e f s).grnhFills = s.grnhFills := rfl
@[simp] theorem updDg_otp (e : Nat) (f : DgEng → DgEng) (s : State) : (updDg e f s).otp = s.otp := rfl
@[simp] theorem updDg_flash (e : Nat) (f : DgEng → DgEng) (s : State) : (updDg e f s).flash = s.flash := rfl
@[simp] theorem updDg_logv (e : Nat) (f : DgEng → DgEng) (s : State) : (updDg e f s).logv = s.logv := rfl
@[simp] theorem updDg_boot (e : Nat) (f : DgEng → DgEng) (s : State) : (updDg e f s).boot = s.boot := rfl
@[simp] theorem updDg_belv (e : Nat) (f : DgEng → DgEng) (s : State) : (updDg e f s).belv = s.belv := rfl
@[simp] theorem updDg_updt (e : Nat) (f : DgEng → DgEng) (s : State) : (updDg e f s).updt = s.updt := rfl
@[simp] theorem updDg_band (e : Nat) (f : DgEng → DgEng) (s : State) : (updDg e f s).band = s.band := rfl
@[simp] theorem updDg_power (e : Nat) (f : DgEng → DgEng) (s : State) : (updDg e f s).power = s.power := rfl

/-! updGrEng -/

@[simp] theorem updGrEng_pending (d : Nat) (f : GrEng → GrEng) (s : State) : (updGrEng d f s).pending = s.pending := rfl
@[simp] theorem updGrEng_outs (d : Nat) (f : GrEng → GrEng) (s : State) : (updGrEng d f s).outs = s.outs := rfl
@[simp] theorem updGrEng_free (d : Nat) (f : GrEng → GrEng) (s : State) : (updGrEng d f s).free = s.free := rfl
@[simp] theorem updGrEng_tick (d : Nat) (f : GrEng → GrEng) (s : State) : (updGrEng d f s).tick = s.tick := rfl
@[simp] theorem updGrEng_gates (d : Nat) (f : GrEng → GrEng) (s : State) : (updGrEng d f s).gates = s.gates := rfl
@[simp] theorem updGrEng_sund (d : Nat) (f : GrEng → GrEng) (s : State) : (updGrEng d f s).sund = s.sund := rfl
@[simp] theorem updGrEng_pav (d : Nat) (f : GrEng → GrEng) (s : State) : (updGrEng d f s).pav = s.pav := rfl
@[simp] theorem updGrEng_host (d : Nat) (f : GrEng → GrEng) (s : State) : (updGrEng d f s).host = s.host := rfl
@[simp] theorem updGrEng_mgmt (d : Nat) (f : GrEng → GrEng) (s : State) : (updGrEng d f s).mgmt = s.mgmt := rfl
@[simp] theorem updGrEng_ctxs (d : Nat) (f : GrEng → GrEng) (s : State) : (updGrEng d f s).ctxs = s.ctxs := rfl
@[simp] theorem updGrEng_groups (d : Nat) (f : GrEng → GrEng) (s : State) : (updGrEng d f s).groups = s.groups := rfl
@[simp] theorem updGrEng_frames (d : Nat) (f : GrEng → GrEng) (s : State) : (updGrEng d f s).frames = s.frames := rfl
@[simp] theorem updGrEng_dies (d : Nat) (f : GrEng → GrEng) (s : State) : (updGrEng d f s).dies = s.dies := rfl
@[simp] theorem updGrEng_splq (d : Nat) (f : GrEng → GrEng) (s : State) : (updGrEng d f s).splq = s.splq := rfl
@[simp] theorem updGrEng_orng (d : Nat) (f : GrEng → GrEng) (s : State) : (updGrEng d f s).orng = s.orng := rfl
@[simp] theorem updGrEng_fence (d : Nat) (f : GrEng → GrEng) (s : State) : (updGrEng d f s).fence = s.fence := rfl
@[simp] theorem updGrEng_link (d : Nat) (f : GrEng → GrEng) (s : State) : (updGrEng d f s).link = s.link := rfl
@[simp] theorem updGrEng_perg (d : Nat) (f : GrEng → GrEng) (s : State) : (updGrEng d f s).perg = s.perg := rfl
@[simp] theorem updGrEng_grnhFills (d : Nat) (f : GrEng → GrEng) (s : State) : (updGrEng d f s).grnhFills = s.grnhFills := rfl
@[simp] theorem updGrEng_dgst (d : Nat) (f : GrEng → GrEng) (s : State) : (updGrEng d f s).dgst = s.dgst := rfl
@[simp] theorem updGrEng_otp (d : Nat) (f : GrEng → GrEng) (s : State) : (updGrEng d f s).otp = s.otp := rfl
@[simp] theorem updGrEng_flash (d : Nat) (f : GrEng → GrEng) (s : State) : (updGrEng d f s).flash = s.flash := rfl
@[simp] theorem updGrEng_logv (d : Nat) (f : GrEng → GrEng) (s : State) : (updGrEng d f s).logv = s.logv := rfl
@[simp] theorem updGrEng_boot (d : Nat) (f : GrEng → GrEng) (s : State) : (updGrEng d f s).boot = s.boot := rfl
@[simp] theorem updGrEng_belv (d : Nat) (f : GrEng → GrEng) (s : State) : (updGrEng d f s).belv = s.belv := rfl
@[simp] theorem updGrEng_updt (d : Nat) (f : GrEng → GrEng) (s : State) : (updGrEng d f s).updt = s.updt := rfl
@[simp] theorem updGrEng_band (d : Nat) (f : GrEng → GrEng) (s : State) : (updGrEng d f s).band = s.band := rfl
@[simp] theorem updGrEng_power (d : Nat) (f : GrEng → GrEng) (s : State) : (updGrEng d f s).power = s.power := rfl

/-! updSlice -/

@[simp] theorem updSlice_pending (d : Nat) (f : Slice → Slice) (s : State) : (updSlice d f s).pending = s.pending := rfl
@[simp] theorem updSlice_outs (d : Nat) (f : Slice → Slice) (s : State) : (updSlice d f s).outs = s.outs := rfl
@[simp] theorem updSlice_free (d : Nat) (f : Slice → Slice) (s : State) : (updSlice d f s).free = s.free := rfl
@[simp] theorem updSlice_tick (d : Nat) (f : Slice → Slice) (s : State) : (updSlice d f s).tick = s.tick := rfl
@[simp] theorem updSlice_gates (d : Nat) (f : Slice → Slice) (s : State) : (updSlice d f s).gates = s.gates := rfl
@[simp] theorem updSlice_sund (d : Nat) (f : Slice → Slice) (s : State) : (updSlice d f s).sund = s.sund := rfl
@[simp] theorem updSlice_pav (d : Nat) (f : Slice → Slice) (s : State) : (updSlice d f s).pav = s.pav := rfl
@[simp] theorem updSlice_host (d : Nat) (f : Slice → Slice) (s : State) : (updSlice d f s).host = s.host := rfl
@[simp] theorem updSlice_mgmt (d : Nat) (f : Slice → Slice) (s : State) : (updSlice d f s).mgmt = s.mgmt := rfl
@[simp] theorem updSlice_ctxs (d : Nat) (f : Slice → Slice) (s : State) : (updSlice d f s).ctxs = s.ctxs := rfl
@[simp] theorem updSlice_groups (d : Nat) (f : Slice → Slice) (s : State) : (updSlice d f s).groups = s.groups := rfl
@[simp] theorem updSlice_frames (d : Nat) (f : Slice → Slice) (s : State) : (updSlice d f s).frames = s.frames := rfl
@[simp] theorem updSlice_dies (d : Nat) (f : Slice → Slice) (s : State) : (updSlice d f s).dies = s.dies := rfl
@[simp] theorem updSlice_splq (d : Nat) (f : Slice → Slice) (s : State) : (updSlice d f s).splq = s.splq := rfl
@[simp] theorem updSlice_orng (d : Nat) (f : Slice → Slice) (s : State) : (updSlice d f s).orng = s.orng := rfl
@[simp] theorem updSlice_fence (d : Nat) (f : Slice → Slice) (s : State) : (updSlice d f s).fence = s.fence := rfl
@[simp] theorem updSlice_link (d : Nat) (f : Slice → Slice) (s : State) : (updSlice d f s).link = s.link := rfl
@[simp] theorem updSlice_grnh (d : Nat) (f : Slice → Slice) (s : State) : (updSlice d f s).grnh = s.grnh := rfl
@[simp] theorem updSlice_grnhFills (d : Nat) (f : Slice → Slice) (s : State) : (updSlice d f s).grnhFills = s.grnhFills := rfl
@[simp] theorem updSlice_dgst (d : Nat) (f : Slice → Slice) (s : State) : (updSlice d f s).dgst = s.dgst := rfl
@[simp] theorem updSlice_otp (d : Nat) (f : Slice → Slice) (s : State) : (updSlice d f s).otp = s.otp := rfl
@[simp] theorem updSlice_flash (d : Nat) (f : Slice → Slice) (s : State) : (updSlice d f s).flash = s.flash := rfl
@[simp] theorem updSlice_logv (d : Nat) (f : Slice → Slice) (s : State) : (updSlice d f s).logv = s.logv := rfl
@[simp] theorem updSlice_boot (d : Nat) (f : Slice → Slice) (s : State) : (updSlice d f s).boot = s.boot := rfl
@[simp] theorem updSlice_belv (d : Nat) (f : Slice → Slice) (s : State) : (updSlice d f s).belv = s.belv := rfl
@[simp] theorem updSlice_updt (d : Nat) (f : Slice → Slice) (s : State) : (updSlice d f s).updt = s.updt := rfl
@[simp] theorem updSlice_band (d : Nat) (f : Slice → Slice) (s : State) : (updSlice d f s).band = s.band := rfl
@[simp] theorem updSlice_power (d : Nat) (f : Slice → Slice) (s : State) : (updSlice d f s).power = s.power := rfl

/-! updPwr -/

@[simp] theorem updPwr_pending (d : Nat) (f : DiePwr → DiePwr) (s : State) : (updPwr d f s).pending = s.pending := rfl
@[simp] theorem updPwr_outs (d : Nat) (f : DiePwr → DiePwr) (s : State) : (updPwr d f s).outs = s.outs := rfl
@[simp] theorem updPwr_free (d : Nat) (f : DiePwr → DiePwr) (s : State) : (updPwr d f s).free = s.free := rfl
@[simp] theorem updPwr_tick (d : Nat) (f : DiePwr → DiePwr) (s : State) : (updPwr d f s).tick = s.tick := rfl
@[simp] theorem updPwr_gates (d : Nat) (f : DiePwr → DiePwr) (s : State) : (updPwr d f s).gates = s.gates := rfl
@[simp] theorem updPwr_sund (d : Nat) (f : DiePwr → DiePwr) (s : State) : (updPwr d f s).sund = s.sund := rfl
@[simp] theorem updPwr_pav (d : Nat) (f : DiePwr → DiePwr) (s : State) : (updPwr d f s).pav = s.pav := rfl
@[simp] theorem updPwr_host (d : Nat) (f : DiePwr → DiePwr) (s : State) : (updPwr d f s).host = s.host := rfl
@[simp] theorem updPwr_mgmt (d : Nat) (f : DiePwr → DiePwr) (s : State) : (updPwr d f s).mgmt = s.mgmt := rfl
@[simp] theorem updPwr_ctxs (d : Nat) (f : DiePwr → DiePwr) (s : State) : (updPwr d f s).ctxs = s.ctxs := rfl
@[simp] theorem updPwr_groups (d : Nat) (f : DiePwr → DiePwr) (s : State) : (updPwr d f s).groups = s.groups := rfl
@[simp] theorem updPwr_frames (d : Nat) (f : DiePwr → DiePwr) (s : State) : (updPwr d f s).frames = s.frames := rfl
@[simp] theorem updPwr_dies (d : Nat) (f : DiePwr → DiePwr) (s : State) : (updPwr d f s).dies = s.dies := rfl
@[simp] theorem updPwr_splq (d : Nat) (f : DiePwr → DiePwr) (s : State) : (updPwr d f s).splq = s.splq := rfl
@[simp] theorem updPwr_orng (d : Nat) (f : DiePwr → DiePwr) (s : State) : (updPwr d f s).orng = s.orng := rfl
@[simp] theorem updPwr_fence (d : Nat) (f : DiePwr → DiePwr) (s : State) : (updPwr d f s).fence = s.fence := rfl
@[simp] theorem updPwr_link (d : Nat) (f : DiePwr → DiePwr) (s : State) : (updPwr d f s).link = s.link := rfl
@[simp] theorem updPwr_perg (d : Nat) (f : DiePwr → DiePwr) (s : State) : (updPwr d f s).perg = s.perg := rfl
@[simp] theorem updPwr_grnh (d : Nat) (f : DiePwr → DiePwr) (s : State) : (updPwr d f s).grnh = s.grnh := rfl
@[simp] theorem updPwr_grnhFills (d : Nat) (f : DiePwr → DiePwr) (s : State) : (updPwr d f s).grnhFills = s.grnhFills := rfl
@[simp] theorem updPwr_dgst (d : Nat) (f : DiePwr → DiePwr) (s : State) : (updPwr d f s).dgst = s.dgst := rfl
@[simp] theorem updPwr_otp (d : Nat) (f : DiePwr → DiePwr) (s : State) : (updPwr d f s).otp = s.otp := rfl
@[simp] theorem updPwr_flash (d : Nat) (f : DiePwr → DiePwr) (s : State) : (updPwr d f s).flash = s.flash := rfl
@[simp] theorem updPwr_logv (d : Nat) (f : DiePwr → DiePwr) (s : State) : (updPwr d f s).logv = s.logv := rfl
@[simp] theorem updPwr_boot (d : Nat) (f : DiePwr → DiePwr) (s : State) : (updPwr d f s).boot = s.boot := rfl
@[simp] theorem updPwr_belv (d : Nat) (f : DiePwr → DiePwr) (s : State) : (updPwr d f s).belv = s.belv := rfl
@[simp] theorem updPwr_updt (d : Nat) (f : DiePwr → DiePwr) (s : State) : (updPwr d f s).updt = s.updt := rfl
@[simp] theorem updPwr_band (d : Nat) (f : DiePwr → DiePwr) (s : State) : (updPwr d f s).band = s.band := rfl

end Sys2Proof.Laws
end

