-- ==== Sys2Proof/Laws/Ops.lean ====
section
/-! SUPPORT. The laws of the shared operations: an element changed reads as changed and leaves every other element as it was,
in a canonical state; the canonical form's parts; what a taken command's path comes to. -/

namespace Sys2Proof.Laws

open Sys2Proof.Machine

/-! ## The canonical form's parts -/

theorem canonical_ctxs {s : State} (h : canonical s = true) : mapWf {} s.ctxs = true := by
  simp only [canonical, Bool.and_eq_true] at h; exact h.1.1.1.1.1.1.1.1.1.1.1.1.1.1.1.1.1
theorem canonical_groups {s : State} (h : canonical s = true) : mapWf {} s.groups = true := by
  simp only [canonical, Bool.and_eq_true] at h; exact h.1.1.1.1.1.1.1.1.1.1.1.1.1.1.1.1.2
theorem canonical_frames {s : State} (h : canonical s = true) : mapWf {} s.frames = true := by
  simp only [canonical, Bool.and_eq_true] at h; exact h.1.1.1.1.1.1.1.1.1.1.1.1.1.1.1.2
theorem canonical_dies {s : State} (h : canonical s = true) : mapWf {} s.dies = true := by
  simp only [canonical, Bool.and_eq_true] at h; exact h.1.1.1.1.1.1.1.1.1.1.1.1.1.1.2
theorem canonical_splq {s : State} (h : canonical s = true) : mapWf {} s.splq = true := by
  simp only [canonical, Bool.and_eq_true] at h; exact h.1.1.1.1.1.1.1.1.1.1.1.1.1.2
theorem canonical_orng_slots {s : State} (h : canonical s = true) : mapWf {} s.orng.slots = true := by
  simp only [canonical, Bool.and_eq_true] at h; exact h.1.1.1.1.1.1.1.1.1.1.1.1.2
theorem canonical_orng_drops {s : State} (h : canonical s = true) : mapWf {} s.orng.drops = true := by
  simp only [canonical, Bool.and_eq_true] at h; exact h.1.1.1.1.1.1.1.1.1.1.1.2
theorem canonical_fence_chans {s : State} (h : canonical s = true) : mapWf {} s.fence.chans = true := by
  simp only [canonical, Bool.and_eq_true] at h; exact h.1.1.1.1.1.1.1.1.1.1.2
theorem canonical_link_engines {s : State} (h : canonical s = true) : mapWf {} s.link.engines = true := by
  simp only [canonical, Bool.and_eq_true] at h; exact h.1.1.1.1.1.1.1.1.1.2
theorem canonical_link_jobs {s : State} (h : canonical s = true) : mapWf {} s.link.jobs = true := by
  simp only [canonical, Bool.and_eq_true] at h; exact h.1.1.1.1.1.1.1.1.2
theorem canonical_perg_slices {s : State} (h : canonical s = true) : mapWf {} s.perg.slices = true := by
  simp only [canonical, Bool.and_eq_true] at h; exact h.1.1.1.1.1.1.1.2
theorem canonical_grnh_engines {s : State} (h : canonical s = true) : mapWf {} s.grnh.engines = true := by
  simp only [canonical, Bool.and_eq_true] at h; exact h.1.1.1.1.1.1.2
theorem canonical_dgst_engines {s : State} (h : canonical s = true) : mapWf {} s.dgst.engines = true := by
  simp only [canonical, Bool.and_eq_true] at h; exact h.1.1.1.1.1.2
theorem canonical_otp_array {s : State} (h : canonical s = true) : mapWf 0 s.otp.array = true := by
  simp only [canonical, Bool.and_eq_true] at h; exact h.1.1.1.1.2
theorem canonical_flash {s : State} (h : canonical s = true) : mapWf 0xff s.flash = true := by
  simp only [canonical, Bool.and_eq_true] at h; exact h.1.1.1.2
theorem canonical_host_rings {s : State} (h : canonical s = true) : mapWf {} s.host.rings = true := by
  simp only [canonical, Bool.and_eq_true] at h; exact h.1.1.2
theorem canonical_host_cpls {s : State} (h : canonical s = true) : mapWf {} s.host.cpls = true := by
  simp only [canonical, Bool.and_eq_true] at h; exact h.1.2
theorem canonical_power_dies {s : State} (h : canonical s = true) : mapWf {} s.power.dies = true := by
  simp only [canonical, Bool.and_eq_true] at h; exact h.2

/-! ## Elements -/

theorem ctxOf_updCtx_same {k : Nat} {f : Ctx → Ctx} {s : State} (h : canonical s = true) :
    ctxOf (updCtx k f s) k = f (ctxOf s k) := mapGet_mapMod_same (canonical_ctxs h)
theorem ctxOf_updCtx_other {k j : Nat} {f : Ctx → Ctx} {s : State} (h : canonical s = true) (hj : j ≠ k) :
    ctxOf (updCtx k f s) j = ctxOf s j := mapGet_mapMod_other (canonical_ctxs h) hj
theorem canonical_updCtx {k : Nat} {f : Ctx → Ctx} {s : State} (h : canonical s = true) : canonical (updCtx k f s) = true := by
  have hm := mapWf_mapMod (k := k) (f := f) (canonical_ctxs h)
  simp only [canonical, Bool.and_eq_true] at h ⊢
  exact ⟨⟨⟨⟨⟨⟨⟨⟨⟨⟨⟨⟨⟨⟨⟨⟨⟨hm, h.1.1.1.1.1.1.1.1.1.1.1.1.1.1.1.1.2⟩, h.1.1.1.1.1.1.1.1.1.1.1.1.1.1.1.2⟩, h.1.1.1.1.1.1.1.1.1.1.1.1.1.1.2⟩, h.1.1.1.1.1.1.1.1.1.1.1.1.1.2⟩, h.1.1.1.1.1.1.1.1.1.1.1.1.2⟩, h.1.1.1.1.1.1.1.1.1.1.1.2⟩, h.1.1.1.1.1.1.1.1.1.1.2⟩, h.1.1.1.1.1.1.1.1.1.2⟩, h.1.1.1.1.1.1.1.1.2⟩, h.1.1.1.1.1.1.1.2⟩, h.1.1.1.1.1.1.2⟩, h.1.1.1.1.1.2⟩, h.1.1.1.1.2⟩, h.1.1.1.2⟩, h.1.1.2⟩, h.1.2⟩, h.2⟩
theorem groupOf_updGroup_same {k : Nat} {f : Group → Group} {s : State} (h : canonical s = true) :
    groupOf (updGroup k f s) k = f (groupOf s k) := mapGet_mapMod_same (canonical_groups h)
theorem groupOf_updGroup_other {k j : Nat} {f : Group → Group} {s : State} (h : canonical s = true) (hj : j ≠ k) :
    groupOf (updGroup k f s) j = groupOf s j := mapGet_mapMod_other (canonical_groups h) hj
theorem canonical_updGroup {k : Nat} {f : Group → Group} {s : State} (h : canonical s = true) : canonical (updGroup k f s) = true := by
  have hm := mapWf_mapMod (k := k) (f := f) (canonical_groups h)
  simp only [canonical, Bool.and_eq_true] at h ⊢
  exact ⟨⟨⟨⟨⟨⟨⟨⟨⟨⟨⟨⟨⟨⟨⟨⟨⟨h.1.1.1.1.1.1.1.1.1.1.1.1.1.1.1.1.1, hm⟩, h.1.1.1.1.1.1.1.1.1.1.1.1.1.1.1.2⟩, h.1.1.1.1.1.1.1.1.1.1.1.1.1.1.2⟩, h.1.1.1.1.1.1.1.1.1.1.1.1.1.2⟩, h.1.1.1.1.1.1.1.1.1.1.1.1.2⟩, h.1.1.1.1.1.1.1.1.1.1.1.2⟩, h.1.1.1.1.1.1.1.1.1.1.2⟩, h.1.1.1.1.1.1.1.1.1.2⟩, h.1.1.1.1.1.1.1.1.2⟩, h.1.1.1.1.1.1.1.2⟩, h.1.1.1.1.1.1.2⟩, h.1.1.1.1.1.2⟩, h.1.1.1.1.2⟩, h.1.1.1.2⟩, h.1.1.2⟩, h.1.2⟩, h.2⟩
theorem frameOf_updFrame_same {k : Nat} {f : Frame → Frame} {s : State} (h : canonical s = true) :
    frameOf (updFrame k f s) k = f (frameOf s k) := mapGet_mapMod_same (canonical_frames h)
theorem frameOf_updFrame_other {k j : Nat} {f : Frame → Frame} {s : State} (h : canonical s = true) (hj : j ≠ k) :
    frameOf (updFrame k f s) j = frameOf s j := mapGet_mapMod_other (canonical_frames h) hj
theorem canonical_updFrame {k : Nat} {f : Frame → Frame} {s : State} (h : canonical s = true) : canonical (updFrame k f s) = true := by
  have hm := mapWf_mapMod (k := k) (f := f) (canonical_frames h)
  simp only [canonical, Bool.and_eq_true] at h ⊢
  exact ⟨⟨⟨⟨⟨⟨⟨⟨⟨⟨⟨⟨⟨⟨⟨⟨⟨h.1.1.1.1.1.1.1.1.1.1.1.1.1.1.1.1.1, h.1.1.1.1.1.1.1.1.1.1.1.1.1.1.1.1.2⟩, hm⟩, h.1.1.1.1.1.1.1.1.1.1.1.1.1.1.2⟩, h.1.1.1.1.1.1.1.1.1.1.1.1.1.2⟩, h.1.1.1.1.1.1.1.1.1.1.1.1.2⟩, h.1.1.1.1.1.1.1.1.1.1.1.2⟩, h.1.1.1.1.1.1.1.1.1.1.2⟩, h.1.1.1.1.1.1.1.1.1.2⟩, h.1.1.1.1.1.1.1.1.2⟩, h.1.1.1.1.1.1.1.2⟩, h.1.1.1.1.1.1.2⟩, h.1.1.1.1.1.2⟩, h.1.1.1.1.2⟩, h.1.1.1.2⟩, h.1.1.2⟩, h.1.2⟩, h.2⟩
theorem dieOf_updDie_same {k : Nat} {f : Die → Die} {s : State} (h : canonical s = true) :
    dieOf (updDie k f s) k = f (dieOf s k) := mapGet_mapMod_same (canonical_dies h)
theorem dieOf_updDie_other {k j : Nat} {f : Die → Die} {s : State} (h : canonical s = true) (hj : j ≠ k) :
    dieOf (updDie k f s) j = dieOf s j := mapGet_mapMod_other (canonical_dies h) hj
theorem canonical_updDie {k : Nat} {f : Die → Die} {s : State} (h : canonical s = true) : canonical (updDie k f s) = true := by
  have hm := mapWf_mapMod (k := k) (f := f) (canonical_dies h)
  simp only [canonical, Bool.and_eq_true] at h ⊢
  exact ⟨⟨⟨⟨⟨⟨⟨⟨⟨⟨⟨⟨⟨⟨⟨⟨⟨h.1.1.1.1.1.1.1.1.1.1.1.1.1.1.1.1.1, h.1.1.1.1.1.1.1.1.1.1.1.1.1.1.1.1.2⟩, h.1.1.1.1.1.1.1.1.1.1.1.1.1.1.1.2⟩, hm⟩, h.1.1.1.1.1.1.1.1.1.1.1.1.1.2⟩, h.1.1.1.1.1.1.1.1.1.1.1.1.2⟩, h.1.1.1.1.1.1.1.1.1.1.1.2⟩, h.1.1.1.1.1.1.1.1.1.1.2⟩, h.1.1.1.1.1.1.1.1.1.2⟩, h.1.1.1.1.1.1.1.1.2⟩, h.1.1.1.1.1.1.1.2⟩, h.1.1.1.1.1.1.2⟩, h.1.1.1.1.1.2⟩, h.1.1.1.1.2⟩, h.1.1.1.2⟩, h.1.1.2⟩, h.1.2⟩, h.2⟩
theorem qOf_updQ_same {k : Nat} {f : SpillQ → SpillQ} {s : State} (h : canonical s = true) :
    qOf (updQ k f s) k = f (qOf s k) := mapGet_mapMod_same (canonical_splq h)
theorem qOf_updQ_other {k j : Nat} {f : SpillQ → SpillQ} {s : State} (h : canonical s = true) (hj : j ≠ k) :
    qOf (updQ k f s) j = qOf s j := mapGet_mapMod_other (canonical_splq h) hj
theorem canonical_updQ {k : Nat} {f : SpillQ → SpillQ} {s : State} (h : canonical s = true) : canonical (updQ k f s) = true := by
  have hm := mapWf_mapMod (k := k) (f := f) (canonical_splq h)
  simp only [canonical, Bool.and_eq_true] at h ⊢
  exact ⟨⟨⟨⟨⟨⟨⟨⟨⟨⟨⟨⟨⟨⟨⟨⟨⟨h.1.1.1.1.1.1.1.1.1.1.1.1.1.1.1.1.1, h.1.1.1.1.1.1.1.1.1.1.1.1.1.1.1.1.2⟩, h.1.1.1.1.1.1.1.1.1.1.1.1.1.1.1.2⟩, h.1.1.1.1.1.1.1.1.1.1.1.1.1.1.2⟩, hm⟩, h.1.1.1.1.1.1.1.1.1.1.1.1.2⟩, h.1.1.1.1.1.1.1.1.1.1.1.2⟩, h.1.1.1.1.1.1.1.1.1.1.2⟩, h.1.1.1.1.1.1.1.1.1.2⟩, h.1.1.1.1.1.1.1.1.2⟩, h.1.1.1.1.1.1.1.2⟩, h.1.1.1.1.1.1.2⟩, h.1.1.1.1.1.2⟩, h.1.1.1.1.2⟩, h.1.1.1.2⟩, h.1.1.2⟩, h.1.2⟩, h.2⟩
theorem ringOf_updRing_same {k : Nat} {f : CmdRing → CmdRing} {s : State} (h : canonical s = true) :
    ringOf (updRing k f s) k = f (ringOf s k) := mapGet_mapMod_same (canonical_host_rings h)
theorem ringOf_updRing_other {k j : Nat} {f : CmdRing → CmdRing} {s : State} (h : canonical s = true) (hj : j ≠ k) :
    ringOf (updRing k f s) j = ringOf s j := mapGet_mapMod_other (canonical_host_rings h) hj
theorem canonical_updRing {k : Nat} {f : CmdRing → CmdRing} {s : State} (h : canonical s = true) : canonical (updRing k f s) = true := by
  have hm := mapWf_mapMod (k := k) (f := f) (canonical_host_rings h)
  simp only [canonical, Bool.and_eq_true] at h ⊢
  exact ⟨⟨⟨⟨⟨⟨⟨⟨⟨⟨⟨⟨⟨⟨⟨⟨⟨h.1.1.1.1.1.1.1.1.1.1.1.1.1.1.1.1.1, h.1.1.1.1.1.1.1.1.1.1.1.1.1.1.1.1.2⟩, h.1.1.1.1.1.1.1.1.1.1.1.1.1.1.1.2⟩, h.1.1.1.1.1.1.1.1.1.1.1.1.1.1.2⟩, h.1.1.1.1.1.1.1.1.1.1.1.1.1.2⟩, h.1.1.1.1.1.1.1.1.1.1.1.1.2⟩, h.1.1.1.1.1.1.1.1.1.1.1.2⟩, h.1.1.1.1.1.1.1.1.1.1.2⟩, h.1.1.1.1.1.1.1.1.1.2⟩, h.1.1.1.1.1.1.1.1.2⟩, h.1.1.1.1.1.1.1.2⟩, h.1.1.1.1.1.1.2⟩, h.1.1.1.1.1.2⟩, h.1.1.1.1.2⟩, h.1.1.1.2⟩, hm⟩, h.1.2⟩, h.2⟩
theorem cplOf_updCpl_same {k : Nat} {f : CplRing → CplRing} {s : State} (h : canonical s = true) :
    cplOf (updCpl k f s) k = f (cplOf s k) := mapGet_mapMod_same (canonical_host_cpls h)
theorem cplOf_updCpl_other {k j : Nat} {f : CplRing → CplRing} {s : State} (h : canonical s = true) (hj : j ≠ k) :
    cplOf (updCpl k f s) j = cplOf s j := mapGet_mapMod_other (canonical_host_cpls h) hj
theorem canonical_updCpl {k : Nat} {f : CplRing → CplRing} {s : State} (h : canonical s = true) : canonical (updCpl k f s) = true := by
  have hm := mapWf_mapMod (k := k) (f := f) (canonical_host_cpls h)
  simp only [canonical, Bool.and_eq_true] at h ⊢
  exact ⟨⟨⟨⟨⟨⟨⟨⟨⟨⟨⟨⟨⟨⟨⟨⟨⟨h.1.1.1.1.1.1.1.1.1.1.1.1.1.1.1.1.1, h.1.1.1.1.1.1.1.1.1.1.1.1.1.1.1.1.2⟩, h.1.1.1.1.1.1.1.1.1.1.1.1.1.1.1.2⟩, h.1.1.1.1.1.1.1.1.1.1.1.1.1.1.2⟩, h.1.1.1.1.1.1.1.1.1.1.1.1.1.2⟩, h.1.1.1.1.1.1.1.1.1.1.1.1.2⟩, h.1.1.1.1.1.1.1.1.1.1.1.2⟩, h.1.1.1.1.1.1.1.1.1.1.2⟩, h.1.1.1.1.1.1.1.1.1.2⟩, h.1.1.1.1.1.1.1.1.2⟩, h.1.1.1.1.1.1.1.2⟩, h.1.1.1.1.1.1.2⟩, h.1.1.1.1.1.2⟩, h.1.1.1.1.2⟩, h.1.1.1.2⟩, h.1.1.2⟩, hm⟩, h.2⟩
theorem engOf_updEng_same {k : Nat} {f : Engine → Engine} {s : State} (h : canonical s = true) :
    engOf (updEng k f s) k = f (engOf s k) := mapGet_mapMod_same (canonical_link_engines h)
theorem engOf_updEng_other {k j : Nat} {f : Engine → Engine} {s : State} (h : canonical s = true) (hj : j ≠ k) :
    engOf (updEng k f s) j = engOf s j := mapGet_mapMod_other (canonical_link_engines h) hj
theorem canonical_updEng {k : Nat} {f : Engine → Engine} {s : State} (h : canonical s = true) : canonical (updEng k f s) = true := by
  have hm := mapWf_mapMod (k := k) (f := f) (canonical_link_engines h)
  simp only [canonical, Bool.and_eq_true] at h ⊢
  exact ⟨⟨⟨⟨⟨⟨⟨⟨⟨⟨⟨⟨⟨⟨⟨⟨⟨h.1.1.1.1.1.1.1.1.1.1.1.1.1.1.1.1.1, h.1.1.1.1.1.1.1.1.1.1.1.1.1.1.1.1.2⟩, h.1.1.1.1.1.1.1.1.1.1.1.1.1.1.1.2⟩, h.1.1.1.1.1.1.1.1.1.1.1.1.1.1.2⟩, h.1.1.1.1.1.1.1.1.1.1.1.1.1.2⟩, h.1.1.1.1.1.1.1.1.1.1.1.1.2⟩, h.1.1.1.1.1.1.1.1.1.1.1.2⟩, h.1.1.1.1.1.1.1.1.1.1.2⟩, hm⟩, h.1.1.1.1.1.1.1.1.2⟩, h.1.1.1.1.1.1.1.2⟩, h.1.1.1.1.1.1.2⟩, h.1.1.1.1.1.2⟩, h.1.1.1.1.2⟩, h.1.1.1.2⟩, h.1.1.2⟩, h.1.2⟩, h.2⟩
theorem jobOf_updJob_same {k : Nat} {f : Job → Job} {s : State} (h : canonical s = true) :
    jobOf (updJob k f s) k = f (jobOf s k) := mapGet_mapMod_same (canonical_link_jobs h)
theorem jobOf_updJob_other {k j : Nat} {f : Job → Job} {s : State} (h : canonical s = true) (hj : j ≠ k) :
    jobOf (updJob k f s) j = jobOf s j := mapGet_mapMod_other (canonical_link_jobs h) hj
theorem canonical_updJob {k : Nat} {f : Job → Job} {s : State} (h : canonical s = true) : canonical (updJob k f s) = true := by
  have hm := mapWf_mapMod (k := k) (f := f) (canonical_link_jobs h)
  simp only [canonical, Bool.and_eq_true] at h ⊢
  exact ⟨⟨⟨⟨⟨⟨⟨⟨⟨⟨⟨⟨⟨⟨⟨⟨⟨h.1.1.1.1.1.1.1.1.1.1.1.1.1.1.1.1.1, h.1.1.1.1.1.1.1.1.1.1.1.1.1.1.1.1.2⟩, h.1.1.1.1.1.1.1.1.1.1.1.1.1.1.1.2⟩, h.1.1.1.1.1.1.1.1.1.1.1.1.1.1.2⟩, h.1.1.1.1.1.1.1.1.1.1.1.1.1.2⟩, h.1.1.1.1.1.1.1.1.1.1.1.1.2⟩, h.1.1.1.1.1.1.1.1.1.1.1.2⟩, h.1.1.1.1.1.1.1.1.1.1.2⟩, h.1.1.1.1.1.1.1.1.1.2⟩, hm⟩, h.1.1.1.1.1.1.1.2⟩, h.1.1.1.1.1.1.2⟩, h.1.1.1.1.1.2⟩, h.1.1.1.1.2⟩, h.1.1.1.2⟩, h.1.1.2⟩, h.1.2⟩, h.2⟩
theorem chanOf_updChan_same {k : Nat} {f : Chan → Chan} {s : State} (h : canonical s = true) :
    chanOf (updChan k f s) k = f (chanOf s k) := mapGet_mapMod_same (canonical_fence_chans h)
theorem chanOf_updChan_other {k j : Nat} {f : Chan → Chan} {s : State} (h : canonical s = true) (hj : j ≠ k) :
    chanOf (updChan k f s) j = chanOf s j := mapGet_mapMod_other (canonical_fence_chans h) hj
theorem canonical_updChan {k : Nat} {f : Chan → Chan} {s : State} (h : canonical s = true) : canonical (updChan k f s) = true := by
  have hm := mapWf_mapMod (k := k) (f := f) (canonical_fence_chans h)
  simp only [canonical, Bool.and_eq_true] at h ⊢
  exact ⟨⟨⟨⟨⟨⟨⟨⟨⟨⟨⟨⟨⟨⟨⟨⟨⟨h.1.1.1.1.1.1.1.1.1.1.1.1.1.1.1.1.1, h.1.1.1.1.1.1.1.1.1.1.1.1.1.1.1.1.2⟩, h.1.1.1.1.1.1.1.1.1.1.1.1.1.1.1.2⟩, h.1.1.1.1.1.1.1.1.1.1.1.1.1.1.2⟩, h.1.1.1.1.1.1.1.1.1.1.1.1.1.2⟩, h.1.1.1.1.1.1.1.1.1.1.1.1.2⟩, h.1.1.1.1.1.1.1.1.1.1.1.2⟩, hm⟩, h.1.1.1.1.1.1.1.1.1.2⟩, h.1.1.1.1.1.1.1.1.2⟩, h.1.1.1.1.1.1.1.2⟩, h.1.1.1.1.1.1.2⟩, h.1.1.1.1.1.2⟩, h.1.1.1.1.2⟩, h.1.1.1.2⟩, h.1.1.2⟩, h.1.2⟩, h.2⟩
theorem slotOf_updSlot_same {k : Nat} {f : Slot → Slot} {s : State} (h : canonical s = true) :
    slotOf (updSlot k f s) k = f (slotOf s k) := mapGet_mapMod_same (canonical_orng_slots h)
theorem slotOf_updSlot_other {k j : Nat} {f : Slot → Slot} {s : State} (h : canonical s = true) (hj : j ≠ k) :
    slotOf (updSlot k f s) j = slotOf s j := mapGet_mapMod_other (canonical_orng_slots h) hj
theorem canonical_updSlot {k : Nat} {f : Slot → Slot} {s : State} (h : canonical s = true) : canonical (updSlot k f s) = true := by
  have hm := mapWf_mapMod (k := k) (f := f) (canonical_orng_slots h)
  simp only [canonical, Bool.and_eq_true] at h ⊢
  exact ⟨⟨⟨⟨⟨⟨⟨⟨⟨⟨⟨⟨⟨⟨⟨⟨⟨h.1.1.1.1.1.1.1.1.1.1.1.1.1.1.1.1.1, h.1.1.1.1.1.1.1.1.1.1.1.1.1.1.1.1.2⟩, h.1.1.1.1.1.1.1.1.1.1.1.1.1.1.1.2⟩, h.1.1.1.1.1.1.1.1.1.1.1.1.1.1.2⟩, h.1.1.1.1.1.1.1.1.1.1.1.1.1.2⟩, hm⟩, h.1.1.1.1.1.1.1.1.1.1.1.2⟩, h.1.1.1.1.1.1.1.1.1.1.2⟩, h.1.1.1.1.1.1.1.1.1.2⟩, h.1.1.1.1.1.1.1.1.2⟩, h.1.1.1.1.1.1.1.2⟩, h.1.1.1.1.1.1.2⟩, h.1.1.1.1.1.2⟩, h.1.1.1.1.2⟩, h.1.1.1.2⟩, h.1.1.2⟩, h.1.2⟩, h.2⟩
theorem dropOf_updDrop_same {k : Nat} {f : Drop → Drop} {s : State} (h : canonical s = true) :
    dropOf (updDrop k f s) k = f (dropOf s k) := mapGet_mapMod_same (canonical_orng_drops h)
theorem dropOf_updDrop_other {k j : Nat} {f : Drop → Drop} {s : State} (h : canonical s = true) (hj : j ≠ k) :
    dropOf (updDrop k f s) j = dropOf s j := mapGet_mapMod_other (canonical_orng_drops h) hj
theorem canonical_updDrop {k : Nat} {f : Drop → Drop} {s : State} (h : canonical s = true) : canonical (updDrop k f s) = true := by
  have hm := mapWf_mapMod (k := k) (f := f) (canonical_orng_drops h)
  simp only [canonical, Bool.and_eq_true] at h ⊢
  exact ⟨⟨⟨⟨⟨⟨⟨⟨⟨⟨⟨⟨⟨⟨⟨⟨⟨h.1.1.1.1.1.1.1.1.1.1.1.1.1.1.1.1.1, h.1.1.1.1.1.1.1.1.1.1.1.1.1.1.1.1.2⟩, h.1.1.1.1.1.1.1.1.1.1.1.1.1.1.1.2⟩, h.1.1.1.1.1.1.1.1.1.1.1.1.1.1.2⟩, h.1.1.1.1.1.1.1.1.1.1.1.1.1.2⟩, h.1.1.1.1.1.1.1.1.1.1.1.1.2⟩, hm⟩, h.1.1.1.1.1.1.1.1.1.1.2⟩, h.1.1.1.1.1.1.1.1.1.2⟩, h.1.1.1.1.1.1.1.1.2⟩, h.1.1.1.1.1.1.1.2⟩, h.1.1.1.1.1.1.2⟩, h.1.1.1.1.1.2⟩, h.1.1.1.1.2⟩, h.1.1.1.2⟩, h.1.1.2⟩, h.1.2⟩, h.2⟩
theorem dgOf_updDg_same {k : Nat} {f : DgEng → DgEng} {s : State} (h : canonical s = true) :
    dgOf (updDg k f s) k = f (dgOf s k) := mapGet_mapMod_same (canonical_dgst_engines h)
theorem dgOf_updDg_other {k j : Nat} {f : DgEng → DgEng} {s : State} (h : canonical s = true) (hj : j ≠ k) :
    dgOf (updDg k f s) j = dgOf s j := mapGet_mapMod_other (canonical_dgst_engines h) hj
theorem canonical_updDg {k : Nat} {f : DgEng → DgEng} {s : State} (h : canonical s = true) : canonical (updDg k f s) = true := by
  have hm := mapWf_mapMod (k := k) (f := f) (canonical_dgst_engines h)
  simp only [canonical, Bool.and_eq_true] at h ⊢
  exact ⟨⟨⟨⟨⟨⟨⟨⟨⟨⟨⟨⟨⟨⟨⟨⟨⟨h.1.1.1.1.1.1.1.1.1.1.1.1.1.1.1.1.1, h.1.1.1.1.1.1.1.1.1.1.1.1.1.1.1.1.2⟩, h.1.1.1.1.1.1.1.1.1.1.1.1.1.1.1.2⟩, h.1.1.1.1.1.1.1.1.1.1.1.1.1.1.2⟩, h.1.1.1.1.1.1.1.1.1.1.1.1.1.2⟩, h.1.1.1.1.1.1.1.1.1.1.1.1.2⟩, h.1.1.1.1.1.1.1.1.1.1.1.2⟩, h.1.1.1.1.1.1.1.1.1.1.2⟩, h.1.1.1.1.1.1.1.1.1.2⟩, h.1.1.1.1.1.1.1.1.2⟩, h.1.1.1.1.1.1.1.2⟩, h.1.1.1.1.1.1.2⟩, hm⟩, h.1.1.1.1.2⟩, h.1.1.1.2⟩, h.1.1.2⟩, h.1.2⟩, h.2⟩
theorem grEngOf_updGrEng_same {k : Nat} {f : GrEng → GrEng} {s : State} (h : canonical s = true) :
    grEngOf (updGrEng k f s) k = f (grEngOf s k) := mapGet_mapMod_same (canonical_grnh_engines h)
theorem grEngOf_updGrEng_other {k j : Nat} {f : GrEng → GrEng} {s : State} (h : canonical s = true) (hj : j ≠ k) :
    grEngOf (updGrEng k f s) j = grEngOf s j := mapGet_mapMod_other (canonical_grnh_engines h) hj
theorem canonical_updGrEng {k : Nat} {f : GrEng → GrEng} {s : State} (h : canonical s = true) : canonical (updGrEng k f s) = true := by
  have hm := mapWf_mapMod (k := k) (f := f) (canonical_grnh_engines h)
  simp only [canonical, Bool.and_eq_true] at h ⊢
  exact ⟨⟨⟨⟨⟨⟨⟨⟨⟨⟨⟨⟨⟨⟨⟨⟨⟨h.1.1.1.1.1.1.1.1.1.1.1.1.1.1.1.1.1, h.1.1.1.1.1.1.1.1.1.1.1.1.1.1.1.1.2⟩, h.1.1.1.1.1.1.1.1.1.1.1.1.1.1.1.2⟩, h.1.1.1.1.1.1.1.1.1.1.1.1.1.1.2⟩, h.1.1.1.1.1.1.1.1.1.1.1.1.1.2⟩, h.1.1.1.1.1.1.1.1.1.1.1.1.2⟩, h.1.1.1.1.1.1.1.1.1.1.1.2⟩, h.1.1.1.1.1.1.1.1.1.1.2⟩, h.1.1.1.1.1.1.1.1.1.2⟩, h.1.1.1.1.1.1.1.1.2⟩, h.1.1.1.1.1.1.1.2⟩, hm⟩, h.1.1.1.1.1.2⟩, h.1.1.1.1.2⟩, h.1.1.1.2⟩, h.1.1.2⟩, h.1.2⟩, h.2⟩
theorem sliceOf_updSlice_same {k : Nat} {f : Slice → Slice} {s : State} (h : canonical s = true) :
    sliceOf (updSlice k f s) k = f (sliceOf s k) := mapGet_mapMod_same (canonical_perg_slices h)
theorem sliceOf_updSlice_other {k j : Nat} {f : Slice → Slice} {s : State} (h : canonical s = true) (hj : j ≠ k) :
    sliceOf (updSlice k f s) j = sliceOf s j := mapGet_mapMod_other (canonical_perg_slices h) hj
theorem canonical_updSlice {k : Nat} {f : Slice → Slice} {s : State} (h : canonical s = true) : canonical (updSlice k f s) = true := by
  have hm := mapWf_mapMod (k := k) (f := f) (canonical_perg_slices h)
  simp only [canonical, Bool.and_eq_true] at h ⊢
  exact ⟨⟨⟨⟨⟨⟨⟨⟨⟨⟨⟨⟨⟨⟨⟨⟨⟨h.1.1.1.1.1.1.1.1.1.1.1.1.1.1.1.1.1, h.1.1.1.1.1.1.1.1.1.1.1.1.1.1.1.1.2⟩, h.1.1.1.1.1.1.1.1.1.1.1.1.1.1.1.2⟩, h.1.1.1.1.1.1.1.1.1.1.1.1.1.1.2⟩, h.1.1.1.1.1.1.1.1.1.1.1.1.1.2⟩, h.1.1.1.1.1.1.1.1.1.1.1.1.2⟩, h.1.1.1.1.1.1.1.1.1.1.1.2⟩, h.1.1.1.1.1.1.1.1.1.1.2⟩, h.1.1.1.1.1.1.1.1.1.2⟩, h.1.1.1.1.1.1.1.1.2⟩, hm⟩, h.1.1.1.1.1.1.2⟩, h.1.1.1.1.1.2⟩, h.1.1.1.1.2⟩, h.1.1.1.2⟩, h.1.1.2⟩, h.1.2⟩, h.2⟩
theorem pwrOf_updPwr_same {k : Nat} {f : DiePwr → DiePwr} {s : State} (h : canonical s = true) :
    pwrOf (updPwr k f s) k = f (pwrOf s k) := mapGet_mapMod_same (canonical_power_dies h)
theorem pwrOf_updPwr_other {k j : Nat} {f : DiePwr → DiePwr} {s : State} (h : canonical s = true) (hj : j ≠ k) :
    pwrOf (updPwr k f s) j = pwrOf s j := mapGet_mapMod_other (canonical_power_dies h) hj
theorem canonical_updPwr {k : Nat} {f : DiePwr → DiePwr} {s : State} (h : canonical s = true) : canonical (updPwr k f s) = true := by
  have hm := mapWf_mapMod (k := k) (f := f) (canonical_power_dies h)
  simp only [canonical, Bool.and_eq_true] at h ⊢
  exact ⟨⟨⟨⟨⟨⟨⟨⟨⟨⟨⟨⟨⟨⟨⟨⟨⟨h.1.1.1.1.1.1.1.1.1.1.1.1.1.1.1.1.1, h.1.1.1.1.1.1.1.1.1.1.1.1.1.1.1.1.2⟩, h.1.1.1.1.1.1.1.1.1.1.1.1.1.1.1.2⟩, h.1.1.1.1.1.1.1.1.1.1.1.1.1.1.2⟩, h.1.1.1.1.1.1.1.1.1.1.1.1.1.2⟩, h.1.1.1.1.1.1.1.1.1.1.1.1.2⟩, h.1.1.1.1.1.1.1.1.1.1.1.2⟩, h.1.1.1.1.1.1.1.1.1.1.2⟩, h.1.1.1.1.1.1.1.1.1.2⟩, h.1.1.1.1.1.1.1.1.2⟩, h.1.1.1.1.1.1.1.2⟩, h.1.1.1.1.1.1.2⟩, h.1.1.1.1.1.2⟩, h.1.1.1.1.2⟩, h.1.1.1.2⟩, h.1.1.2⟩, h.1.2⟩, hm⟩

/-! ## Ports, free values, records -/

theorem canonical_emit {o : Out} {s : State} (h : canonical s = true) : canonical (emit o s) = true := h
theorem canonical_draw {s : State} (h : canonical s = true) : canonical (draw s).2 = true := h
theorem canonical_putQ {n : Nat} {q : SpillQ} {s : State} (h : canonical s = true) : canonical (putQ n q s) = true := by
  have hm := mapWf_mapSet (k := n) (v := settle (canSpill s) q) (canonical_splq h)
  simp only [canonical, Bool.and_eq_true] at h ⊢
  exact ⟨⟨⟨⟨⟨⟨⟨⟨⟨⟨⟨⟨⟨⟨⟨⟨⟨h.1.1.1.1.1.1.1.1.1.1.1.1.1.1.1.1.1, h.1.1.1.1.1.1.1.1.1.1.1.1.1.1.1.1.2⟩, h.1.1.1.1.1.1.1.1.1.1.1.1.1.1.1.2⟩, h.1.1.1.1.1.1.1.1.1.1.1.1.1.1.2⟩, hm⟩, h.1.1.1.1.1.1.1.1.1.1.1.1.2⟩, h.1.1.1.1.1.1.1.1.1.1.1.2⟩, h.1.1.1.1.1.1.1.1.1.1.2⟩, h.1.1.1.1.1.1.1.1.1.2⟩, h.1.1.1.1.1.1.1.1.2⟩, h.1.1.1.1.1.1.1.2⟩, h.1.1.1.1.1.1.2⟩, h.1.1.1.1.1.2⟩, h.1.1.1.1.2⟩, h.1.1.1.2⟩, h.1.1.2⟩, h.1.2⟩, h.2⟩
theorem qOf_putQ_same {n : Nat} {q : SpillQ} {s : State} (h : canonical s = true) : qOf (putQ n q s) n = settle (canSpill s) q :=
  mapGet_mapSet_same (canonical_splq h)
theorem qOf_putQ_other {n k : Nat} {q : SpillQ} {s : State} (h : canonical s = true) (hk : k ≠ n) : qOf (putQ n q s) k = qOf s k :=
  mapGet_mapSet_other (canonical_splq h) hk
theorem canonical_postRecord {q k : Nat} {p : Bytes} {s : State} (h : canonical s = true) : canonical (postRecord q k p s) = true := by
  have h1 : canonical (postEntry q k p s).1 = true := canonical_putQ h
  have h2 : canonical (postEntry 0 10 (genericRecord s .splqOverrun 10 q []) (postEntry q k p s).1).1 = true := canonical_putQ h1
  unfold postRecord
  cases hx : (decide (q ≠ 0) && isOverrun (postEntry q k p s).2) with
  | true => simp only [hx, if_true]; exact h2
  | false => simp only [hx]; exact h1

/-! ## The paths of commands -/

/-- A host command that passes its path is judged by its own meaning, on the state that has taken it. -/
theorem hostCommand_ok {op : HostOp} {u : UnitRef} {h : HostCmd} {body : InProg → State → State} {s : State}
    (hok : hostOk op h s = true) : hostCommand op u h body s = body (takeHost op.code u h s).1 (takeHost op.code u h s).2 := by
  simp only [hostOk, Bool.and_eq_true, Bool.not_eq_true', Option.isNone_iff_eq_none] at hok
  obtain ⟨⟨⟨⟨h1, h2⟩, h3⟩, h4⟩, -⟩ := hok
  have e1 : (takeHost op.code u h s).2.pav.tamper = false := h2
  have e2 : (takeHost op.code u h s).2.updt.hold = false := h3
  have e3 : intakeCheck op h (takeHost op.code u h s).2 = none := h4
  simp [hostCommand, h1, e1, e2, e3]

/-- A host command that is not taken stays posted: nothing changes. -/
theorem hostCommand_not_taken {op : HostOp} {u : UnitRef} {h : HostCmd} {body : InProg → State → State} {s : State}
    (ht : canTake h s = false) : hostCommand op u h body s = s := by simp [hostCommand, ht]

/-- A record that can reach the block is judged with its association heard. -/
theorem overDtls_ok {a : Fin 4} {k : State → State} {s : State} (h : (mapGet none s.band.assocs a.val).isSome = true) :
    overDtls a k s = k { s with band := heard a s } := by simp [overDtls, h, heard]

/-- A management command that its path lets through is judged by its own meaning. -/
theorem mgmtCommand_ok {o : Nat} {u : UnitRef} {m : MgmtHdr} {body : MgmtProg → State → State} {s : State}
    (hok : mgmtOk m s = true) : mgmtCommand o u m body s = body ⟨m.tag.val, o, u⟩
      { s with mgmt := s.mgmt ++ [⟨m.tag.val, o, u⟩], sund := { s.sund with mgmtPtr := s.sund.mgmtPtr + 1 }, band := heard m.assoc s } := by
  simp only [mgmtOk, overBand, Bool.and_eq_true, Bool.not_eq_true', decide_eq_true_eq] at hok
  obtain ⟨⟨⟨⟨⟨⟨⟨h1, h2⟩, h3⟩, h4⟩, h5⟩, h6⟩, h7⟩, h8⟩ := hok
  have h10 : s.pav.supply.isSome = false := by cases hs : s.pav.supply <;> simp_all
  have h11 : tagBusy { s with band := heard m.assoc s } m.tag.val = false := h8
  simp [mgmtCommand, h2, h3, h4, h5, h10, overDtls_ok h6, h7, h11]

end Sys2Proof.Laws
end

