-- ==== Sys2Proof/Laws/Records.lean ====
section
/-! SUPPORT. What posting a record does: with room at the queue, the record is the queue's newest entry and every other queue is
as it was. -/

namespace Sys2Proof.Laws

open Sys2Proof.Machine

/-- Moving entries between the places of a queue keeps their payloads and order. -/
theorem payloads_moveItems (a b : QLoc) (n : Nat) (is : List QItem) :
    (moveItems a b n is).map (·.payload) = is.map (·.payload) := by
  induction is generalizing n with
  | nil => cases n <;> rfl
  | cons i is ih =>
    cases n with
    | zero => rfl
    | succ n => unfold moveItems; split <;> simp [ih]

/-- Placing the entries of a burst in the middle keeps their payloads and order. -/
theorem payloads_placeBurst (c n w : Nat) (is : List QItem) :
    (placeBurst c n w is).map (·.payload) = is.map (·.payload) := by
  induction is generalizing n w with
  | nil => cases n <;> rfl
  | cons i is ih =>
    cases n with
    | zero => rfl
    | succ n => unfold placeBurst; split <;> simp [ih]

/-- A settling queue keeps its payloads and their order. -/
theorem payloads_settle (c : Bool) (q : SpillQ) : (settle c q).items.map (·.payload) = q.items.map (·.payload) := by
  have h1 : ∀ q : SpillQ, (promote q).items.map (·.payload) = q.items.map (·.payload) := by
    intro q; unfold promote; split <;> simp [payloads_moveItems]
  have h2 : ∀ q : SpillQ, (startSpill c q).items.map (·.payload) = q.items.map (·.payload) := by
    intro q; unfold startSpill; split <;> simp [payloads_placeBurst]
  have h3 : ∀ q : SpillQ, (startFetch q).items.map (·.payload) = q.items.map (·.payload) := by
    intro q; unfold startFetch; split <;> simp [payloads_moveItems]
  rw [settle, h3, h2, h1]

/-- The payload of the newest entry depends on the payloads alone. -/
theorem getLast?_payload {a b : List QItem} (h : a.map (·.payload) = b.map (·.payload)) :
    a.getLast?.map (·.payload) = b.getLast?.map (·.payload) := by
  rw [← List.getLast?_map, ← List.getLast?_map, h]

/-- A one-entry packet pushed at a queue with room is committed and stands at its end. -/
theorem pushEntry_room {c : Bool} {tick port : Nat} {pr : BitVec 6} {p : Bytes} {q : SpillQ} (h1 : q.items.length < 64)
    (h2 : q.ignoring = []) (h3 : openOf q port = none) :
    (pushEntry c tick port 1 none pr true p q).1.items = q.items ++ [⟨.tail, pr, true, fit 63 p, q.nextPkt, 0⟩] ∧
    (pushEntry c tick port 1 none pr true p q).2 = .committed := by
  have hf : qFull c q = false := by
    unfold qFull qCapacity; split <;> simp <;> omega
  simp [pushEntry, pushAs, h2, hf, h3, endPacket, closeOpen]

/-- With room at the queue, posting a record is one entry at that queue. -/
theorem postRecord_room {q k : Nat} {p : Bytes} {s : State} (hr : roomAt s q = true) :
    postRecord q k p s = (postEntry q k p s).1 ∧
    (pushEntry (canSpill s) s.tick (1000 + k) 1 none (BitVec.ofNat 6 k) true p (qOf s q)).1.items =
      (qOf s q).items ++ [⟨.tail, BitVec.ofNat 6 k, true, fit 63 p, (qOf s q).nextPkt, 0⟩] := by
  simp only [roomAt, Bool.and_eq_true, decide_eq_true_eq, List.isEmpty_iff, List.all_eq_true] at hr
  obtain ⟨⟨h1, h2⟩, h3⟩ := hr
  have ho : openOf (qOf s q) (1000 + k) = none := by
    simp only [openOf, List.find?_eq_none, beq_iff_eq]
    intro o ho; have := h3 o ho; omega
  obtain ⟨ha, hb⟩ := pushEntry_room (c := canSpill s) (tick := s.tick) (pr := BitVec.ofNat 6 k) (p := p) h1 h2 ho
  refine ⟨?_, ha⟩
  simp [postRecord, postEntry, hb, isOverrun, putQ]

/-- A record posted with room at the queue is its newest entry. -/
theorem newest_postRecord {q k : Nat} {p : Bytes} {s : State} (hc : canonical s = true) (hr : roomAt s q = true) :
    (qOf (postRecord q k p s) q).items.getLast?.map (·.payload) = some (fit 63 p) := by
  obtain ⟨h, hi⟩ := postRecord_room (k := k) (p := p) hr
  rw [h, postEntry]
  simp only []
  rw [qOf_putQ_same hc, getLast?_payload (payloads_settle _ _), hi]
  simp

/-- A record posted with room at its queue leaves every other queue as it was. -/
theorem qOf_postRecord_other {q k n : Nat} {p : Bytes} {s : State} (hc : canonical s = true) (hr : roomAt s q = true) (hn : n ≠ q) :
    qOf (postRecord q k p s) n = qOf s n := by
  rw [(postRecord_room (k := k) (p := p) hr).1]; exact qOf_putQ_other hc hn

/-- Little-endian bytes read back. -/
theorem leVal_leNat (n x : Nat) : leVal (leNat n x) = x % 256 ^ n := by
  induction n generalizing x with
  | zero => simp [leNat, leVal, Nat.mod_one]
  | succ n ih =>
    simp only [leNat, leVal, ih, BitVec.toNat_ofNat]
    have h : x % 2 ^ 8 = x % 256 := rfl
    rw [h, Nat.pow_succ', Nat.mod_mul]

/-- The status that opens a record's payload reads back. -/
theorem leAt_status (st : Status) (bs : Bytes) :
    leAt (fit 63 (leBv 2 (statusCode st) ++ bs)) 0 2 = (statusCode st).toNat := by
  have h : slice (fit 63 (leBv 2 (statusCode st) ++ bs)) 0 2 = leNat 2 (statusCode st).toNat := by
    simp [slice, fit, leBv, leNat, zeros]
  rw [leAt, h, leVal_leNat]
  exact Nat.mod_eq_of_lt (statusCode st).isLt

/-- A record posted with room whose first two bytes hold a status is that status's record. -/
theorem recorded_postRecord {q k : Nat} {p : Bytes} {st : Status} {s : State} (hc : canonical s = true) (hr : roomAt s q = true)
    (hp : leAt (fit 63 p) 0 2 = (statusCode st).toNat) : recorded (postRecord q k p s) q st = true := by
  have h := newest_postRecord (k := k) (p := p) hc hr
  unfold recorded
  cases hi : (qOf (postRecord q k p s) q).items.getLast? with
  | none => simp [hi] at h
  | some i => simp [hi] at h; simp [h, hp]

end Sys2Proof.Laws
end

