-- ==== Sys2Proof/Machine/Order.lean ====
section
/-! DEFINITION. The order in which the events of one tick are applied (01_the_complex.md R20, R21, Table ARCH-4), for whoever
fills the queue: classes in rising order, and in a class the requesters from its round-robin pointer on. -/

namespace Sys2Proof.Machine

/-- Unit indices of a class; the first three have one. -/
def classUnits (c : Nat) : Nat :=
  if c = 4 then 544 else if c = 5 then 8 else if c = 6 then 64 else if c = 7 then 254 else if c = 8 then 640 else if c = 9 then 702 else 1

/-- The round-robin pointer of a class. -/
def classPtr (s : State) (c : Nat) : Nat :=
  if c = 4 then s.sund.ptr4
  else if c = 5 then s.sund.mgmtPtr.toNat
  else if c = 6 then s.sund.hostPtr.toNat
  else if c = 7 then s.sund.ctxqPtr.toNat
  else if c = 8 then s.sund.ptr8
  else if c = 9 then s.sund.ptr9
  else 0

/-- Place of a unit in its class's turn: ascending from the pointer, wrapping to 0; what ends the class stands past its units. -/
def turnOf (s : State) (c unit : Nat) : Nat :=
  if classUnits c ≤ unit then unit else (unit + classUnits c - classPtr s c) % classUnits c

/-- Place of a fill's unit in its kind's turn. -/
def fillTurn (s : State) (kind unit : Nat) : Nat :=
  if kind = 1 then (unit + 96 - s.sund.linkFillPtr) % 96
  else if kind = 2 then (unit + 32 - s.sund.grnhFillPtr) % 32
  else turnOf s 8 (32 + unit)

/-- Key fills of one tick keep the order of R248. -/
def fillsOrdered (s : State) (a b : Instr) : Bool :=
  match fillPlace a, fillPlace b with
  | some (k, u), some (k', u') => decide (k < k') || (decide (k = k') && decide (fillTurn s k u ≤ fillTurn s k u'))
  | _, _ => true

/-- In a tick that begins in `s`, `a` may be applied before `b`: an event without a place is ordered by no rule. -/
def mayPrecede (s : State) (a b : Instr) : Bool :=
  !mayNotPrecede a b && fillsOrdered s a b && match eventPlace a, eventPlace b with
  | some (c, u), some (c', u') => decide (c < c') || (decide (c = c') && decide (turnOf s c u ≤ turnOf s c u'))
  | _, _ => true

/-- The events of a tick, in a list that keeps the order of R20 and R21. -/
def tickOrdered (s : State) : List Instr → Bool
  | [] => true
  | a :: rest => rest.all (fun b => mayPrecede s a b) && tickOrdered s rest

end Sys2Proof.Machine
end

