-- ==== Sys2Proof/Machine/RegRead.lean ====
section
/-! DEFINITION. What a read of the register window returns (20_register_index.md R415, R418, R420, R422; the field tables of the
chapters). The three reads with an effect are commands of their own; every other read changes nothing. -/

namespace Sys2Proof.Machine

/-- A field's value at its lowest bit. -/
def fld (pos v : Nat) : Nat := v * 2 ^ pos

/-- A flag at its bit. -/
def flg (pos : Nat) (b : Bool) : Nat := fld pos (bit b)

/-- A sticky bit at its place. -/
def stk (pos : Nat) (b : Sticky) : Nat := flg pos b.isSome

/-- Word `w` of a byte string. -/
def wordAt (b : Bytes) (w : Nat) : Nat := leAt b (4 * w) 4

/-- The entries of a map that satisfy `p`, counted. -/
def countIn {α : Type} (p : α → Bool) (m : NMap α) : Nat := (m.filter (fun e => p e.2)).length

/-- One bit per die. -/
def perDie (p : Nat → Bool) : Nat := (List.range 32).foldl (fun n d => n + flg d (p d)) 0

/-- PAV_CTX_STATE (Table CTX-14); it reads 0 for CID 0 and 255 (Table CTX-13). -/
def ctxStateWord (s : State) (c : Nat) : Nat :=
  if c = 0 ∨ c = 255 then 0
  else
    let x := ctxOf s c
    ctxCode x.state + flg 3 (decide (x.state = .free) && x.cooldown.isSome) + fld 4 x.cause.toNat + flg 8 x.forced +
      flg 9 x.destroyPending + flg 10 (consentNow s c).isSome + fld 16 x.gen.toNat

/-- PAV_PFX_STATE (Table CTX-15). -/
def pfxStateWord (s : State) (g : Nat) : Nat :=
  groupCode (groupStateAt s g) + fld 8 (groupOf s g).creator + fld 16 (groupOf s g).members

/-- Code of a reset cause (Table FAULT-8). -/
def causeCode : ResetCause → Nat
  | .none => 0
  | .tamper => 1
  | .supply => 2
  | .lockstep => 3
  | .cid0Integrity => 4
  | .lifeCycle => 5
  | .activation => 6
  | .firmware => 7
  | .bootRestart => 8

/-- Pavilion registers (Tables SCOPE-3, CTX-13, FAULT-7). -/
def pavRead (s : State) (off : Nat) : Nat :=
  let p := s.pav
  if off = 0x04 then Config.buildCfg.toNat
  else if off = 0x10 then fld 0 (causeCode p.cause) + fld 8 p.count.toNat + flg 16 p.tamperSeen
  else if off = 0x18 then stk 0 p.stTamper + stk 1 p.stSupply + flg 2 p.supply.isSome + stk 3 p.stWdog + stk 4 p.stFlogLost
  else if off = 0x1C then p.flogSeq.toNat
  else if off = 0x20 then p.wdogTicks.toNat
  else if off < 0x1000 then 0
  else if off < 0x1400 then ctxStateWord s ((off - 0x1000) / 4)
  else pfxStateWord s ((off - 0x1400) / 4)

/-- ORNG_SLOT_INFO of a slot (Table ORNG-15). -/
def slotInfo (x : Slot) : Nat :=
  if x.state = .empty then 0
  else fld 0 (if x.state = .active then 1 else 2) + flg 2 x.pending + fld 3 x.attr.toNat + fld 8 x.cid + flg 16 x.group.isSome +
    fld 17 (x.len / 8) + fld 24 (x.group.getD 0)

/-- Re-mask periods completed: 65,536 KCLK cycles each, 16,384 ticks (R235); none after re-masking has stopped (R252). -/
def sweeps (s : State) : Nat :=
  match s.orng.maskStart with
  | some t => ((match s.orng.maskStop with | some u => min u s.tick | none => s.tick) - t) / 16384 % 65536
  | none => 0

/-- Orangery registers (Table ORNG-12); the high word of the zeroisation tick is the master's latch (R257). -/
def orngRead (m : Nat) (s : State) (off : Nat) : Nat :=
  let o := s.orng
  if off = 0x10000 then flg 0 o.ready + flg 1 o.error + flg 2 o.kbusReady + flg 3 o.zeroized + stk 4 o.slotBad + stk 5 o.entFail +
    stk 6 o.kbusFail + stk 7 o.blobFail
  else if off = 0x10004 then o.slotSel.toNat
  else if off = 0x10008 then slotInfo (slotOf s o.slotSel.toNat)
  else if off = 0x1000C then fld 0 (countIn (fun x => decide (x.state = .active)) o.slots) + fld 16 (countIn (fun x => decide (x.state = .bad)) o.slots)
  else if off = 0x10010 then o.reseeds.toNat
  else if off = 0x10014 then o.rctFails.toNat + fld 16 o.aptFails.toNat
  else if off = 0x10018 then o.kbusUp.toNat
  else if off = 0x1001C then o.fillCnt.toNat
  else if off = 0x10020 then sweeps s + fld 16 o.maxDefer.toNat
  else if off = 0x10024 then o.zeroTick.toNat
  else if off = 0x10028 then (mapGet 0 s.sund.zeroHi m).toNat
  else 0

/-- Belvedere registers (Table BELV-14). -/
def belvRead (s : State) (off : Nat) : Nat :=
  let b := s.belv
  if off = 0x20000 then flg 0 b.ready + flg 1 b.identOk + flg 2 b.publicOnly + flg 3 (stagedImage s).isSome + flg 4 (activationPending s) +
    stk 5 b.zeroized + stk 6 b.signBusy + stk 7 b.logFull
  else if off = 0x20004 then b.maxSess.toNat + fld 8 b.idleS.toNat + flg 16 b.slot1En
  else if off = 0x20008 then perDie (fun d => (dieOf s d).mr4)
  else if off = 0x2000C then b.queue.length + fld 16 b.signed.toNat
  else if off = 0x20010 then b.log.length
  else if off < 0x20040 then wordAt b.nonce ((off - 0x20020) / 4)
  else if off < 0x20400 then wordAt (mrOf s ((off - 0x20100) / 0x30)) ((off - 0x20100) % 0x30 / 4)
  else if off < 0x28000 then 0
  else wordAt (b.log.getD ((off - 0x28000) / 0x40) []) ((off - 0x28000) % 0x40 / 4)

/-- Digest registers (Table DGST-5). -/
def dgstRead (s : State) (off : Nat) : Nat :=
  let x := dgOf s ((off - 0x30000) / 0x100)
  if off = 0x30404 then flg 0 s.dgst.enabled + fld 8 s.dgst.queue.length + fld 16 s.dgst.cache.length
  else if off ≥ 0x30400 then 0
  else if off % 0x100 = 0 then flg 0 x.run.isSome + stk 1 x.preempted + stk 2 x.cmpFail + stk 3 x.errClear
  else if off % 0x100 = 4 then x.cmpA.toNat
  else if off % 0x100 = 8 then x.cmpB.toNat
  else match x.run with
    | some r => r.req.requester + fld 6 r.req.prio + fld 8 r.req.alg + flg 10 (decide (r.req.op ≠ 1))
    | none => 0

/-- OTP registers (Table OTP-12); the shadows of words 64 to 79 read 0. -/
def otpRead (s : State) (off : Nat) : Nat :=
  let o := s.otp
  if off = 0x40000 then flg 0 o.sensed + stk 1 o.marginal + flg 2 o.cmd.isSome + stk 3 o.supplyAbort + stk 4 o.verifyFail + stk 5 o.lockRefused +
    flg 6 (o.ovr.any (fun e => e.2.valid)) + flg 7 o.repaired
  else if off = 0x40004 then o.region.toNat
  else if off = 0x4000C then o.wdata.toNat
  else if off = 0x40010 then o.cmdStatus.toNat + fld 16 o.cmdPulses.toNat
  else if off = 0x40014 then o.margCount + fld 16 o.margFirst
  else if off = 0x40018 then (List.range 4).foldl (fun n i => n + fld (8 * i) (mapGet 0 o.thermo i)) 0
  else if off = 0x40020 then o.state + flg 3 (decide (o.state = 5)) + fld 4 o.agree + fld 8 o.pending
  else if off = 0x40024 then o.code.toNat
  else if off < 0x40100 then 0
  else if off < 0x40180 then
    let e := mapGet {} o.ovr ((off - 0x40100) / 8)
    if off % 8 = 0 then e.word.toNat + flg 31 e.valid else e.value.toNat
  else
    let w := (off - 0x42000) / 4
    if 64 ≤ w ∧ w ≤ 79 then 0 else (shadowOf s w).data.toNat

/-- Boot registers (Table BOOT-14). -/
def bootRead (s : State) (off : Nat) : Nat :=
  let b := s.boot
  if off = 0x50000 then b.phase + stk 4 b.tie + stk 5 b.fallback + stk 6 b.svnLow + stk 7 b.trialRetired + stk 8 b.dirDefault +
    stk 9 b.minSvnIgnored + flg 10 b.rootFromRom
  else if off = 0x50004 then b.verA.toNat
  else if off = 0x50008 then b.verB.toNat
  else if off = 0x5000C then s.gates.toNat
  else if off = 0x50010 then b.slot.getD 0 + flg 1 b.trial + fld 2 (min 3 b.trials)
  else if off = 0x50014 then b.seq
  else if off = 0x50018 then b.seq / 2 ^ 32
  else if off = 0x5001C then b.svn
  else if off = 0x50020 then b.floor
  else if off = 0x50024 then b.excluded.toNat + fld 2 b.attempts + fld 16 b.lastFail.toNat
  else if off = 0x50028 then b.readyUs
  else 0

/-- Registers of a fence channel (Table FENCE-10). -/
def chanRead (c : Chan) (o : Nat) : Nat :=
  if o = 0x00 then stk 0 c.tagFail + stk 1 c.uerr + stk 2 c.sealedWrite + stk 3 c.noKey + stk 4 c.routeErr + stk 5 c.resCid + stk 6 c.kbusErr + stk 7 c.parkFull
  else if o = 0x04 then c.failAddr.toNat
  else if o = 0x08 then c.failAddr.toNat / 2 ^ 32
  else if o = 0x0C then c.failInfo.toNat
  else if o = 0x10 then c.failTick.toNat
  else if o = 0x14 then c.failTick.toNat / 2 ^ 32
  else if o = 0x18 then c.cntTag.toNat
  else if o = 0x1C then c.cntRefuse.toNat
  else if o = 0x20 then c.cntNoKey.toNat
  else if o = 0x24 then c.hit.toNat
  else if o = 0x28 then c.miss.toNat
  else if o = 0x2C then c.outstSel.toNat
  else 0

/-- Lines of the middle that a queue has on their way at a channel (R365). -/
def queueLines (ch : Nat) (q : SpillQ) : Nat :=
  (q.items.filter (fun i => (i.loc == .spilling || i.loc == .fetching) && lineChan (midLine q i.pos) == ch)).length

/-- FENC_CH_OUTST: requests of the selected CID outstanding at a channel (R102): single requests, and the lines of the transfers
that Greenhouse and the spill queues have under way through its internal port (log 117). -/
def outstanding (s : State) (ch cid : Nat) : Nat :=
  min 4096 (mapGet 0 (chanOf s ch).counts cid + grnhLines s ch cid +
    (if cid = 0 then ((s.splq.map (fun e => queueLines ch e.2)).foldl (· + ·) 0) else 0))

/-- Fence registers (Tables FENCE-10, FENCE-11): BUSY while a change is issued and not yet committed. -/
def fenceRead (s : State) (off : Nat) : Nat :=
  let f := s.fence
  if off = 0x80080 then f.addrBits.toNat + fld 8 f.scrubShare.toNat
  else if off = 0x80084 then f.lockGroups.toNat
  else if off = 0x80088 then 0
  else if off = 0x8008C then flg 0 (!f.locks.isEmpty) + stk 1 f.lockErr + fld 4 f.locks.length
  else if off = 0x80090 then min 524288 f.scrub.length + flg 20 (f.scrub.any (·.started)) + stk 21 f.aborted
  else if off % 0x100 = 0x30 then
    outstanding s ((off - 0x80000) / 0x100) (chanOf s ((off - 0x80000) / 0x100)).outstSel.toNat
  else chanRead (chanOf s ((off - 0x80000) / 0x100)) (off % 0x100)

/-- Registers of a link engine (Table LINK-12). A class is in force from the opening of the link gate, where it is assigned (R126):
before it CLASS and AUTH of LNKF_LINK_STATE read their reset value 0 (DEDUCED, log 63). -/
def engineRead (s : State) (e o : Nat) : Nat :=
  let x := engOf s e
  if o = 0x00 then stk 0 x.unknownJob + stk 1 x.jobTag + stk 2 x.hopTag + stk 3 x.notMember + stk 4 x.length + stk 5 x.closeTimeout +
    stk 6 x.quarantine + stk 7 x.keyFail + stk 8 x.egressRefused
  else if o = 0x04 then linkCode x.state + flg 3 x.kphase + (if gateOpen s 4 then fld 4 x.cls.toNat + flg 6 (authClass s e) else 0) + fld 16 x.rekeys.toNat
  else if o = 0x08 then x.peerEp.toNat
  else if o = 0x0C then x.cntUnknown.toNat
  else if o = 0x10 then x.cntJobTag.toNat
  else if o = 0x14 then x.cntHopTag.toNat
  else if o = 0x18 then x.cntMember.toNat
  else if o = 0x1C then x.cntLength.toNat
  else if o = 0x20 then x.cntDrop.toNat
  else x.cls.toNat

/-- Link registers (Tables LINK-12, LINK-17). -/
def linkRead (s : State) (off : Nat) : Nat :=
  if off < 0xAC000 then engineRead s ((off - 0xA0000) / 0x200) (off % 0x200)
  else if off = 0xAC000 then s.link.endpoint.toNat
  else if off = 0xAC004 then s.link.trusted.toNat + flg 8 s.link.plainOp
  else
    let j := jobOf s ((off - 0xAC800) / 8)
    if off % 8 = 0 then j.id.toNat + fld 16 j.cid
    else jobCode j.state + flg 3 j.leader + flg 4 j.plain + fld 16 j.gen.toNat

/-- Greenhouse registers (Tables GRNH-11, GRNH-12). -/
def grnhRead (s : State) (off : Nat) : Nat :=
  let d := (off - 0xC0000) / 0x400
  let e := grEngOf s d
  let o := off % 0x400
  if off = 0xC0200 then s.grnh.floor.toNat
  else if off = 0xC0204 then flg 0 s.grnh.loaded + flg 1 s.grnh.verified
  else if o = 0x00 then stk 0 e.mismatch + stk 1 e.drop + stk 2 e.missing + stk 3 e.malformed + stk 4 e.untracked + stk 5 e.unowned
  else if o = 0x04 then e.cntReceipts.toNat
  else if o = 0x08 then e.cntSelected.toNat
  else if o = 0x0C then e.cntChecked.toNat
  else if o = 0x10 then e.cntDropped.toNat
  else if o = 0x14 then e.cntMismatch.toNat
  else if o = 0x18 then e.cntUnowned.toNat
  else if o = 0x1C then e.lastSdc.toNat
  else (checksOf s d).length + fld 8 ((checksOf s d).filter (fun x => !x.2.copied)).length + fld 16 (e.keys.filter (fun k => k.2.isSome)).length

/-- Registers of a Pergola slice (Table PERG-7); PERG_VALUE reads 0 at a reserved index and at a virtual index while no set is
homed in the slice. -/
def pergRead (s : State) (off : Nat) : Nat :=
  let d := (off - 0xD0000) / 0x100
  let x := sliceOf s d
  let o := off % 0x100
  if o = 0x00 then stk 0 x.saturated + stk 1 x.underflow + stk 2 x.drift + stk 3 x.timeout + stk 4 x.leftover + stk 5 x.badOp + stk 6 x.stampDrop
  else if o = 0x04 then flg 0 x.service + fld 4 x.waitTicks.toNat
  else if o = 0x08 then x.home.getD 0 + flg 8 x.home.isSome
  else if o = 0x0C then x.waits.length + fld 16 x.ptr
  else if o = 0x10 then x.lastFault.toNat
  else if o = 0x14 then x.cntSat.toNat
  else if o = 0x18 then x.cntUnder.toNat
  else if o = 0x1C then x.cntDrift.toNat
  else if o = 0x20 then x.cntTimeout.toNat
  else if o = 0x24 then x.cntDrop.toNat
  else if o = 0x28 then x.sel.toNat
  else if x.sel.toNat ≥ semReserved ∨ (x.sel.toNat ≥ virtBase ∧ x.home.isNone) then 0
  else semValue s d x.sel.toNat

/-- Registers of a spill queue (Table SPLQ-4). -/
def splqRead (s : State) (off : Nat) : Nat :=
  let q := qOf s ((off - 0xE0000) / 0x20)
  let o := off % 0x20
  if o = 0x00 then q.midFrames.toNat + fld 8 q.timeout.toNat
  else if o = 0x04 then q.midBase.toNat
  else if o = 0x08 then flg 0 (qFull (canSpill s) q) + flg 1 q.items.isEmpty + flg 2 (!q.opens.isEmpty) + stk 3 q.overrun + stk 4 q.notice +
    stk 5 q.lenShort + stk 6 q.lenLong + stk 7 q.midLost
  else if o = 0x0C then q.items.length
  else if o = 0x10 then q.order.length
  else q.drop.toNat

/-- Power manager registers (Table PWR-4). -/
def powerRead (s : State) (off : Nat) : Nat :=
  let p := s.power
  if off = 0xF0000 then stk 0 p.clipped + stk 1 p.thermal + stk 2 p.avsErr + fld 3 (clippedDies s)
  else if off = 0xF0004 then p.vmax.toNat + fld 12 p.vfloor.toNat + fld 24 p.start.toNat
  else if off = 0xF0008 then p.cap
  else if off = 0xF000C then min 1048575 (packagePower s)
  else if off = 0xF0010 then p.hostW
  else p.cntClip.toNat

/-- Registers of a command ring's page (Table HOST-10). -/
def cmdRingRead (x : CmdRing) (o : Nat) : Nat :=
  if o = 0x000 then x.base.toNat
  else if o = 0x004 then x.base.toNat / 2 ^ 32
  else if o = 0x008 then x.log2.toNat + fld 8 x.cpl.toNat + flg 16 x.enable
  else if o = 0x010 then x.head.toNat
  else if o = 0x014 then flg 0 (x.enable && !x.stopped) + flg 1 x.stopped + stk 2 x.dbErr + stk 3 x.badDesc + stk 4 x.fetchFault + fld 16 x.badCount.toNat
  else 0

/-- Registers of a completion ring's page (Table HOST-11). -/
def cplRingRead (x : CplRing) (o : Nat) : Nat :=
  if o = 0x020 then x.base.toNat
  else if o = 0x024 then x.base.toNat / 2 ^ 32
  else if o = 0x028 then x.log2.toNat + fld 8 x.vector.toNat + flg 14 x.enable + flg 15 x.irqEn + fld 16 x.coalCount.toNat + fld 24 x.coalUs.toNat
  else if o = 0x030 then x.tail.toNat + flg 16 x.phase
  else if o = 0x034 then flg 0 x.enable + stk 1 x.eventLost + stk 2 x.dbErr + stk 3 x.writeFault
  else 0

/-- A page of the host window (Table HOST-9); the high counter words are the master's latches (R403). -/
def hostRead (m : Nat) (s : State) (off : Nat) : Nat :=
  let r := (off - 0x100000) / 0x1000
  let o := off % 0x1000
  if o < 0x020 then cmdRingRead (ringOf s r) o
  else if o < 0x038 then cplRingRead (cplOf s r) o
  else if o = 0x800 then s.power.hostW
  else if o < 0x850 then
    let i := (o - 0x810) / 8
    if o % 8 = 0 then perfValue s false i else (mapGet 0 s.sund.perfHi (perfKey m false i)).toNat
  else if o = 0x850 then s.host.ctxSel.toNat
  else
    let i := (o - 0x858) / 8
    if o % 8 = 0 then perfValue s true i else (mapGet 0 s.sund.perfHi (perfKey m true i)).toNat

/-- Bandstand and update registers (Table UPDT-8). -/
def bandRead (s : State) (off : Nat) : Nat :=
  let b := s.band
  let u := s.updt
  let up := countIn (fun x => x.isSome) b.assocs
  let slot := fun (n : Nat) => slotCode s n + fld 16 (mapGet 0 u.gens n).toNat
  if off = 0x140000 then flg 0 b.linkUp + flg 1 (decide (up > 0)) + flg 2 (mgmtComplete s) + flg 3 s.boot.shed.active + stk 4 b.authFail + stk 5 b.rxDrop
  else if off = 0x140004 then b.port.toNat + fld 16 b.maxAssoc.toNat
  else if off = 0x140008 then up + fld 16 b.handshakes.toNat
  else if off = 0x14000C then b.cntAuth.toNat
  else if off = 0x140010 then b.cntDrop.toNat
  else if off = 0x140100 then updtPhase s + stk 3 u.reject + stk 4 u.trialFailed + stk 5 u.confirmed + fld 16 u.lastStatus.toNat
  else if off = 0x140104 then u.progress
  else if off = 0x140108 then slot 0
  else if off = 0x14010C then slot 1
  else match s.logv.half with
    | some h => (halfSize - s.logv.pos) + fld 20 h
    | none => 0

/-- A Lodge window (Tables ARCH-13, CTX-16, PWR-6). -/
def lodgeRead (s : State) (off : Nat) : Nat :=
  let d := (off - 0x150000) / 0x1000
  let x := dieOf s d
  let p := pwrOf s d
  let o := off % 0x1000
  if o = 0x000 then dieCode x.state + fld 16 x.gen.toNat
  else if o = 0x100 then x.bound.toNat + fld 16 x.saveKib.toNat
  else if o = 0x104 then x.cidOut.toNat + fld 8 x.cidIn.toNat + fld 16 x.switches.toNat
  else if o = 0x108 then stk 0 x.preemptLate + stk 1 x.clearLate + stk 2 x.restoreFail + stk 3 x.saveShort
  else if o = 0x200 then p.mLo.toNat + fld 8 p.mHi.toNat
  else if o = 0x204 then p.volt + fld 12 p.step + fld 16 p.tj + fld 24 p.margin
  else if o = 0x208 then p.budget + fld 16 (p.power / 16)
  else if o = 0x20C then p.clipSteps + fld 8 p.clipW
  else if o = 0x210 then stk 0 p.errThermal + stk 1 p.errAvs + stk 2 p.errDroop
  else 0

/-- Sundial (Table ARCH-10); the high word of the tick count is the master's latch (R30). -/
def sundRead (m : Nat) (s : State) (off : Nat) : Nat :=
  let x := s.sund
  if off = 0x180000 then s.tick
  else if off = 0x180004 then (mapGet 0 x.tickHi m).toNat
  else if off = 0x180008 then stk 0 x.refLoss + flg 1 x.refLock
  else if off = 0x18000C then x.lockLast.toNat
  else x.mgmtPtr.toNat + fld 8 x.hostPtr.toNat + fld 16 x.ctxqPtr.toNat

/-- The value at a listed offset of its part. -/
def fieldRead (m : Nat) (s : State) (off : Nat) : Nat :=
  match partOf off with
  | .pavilion => pavRead s off
  | .orangery => orngRead m s off
  | .belvedere => belvRead s off
  | .digest => dgstRead s off
  | .otp => otpRead s off
  | .boot => bootRead s off
  | .fence => fenceRead s off
  | .link => linkRead s off
  | .greenhouse => grnhRead s off
  | .pergola => pergRead s off
  | .spill => splqRead s off
  | .power => powerRead s off
  | .host => hostRead m s off
  | .bandstand => bandRead s off
  | .lodge => lodgeRead s off
  | .sundial => sundRead m s off
  | .reserved => 0

/-- What a master's read of the window returns: 0 at an unaligned, unlisted or reserved offset (R415) and outside its reach
(R418). -/
def readRegister (m off : Nat) (s : State) : Word :=
  if off % 4 ≠ 0 ∨ listedReg off = false ∨ readAllowed s m off = false then 0 else word (fieldRead m s off)

end Sys2Proof.Machine
end

