-- ==== Sys2Proof/Machine/Tap.lean ====
section
/-! DEFINITION. The life-cycle gate of the test port (02_ports_and_integration.md R47, 12_otp_and_lifecycle.md R292, Table
OTP-10). The port's reads of the window are in RegRead; scan chains themselves belong to the silicon and hold no state here. -/

namespace Sys2Proof.Machine

/-- Instructions of Ocenaip's TAP that Table OTP-10 names. -/
inductive TapInstr where
  | bypass
  | idcode
  | samplePreload
  | extest
  | idRead
  | internalScan
  | ieee1687
deriving DecidableEq, Repr

/-- What the gate presents on sur_tap_*. -/
inductive SurTap where
  | bypass
  | boundary
  | open_
deriving DecidableEq, Repr

/-- The gate admits an instruction: by the voted state once sensing is complete, BYPASS alone before. -/
def tapAdmits (s : State) (i : TapInstr) : Bool :=
  if !s.otp.sensed then decide (i = .bypass)
  else if s.otp.state = 0 ∨ s.otp.state = 3 then true
  else if s.otp.state = 1 then decide (i = .bypass) || decide (i = .idcode) || decide (i = .samplePreload) || decide (i = .extest)
  else if s.otp.state = 2 then decide (i = .bypass) || decide (i = .idcode)
  else decide (i = .bypass) || decide (i = .idcode) || decide (i = .idRead)

/-- The surroundings' chains behind the gate. -/
def surTap (s : State) : SurTap :=
  if !s.otp.sensed then .bypass
  else if s.otp.state = 0 ∨ s.otp.state = 3 then .open_
  else if s.otp.state = 1 then .boundary
  else .bypass

/-- What ID_READ shifts out where it is admitted: the device class ID, then the unit ID. -/
def idRead (s : State) : Bytes := if tapAdmits s .idRead then deviceClass s ++ shadowBytes s 81 2 else []

end Sys2Proof.Machine
end

