-- ==== Sys2Proof/WellFormed.lean ====
section
/-! DEFINITION. Which terms of Instr are commands that can reach the block: lengths and ranges that the ports and the rules
give the operands. The machine itself is total; it answers ill-formed terms too. -/

namespace Sys2Proof

/-- A descriptor chain as its ring holds it (R389, Table HOST-1): CHAIN is one byte, BUF_LEN four, and the operand area runs over
every descriptor of a legal chain. -/
def wfHost (h : HostCmd) : Bool :=
  decide (h.chain < 256) && decide (h.bufLen < 2 ^ 32) &&
  decide (h.ops.length = 44 + 64 * ((if 1 ≤ h.chain ∧ h.chain ≤ 4 then h.chain else 1) - 1))

/-- A payload entry of a spill queue: 63 bytes beside its header byte (R360). -/
def wfEntry (e : QEntry) : Bool := decide (e.payload.length ≤ 63)

/-- A HELLO of Table LINK-7. -/
def wfHello (m : HelloMsg) : Bool := decide (m.random.length = 32) && decide (m.ecdh.length = 97) && decide (m.kem.length = 1568)

/-- A digest descriptor of 64 bytes, followed by the 160 bytes of the export record where RESUME is set (R263); its OP is the
command's or a reserved one. -/
def wfDigest (op : Nat) (d : Bytes) : Bool :=
  let o := (d.headD 0).toNat
  let resume := ((d.drop 3).headD 0).getLsbD 3
  decide (d.length = if resume then 224 else 64) && (decide (o = op) || decide (o = 0) || decide (3 < o))

/-- Opcodes of Table HOST-3. -/
def hostListed : List Nat := [0x01, 0x02, 0x03, 0x04, 0x05, 0x08, 0x09, 0x0A] ++ [0x10, 0x18, 0x19, 0x20, 0x21, 0x28, 0x30, 0x38]
/-- Opcodes of Table UPDT-1. -/
def mgmtListed : List Nat := [0x01, 0x02, 0x03, 0x04, 0x10, 0x11, 0x12, 0x20, 0x21] ++ [0x22, 0x30, 0x38, 0x40, 0x48, 0x49, 0x50, 0x51]
/-- SPDM requests of Table PORT-7. -/
def spdmListed : List Nat := [0x81, 0x82, 0x83, 0x84, 0xE0, 0xE1, 0xE3, 0xE4, 0xE5]
/-- PLDM commands of R322 (numbers: log 43). -/
def pldmListed : List Nat := [0x01, 0x02, 0x10, 0x13, 0x14, 0x15, 0x16] ++ [0x17, 0x18, 0x1A, 0x1B, 0x1C, 0x1D]

/-- The command can reach the block. -/
def wellFormed (c : Instr) : Bool :=
  match c with
  | .registerWrite _ offset _ => decide (offset.toNat % 4 = 0)
  | .mgmtScrubFrames _ fs => decide (fs.length ≤ 16384)
  | .stampDone _ _ hs => hs.all (fun h => decide (h.sems.length = 48))
  | .linkIngressFrame _ beats f => decide (f.length ≤ 256 * beats)
  | .hopHello _ m => wfHello m
  | .hopFinish _ mac => decide (mac.length = 48)
  | .receipt _ _ es => decide (1 ≤ es.length) && es.all wfEntry
  | .splqEntryWrite p e => wfEntry e && (match p with | .queue q _ _ => decide (q.val < 66) | .ctxPrivate _ _ => true)
  | .packetShortTimeout _ p => decide (p < 10240)
  | .powerCap _ w => decide (w < 2 ^ 32)
  | .entropyBlock raw => decide (raw.length = 128)
  | .kbusConfirmation _ pub conf => decide (pub.length = 97) && decide (conf.length = 8)
  | .digestHash _ d => wfDigest 1 d.bytes
  | .hmacGen _ _ d => wfDigest 2 d.bytes
  | .hmacCheck _ _ d => wfDigest 3 d.bytes
  | .pottingData _ off d => decide (off < 2 ^ 32) && decide (d.length ≤ 1024)
  | .challenge _ _ nonce _ => decide (nonce.length = 32)
  | .getMeasurements _ _ _ nonce => decide (nonce.length = 32) || decide (nonce.length = 0)
  | .spdmUnsupportedRequest _ code => !spdmListed.contains code.toNat
  | .ctxMemoryRead _ _ _ _ n => decide (n < 2 ^ 32)
  | .eventsRead _ start => decide (start < 2 ^ 32)
  | .faultLogRead _ start => decide (start < 2 ^ 32)
  | .chainTimeout _ h => wfHost h
  | .bufferAccessTimeout x => wfHost x.cmd && hostListed.contains x.opcode.toNat
  | .hostUnlistedOpcode h opcode => wfHost h && !hostListed.contains opcode.toNat
  | .mgmtUnlistedOpcode _ opcode => !mgmtListed.contains opcode.toNat
  | .pldmUnsupportedCommand _ code => !pldmListed.contains code.toNat
  | .ctxCreate h | .ctxKeyImport h | .ctxFrameBind h | .ctxFrameRelease h | .ctxPrefixSeal h | .ctxSchedule h
  | .ctxDrain h | .ctxDestroy h | .attestEvidence h | .verifyPolicy h | .verifyReport h | .jobLinkOpen h
  | .jobLinkClose h | .scrubFrames h | .powerPolicy h | .debugConsent h => wfHost h
  | .tamperZeroize | .tamperRelease | .supplyAlarm | .supplyRelease | .supplyResetTimeout | .coldReset | .blockReset
  | .lockstepMismatch _ | .resetDelayExpiry | .refLoss | .refRelock | .lockedChangeCommit | .sundTickLoRead _
  | .orngZeroTickLoRead _ | .hostPerfLoRead _ _ _ _ | .mgmtCtxDrain _ | .mgmtCtxDestroy _ | .pfxCreate _ | .pfxJoin _
  | .pfxLeave _ | .cmrExtend _ | .groupRetired _ | .integrityFault _ | .fencedToDestroying _ | .drainCountsZero _
  | .drainFinish _ | .drainTimeout _ | .destroyWaitTimeout _ | .destroyZeroise _ | .destroyScrubDone _
  | .cooldownExpiry _ | .consentExpiry _ | .counterRefresh | .sliceExpiry _ | .saveComplete _ | .ctxClearAck _
  | .ctxClearTimeout _ | .preemptTimeout _ | .coreReset _ _ | .partialReset _ | .heartbeatMissed _
  | .ldgHeartbeat _ _ _ | .dieReloadDone _ _ | .dieReloadTimeout _ | .blockResetRequest _ _ | .dieResetRequest _ _
  | .fenceReadRequest _ | .fenceWriteRequest _ _ | .mcResponse _ _ _ _ | .mcWack _ _ | .fillRequest _
  | .fenceFillMessage _ _ | .jobFillMessage _ _ | .samplingKeyFillMessage _ _ | .pushMessage _ _ | .pushAckTimeout _
  | .scrubFrameDone _ | .lockInvalidatePairs _ _ _ | .lockInvalidateCid _ _ | .lockInvalidateGroup _ _
  | .lockSealGroup _ _ | .lockInvalidateAll _ | .linkEgressBeat _ _ _ _ | .egressFrameClose _ | .jobTagThreshold _
  | .hopTagThreshold _ | .lnkUpRise _ | .lnkUpFall _ | .hopCert _ _ | .hopEncap _ _ _ | .keyingTimeout _
  | .linkRetryTimer _ | .hseqRekeyThreshold _ | .linkRekey _ | .rekeyRetryTimer _ | .oldPhaseExpiry _ | .join _
  | .grant _ | .memberKeyingTimeout _ | .jobClose _ _ | .closeAck _ _ | .closeTimerExpiry _ _
  | .jobOpenOp _ _ _ _ _ _ | .jobCloseOp _ | .samplingDecision _ | .opBegin _ | .opEnd _ | .outputCopyDone _ _ _
  | .checkVerdict _ _ | .checkDrop _ _ | .add _ | .sub _ | .waitGe _ | .waitSub _ | .read _ | .set _ | .realign _
  | .ringOperation _ | .waitTimeout _ _ | .consumerRead _ | .spillBurstDone _ | .middleReadDone _ _
  | .splqTimeoutNotice _ | .schedule _ | .drain _ | .fence _ | .destroy _ | .reload _ | .powerLoop _ _
  | .thermalLimit _ | .powerTelemetryRefresh | .remask _ | .drbgReseed | .generateQueueTimeout | .blobLoad _ _
  | .blobExport _ _ _ | .derive _ | .zeroise _ _ | .compare _ _ _ | .keyCheckValue _ | .keyLoadVerified _
  | .keyLoadCommit _ | .kbusEstablish | .dgstPreempted _ _ | .digestDone _ _ _ | .dgstReadTimeout _ | .dgst0ImageEnd
  | .unitEn _ _ | .program _ _ _ | .lock _ _ _ | .thermoAdvance _ _ _ | .genUds _ _ | .lcycAdvance _ _ _
  | .mgmtLcycAdvance _ _ _ | .otpPulseEnd _ | .overrideWrite _ _ _ _ _ | .otpSensingDone _ | .bootRomStart
  | .drbgReady | .slotSelection | .verified | .bootAttemptFail | .bootAttemptTimeout | .deferredCheckDone _
  | .freeze _ _ | .freezeTimeout | .belvedereSequenceDone | .ready | .pottingShed | .announce | .pottingEnd _ _
  | .pottingShedTransferTimeout | .signingDone | .mrExtend _ _ _ | .getVersion _ | .getCapabilities _
  | .negotiateAlgorithms _ _ | .getDigests _ | .getCertificate _ _ _ _ | .keyExchange _ _ _ | .spdmFinish _ _ _
  | .sessionIdleTimeout _ _ | .doeDiscovery _ | .doeAbort | .doeObjectTimeout | .dtlsHandshake _ _ _
  | .associationIdleTimeout _ | .bootingDatagram | .icmpv6Request _ _ | .mctpMessageTimeout _ | .getInfo _
  | .keygenEpoch _ _ _ _ | .settingsWrite _ _ | .updtConfirm _ | .autoConfirmExpiry | .updtDiscard _
  | .queryDeviceIdentifiers _ | .getFirmwareParameters _ | .requestUpdate _ | .passComponentTable _ _
  | .updateComponent _ _ _ | .firmwareData _ _ _ | .firmwareDataTimeout | .stagingDone | .activateFirmware _
  | .getStatus _ | .cancelUpdateComponent _ | .cancelUpdate _ | .hostCmdDb _ _ _ | .hostCplDb _ _ _
  | .commandRingEnable _ _ _ | .completionRingEnable _ _ _ | .descriptorFetchFault _ | .completionWriteFault _
  | .coalescingTimer _ | .hostFlr | .hostFnReady | .operandFetchDone _ _ _ | .lodgeReadyTimeout _
  | .programmingSupplyAbort _ _ | .doeObjectError _ _ _ | .contextPrivateBadPacket _ | .pergolaNullOperation _
  | .bandstandFrameDropped | .sgmiiLinkChange _ => true

end Sys2Proof
end

