-- ==== Sys2Proof/Tests/Slice0.lean ====
section
/-! SUPPORT. Tests: ill-formed commands that WellFormed refuses, the manual's worked values, and for every statement with
hypotheses a state and operands that meet them. -/

namespace Sys2Proof.Tests

open Sys2Proof Sys2Proof.Machine
-- The checks run one after another, so that their memory is not held at the same time.
set_option Elab.async false

/-! ### Ill-formed commands are refused by WellFormed, one for each check -/

theorem test_wf_offset : wellFormed (.registerWrite 1 0x40001 0) = false ∧ wellFormed (.registerWrite 1 0x40000 0) = true := by decide
/-- A host command with the given CHAIN, buffer length and operand length. -/
def anyHost (chain bufLen n : Nat) : HostCmd := ⟨0, 0, 0, chain, 0, 0, 0, bufLen, zeros n, .noAnswer⟩
theorem test_wf_host : wellFormed (.ctxCreate (anyHost 1 0 44)) = true ∧ wellFormed (.ctxCreate (anyHost 1 0 45)) = false ∧
    wellFormed (.ctxFrameBind (anyHost 2 0 108)) = true ∧ wellFormed (.ctxFrameBind (anyHost 2 0 44)) = false ∧
    wellFormed (.ctxCreate (anyHost 256 0 44)) = false ∧ wellFormed (.ctxCreate (anyHost 1 (2 ^ 32) 44)) = false := by decide
theorem test_wf_unlisted : wellFormed (.hostUnlistedOpcode (anyHost 1 0 44) 0x38) = false ∧ wellFormed (.hostUnlistedOpcode (anyHost 1 0 44) 0x39) = true ∧ wellFormed (.bufferAccessTimeout ⟨anyHost 1 0 44, 0x39⟩) = false ∧
    wellFormed (.mgmtUnlistedOpcode ⟨0, true, 0, 0, 0, true⟩ 0x51) = false ∧ wellFormed (.spdmUnsupportedRequest (.doe none) 0xE5) = false ∧
    wellFormed (.pldmUnsupportedCommand ⟨0, 0⟩ 0x1D) = false := by decide
theorem test_wf_entries : wellFormed (.receipt 0 0 []) = false ∧ wellFormed (.receipt 0 0 [⟨true, zeros 64⟩]) = false ∧
    wellFormed (.splqEntryWrite (.queue 0 0 0) ⟨true, zeros 64⟩) = false ∧ wellFormed (.splqEntryWrite (.queue 0 0 0) ⟨true, zeros 63⟩) = true := by decide
set_option maxRecDepth 4000 in
theorem test_wf_lengths : wellFormed (.entropyBlock (zeros 127)) = false ∧ wellFormed (.digestHash 0 ⟨0, (zeros 63)⟩) = false ∧
    wellFormed (.hmacGen 0 0 ⟨0, (zeros 63)⟩) = false ∧ wellFormed (.hmacCheck 0 0 ⟨0, (zeros 65)⟩) = false ∧ wellFormed (.hopFinish 0 (zeros 47)) = false ∧
    wellFormed (.challenge (.doe none) 0 (zeros 31) 0) = false ∧ wellFormed (.getMeasurements (.doe none) 0 false (zeros 31)) = false ∧
    wellFormed (.digestHash 0 ⟨0, ([1, 0, 0, 8] ++ zeros 60)⟩) = false ∧ wellFormed (.digestHash 0 ⟨0, ([1, 0, 0, 8] ++ zeros 220)⟩) = true ∧
    wellFormed (.kbusConfirmation 0 (zeros 96) (zeros 8)) = false ∧ wellFormed (.kbusConfirmation 0 (zeros 97) (zeros 7)) = false ∧
    wellFormed (.hopHello 0 ⟨0, zeros 31, zeros 97, []⟩) = false ∧ wellFormed (.hopHello 0 ⟨0, zeros 32, zeros 96, []⟩) = false ∧
    wellFormed (.hopHello 0 ⟨0, zeros 32, zeros 97, []⟩) = false ∧ wellFormed (.stampDone 0 ⟨.ok, 1⟩ [⟨true, [0]⟩]) = false := by decide
theorem test_wf_numbers : wellFormed (.eventsRead ⟨0, true, 0, 0, 0, true⟩ (2 ^ 32)) = false ∧ wellFormed (.faultLogRead ⟨0, true, 0, 0, 0, true⟩ (2 ^ 32)) = false ∧
    wellFormed (.powerCap ⟨0, true, 0, 0, 0, true⟩ (2 ^ 32)) = false ∧ wellFormed (.ctxMemoryRead ⟨0, true, 0, 0, 0, true⟩ 1 0 0 (2 ^ 32)) = false ∧
    wellFormed (.pottingData 0 (2 ^ 32) []) = false ∧ wellFormed (.packetShortTimeout 0 10240) = false ∧ wellFormed (.packetShortTimeout 0 1320) = true ∧
    wellFormed (.linkIngressFrame 0 0 [1]) = false := by decide
/-- A scrub stream of 16,385 frames and a data message of 1,025 bytes are too long. -/
theorem test_wf_scrub (fs : List (Fin 524288)) (h : fs.length = 16385) : wellFormed (.mgmtScrubFrames ⟨0, true, 0, 0, 0, true⟩ fs) = false := by
  show decide (fs.length ≤ 16384) = false
  rw [h]; decide
theorem test_wf_potting (d : List Byte) (h : d.length = 1025) : wellFormed (.pottingData 0 0 d) = false := by
  show (decide (0 < 2 ^ 32) && decide (d.length ≤ 1024)) = false
  rw [h]; decide

/-! ### Worked values -/

/-- FIPS 197, appendix C.3. -/
theorem test_aes256 : aesEnc ((List.range 32).map (BitVec.ofNat 8)) [0x00, 0x11, 0x22, 0x33, 0x44, 0x55, 0x66, 0x77, 0x88, 0x99, 0xaa, 0xbb, 0xcc, 0xdd, 0xee, 0xff] =
    [0x8e, 0xa2, 0xb7, 0xca, 0x51, 0x67, 0x45, 0xbf, 0xea, 0xfc, 0x49, 0x90, 0x4b, 0x49, 0x60, 0x89] := by decide +kernel
/-- The check value of CRC-32 (IEEE 802.3) over "123456789". -/
theorem test_crc32 : crc32 (ascii "123456789") = 0xcbf43926 := by decide +kernel
/-- R23: an advance from 0xFFFF wraps to 0x0001. -/
theorem test_genNext : genNext 0xffff = 1 ∧ genNext 1 = 2 := by decide
/-- "A trial that fails": counter 0 is 4 and MIN_SVN 2,050, so the floor is 2,050; a MIN_SVN below 2,048 is ignored. -/
theorem test_floor : (floorOf { otp := { thermo := [(0, 4)] }, logv := { recs := [⟨2, 1, leNat 4 2050⟩] } }).1 = 2050 ∧
    floorOf { otp := { thermo := [(0, 4)] }, logv := { recs := [⟨2, 1, leNat 4 2047⟩] } } = (2048, 2047, true) := by decide
/-- The register example of "The register window": the offsets of three units' registers lie in their parts. -/
theorem test_parts : partOf 0x92C30 = .fence ∧ partOf 0xABE20 = .link ∧ partOf 0x16120C = .lodge ∧ partOf 0x10502C = .host ∧
    ownLodge 0x16120C = 5 + 17 := by decide

/-! ### Register reads -/

/-- The registers whose reset value is not zero, with that value (Tables REGS-4 to REGS-19). -/
def resetRegs : List (Nat × Word) :=
  [(0x4, 0x01601020), (0x180008, 2), (0x150100, 0x003F03E8), (0x16F100, 0x003F03E8), (0x80080, 0x422), (0x80084, 0xFFFF)] ++
  [(0x20004, 0x00013C04), (0x140004, 0x0002C04E), (0xE0000, 0x0061A800), (0xE27E8, 2), (0xF0004, 0x04226352), (0xF0008, 0x1D4C)] ++
  [(0x150200, 0xC020), (0x100008, 4), (0x13F028, 4), (0x100030, 0x10000), (0x20, 0x64)]
/-- The first 0x300 bytes of every range of the window read zero but for these registers and their further copies. -/
def resetZero : List Nat :=
  [0x0, 0x1000, 0x10000, 0x20000, 0x28000, 0x30000, 0x40000, 0x42000, 0x50000, 0x80100, 0xA0000, 0xAC000, 0xC0000, 0xD0000, 0x100800]
theorem test_reset_registers : resetRegs.all (fun r => readRegister 1 r.1 State.reset == r.2) = true := by decide +kernel
theorem test_reset_zero : resetZero.all (fun b => (List.range 192).all (fun i => (resetRegs.any (fun r => r.1 == b + 4 * i)) ||
    readRegister 1 (b + 4 * i) State.reset == 0)) = true := by decide +kernel
/-- A Lodge reads its own window and no other's (R417, R418). -/
theorem test_read_reach : readRegister 5 0x150100 State.reset = 0x003F03E8 ∧ readRegister 5 0x151100 State.reset = 0 ∧
    readRegister 37 0x20004 State.reset = 0 ∧ readRegister 38 0x20004 State.reset = 0 ∧ readRegister 1 0x150101 State.reset = 0 := by decide +kernel

/-- "Three grants from pointer 62" (R21's example): rings 63, 3, 10 in this order, then the pointer is 1; a drain timeout comes
after the semaphore operation of its tick (Table ARCH-4). -/
theorem test_turns :
    tickOrdered { State.reset with sund := { hostPtr := 62 } } [.ctxCreate { anyHost 1 0 44 with ring := 63 },
      .ctxDrain { anyHost 1 0 44 with ring := 3 }, .ctxCreate { anyHost 1 0 44 with ring := 10 }] = true ∧
    tickOrdered { State.reset with sund := { hostPtr := 62 } } [.ctxCreate { anyHost 1 0 44 with ring := 3 },
      .ctxDrain { anyHost 1 0 44 with ring := 63 }] = false ∧
    tickOrdered State.reset [.drainTimeout 5, .ringOperation 3] = false ∧ (62 : BitVec 6) + 1 + 1 + 1 = 1 := by decide
/-! ## The machine -/

theorem wit_emptyQueue : State.reset.pending = [] ∧ calm State.reset = true := by decide
theorem wit_emptyQueue_due : let s : State := { link := { jobs := [(7, { state := .open_, badDue := some 0 })] } }
    s.pending = [] ∧ canonical s = true ∧ s.fence.locks = [] ∧ s.tick + 1 < 2 ^ 64 ∧ (jobOf s 7).badDue = some 0 ∧
    (jobOf s 7).state = .open_ := by decide
/-- The invariants hold of a state that is not the reset state, and a step leads on from it. -/
theorem wit_invariants : let s : State := { pending := [.refLoss], ctxs := [(40, { state := .created })], perg := { slices := [(0, { sems := [(7, 5)] })] }, pav := { flog := [[]] }, host := { nextId := 1, inProg := [⟨0, 5, 5, 1, false, 40, 7, false, .none, 0, 0, .noAnswer⟩] } }
    canonical s = true ∧ semaphoresOk s = true ∧ storesBounded s = true ∧ idsFresh s = true ∧ (∃ t, step s = .next t) :=
  ⟨by decide, by decide, by decide, by decide, ⟨_, rfl⟩⟩
theorem wit_fuses : let s : State := { otp := { array := [(0, 5)] } }
    canonical s = true ∧ (arrayWord s 0).getLsbD 2 = true := by decide

/-! ## Alarms, resets, timebase, registers -/

/-- A block reset is pending. -/
theorem wit_blockReset : let s : State := { tick := 1, pav := { pendingReset := some .firmware } }
    rebuilding s = false ∧ slotSize ≤ slotSize + slotBase 0 ∧ s.pav.pendingReset = some .firmware ∧ s.pav.resetAt < s.tick ∧ s.otp.cmd = none ∧ canonical s = true := by decide
theorem wit_tamperRelease : let s : State := { tick := 250000, pav := { tamper := true } }
    s.pav.tamper = true ∧ s.pav.tamperLow + 250000 ≤ s.tick ∧ s.pav.supply = none := by decide
theorem wit_supplyResetTimeout : let s : State := { tick := 2500000, pav := { supply := some 0 } }
    s.pav.supply = some 0 ∧ 0 + 2500000 ≤ s.tick ∧ s.pav.tamper = false := by decide
theorem wit_resetDelayExpiry : let s : State := { tick := 4, pav := { delayed := [(5, .activation)] } }
    s.pav.delayed = [(5, .activation)] ∧ 5 ≤ s.tick + 1 ∧ s.pav.pendingReset = none := by decide
/-- A vault, a channel and an engine that hold keys. -/
def keyed : State := { tick := 9, orng := { slots := [(3, { state := .active })] }, fence := { chans := [(0, { entries := [⟨1, 0, [], [], [], 1, 0, false, none, none⟩] })] }, link := { engines := [(4, { state := .ready, keys := [(0, [1])] })] } }
theorem wit_tamperZeroize : canonical keyed = true := by decide
theorem wit_supplyAlarm : canonical State.reset = true ∧ roomAt State.reset 0 = true ∧ State.reset.pav.supply = none ∧
    State.reset.otp.cmd = none ∧ rebuilding State.reset = false := by decide
theorem wit_supplyAlarm_rebuild : let s : State := { updt := { current := some { tag := 0, phase := 3 } } }
    canonical s = true ∧ roomAt s 0 = true ∧ s.pav.supply = none ∧ s.otp.cmd = none ∧ rebuilding s = true := by decide
theorem wit_supplyAlarm_again : ({ pav := { supply := some 4 } } : State).pav.supply = some 4 := by decide
theorem wit_supplyRelease : let s : State := { tick := 250004, pav := { supply := some 4, supplyLow := 4 } }
    s.pav.supply = some 4 ∧ s.pav.supplyLow + 250000 ≤ s.tick ∧ s.tick < 4 + 2500000 := by decide
theorem wit_refLoss : canonical State.reset = true ∧ roomAt State.reset 1 = true ∧ State.reset.sund.refLock = true := by decide
theorem wit_refRelock : let s : State := { sund := { refLock := false } }
    canonical s = true ∧ roomAt s 1 = true ∧ s.sund.refLock = false := by decide
theorem wit_sundTickLoRead : readAllowed State.reset 36 0x180000 = true ∧ readAllowed State.reset 37 0x180000 = false := by decide
theorem wit_orngZeroTickLoRead : readAllowed State.reset 4 0x10024 = true ∧ readAllowed State.reset 5 0x10024 = false := by decide
theorem wit_hostPerfLoRead : readAllowed { gates := 4 } 37 (0x100810 + 0x1000 * 63 + 8 * 6) = true ∧
    readAllowed { gates := 4 } 37 (0x100858 + 0x1000 * 63 + 8 * 7) = true ∧
    (ctxOf ({ gates := 4 } : State) 0).consent = none := by decide
theorem wit_registerWrite_refused : roomAt State.reset 0 = true ∧ canonical State.reset = true ∧
    mapGet 0 State.reset.pav.notPerm 36 ≤ State.reset.tick ∧ writeReach 36 0x18 = false ∧ writeReach 36 0x16F208 = true ∧
    writeReach 35 0x16F208 = false ∧ listedReg 0x16F208 = true := by decide
theorem wit_registerWrite_readOnly : readOnlyReg 0x16F20C = true ∧ readOnlyReg 0x16F100 = false ∧ readOnlyReg 0xABE20 = true ∧
    readOnlyReg 0xABE24 = false ∧ listedReg 0x20014 = false ∧ listedReg 0x17C = false ∧ listedReg 0x9FF31 = false := by decide
theorem wit_registerWrite_base : let s : State := { gates := 4, host := { rings := [(63, { enable := true })] } }
    gateOpen s 2 = true ∧ (ringOf s 63).enable = true ∧ canonical s = true := by decide

/-! ## Power -/

theorem wit_powerCap : mgmtOk ⟨3, true, 0, 0, 0, true⟩ { gates := 8, band := { assocs := [(0, some 0)] } } = true := by decide
/-- Die 31 runs. -/
def dieRuns : State := { dies := [(31, { state := .running })], power := { dies := [(31, { loops := true, step := 8, hot := 250 })] } }
theorem wit_powerLoop : canonical dieRuns = true ∧ (dieOf dieRuns 31).state = .running ∧ dieRuns.pav.supply = none ∧
    (pwrOf dieRuns 31).loops = true ∧ (pwrOf dieRuns 31).step ≤ 8 ∧ 16 * budgetOf dieRuns 31 < min 131071 (readPower ⟨50, 0, 105, 750, 10000090, 8, true⟩) ∧ loopDue dieRuns 31 = true ∧ roomAt dieRuns 0 = true := by decide
theorem wit_powerLoop_early : let s : State := { tick := 2499, power := { dies := [(31, { loopAt := some 0 })] } }
    (pwrOf s 31).loopAt = some 0 ∧ s.tick < 0 + 2500 := by decide
theorem wit_thermalLimit : roomAt dieRuns 1 = true ∧ 250 ≤ (pwrOf dieRuns 31).hot := by decide
theorem wit_powerTelemetryRefresh : State.reset.tick % 2500000 = 0 ∧ canonical State.reset = true := by decide
theorem wit_operatorTelemetry : ({ tick := 250000 } : State).tick % 250000 = 0 ∧ ({ tick := 250000 } : State).tick % 2500000 ≠ 0 := by decide

/-! ## Host rings -/

/-- Ring 5 and its completion ring enabled, with posted entries. -/
def ring5 : State := { tick := 250000, gates := 0xff, host := { rings := [(5, { enable := true, cpl := 5, pi := 2, posted := [0, 0] })], cpls := [(5, { enable := true })] } }
/-- A command on ring 5. -/
def cmd5 (chain : Nat) : HostCmd := ⟨5, 40, 0, chain, 0x0101, 0, 0, 0, [], .noAnswer⟩
theorem wit_hostCmdDb : canonical ring5 = true ∧ gateOpen ring5 2 = true ∧ (15 : Nat) < ringSize (ringOf ring5 5).log2 ∧
    ringSize (ringOf ring5 5).log2 ≤ 16 := by decide
theorem wit_commandRingEnable : (ringOf ring5 6).enable = false ∧ (ringOf ring5 5).enable = true ∧
    ((0x10000 : Word).getLsbD 16 = true) := by decide
theorem wit_completionRingEnable : (cplOf ring5 6).enable = false ∧ (cplOf ring5 5).enable = true ∧ ((0x8000 : Word).getLsbD 14 = false) ∧ ((0x4000 : Word).getLsbD 14 = true) := by decide
theorem wit_hostCplDb : (cplOf ring5 5).events = [] ∧ (0 : Nat) = (cplOf ring5 5).tail.toNat ∧
    (cplOf ring5 5).used < ringSize (cplOf ring5 5).log2 := by decide
theorem wit_chainTimeout : (ringOf ring5 5).posted = [0, 0] ∧ (ringOf ring5 5).posted.length < chainLen (cmd5 3) ∧
    0 + 250000 ≤ ring5.tick ∧ canTake { cmd5 3 with chain := 2 } ring5 = true ∧ ring5.pav.tamper = false ∧ ring5.updt.hold = false ∧
    gateOpen ring5 2 = true := by decide
theorem wit_descriptorFetchFault : roomAt ring5 0 = true ∧ (ringOf ring5 5).enable = true ∧ (ringOf ring5 5).stopped = false ∧
    (ringOf ring5 5).posted ≠ [] := by decide
theorem wit_completionWriteFault : (cplOf ring5 5).enable = true ∧ (ringOf ring5 5).cpl.toNat = 5 := by decide
/-- A policy of 4,819 bytes announced on ring 5. -/
theorem wit_bufferAccessTimeout : let h : HostCmd := { cmd5 1 with gen := 0x0101, bufLen := 4819 }
    let s : State := { ring5 with ctxs := [(40, { state := .keyed, gen := 0x0101 })] }
    opVerifyPolicy ∈ hostOps ∧ readsBuffer opVerifyPolicy h = true ∧ hostOk opVerifyPolicy { h with buf := .noAnswer } s = true ∧
    canonical s = true ∧ h.gen = (ctxOf s h.cid).gen ∧ h.gen ≠ 0 ∧ (ctxOf s h.cid).state = .keyed ∧
    ctxCheck .debugConsent h.cid h.gen ring5 = some .staleGeneration ∧ hostOk opVerifyPolicy { h with buf := .noAnswer } ring5 = true := by decide
theorem wit_hostUnlistedOpcode : ∀ o ∈ hostOps, o.code ≠ (0x7f : Byte).toNat := by decide
theorem wit_coalescingTimer : let s : State := { tick := 250, host := { cpls := [(5, { enable := true, irqEn := true, coalUs := 1, unsig := 1 })] } }
    (cplOf s 5).irqEn = true ∧ (cplOf s 5).coalUs ≠ 0 ∧ 0 < (cplOf s 5).unsig ∧
    (cplOf s 5).unsigTick + 250 * (cplOf s 5).coalUs.toNat ≤ s.tick := by decide
theorem wit_hostFnReady : let s : State := { gates := 4, host := { flrTick := some 0 } }
    gateOpen s 2 = true ∧ s.host.flrTick = some 0 := by decide


/-! ## Contexts -/

/-- Ring 5 with one posted command; CID 40 is KEYED at generation 7 with V = 2, group 3 under KSEL 1 and a SAVE frame; CID 41
is DRAINED, 42 FENCED, 43 RUNNING, 44 CREATED, 45 in cool-down. -/
def cx : State := { ring5 with band := { assocs := [(0, some 4)] }, dies := [(6, { state := .running, saveKib := 0 })], groups := [(3, { state := .open_, creator := 40, members := 1 })], frames := [(9, { owner := 40, cls := .save }), (10, { owner := 40, cls := .save })], ctxs := [(40, { state := .keyed, gen := 7, v := 1, ksel := [(1, some 3)] }), (41, { state := .drained, gen := 7 }), (42, { state := .fenced, gen := 7 }), (43, { state := .running, gen := 7 }), (44, { state := .created, gen := 7 }), (45, { cooldown := some 9 })] }
/-- A host command of CID `c` with operand bytes and buffer. -/
def hc (c : Fin 256) (ops : Bytes) (n : Nat) (b : BufRead) : HostCmd := ⟨5, c, 0, 1, 0x0101, 7, 0, n, ops, b⟩

theorem wit_ctxCreate : canonical cx = true ∧ hostOk opCtxCreate (hc 50 [32] 0 .noAnswer) cx = true ∧ (ctxOf cx 50).state = .free ∧
    (ctxOf cx 50).cooldown = none ∧ hostOk opCtxCreate (hc 0 [1] 0 .noAnswer) cx = true ∧ (ctxOf cx 1).state = .free ∧
    hostOk opCtxCreate (hc 45 [1] 0 .noAnswer) cx = true ∧ (ctxOf cx 45).state = .free ∧ (ctxOf cx 45).cooldown ≠ none := by decide
/-- The lowest FREE CID need not be 1. -/
theorem wit_ctxCreate_lowest : let s : State := { ring5 with ctxs := [(1, { state := .keyed }), (2, { cooldown := some 9 })] }
    canonical s = true ∧ hostOk opCtxCreate (hc 0 [1] 0 .noAnswer) s = true ∧ (ctxOf s 3).state = .free ∧ (ctxOf s 3).cooldown = none ∧
    (∀ c < 3, 1 ≤ c → (ctxOf s c).state ≠ .free ∨ (ctxOf s c).cooldown ≠ none) := by decide
/-- Slots 6 and 7 hold keys under valid codes. -/
def kem : State := { cx with orng := { ready := true, slots := [(6, { state := .active, len := 48, active := mkHalf 6 0 [1] 2 }), (7, { state := .active, len := 64, active := mkHalf 7 0 [3] 4 })] } }
theorem wit_kem : (∃ x, deviceKey 6 kem = some x) ∧ (∃ y, deviceKey 7 kem = some y) ∧ drawReady kem = true ∧ loadsHeld kem = true ∧
    (freeWorking 1 kem).isEmpty = false := by
  have h : (deviceKey 6 kem).isSome = true ∧ (deviceKey 7 kem).isSome = true := by decide +kernel
  refine ⟨Option.isSome_iff_exists.1 h.1, Option.isSome_iff_exists.1 h.2, ?_⟩
  decide +kernel
set_option maxRecDepth 20000 in
theorem wit_ctxKeyImport : let s : State := kem
    let h := hc 44 [] 1768 (.data [1])
    canonical s = true ∧ hostOk opCtxKeyImport h s = true ∧ ctxCheck (.keyImport true) h.cid h.gen s = none ∧
    leAt (fit h.bufLen [1]) 2 1 = 0 ∧ (ctxOf s h.cid).importing = none ∧
    (∀ k < 3, (slotOf s (ctxSlot h.cid k)).state ≠ .bad ∧ (slotOf s (ctxSlot h.cid k)).pending = false) := by decide
theorem wit_ctxKeyImport_second : let s : State := { ring5 with ctxs := [(44, { state := .created, gen := 7, importing := some ⟨true, 0, .none⟩ })] }
    let h := hc 44 [] 1768 (.data [1])
    canonical s = true ∧ hostOk opCtxKeyImport h s = true ∧ ctxCheck (.keyImport true) h.cid h.gen s = none ∧
    (ctxOf s h.cid).importing ≠ none := by decide
/-- Two frames, the first number and the last. -/
def twoFrames : Bytes := [0, 0, 0, 0, 2, 0, 0, 0, 0, 0, 0, 0, 0xff, 0xff, 0x07, 0]
theorem wit_ctxFrameBind : let h := hc 40 twoFrames 0 .noAnswer
    canonical cx = true ∧ hostOk opCtxFrameBind h cx = true ∧ ctxCheck .frameBind h.cid h.gen cx = none ∧ (opByte h 20).toNat ≤ 1 ∧
    (frameWords h).Nodup ∧ frameWords h = [0, 524287] ∧
    (∀ n ∈ frameWords h, (frameOf cx n).owner = 255 ∧ (frameOf cx n).cls ≠ .device) := by decide
theorem wit_ctxFrameBind_refused : let h := hc 40 [0, 0, 0, 0, 1, 0, 0, 0, 9] 0 .noAnswer
    hostOk opCtxFrameBind h cx = true ∧ ctxCheck .frameBind h.cid h.gen cx = none ∧ 9 ∈ frameWords h ∧ (frameOf cx 9).owner ≠ 255 := by decide
theorem wit_ctxFrameRelease : let h := hc 40 [0, 0, 0, 0, 2, 0, 0, 0, 9, 0, 0, 0, 10] 0 .noAnswer
    hostOk opCtxFrameRelease h cx = true ∧ ctxCheck .frameRelease h.cid h.gen cx = none ∧ (frameWords h).Nodup ∧
    (∀ n ∈ frameWords h, (frameOf cx n).owner = h.cid.val ∧ ((frameOf cx n).cls = .priv ∨ (frameOf cx n).cls = .save)) := by decide
theorem wit_scrubFrames : let h : HostCmd := { hc 0 twoFrames 0 .noAnswer with gen := 0 }
    hostOk opScrubFrames h cx = true ∧ (∀ n ∈ frameWords h, (frameOf cx n).owner = 255 ∧ (frameOf cx n).cls ≠ .device) := by decide
theorem wit_mgmtScrubFrames : mgmtOk ⟨3, true, 0, 0, 0, true⟩ cx = true ∧
    (∀ n ∈ [0, 524287], (frameOf cx n).owner = 255 ∧ (frameOf cx n).cls ≠ .device) := by decide
theorem wit_ctxPrefixSeal : let h := hc 40 [1] 0 .noAnswer
    hostOk opCtxPrefixSeal h cx = true ∧ ctxCheck .prefixSeal h.cid h.gen cx = none ∧
    mapGet none (ctxOf cx h.cid).ksel (opByte h 20).toNat = some 3 ∧ (groupOf cx 3).state = .open_ ∧ (groupOf cx 3).sealTick = none ∧
    (groupOf cx 3).sealing = false ∧ (groupOf cx 3).creator = h.cid.val := by decide
/-- Operands of a schedule: slice 1,000 µs, virtual die 0 on die 6. -/
def schedOps : Bytes := [0xe8, 3, 0, 0, 6] ++ List.replicate 31 0xff
theorem wit_ctxSchedule : let h := hc 40 schedOps 0 .noAnswer
    hostOk opCtxSchedule h cx = true ∧ ctxCheck .schedule h.cid h.gen cx = none ∧ (ctxOf cx h.cid).schedWait = none ∧
    (slice h.ops (4 + (ctxOf cx h.cid).v) (32 - (ctxOf cx h.cid).v)).all (· == 0xff) = true ∧
    scheduleMap h (ctxOf cx h.cid).v = [some 6] ∧ (dieOf cx 6).state = .running ∧
    (ctxOf cx h.cid).v * 320 * ((dieOf cx 6).saveKib.toNat + 1) ≤ (saveFrames cx h.cid).length * 2048 := by decide
theorem wit_powerPolicy : let h := hc 40 [8, 2, 0, 0] 0 .noAnswer
    hostOk opPowerPolicy h cx = true ∧ h.gen ≠ 0 ∧ h.gen = (ctxOf cx h.cid).gen ∧ (ctxOf cx h.cid).state = .keyed := by decide
theorem wit_ctxDrain : hostOk opCtxDrain (hc 43 [] 0 .noAnswer) cx = true ∧ ctxCheck .drain 43 7 cx = none ∧ (ctxOf cx 43).state ≠ .drained ∧
    (ctxOf cx 43).schedWait = none ∧ hostOk opCtxDrain (hc 41 [] 0 .noAnswer) cx = true ∧ ctxCheck .drain 41 7 cx = none ∧
    (ctxOf cx 41).state = .drained := by decide
theorem wit_mgmtCtxDrain : mgmtOk ⟨3, true, 43, 7, 0, true⟩ cx = true ∧ ctxCheck .drain 43 7 cx = none ∧ (ctxOf cx 43).state ≠ .drained ∧
    (ctxOf cx 43).schedWait = none := by decide
theorem wit_ctxDestroy : hostOk opCtxDestroy (hc 41 [] 0 .noAnswer) cx = true ∧ hostOk opCtxDestroy (hc 42 [] 0 .noAnswer) cx = true ∧
    hostOk opCtxDestroy (hc 43 [] 0 .noAnswer) cx = true ∧ (∀ c ∈ [41, 42, 43], ctxCheck .destroy c 7 cx = none ∧ (ctxOf cx c).schedWait = none) ∧ (ctxOf cx 41).state = .drained ∧ (ctxOf cx 42).state = .fenced ∧ (ctxOf cx 43).state = .running := by decide
theorem wit_mgmtCtxDestroy : ∀ c ∈ [41, 42, 43], mgmtOk ⟨3, true, BitVec.ofNat 16 c, 7, 0, true⟩ cx = true ∧ ctxCheck .destroy c 7 cx = none := by decide
/-- A consent token for CID 40, generation 7: scope 1, expiry 300,000, this unit. -/
def token : Bytes := [1, 0, 40, 1, 7, 0, 0, 0] ++ leNat 8 300000 ++ unitDigest cx
set_option maxRecDepth 200000 in
/-- Whether a signature verifies is uninterpreted (log 11): given that both do, the token is accepted. -/
theorem wit_debugConsent (h1 : Config.ecdsaVerify [] (slice (fit 4819 token) 0 96) (slice (fit 4819 token) 96 96) = true)
    (h2 : Config.mldsaVerify [] (slice (fit 4819 token) 0 96) (slice (fit 4819 token) 192 4627) = true) :
    hostOk opDebugConsent (hc 40 [] 4819 (.data token)) cx = true ∧ ctxCheck .debugConsent 40 7 cx = none ∧
    consentOk 40 (fit 4819 token) cx = true := by
  have hu : (slice (fit 4819 token) 16 48) = unitDigest cx := by decide
  refine ⟨by decide, by decide, ?_⟩
  have hk : (ctxOf cx 40).ecdsaPub = [] ∧ (ctxOf cx 40).mldsaPub = [] := by decide
  simp only [consentOk, consentSigned, hk.1, hk.2, h1, h2, hu]
  decide +kernel
/-- A policy for CID 40: rate 4096, FENCE, sequence 1. -/
def policyTok : Bytes := [1, 0, 40, 1, 7, 0, 0, 0x10] ++ leNat 8 1 ++ unitDigest cx
theorem wit_verifyReport : let h := hc 40 [] 80 (.data [])
    hostOk opVerifyReport h cx = true ∧ h.gen ≠ 0 ∧ h.gen = (ctxOf cx h.cid).gen ∧ (ctxOf cx h.cid).state = .keyed := by decide
set_option maxRecDepth 200000 in
/-- As for the token. -/
theorem wit_verifyPolicy (h1 : Config.ecdsaVerify [] (slice (fit 4819 policyTok) 0 96) (slice (fit 4819 policyTok) 96 96) = true)
    (h2 : Config.mldsaVerify [] (slice (fit 4819 policyTok) 0 96) (slice (fit 4819 policyTok) 192 4627) = true) :
    hostOk opVerifyPolicy (hc 40 [] 4819 (.data policyTok)) cx = true ∧ policyCheck 40 (fit 4819 policyTok) cx = .ok := by
  have hu : (slice (fit 4819 policyTok) 16 48) = unitDigest cx := by decide
  refine ⟨by decide, ?_⟩
  have hk : (ctxOf cx 40).ecdsaPub = [] ∧ (ctxOf cx 40).mldsaPub = [] := by decide
  simp only [policyCheck, consentSigned, hk.1, hk.2, h1, h2, hu]
  decide

/-! ## Contexts: packets, timers, ends -/

/-- A context-private packet. -/
def pkt (op k : Nat) (dg : Bytes) : Bytes := leNat 1 op ++ leNat 1 k ++ leNat 2 511 ++ fit 48 dg
/-- CID 40 KEYED with its team key; its queue holds one packet; groups 0 and 3 in use, 3 SEALED under the packet's digest. -/
def px (p : Bytes) : State := { tick := 9, orng := { ready := true, slots := [(ctxSlot 40 5, { state := .active, attr := attrDerive, cid := 40, len := 32, active := mkHalf (ctxSlot 40 5) 0 [7] 5 })] }, groups := [(0, { state := .open_, creator := 41, members := 1 })], ctxs := [(40, { state := .keyed, gen := 7, ksel := [(2, some 0)] })], splq := [(105, { items := [⟨.head, 0, true, p, 0, 0⟩], order := [0], nextPkt := 1 })] }
set_option maxRecDepth 100000 in
theorem wit_pfxCreate : let s := px (pkt 1 1 [9])
    canonical s = true ∧ headPriv s 40 = some (pkt 1 1 [9]) ∧ isPriv 1 (pkt 1 1 [9]) = true ∧ s.pav.supply = none ∧ s.pav.tamper = false ∧
    s.updt.hold = false ∧ (ctxOf s 40).state = .keyed ∧ mapGet none (ctxOf s 40).ksel (privKsel (pkt 1 1 [9])) = none ∧
    (useSlot (ctxSlot 40 5) attrDerive 40 s).1 = (.ok, fit 32 [7]) ∧ (groupOf s 1).state = .free ∧ (∀ x < 1, (groupOf s x).state ≠ .free) ∧
    (freeWorking 2 s).length = 2 ∧ drawReady s = true ∧ loadsHeld s = true := by decide
/-- The check value of the group whose key derives from the team key and digest. -/
def joinKcv : Bytes := keyCheckValueOf (groupKeys (fit 32 [7]) (privDigest (pkt 2 1 [9])))
set_option maxRecDepth 100000 in
theorem wit_pfxJoin : let s : State := { px (pkt 2 1 [9]) with groups := [(0, { state := .sealed_, creator := 41, members := 1, digest := privDigest (pkt 2 1 [9]), kcv := joinKcv })] }
    headPriv s 40 = some (pkt 2 1 [9]) ∧ isPriv 2 (pkt 2 1 [9]) = true ∧ mapGet none (ctxOf s 40).ksel (privKsel (pkt 2 1 [9])) = none ∧
    (useSlot (ctxSlot 40 5) attrDerive 40 s).1 = (.ok, fit 32 [7]) ∧ (freeWorking 2 s).length = 2 := by decide
/-- The groups' search with the check value left as it is named. -/
theorem wit_pfxJoin_match : let s : State := { px (pkt 2 1 [9]) with groups := [(0, { state := .sealed_, creator := 41, members := 1, digest := privDigest (pkt 2 1 [9]), kcv := joinKcv })] }
    matchGroup s .sealed_ (some (privDigest (pkt 2 1 [9]))) joinKcv = some 0 := by
  generalize joinKcv = k
  have h : ∃ l, List.range 256 = 0 :: l := ⟨_, List.range_succ_eq_map⟩
  obtain ⟨l, h⟩ := h
  simp only [matchGroup, leastBelow, h, List.find?_cons]
  simp [groupStateAt, groupOf, mapGet]
theorem wit_pfxLeave : let s := px (pkt 3 2 [])
    headPriv s 40 = some (pkt 3 2 []) ∧ isPriv 3 (pkt 3 2 []) = true ∧ mapGet none (ctxOf s 40).ksel (privKsel (pkt 3 2 [])) = some 0 ∧
    (groupOf s 0).members = 1 ∧ 1 < (groupOf { s with groups := [(0, { members := 2 })] } 0).members := by decide
theorem wit_cmrExtend : let s := px (pkt 0x10 7 [])
    headPriv s 40 = some (pkt 0x10 7 []) ∧ cmrsOk s 40 = true ∧ isPriv 0x10 (pkt 0x10 7 []) = true ∧ leAt (pkt 0x10 7 []) 1 1 = 7 := by decide
theorem wit_contextPrivateBadPacket : let s := px (pkt 4 1 [])
    headPriv s 40 = some (pkt 4 1 []) ∧ privOk (pkt 4 1 []) = false ∧ privSem (pkt 4 1 []) ≤ 511 := by decide
/-- One context for each timer and end. -/
def tx : State := { tick := 2750000, groups := [(3, { state := .retiring, invDone := true })], pav := { integ := [⟨543, 45, 2, 7⟩] }, ctxs := [(40, { cooldown := some 2750000 }), (41, { state := .keyed, consent := some ⟨1, 2749999, []⟩ }), (42, { state := .fenced, destroyPending := true }), (43, { state := .draining, drain := some ⟨.counts, [], 2750000, [.host 0], 9, false⟩ }), (44, { state := .draining, drain := some ⟨.closes, [], 2750000, [], 9, false⟩ }), (45, { state := .keyed }), (46, { state := .destroying, drain := some ⟨.closes, [], 2750000, [], 9, false⟩ }), (47, { state := .destroying, destroy := some ⟨2749999, false, none, none, 2749999⟩ }), (48, { state := .destroying, destroy := some ⟨9, true, some 2749999, none, 2749999⟩ })] }
theorem wit_contextTimers : canonical tx = true ∧ (ctxOf tx 40).cooldown = some 2750000 ∧ 2750000 ≤ tx.tick ∧
    (ctxOf tx 41).consent = some ⟨1, 2749999, []⟩ ∧ 2749999 < tx.tick ∧ tx.tick % 250000 = 0 ∧ (groupOf tx 3).state = .retiring ∧
    (groupOf tx 3).invDone = true ∧ groupFrames tx 3 = [] ∧ (groupOf tx 3).endAt < tx.tick ∧ (ctxOf tx 42).fencedAt < tx.tick ∧ (ctxOf tx 42).state = .fenced ∧ (ctxOf tx 42).destroyPending = true ∧
    tx.pav.integ.find? (fun f => f.unit == 543) = some ⟨543, 45, 2, 7⟩ ∧ (ctxOf tx 45).state = .keyed := by decide
theorem wit_drainsEnd : (ctxOf tx 43).drain = some ⟨.counts, [], 2750000, [.host 0], 9, false⟩ ∧ quiet 43 tx = true ∧ wasQuiet tx 43 = true ∧
    (ctxOf tx 44).drain = some ⟨.closes, [], 2750000, [], 9, false⟩ ∧ jobsOf tx 44 = [] ∧ quiet 44 tx = true ∧ (ctxOf tx 44).state = .draining ∧
    (ctxOf tx 44).destroyPending = false ∧ (ctxOf tx 46).state = .destroying ∧ (ctxOf tx 46).drain = some ⟨.closes, [], 2750000, [], 9, false⟩ ∧
    jobsOf tx 46 = [] ∧ quiet 46 tx = true := by decide
theorem wit_destroyEnds : (ctxOf tx 47).destroy = some ⟨2749999, false, none, none, 2749999⟩ ∧ 2749999 < tx.tick ∧
    (ctxOf tx 48).destroy = some ⟨9, true, some 2749999, none, 2749999⟩ ∧ scrubEnded tx ⟨9, true, some 2749999, none, 2749999⟩ = true := by decide

/-! ## Dies and Lodges -/

/-- CID 40 RUNNING with one SAVE frame, virtual die 0 on die 6; CID 41 beside it on die 6. -/
def r40 : Resident := ⟨40, 0, 7, 1000⟩
/-- The other resident. -/
def r41 : Resident := ⟨41, 0, 8, 100⟩
/-- Die 6 with given switch state. -/
def dx (cur : Option Resident) (st : LodgeStep) (rs : List Resident) : State := { tick := 1000000, gates := 0xff, dies := [(6, { state := .running, current := cur, step := st, coresRun := true, residents := rs, releasedAt := none, saveKib := 0 })], frames := [(9, { owner := 40, cls := .save }), (10, { owner := 40, cls := .save })], ctxs := [(40, { state := .running, gen := 7, v := 1, map := [some 6] }), (41, { state := .running, gen := 8 })] }
theorem wit_sliceExpiry : let s := dx (some r40) .idle [r40, r41]
    canonical s = true ∧ (dieOf s 6).current = some r40 ∧ (dieOf s 6).step = .idle ∧ (dieOf s 6).sliceEnd ≤ s.tick ∧
    (dieOf s 6).coresRun = true ∧ nextAfter s 6 r40 = some r41 ∧ sameResident r41 r40 = false ∧
    nextAfter (dx (some r40) .idle [r40]) 6 r40 = some r40 ∧ sameResident r40 r40 = true := by decide
theorem wit_saveComplete : let s := dx (some r40) (.preempting 1000000) [r40, r41]
    (dieOf s 6).step = .preempting 1000000 ∧ answersOwed s 6 40 = false ∧ (ctxOf s 40).schedWait = none ∧ s.tick ≤ 1000000 ∧
    slotPlace s 6 40 0 319 = some (9, 326656) ∧ roomAt s 0 = true ∧ 1000000 ≤ s.tick ∧ preemptBounded s 6 = true ∧ (6, DieCause.preemptLate) ∉ s.pav.dieCauses := by decide
theorem wit_ctxClearAck : let s := dx (some r40) (.clearing 1000000 true) [r40, r41]
    canonical s = true ∧ (dieOf s 6).state = .running ∧ (dieOf s 6).step = .clearing 1000000 true ∧
    nextResident (endClear 6 40 s) 6 = some r41 ∧ 1000000 ≤ s.tick ∧ s.tick ≤ 1000000 ∧ (6, DieCause.clearLate) ∉ s.pav.dieCauses := by decide
/-- Receipts of the die's cores are owed an answer. -/
theorem wit_saveComplete_owed : let s : State := { dx (some r40) (.preempting 1000000) [r40, r41] with grnh := { retires := [⟨6, 0, 40, 0, 0, 0⟩] } }
    answersOwed s 6 40 = true ∧ s.tick ≤ 1000000 := by decide
/-- The header reads of CID 40 on die 6: served whole, failed in the first line, refused because the context is fenced. -/
theorem wit_stampDone_reads : (let s := dx (some r40) .stamping [r40]
    canonical s = true ∧ (readsOutcome s (headerReads s 6 r40) ⟨.ok, 1280⟩).status = .ok ∧
    (readsOutcome s (headerReads s 6 r40) ⟨.tagFail, 0⟩).status = .tagFail) ∧
    (let s : State := { dx (some r40) .stamping [r40] with ctxs := [(40, { state := .fenced, gen := 7, v := 1, fenceFrom := some 0 })] }
    canonical s = true ∧ isResident s 6 r40 = true ∧ (readsOutcome s (headerReads s 6 r40) ⟨.ok, 1280⟩).status = .fenced) := by decide +kernel
theorem wit_stampDone : let s : State := { dx (some r40) .stamping [r40] with perg := { slices := [(6, { service := true })] } }
    canonical s = true ∧ semaphoresOk s = true ∧ (dieOf s 6).step = .stamping ∧ isResident s 6 r40 = true ∧ (sliceOf s 6).service = true ∧
    slotPlace s 6 40 0 319 ≠ none := by decide
theorem wit_partialReset : let s : State := { dx (some r40) .idle [r40] with pav := { dieCauses := [(6, .thermal)] } }
    canonical s = true ∧ (6, DieCause.thermal) ∈ s.pav.dieCauses ∧ s.pav.pendingReset = none ∧ (dieOf s 6).state ≠ .resetting ∧
    gateOpen s 7 = true ∧ (ctxOf s 40).state = .running := by decide
theorem wit_heartbeatMissed : let s := dx none .idle []
    roomAt s 0 = true ∧ (dieOf s 6).state = .running ∧ s.pav.wdogTicks ≠ 0 ∧ (dieOf s 6).heartbeat + 2500 * s.pav.wdogTicks.toNat ≤ s.tick := by decide
theorem wit_ldgHeartbeat : let s : State := { dies := [(6, { releasedAt := some 5 })] }
    canonical s = true ∧ (11 : Nat) = 5 + 6 ∧ (1 : Word).getLsbD 0 = true ∧ (dieOf s 6).state = .held ∧ (dieOf s 6).releasedAt ≠ none := by decide
/-- Flash whose slot 0 header names one part, the die firmware, with the digest of the empty image. -/
def rlFlash : NMap Byte := flashPut 0x100050 [1, 0] (flashPut 0x100060 [3] (flashPut 0x100070 (sha384 []) []))
/-- Die 6 waits for its reload. -/
def rlx : State := { flash := rlFlash, dies := [(6, { state := .resetting, reload := some 5 })] }
set_option maxRecDepth 100000 in
theorem wit_dieReloadDone : canonical rlx = true ∧ (dieOf rlx 6).reload = some 5 ∧ (dieOf rlx 6).state = .resetting ∧
    (dieOf rlx 6).reloadAns = none ∧ (dieOf rlx 6).holdDue = none ∧ rlx.tick ≤ 5 + 1250001 := by decide
theorem wit_dieReloadDone_digest : sha384 [] = dieFirmwareDigest rlx ∧ (dieFirmwareCopy rlx).map (·.length) = some 0 := by decide +kernel
/-- The same die where the header names another digest. -/
def rly : State := { rlx with flash := flashPut 0x100070 (zeros 47 ++ [1]) rlFlash }
theorem wit_dieReloadDone_wrong : sha384 [] ≠ dieFirmwareDigest rly ∧ (dieFirmwareCopy rly).map (·.length) = some 0 := by decide +kernel
theorem wit_holdDie : let s : State := { tick := 9, dies := [(6, { state := .resetting, current := some r40, rstN := true, holdDue := some 9 })] }
    canonical s = true ∧ s.pending = [] ∧ (dieOf s 6).holdDue = some 9 ∧ (dieOf s 6).state = .resetting := by decide
theorem wit_partialReset_logged : let s : State := { pav := { dieCauses := [(6, .firmware)] }, dies := [(6, { state := .resetting })] }
    canonical s = true ∧ roomAt s 0 = true ∧ (6, DieCause.firmware) ∈ s.pav.dieCauses ∧ s.pav.pendingReset = none ∧
    (dieOf s 6).state = .resetting := by decide
theorem wit_dieTimeouts : let s : State := { tick := 1250007, dies := [(6, { state := .resetting, reload := some 5 }), (7, { releasedAt := some 5 })] }
    canonical s = true ∧ (dieOf s 6).reload = some 5 ∧ (dieOf s 6).state = .resetting ∧ 5 + 1250002 ≤ s.tick ∧
    (dieOf s 7).releasedAt = some 5 ∧ (dieOf s 7).state = .held ∧ 5 + 1250000 ≤ s.tick := by decide
theorem wit_resetRequests : ((2 : Word).toNat % 4 = 2) ∧ ((0x1f01 : Word).toNat % 4 = 1) ∧ State.reset.pav.pendingReset = none := by decide
/-- Die 6 with a request of a code that names CID 40 or none at the head of its queue. -/
def svx (code cid : Nat) (gen : BitVec 16) (rs : List Resident) (st : LodgeStep) (cur : Option Resident) : State :=
  { dx cur st [r40, r41] with splq := [(40, { items := [⟨.head, 0, true, (svcRequest {} code cid gen rs).headD [], 0, 0⟩], order := [0], nextPkt := 1 })] }
theorem wit_schedule : let s := svx 1 0 0 [r41] (.clearing 9 true) (some r40)
    canonical s = true ∧ headSvc s 6 = some (svcRequest {} 1 0 0 [r41]) ∧ svcOk s (svcRequest {} 1 0 0 [r41]) = true ∧
    leAt ((svcRequest {} 1 0 0 [r41]).headD []) 1 1 = 1 ∧ (dieOf s 6).step ≠ .idle := by decide
theorem wit_schedule_idle : let s := svx 1 0 0 [r41] .idle none
    headSvc s 6 = some (svcRequest {} 1 0 0 [r41]) ∧ (dieOf s 6).current = none ∧
    nextResident (updDie 6 (fun x => { x with residents := svcResidents (svcRequest {} 1 0 0 [r41]) }) s) 6 = some r41 := by decide
theorem wit_drain_fence : ∀ code ∈ [2, 3], let s := svx code 40 7 [] .idle (some r40)
    headSvc s 6 = some (svcRequest {} code 40 7 []) ∧ svcOk s (svcRequest {} code 40 7 []) = true ∧
    leAt ((svcRequest {} code 40 7 []).headD []) 1 1 = code ∧ leAt ((svcRequest {} code 40 7 []).headD []) 2 1 = 40 ∧
    (dieOf s 6).step = .idle ∧ (dieOf s 6).current = some r40 ∧ (dieOf s 6).coresRun = true ∧ (dieOf (svx code 40 7 [] .idle none) 6).current = none := by decide
theorem wit_evict_steps : (dieOf (dx (some r40) (.evicting 9 40 false 7) []) 6).step = .evicting 9 r40.cid false 7 ∧
    (dieOf (dx (some r40) (.unstamping 40 7) []) 6).step = .unstamping 40 7 ∧ canonical (dx (some r40) (.unstamping 40 7) []) = true := by decide
theorem wit_destroy : let s : State := { svx 4 40 7 [] .idle none with ctxs := [(40, { state := .destroying, gen := 7, home := some 6 })] }
    headSvc s 6 = some (svcRequest {} 4 40 7 []) ∧ svcOk s (svcRequest {} 4 40 7 []) = true ∧
    (ctxOf s (leAt ((svcRequest {} 4 40 7 []).headD []) 2 1)).state = .destroying := by decide
theorem wit_reload : let s := svx 5 0 0 [] .idle none
    headSvc s 6 = some (svcRequest {} 5 0 0 []) ∧ svcOk s (svcRequest {} 5 0 0 []) = true := by decide
theorem wit_badRequest : let s := svx 2 40 6 [] .idle none
    headSvc s 6 = some (svcRequest {} 2 40 6 []) ∧ svcOk s (svcRequest {} 2 40 6 []) = false := by decide

/-! ## Memory fence -/

/-- An entry of CID 40 KSEL 1. -/
def ent (sd : Option Nat) : KcEntry := ⟨40, 1, [1], [2], [3], 3, 1, false, sd, none⟩
/-- Channel 511 with that entry, gates open. -/
def fx (sd : Option Nat) : State := { tick := 9, gates := 0xff, fence := { chans := [(511, { entries := [ent sd] })] } }
/-- A request of CID 40 at channel 511. -/
def fr (k : Fin 4) (port : FencePort) (line : BitVec 52) : FenceReq := ⟨511, port, line, 40, k, 7⟩
theorem wit_fenceRequests : let s := fx none
    canonical s = true ∧ passesRows 511 (asReq (fx none) (fr 1 .fabric 0x7fc0) none) s = true ∧
    passesRows 511 (asReq (fx none) (fr 1 (.internal (.lodge 3)) 0x7fff) (some 5)) s = true ∧ (chanOf s 511).parked = [] ∧
    findEntry s.tick 40 1 (chanOf s 511).entries = some (ent none) ∧ entrySealed s.tick (ent none) = false ∧
    findEntry (fx (some 8)).tick 40 1 (chanOf (fx (some 8)) 511).entries = some (ent (some 8)) ∧ entrySealed 9 (ent (some 8)) = true ∧
    findEntry s.tick 40 2 (chanOf s 511).entries = none ∧ fillOutstanding (chanOf s 511) 40 2 = false ∧ liveFills (chanOf s 511) < 4 := by decide
theorem wit_fenceRefused : routeOk (fx none) 511 0 = false ∧ reservedReq (asReq (fx none) ⟨511, .fabric, 0, 0, 0, 7⟩ none) = true ∧ (chanOf (fx none) 511).parked.length < 64 ∧ gateOpen (fx none) 1 = true ∧
    cidRefused { fx none with ctxs := [(40, { fenceFrom := some 9 })] } 511 40 = true ∧ isInternal (asReq (fx none) (fr 1 (.internal .spill) 0) none) = true := by decide
/-- Channel 511 with a read of a CID in flight under an entry. -/
def mx (cid : Nat) (port : FencePort) : State := { fx none with fence := { chans := [(511, { reads := [⟨⟨port, 0x7fc0, cid, 1, 7, none, 0⟩, ent none, false⟩], writes := [⟨port, 0x7fc0, cid, 1, 8, some 5, 0⟩], counts := [(cid, 2)] })] } }
/-- The line of zeros as it stands in memory under that entry. -/
def stored : BitVec 512 × Word := encryptLine (ent none) 0x7fc0 0
theorem wit_mcResponse : decryptLine (ent none) 0x7fc0 stored.1 stored.2 = some 0 := by decide +kernel
theorem wit_mcResponse_bad : decryptLine (ent none) 0x7fc0 stored.1 (stored.2 ^^^ 1) = none := by decide +kernel
/-- An operator's read of that one line. -/
def mrd : MemRead := ⟨40, 8, 4, [(0x7fc0, none)], .mgmt 2⟩
theorem wit_memoryRead : let s : State := { mx 40 (.internal .memoryRead) with fence := { (mx 40 (.internal .memoryRead)).fence with memReads := [mrd] } }
    canonical s = true ∧ (chanOf s 511).reads.map (·.req.port) = [.internal .memoryRead] ∧
    s.fence.memReads.find? (fun m => m.cid == 40 && m.lines.any (fun l => l.1 == 0x7fc0 && l.2.isNone)) = some mrd ∧
    (∀ l ∈ mrd.lines, l.1 ≠ 0x7fc0 → l.2.isSome = true) := by decide
theorem wit_mcResponse_state : canonical (mx 40 .fabric) = true ∧ (chanOf (mx 40 .fabric) 511).reads.length = 1 ∧
    (mx 40 .fabric).pav.tamper = false ∧ cidRefused (mx 40 .fabric) 511 40 = false ∧ cidRefused (mx 0 (.internal .spill)) 511 0 = false ∧
    (mx 0 (.internal .spill)).pav.cid0Failed = false ∧
    cidRefused { mx 40 .fabric with ctxs := [(40, { fenceFrom := some 9 })] } 511 40 = true ∧
    (chanOf (mx 40 .fabric) 511).writes[0]?.map (·.tag) = some 8 := by decide
/-- Channel 17 (drop 1) has asked for the pair of CID 40, KSEL 0; its keys are in place. -/
def kx : State := { tick := 500, gates := 0xff, orng := { slots := [(busSlot 1, { state := .active, len := 32, active := mkHalf (busSlot 1) 0 [6] 5 }), (ctxSlot 40 0, { state := .active, attr := attrEngine, cid := 40, len := 64, active := mkHalf (ctxSlot 40 0) 0 [7] 5 }), (ctxSlot 40 1, { state := .active, attr := attrEngine, cid := 40, len := 32, active := mkHalf (ctxSlot 40 1) 0 [8] 5 })], pushes := [⟨1, 9, 3, ([], []), 250, false⟩, ⟨3, 9, 3, ([], []), 250, true⟩] }, fence := { chans := [(17, { fills := [⟨40, 0, true, false, false, 500⟩] })] } }
set_option maxRecDepth 100000 in
theorem wit_fillRequest : canonical kx = true ∧ gateOpen kx 1 = true ∧ kx.orng.zeroized = false ∧
    resolvePair kx 40 0 = some (ctxSlot 40 0, ctxSlot 40 1, 40, 0) ∧ deviceKey (busSlot 1) kx = some (fit 32 [6]) ∧ 500 ≤ kx.tick ∧ (engineKey (ctxSlot 40 0) kx).1 = some (fit 64 [7]) ∧
    (engineKey (ctxSlot 40 1) kx).1 = some (fit 32 [8]) ∧ resolvePair kx 40 1 = none := by decide
/-- Messages to drop 1 under the key [9], COUNTER 1: a fence fill for its channel 1, a job fill for its engine 0, a sampling
key, a push. -/
def kmsg (kind cid ksel id unit : Nat) (plain : Bytes) : Bytes := kbusSeal [9] (kbusHeader kind cid ksel 0 id 0 unit) 1 plain
theorem wit_kbusOpen_fence : kbusOpen { key := some [9] } (kmsg 0 40 0 40 1 [5]) = some [5] := by decide +kernel
theorem wit_kbusOpen_job : kbusOpen { key := some [9] } (kmsg 1 0 0 7 16 [5]) = some [5] := by decide +kernel
theorem wit_kbusOpen_sampling : kbusOpen { key := some [9] } (kmsg 2 40 0 40 19 [5]) = some [5] := by decide +kernel
theorem wit_kbusOpen_push : kbusOpen { key := some [9] } (kmsg 3 0 0 0 1 [5]) = some [5] := by decide +kernel
theorem wit_fillMessages : let s : State := { orng := { drops := [(1, { key := some [9] })] }, fence := { chans := [(17, { fills := [⟨40, 0, false, false, false, 0⟩] })] }, link := { engines := [(3, { jobFills := [(7, false, false)] })] }, grnh := { engines := [(1, { fills := [(40, false)] })] } }
    canonical s = true ∧ localChan 1 1 = some 17 ∧ localEngine 1 16 = some 3 ∧ (chanOf s 17).parked = [] ∧
    takeFill 40 0 (chanOf s 17).fills = some (⟨40, 0, false, false, false, 0⟩, []) ∧ (engOf s 3).txPark = [] ∧ (engOf s 3).rxPark = [] ∧ (engOf s 3).closeDue = [] ∧ (40, (statusCode .keyBlobInvalid).toNat, recordState s 40) ∉ (chanOf s 17).recs ∧
    (engOf s 3).jobFills.find? (fun f => f.1 == 7 && !f.2.1) = some (7, false, false) ∧
    (grEngOf s 1).fills.find? (fun f => f.1 == 40) = some (40, false) ∧ (1, 40) ∉ s.grnhFills ∧ kbusOpen (dropOf s 1) [] = none := by decide
theorem wit_fenceRequest_zeroized : let s : State := { tick := 9, gates := 0xff, pav := { tamper := true } }
    let r := fr 1 .fabric 0x7fc0
    canonical s = true ∧ gateOpen s 1 = true ∧ reservedReq (asReq s r none) = false ∧ routeOk s 511 0x7fc0 = true ∧
    cidRefused s 511 40 = false ∧ (chanOf s 511).parked.length < 64 := by decide
theorem wit_pushAckTimeout : roomAt kx 1 = true ∧ kx.orng.pushes.find? (fun p => p.drop == 1 && decide (p.tick + 250 ≤ kx.tick)) = some ⟨1, 9, 3, ([], []), 250, false⟩ ∧
    kx.orng.pushes.find? (fun p => p.drop == 3 && decide (p.tick + 250 ≤ kx.tick)) = some ⟨3, 9, 3, ([], []), 250, true⟩ := by decide
theorem wit_lockedChangeCommit : let s : State := { fx none with fence := { (fx none).fence with locks := [⟨.ofCid 40, 0x8000, .firmware, 8⟩] } }
    canonical s = true ∧ s.fence.lockWait = [] ∧ s.fence.lastCommit < s.tick ∧ (0x8000#16).getLsbD (511 / 32) = true ∧
    (0x8000#16).getLsbD (0 / 32) = false ∧ ent none ∈ (chanOf s 511).entries := by decide
/-- A change over group 0 waits for the commit of this tick there; one over group 15 does not. -/
theorem wit_lockedChangeCommit_second : let s : State := { fx none with fence := { (fx none).fence with locks := [⟨.ofCid 40, 1, .firmware, 8⟩, ⟨.ofCid 41, 0x8000, .firmware, 8⟩], lastCommit := 9, lastGroups := 1 } }
    canonical s = true ∧ s.fence.lockWait = [] ∧ lockFree s [] ⟨.ofCid 40, 1, .firmware, 8⟩ = false ∧
    lockFree s [⟨.ofCid 40, 1, .firmware, 8⟩] ⟨.ofCid 41, 0x8000, .firmware, 8⟩ = true := by decide
set_option maxRecDepth 20000 in
theorem wit_scrubFrameDone : let s : State := { frames := [(524287, { owner := 40, zeroing := true })], fence := { scrub := [⟨524287, 0, .ctx 40, 40, 0, true⟩, ⟨8, 1, .unowned, 255, 0, true⟩], jobs := [⟨0, 2, .bind, .none⟩, ⟨1, 1, .scrub, .host 0⟩] } }
    canonical s = true ∧ frameWritten s 524287 = true ∧ frameWritten s 8 = true ∧ scrubInProgress s 524287 = some ⟨524287, 0, .ctx 40, 40, 0, true⟩ ∧ s.fence.jobs.find? (fun j => j.no == 0) = some ⟨0, 2, .bind, .none⟩ ∧
    scrubInProgress s 8 = some ⟨8, 1, .unowned, 255, 0, true⟩ ∧ s.fence.jobs.find? (fun j => j.no == 1) = some ⟨1, 1, .scrub, .host 0⟩ := by decide

/-! ## Link fence -/

/-- Link 95 in a given state; job 255 of CID 40 is OPEN, job 0 an operator job; the job keys are cached at the link. -/
def lk (x : Engine) : State := { tick := 1000000000, gates := 0x1fe, link := { engines := [(95, x)], jobs := [(0, { id := 7, state := .open_, leader := true, ranges := [(0, 20479)], gen := 3, links := [95] }), (255, { id := 0x1234, cid := 40, state := .open_, ranges := [(0, 20479)], gen := 3, links := [95] })], endpoint := 20479 }, ctxs := [(40, { state := .running, gen := 7 })], orng := { ready := true, lastSeed := 1000000000 }, band := { assocs := [(0, some 999999999)] } }
/-- A READY link with both keys of phase 0 and both job keys. -/
def up : Engine := { state := .ready, up := true, phases := [false], keys := [(0, [1]), (1, [2])], jobKeys := [(0, [3]), (255, [4])] }
set_option maxRecDepth 20000 in
theorem wit_egress : canonical (lk up) = true ∧ roomAt (lk up) 0 = true ∧ linkAllowed (lk up) = true ∧ linkCarries (lk up) 95 = true ∧
    jobById (lk up) 0x1234 = some 255 ∧ egressOpen (lk up) 255 40 = true ∧ (jobOf (lk up) 255).closed.contains 95 = false ∧
    (engOf (lk up) 95).egress = none ∧ changesJob (lk up) 95 0x1234 = none ∧ jobById (lk up) 9 = none ∧ egressOpen (lk up) 255 41 = false ∧
    mapGet 0 (engOf (lk up) 95).recs (statusCode .notPermitted).toNat ≤ (lk up).tick := by decide
theorem wit_egressFrameClose : let g : Egress := ⟨255, [5], 999999992⟩
    let s := lk { up with egress := some g }
    let u := lk { up with egress := some g, jobKeys := [] }
    let v : State := { s with link := { s.link with jobs := [(255, { jseq := [(95, 18446744073709551615)] })] } }
    (engOf s 95).egress = some g ∧ g.last + 8 ≤ s.tick ∧ linkCarries s 95 = true ∧ cachedJobKey s 95 g.job = some [4] ∧
    mapGet 0 (jobOf s g.job).jseq 95 < 2 ^ 64 - 1 ∧ up.txSeq < 2 ^ 47 - 1 ∧ roomAt s 1 = true ∧ (engOf s 95).exch = none ∧
    2 ^ 47 - 1 ≤ ({ up with txSeq := 140737488355327 } : Engine).txSeq ∧ cachedJobKey u 95 g.job = none ∧ (engOf u 95).txPark.length < 8 ∧
    2 ^ 64 - 1 ≤ mapGet 0 (jobOf v g.job).jseq 95 ∧ changesJob s 95 7 = some 255 ∧ canSubmit s 95 255 = true := by decide
/-- A data frame of job 0x1234 with one byte, under the receive keys, with the sender's endpoint ID. -/
def rxFrame (ep : BitVec 16) (job : BitVec 16) : Bytes :=
  let hdr := jobHeader job ep 0 1 0 5 false
  let f := hopHeader 1 true false 0 ++ (hdr ++ sealJob [4] (jobNonce ep 0 5 0) hdr [9] false)
  f ++ hopTag [2] 1 f
set_option maxRecDepth 20000 in
theorem wit_ingress_fields : linkAllowed (lk up) = true ∧ linkCarries (lk up) 95 = true ∧ (jobOf (lk up) 255).closed.contains 95 = false ∧
    inRanges 20479 (jobOf (lk up) 255).ranges = true ∧ inRanges 20480 (jobOf (lk up) 255).ranges = false ∧ (jobOf (lk up) 255).state = .open_ ∧
    cachedJobKey (lk up) 95 255 = some [4] := by decide
theorem wit_ingress : let f := rxFrame 20479 0x1234
    let r := parseFrame f
    row1 (lk up) 95 r = true ∧ row2 (lk up) 95 r f = true ∧ r.seq < 2 ^ 47 - 1 ∧ r.type = 0 ∧ 1 = (frameLen r + 255) / 256 ∧ r.len = 1 ∧ r.dir = 0 ∧
    r.jres = 0 ∧ plainOk (lk up) r = true ∧ jobById (lk up) r.job = some 255 ∧ r.ep = 20479 ∧
    openJob_ [4] (jobNonce r.ep r.dir r.eng r.jseq) (slice f 8 16) (slice f 24 r.len) (slice f (24 + r.len) 16) r.plain = some [9] := by decide +kernel
/-- Each refusal of an ingress frame: a sequence number already accepted, another job key, an unknown job, a sender outside
the ranges. -/
theorem wit_ingress_refused :
    row2 (lk { up with rxSeq := [(0, 1)] }) 95 (parseFrame (rxFrame 20479 0x1234)) (rxFrame 20479 0x1234) = false ∧
    keyOnItsWay (lk { up with rxSeq := [(0, 1)] }) 95 (parseFrame (rxFrame 20479 0x1234)) = false ∧
    cachedJobKey (lk { up with jobKeys := [(255, [6])] }) 95 255 = some [6] ∧
    openJob_ [6] (jobNonce 20479 0 5 0) (slice (rxFrame 20479 0x1234) 8 16) (slice (rxFrame 20479 0x1234) 24 1) (slice (rxFrame 20479 0x1234) 25 16) false = none ∧
    jobById (lk up) (parseFrame (rxFrame 20479 0x1235)).job = none ∧ row2 (lk up) 95 (parseFrame (rxFrame 20479 0x1235)) (rxFrame 20479 0x1235) = true ∧
    row2 (lk up) 95 (parseFrame (rxFrame 20480 0x1234)) (rxFrame 20480 0x1234) = true ∧ ingressHeld (lk up) 95 (parseFrame (rxFrame 20480 0x1234)) = false := by decide +kernel
/-- The one fragment of a JOIN for job 7 from endpoint 3. -/
def joinFrame : Bytes :=
  let f := hopHeader 1 true false 0 ++ (fragHeader 7 3 0 1 3 5 true 0 true ++ [9] ++ zeros 16)
  f ++ hopTag [2] 1 f
theorem wit_ingress_fragment : let r := parseFrame joinFrame
    row1 (lk up) 95 r = true ∧ row2 (lk up) 95 r joinFrame = true ∧ r.type = 0 ∧ r.dir = 3 ∧ r.jres = 0 ∧ r.plain = true ∧ r.frag = 0 ∧
    1 = (frameLen r + 255) / 256 ∧ r.len = 1 ∧ (engOf (lk up) 95).asm = [] := by decide +kernel
/-- The peer's HELLO. -/
def peerHello : HelloMsg := ⟨3, [], [], []⟩
/-- The first frame of a HELLO of two bytes. -/
def ctlFrame : Bytes :=
  let f := hopHeader 1 true false 1 ++ ([1, 0, 1, 0, 2, 0] ++ [9, 8])
  f ++ hopTag [2] 1 f
theorem wit_ingress_control : let r := parseFrame ctlFrame
    row1 (lk up) 95 r = true ∧ keyOnItsWay (lk up) 95 r = false ∧ row2 (lk up) 95 r ctlFrame = true ∧ r.seq < 2 ^ 47 - 1 ∧ r.type = 1 ∧
    1 = (frameLen r + 255) / 256 ∧ r.len = 2 ∧ leAt ctlFrame 8 1 = 1 ∧ leAt ctlFrame 9 1 = 0 := by decide +kernel
/-- A hop-control message that has come whole on link 95. -/
def came (t : Nat) (d : Bytes) (s : State) : State := updEng 95 (fun x => { x with hopAsm := [⟨t, d, 1, true⟩] }) s
theorem wit_hopCame (t : Nat) (d : Bytes) (s : State) (h : canonical s = true) : hopCame (came t d s) 95 t d = true ∧
    engOf (came t d s) 95 = { engOf s 95 with hopAsm := [⟨t, d, 1, true⟩] } := by
  have he : engOf (came t d s) 95 = { engOf s 95 with hopAsm := [⟨t, d, 1, true⟩] } := by rw [came, Sys2Proof.Laws.engOf_updEng_same h]
  exact ⟨by simp [hopCame, he], he⟩
set_option maxRecDepth 100000 in
/-- Any point agreed is a premise (log 11). -/
theorem wit_hopHello_rekey (h : ∀ a, (Config.ecdhShared a peerHello.ecdh).isSome = true) : let s := came 1 (helloBytes peerHello) (lk up)
    (engOf s 95).exch = none ∧ linkAllowed s = true ∧ (engOf s 95).state = .ready ∧ helloQueued s 95 = false ∧ txKeyed s 95 = true ∧
    peerHello.ep ≠ s.link.endpoint ∧ (∀ a, (Config.ecdhShared a peerHello.ecdh).isSome = true) :=
  ⟨by decide, by decide, by decide, by decide, by decide, by decide, h⟩
/-- Exchanges: before the peer's HELLO, after it, after its CERT, after its ENCAP. -/
def ex0 : Exchange := { rekey := false, start := 5, random := [], ecdhSlot := 3248, kemSlot := 3249, ecdhPub := [], kemPub := [] }
/-- An ACTIVE slot with a key of two bytes. -/
def slotKey (n : Nat) (attr : BitVec 5) : Nat × Slot := (n, { state := .active, attr := attr, len := 2, active := mkHalf n 0 [7, 8] 5 })
/-- Link 95 with the alias keys, both hop keys of phase 0 and four working slots filled. -/
def lx (x : Engine) : State := { lk x with orng := { ready := true, lastSeed := 1000000000, slots := [slotKey 4 attrRef, slotKey 5 attrRef, slotKey (hopSlot 95 0 0) attrEngine, slotKey (hopSlot 95 0 1) attrEngine, slotKey 3248 attrWrap, slotKey 3249 attrWrap, slotKey 3250 attrDerive, slotKey 3251 attrEnc] } }
set_option maxRecDepth 100000 in
/-- Whether the peer's point, chain and signatures hold is uninterpreted (log 11): they are premises. -/
theorem wit_exchange (keys : Bytes × Bytes) (h1 : (Config.ecdhShared [7, 8] []).isSome = true)
    (h2 : chainVerify (trustAnchor (lx {})) [] = some keys) (h3 : Config.chainLifecycle [] = 0)
    (h4 : hybridOk keys (encapHash (lx {}) { ex0 with peer := some peerHello, peerKeys := some keys, ownSlot := some 3250 } peerHello [] []) [] = true) :
    let s := fun (x : Exchange) => lx { state := .keying, up := true, exch := some x }
    canonical (lx { state := .keying }) = true ∧ linkAllowed (lx {}) = true ∧ drawReady (lx {}) = true ∧ (freeWorking 2 (lx {})).length = 2 ∧
    (engOf (s ex0) 95).exch = some ex0 ∧ ex0.peer = none ∧ roomAt (s ex0) 1 = true ∧ peerHello.ep ≠ (s ex0).link.endpoint ∧
    deviceKey ex0.ecdhSlot (s ex0) = some [7, 8] ∧ deviceKey ex0.kemSlot (s ex0) = some [7, 8] ∧ deviceKey 3250 (s ex0) = some [7, 8] ∧
    runningDg (s ex0) = [] ∧ signReady (s ex0) = true ∧ freeWorking 1 (s ex0) = [3252] ∧
    (Config.ecdhShared [7, 8] peerHello.ecdh).isSome = true ∧
    chainVerify (trustAnchor (lx {})) [] = some keys ∧ Config.chainLifecycle [] = (lx {}).otp.code ∧
    hybridOk keys (encapHash (lx {}) { ex0 with peer := some peerHello, peerKeys := some keys, ownSlot := some 3250 } peerHello [] []) [] = true :=
  ⟨by decide, by decide, by decide, by decide, by decide, rfl, by decide, by decide, by decide, by decide, by decide, by decide, by decide, by decide, h1, h2, h3.trans (by decide), h4⟩
set_option maxRecDepth 100000 in
theorem wit_hopFinish : let x : Exchange := { ex0 with peer := some peerHello, ownSlot := some 3250, finSlot := some 3251 }
    let s := lx { state := .keying, up := true, exch := some x }
    canonical s = true ∧ (engOf s 95).exch = some x ∧ deviceKey 3251 s = some [7, 8] ∧ linkAllowed s = true ∧
    nextPhase (engOf s 95) x.rekey = false ∧ (∀ k ∈ [x.ecdhSlot, x.kemSlot, 3251] ++ x.ownSlot.toList, workingBase ≤ k) ∧ loadsHeld s = true ∧
    (∀ d < 2, (slotOf s (hopSlot 95 (bit false) d)).pending = false ∧ deviceKey (hopSlot 95 (bit false) d) s = some [7, 8]) ∧
    (engOf s 95).closeDue = [] ∧ (engOf s 95).txPark = [] ∧ mapWf [] (engOf s 95).keys = true ∧ runningDg s = [] ∧
    (engOf s 95).state = .keying ∧ roomAt s 1 = true := by decide
set_option maxRecDepth 20000 in
theorem wit_linkTimers :
    (let s := lk { state := .keying, upAt := 987500000 }; canonical s = true ∧ (engOf s 95).upAt + 12500000 ≤ s.tick ∧ roomAt s 1 = true ∧ runningDg s = [] ∧ drawReady s = true ∧ (freeWorking 2 s).length = 2) ∧
    (let s := lk { state := .rekeying, exch := some ex0 }; (engOf s 95).exch = some ex0 ∧ ex0.start + 12500000 ≤ s.tick) ∧
    (let s := lk { state := .failed, up := true, failedAt := 750000000 }; (engOf s 95).failedAt + 250000000 ≤ s.tick) ∧
    2 ^ 46 ≤ hopSeqTop { up with txSeq := 70368744177665 } ∧
    (let s := lk { up with retryAt := some 1000000000 }; hopSeqTop (engOf s 95) < 2 ^ 47 - 1 ∧ (engOf s 95).exch = none ∧
      2 ^ 47 - 1 ≤ hopSeqTop { up with txSeq := 140737488355328 }) ∧
    (let s := lk { up with oldUntil := some 1000000000 }; mapWf [] (engOf s 95).keys = true ∧ (engOf s 95).oldUntil = some 1000000000) ∧
    (txKeyed (lk up) 95 = true ∧ (engOf (lk up) 95).txSeq < 2 ^ 47 - 1) ∧
    (let s := lk { up with hopDue := some 999999999 }; (engOf s 95).hopDue = some 999999999 ∧ 999999999 < s.tick ∧ linkCarries s 95 = true) := by decide
theorem wit_linkRekey : mgmtOk ⟨3, true, 95, 0, 0, true⟩ (lk up) = true ∧ (engOf (lk up) 95).state = .ready ∧ (engOf (lk up) 95).exch = none ∧
    (engOf (lk { up with state := .down }) 95).state ≠ .ready := by decide
theorem wit_jobTagThreshold : let s : State := { tick := 9, link := { jobs := [(255, { state := .open_, badDue := some 8 })] } }
    canonical s = true ∧ roomAt s 1 = true ∧ (jobOf s 255).badDue = some 8 ∧ 8 < s.tick ∧ (jobOf s 255).state = .open_ := by decide
set_option maxRecDepth 100000 in
/-- No route leads to endpoint 20479 or 3 where its settings name none: a premise (log 11). -/
theorem wit_jobOpenOp (h : ∀ ep, routeTo (lx up) ep = none) : let s := lx up
    let rs : List EpRange := [(20479, 20479)]
    mgmtOk ⟨3, true, 0, 0, 0, true⟩ s = true ∧ rs.length = 1 ∧ mayOpen s true 20479 (rs.map (fun r => (r.1.toNat, r.2.toNat))) = true ∧
    openBlocked true s = none ∧ openBlocked false s = none ∧ drawReady s = true ∧ (∀ ep e, routeTo s ep = some e → (engOf s e).txSeq + 8 < 2 ^ 47) ∧
    mayOpen s false 3 (rs.map (fun r => (r.1.toNat, r.2.toNat))) = true ∧ jobById s 8 = none ∧
    leastBelow 256 (fun j => decide ((jobOf s j).state = .free)) = some 1 := by
  refine ⟨by decide, by decide, by decide, by decide, by decide, by decide, fun ep e he => ?_, by decide, by decide, by decide⟩
  rw [h ep] at he
  cases he
/-- A job token: job 9, leader endpoint 0, one range. -/
def jobToken : Bytes := [1, 0, 9, 0, 0, 0, 1, 0, 0, 0, 0, 0, 0, 0, 0, 0, 0, 0, 255, 79]
set_option maxRecDepth 200000 in
/-- The two consent signatures are premises (log 11). -/
theorem wit_jobLinkOpen (h1 : Config.ecdsaVerify [] (slice (fit 4819 jobToken) 0 96) (slice (fit 4819 jobToken) 96 96) = true)
    (h2 : Config.mldsaVerify [] (slice (fit 4819 jobToken) 0 96) (slice (fit 4819 jobToken) 192 4627) = true) :
    let h : HostCmd := hc 40 [1, 0, 7, 0] 4819 (.data jobToken)
    let s : State := { cx with orng := { ready := true } }
    hostOk opJobLinkOpen h s = true ∧ opNat h 22 2 = (ctxOf s h.cid).gen.toNat ∧ cmrsOk s 40 = true ∧ (ctxOf s 40).state = .keyed ∧
    drawReady s = true ∧ openBlocked true s = none ∧ consentSigned (ctxOf s 40) (fit 4819 jobToken) = true ∧
    mayOpen s true (BitVec.ofNat 16 (leAt (fit 4819 jobToken) 4 2)) (tokenRanges (fit 4819 jobToken)) = true ∧
    jobById s (BitVec.ofNat 16 (leAt (fit 4819 jobToken) 2 2)) = none ∧
    leastBelow 256 (fun j => decide ((jobOf s j).state = .free)) = some 0 := by
  have hk : (ctxOf { cx with orng := { ready := true } } 40).ecdsaPub = [] ∧ (ctxOf { cx with orng := { ready := true } } 40).mldsaPub = [] := by decide
  refine ⟨by decide, by decide, by decide, by decide, by decide, by decide, ?_, by decide, by decide, by decide⟩
  simp only [consentSigned, hk.1, hk.2, h1, h2]
  decide
theorem wit_jobLinkClose : let s : State := { cx with link := { jobs := [(255, { id := 9, cid := 40, state := .open_, gen := 7 })] } }
    let h := hc 40 [255] 0 .noAnswer
    hostOk opJobLinkClose h s = true ∧ jobCloseCheck (opByte h 20).toNat h.cid h.gen s = none ∧ (jobOf s 255).links = [] ∧
    (jobOf s 255).awaiting = [] ∧ (jobOf s 255).timedOut = false ∧ linksHolding s 255 = [] ∧ runningDg s = [] ∧ (jobOf s 255).openW = .none := by decide
theorem wit_jobCloseOp : let s := lk up
    mgmtOk ⟨3, true, 0, 3, 0, true⟩ s = true ∧ jobCloseCheck 0 0 3 s = none ∧ (jobOf s 0).links = [95] ∧ (jobOf s 0).awaiting = [] ∧
    (engOf s 95).egress = none ∧ linksHolding s 0 = [] ∧ (engOf s 95).txSeq < 2 ^ 47 - 1 ∧ (cachedJobKey s 95 0).isSome = true ∧ mapGet 0 (jobOf s 0).jseq 95 < 2 ^ 64 - 1 := by decide
/-- A JOIN for job 7 from endpoint 3 by link 95. -/
def joinMsg (dest : BitVec 16) : JobMsg := ⟨95, dest, 3, 7, [], [], [], [], [], []⟩
/-- A state in which a message's only fragment has come on link 95. -/
def withAsm (grant : Bool) (m : JobMsg) (s : State) : State := updEng 95 (fun x => { x with asm := [⟨grant, 7, 3, [zeros 16 ++ jobMsgBytes m ++ zeros 16], true⟩] }) s
/-- Link 95 with job 7's key and the alias keys. -/
def lj : State := { lk up with orng := { ready := true, lastSeed := 1000000000, slots := [slotKey 4 attrRef, slotKey 5 attrRef, slotKey (jobSlot 0) attrEngine] } }
set_option maxRecDepth 100000 in
/-- The chain, the signature, the point and the route are uninterpreted (log 11): premises. -/
theorem wit_join (keys : Bytes × Bytes) (h1 : chainVerify (trustAnchor lj) [] = some keys)
    (h2 : hybridOk keys (joinSigned (joinMsg 20479)) [] = true) (h3 : routeTo lj 3 = some 95) :
    joinOk 0 (joinMsg 20479) lj = true ∧ (joinMsg 20479).destEp = lj.link.endpoint ∧ jobById lj 7 = some 0 ∧ drawReady lj = true ∧
    (freeWorking 2 lj).length = 2 ∧ loadsHeld lj = true ∧ signReady lj = true ∧ deviceKey (jobSlot 0) lj = some [7, 8] ∧
    routeTo lj (joinMsg 3).destEp = some 95 ∧ linkCarries lj 95 = true ∧ linkOpen (engOf lj 95) = true ∧ (joinMsg 3).destEp ≠ lj.link.endpoint := by
  refine ⟨?_, by decide, by decide, by decide, by decide, by decide, by decide, by decide, h3, by decide, by decide, by decide⟩
  have hc : (joinMsg 20479).chain = [] ∧ (joinMsg 20479).sig = [] := ⟨rfl, rfl⟩
  simp only [joinOk, hc.1, hc.2, h1, h2]
  decide
theorem wit_takeAsm : ∀ g ∈ [true, false], ∀ d ∈ [(3 : BitVec 16), 20479],
    ((takeAsm g (joinMsg d) (withAsm g (joinMsg d) (lk up))).map (fun p => p.1)) = some [zeros 16 ++ jobMsgBytes (joinMsg d) ++ zeros 16] := by
  intro g _ d _
  have ha : (engOf (withAsm g (joinMsg d) (lk up)) 95).asm = [⟨g, 7, 3, [zeros 16 ++ jobMsgBytes (joinMsg d) ++ zeros 16], true⟩] := by
    rw [withAsm, Sys2Proof.Laws.engOf_updEng_same (by decide)]
  have hb : ∀ b : Bytes, ((zeros 16 ++ b ++ zeros 16).drop 16).take ((zeros 16 ++ b ++ zeros 16).length - 32) = b := by
    intro b
    have hz : (zeros 16).length = 16 := rfl
    rw [List.append_assoc, List.drop_left' hz]
    exact List.take_left' (by simp only [List.length_append, hz]; omega)
  have hm : (joinMsg d).engine.val = 95 ∧ (joinMsg d).jobId = 7 ∧ (joinMsg d).srcEp = 3 := ⟨rfl, rfl, rfl⟩
  simp only [takeAsm, hm.1, hm.2.1, hm.2.2, ha, List.find?, List.flatMap_cons, List.flatMap_nil, List.append_nil, hb]
  simp
/-- A member that waits for its GRANT. -/
def member : State := { lk up with link := { (lk up).link with jobs := [(4, { id := 7, cid := 40, state := .keying, leaderEp := 3, ranges := [(0, 20479)], deadline := 1000000000, gen := 65535, ecdhSlot := some 3248, kemSlot := some 3249 })] }, orng := { ready := true, lastSeed := 1000000000, slots := [slotKey 3248 attrWrap, slotKey 3249 attrWrap] } }
set_option maxRecDepth 20000 in
/-- As for JOIN; the wrapped key opens. -/
theorem wit_grant (keys : Bytes × Bytes) (z key : Bytes) (h1 : chainVerify (trustAnchor member) [] = some keys)
    (h2 : Config.ecdhShared [7, 8] [] = some z) (h3 : hybridOk keys (grantSigned (joinMsg 20479) [] []) [] = true)
    (h4 : gcmOpen (kdf (z ++ Config.kemDecap [7, 8] []) (ascii "OCN-GRANT") [] 256) (zeros 12) [] (slice [] 0 32) (slice [] 32 16) = some key) :
    grantOk 4 (joinMsg 20479) member = true ∧ (freeWorking 1 member).isEmpty = false ∧ drawReady member = true ∧
    grantKey 4 (joinMsg 20479) member = some key ∧ jobById member 7 = some 4 ∧ canonical member = true ∧ linkAllowed member = true ∧
    loadsHeld member = true := by
  have hj : jobOf member 4 = { id := 7, cid := 40, state := .keying, leaderEp := 3, ranges := [(0, 20479)], deadline := 1000000000, gen := 65535, ecdhSlot := some 3248, kemSlot := some 3249 } := by decide
  have hd : deviceKey 3248 member = some [7, 8] ∧ deviceKey 3249 member = some [7, 8] := by decide
  refine ⟨?_, by decide, by decide, ?_, by decide, by decide, by decide, by decide⟩
  · simp [grantOk, hj, joinMsg, h1]
    exact ⟨by decide, h3⟩
  · have hk : memberKey (jobOf member 4) (joinMsg 20479) member = some (kdf (z ++ Config.kemDecap [7, 8] []) (ascii "OCN-GRANT") [] 256) := by
      simp [memberKey, hj, hd.1, hd.2, joinMsg]
      exact ⟨z, h2, rfl⟩
    have hm : (joinMsg 20479).wrapped = [] := rfl
    simp only [grantKey, hk, hm, Option.bind_some]
    exact h4
theorem wit_join_refused : let m : JobMsg := { joinMsg 20479 with jobId := 0x1234 }
    joinOk 255 m (lk up) = false ∧ grantOk 255 m (lk up) = false ∧ jobById (lk up) m.jobId = some 255 ∧ roomAt (lk up) 0 = true := by decide
theorem wit_memberKeyingTimeout : (jobOf member 4).state = .keying ∧ (jobOf member 4).deadline ≤ member.tick ∧ (jobOf member 4).links = [] ∧
    linksHolding member 4 = [] ∧ (jobOf member 4).awaiting = [] := by decide
/-- Job 255 closing on link 95, job 0 open; a control frame of each kind has been accepted. -/
def closing : State := { lk up with link := { (lk up).link with ctl := [⟨95, 0, false, 3⟩, ⟨95, 255, true, 3⟩], jobs := [(0, { id := 7, state := .open_, links := [95] }), (255, { id := 9, state := .closing, gen := 65535, links := [95], awaiting := [(95, 1000000000)] })] } }
theorem wit_closes : canonical closing = true ∧ (takeCtl 95 7 false closing).map (·.1) = some ⟨95, 0, false, 3⟩ ∧
    (takeCtl 95 9 true closing).map (·.1) = some ⟨95, 255, true, 3⟩ ∧ (jobOf closing 255).awaiting = [(95, 1000000000)] ∧
    (jobOf closing 0).state = .open_ ∧ (cachedJobKey closing 95 0).isSome = true ∧ roomAt closing 1 = true ∧ (engOf closing 95).txSeq < 2 ^ 47 - 1 ∧ linkCarries closing 95 = true := by decide

/-! ## Greenhouse and Pergola -/

/-- Die 31 in reset release, its engine with a sampling key for CID 254, an open operation of four tiles with `n` seen; the
receipt queue holds one packet of the given entries. -/
def gx (es : List Bytes) (n : Nat) : State := { tick := 9, gates := 0xff, dies := [(31, { rstN := true, state := .running, stampCid := 254 })], ctxs := [(254, { state := .running, opSeq := some 22, policy := { rate := 4096, fence := true } })], splq := [(33, { items := es.map (fun p => ⟨.head, 0, true, p, 0, 0⟩), order := [0], nextPkt := 1 })], grnh := { engines := [(31, { keys := [(254, some [1])] })], opens := [⟨254, 0, 22, 4, n⟩], verified := true } }
/-- A receipt header of CID 254 as stored: kind, entries, operation, AUX. -/
def rhdr (kind n opseq aux : Nat) : Bytes := fit 63 ([BitVec.ofNat 8 kind, 254, 0, 0, 0, BitVec.ofNat 8 n, 47, 0] ++ zeros 7 ++ leNat 8 opseq ++ zeros 22 ++ leNat 4 aux)
set_option maxRecDepth 20000 in
theorem wit_receipt : let s := { gx [] 0 with splq := [] }
    let e : QEntry := ⟨true, [0x10, 0, 0, 0, 0, 1]⟩
    canonical s = true ∧ (dieOf s 31).rstN = true ∧ (qOf s 33).items = [] ∧ (qOf s 33).opens = [] ∧ (qOf s 33).ignoring = [] ∧
    (qOf s 33).order = [] ∧ crossFull s.tick (qOf s 33) = false ∧ byteAt (fit 63 e.payload) 5 = 1 ∧ (dieOf s 31).stampCid < 256 ∧ (dieOf s 30).rstN = false := by decide
set_option maxRecDepth 20000 in
theorem wit_opBegin : let s := gx [rhdr 1 1 23 3] 0
    let r := parseRcpt [rhdr 1 1 23 3]
    canonical s = true ∧ headRcpt s 31 = some (1, r) ∧ r.kind = kOpBegin ∧ r.cid = 254 ∧ rcptStatic 1 r = true ∧ beginBad s r = false ∧ enginesOn s = true ∧ enginesOn {} = false ∧
    s.grnh.opens.length < 8192 := by decide
/-- The table of open operations can be full. -/
theorem wit_opBegin_full : let s : State := { grnh := { opens := List.replicate 8192 ⟨1, 0, 5, 4, 0⟩ } }
    8192 ≤ s.grnh.opens.length := le_of_eq (List.length_replicate (n := 8192)).symm
set_option maxRecDepth 20000 in
theorem wit_opEnd : let r := parseRcpt [rhdr 2 1 22 0]
    ∀ n ∈ [0, 4, 5], let s := gx [rhdr 2 1 22 0] n
    canonical s = true ∧ enginesOn s = true ∧ headRcpt s 31 = some (1, r) ∧ r.kind = kOpEnd ∧ rcptStatic 1 r = true ∧
    openOp s r.cid r.vdie r.opseq = some ⟨254, 0, 22, 4, n⟩ := by decide
/-- A CONVERT receipt of one element, 8-bit integer to 8-bit integer. -/
def conv : List Bytes := [patch (rhdr 0x11 3 22 0) 27 [1, 0, 1, 0], fit 63 [0], fit 63 [3]]
set_option maxRecDepth 40000 in
theorem wit_samplingDecision : let s := gx conv 0
    let r := parseRcpt conv
    canonical s = true ∧ enginesOn s = true ∧ headRcpt s 31 = some (3, r) ∧ r.kind = kConvert ∧ r.cid = 254 ∧ rcptStatic 3 r = true ∧ tileTracked s r = true ∧
    (headDecision s 31 r).1 = true ∧ (grEngOf s 31).keys.find? (fun x => x.1 == r.cid) = some (254, some [1]) ∧
    mapGet none (grEngOf s 31).slots 0 = none ∧ rateEff s (headDecision s 31 r).2 = 4096 ∧ (headDecision s 31 r).2.fence = true ∧
    (grEngOf { s with grnh := { verified := true } } 31).keys = [] ∧ s.pav.tamper = false := by decide
/-- The same receipt with another operation number, which its key does not select. -/
theorem wit_samplingDecision_u : sampleU [1] { parseRcpt conv with opseq := 5 } / 2 ^ 28 = 7 ∧ sampleU [1] (parseRcpt conv) < 4096 * 65536 := by decide +kernel
set_option maxRecDepth 40000 in
/-- A reserved byte set, or no open operation. -/
theorem wit_samplingDecision_bad : rcptStatic 3 { parseRcpt conv with res0 := false } = false ∧
    tileTracked { gx conv 0 with grnh := {} } (parseRcpt conv) = false ∧ (parseRcpt conv).cid = 254 := by decide
/-- The CONVERT in check slot 15 of die 31, its input byte 5 fetched and its output byte 5 or another copied. -/
def kc (out : Byte) (copied fetched fence : Bool) : Check := ⟨parseRcpt conv, fence, 0, copied, fetched, [[out]], [([5], []), ([], [])]⟩
/-- The engine with that check. -/
def ck (c : Check) (st : CtxState) : State := { tick := 9, dies := [(31, { state := .running })], ctxs := [(254, { state := st })], grnh := { engines := [(31, { slots := [(15, some c)] })] } }
set_option maxRecDepth 40000 in
theorem wit_checks : ∀ c ∈ [kc 5 false false false, kc 5 true false false, kc 5 true true false, kc 6 true true true],
    canonical (ck c .running) = true ∧ checkAt (ck c .running) 31 15 = some c ∧ mapWf none (grEngOf (ck c .running) 31).slots = true ∧
    fencedBefore (ck c .running) c.rcpt.cid = false ∧
    (c.copied = true ∨ copyTurn (ck c .running) 31 c = true) ∧ (c.copied = false ∨ (checksOf (ck c .running) 31).all (fun x => x.2.copied) = true) ∧ roomAt (ck c .running) 1 = true ∧ (ctxOf (ck c .fenced) c.rcpt.cid).state = .fenced := by decide
set_option maxRecDepth 40000 in
theorem wit_checkVerdict : verdictOf (parseRcpt conv) [[5]] [([5], []), ([], [])] = none ∧
    verdictOf (parseRcpt conv) [[6]] [([5], []), ([], [])] = some 0 := by decide
/-- Slice 31 with semaphore 15,359 at a value and one more at 7; slot 0's context 40 holds its set there. -/
def sx (v : Nat) (ws : List PWait) : State := { tick := 9, dies := [(31, { rstN := true, stampCid := 40 })], ctxs := [(40, { home := some 31 })], perg := { slices := [(31, { sems := [(3, 7), (15359, v), (15871, 1)], waits := ws, waitTicks := 9, home := some 40 })] } }
/-- An operation of core 319 of die 31 on semaphore 15,359. -/
def po (port : PergPort) (n : BitVec 20) : PergOp := ⟨31, port, 15359, n⟩
theorem wit_semaphores : ∀ v ∈ [0, 5, 1048575], let s := sx (v + 0) []
    (v = 0 ∨ canonical s = true ∧ semaphoresOk s = true) ∧ (dieOf s 31).rstN = true ∧ stampGap s 31 = false ∧
    (∀ w ∈ (sliceOf s 31).waits, w.sem ≠ 15359) ∧ coreWaits s 31 319 = false ∧ semValue s 31 15359 = v := by decide
theorem wit_realign : (po (.core 319) 0x14003).n.toNat % 16384 = 3 ∧ bits (po (.core 319) 0x14003).n.toNat 14 5 = 5 := by decide
/-- A WAIT_SUB of core 0 of die 31 for 6. -/
def wsub : PWait := ⟨0, 15359, 6, true, 40, .core 31 0, 0⟩
theorem wit_waiters : let s := sx 5 [wsub]
    canonical s = true ∧ semaphoresOk s = true ∧ (sliceOf s 31).waits = [wsub] ∧ wsub.sem = (po (.internal 40) 1).sem.val ∧
    wsub.n ≤ semValue s 31 15359 + 1 ∧ waitOfCore s 31 0 = some (31, wsub) ∧ (sliceOf s 31).waitTicks ≠ 0 ∧
    wsub.tick + (sliceOf s 31).waitTicks.toNat ≤ s.tick ∧ roomAt s 0 = true := by decide
theorem wit_ring : let s := { sx 5 [] with perg := { (sx 5 []).perg with ring := [⟨31, 0, .add, 15871, 4, 40, .internal 0, 8⟩] } }
    takeRing 31 s.perg.ring = some (⟨31, 0, .add, 15871, 4, 40, .internal 0, 8⟩, []) ∧ (ctxOf s 40).home = some 31 ∧ canonical s = true ∧
    semaphoresOk s = true ∧ semValue s 31 15871 + 4 ≤ 1048575 ∧ (ctxOf s 41).home = none ∧
    (takeRing 30 [⟨30, 0, .add, 15871, 4, 40, .internal 0, 8⟩]).isSome = true ∧ (30 : Nat) ≠ 31 ∧ mapGet 0 (ctxOf s 41).backing 511 = 0 := by decide
theorem wit_stampGap : stampGap { sx 5 [] with dies := [(31, { rstN := true, stampGap := true })] } 31 = true := by decide

/-! ## Spill queues -/

/-- Queue 319 in a given form. -/
def qx (q : SpillQ) : State := { tick := 50000, gates := 0xff, splq := [(319, q)] }
/-- Entries at a place, one packet each. -/
def items (n : Nat) (l : QLoc) : List QItem := (List.range n).map (fun i => ⟨l, 0, true, [], i, i⟩)
theorem wit_entryWrite : let s := qx { items := items 1 .head, order := [0], nextPkt := 1 }
    canonical s = true ∧ (qOf s 319).items.length < 64 ∧ openOf (qOf s 319) 319 = none ∧ (qOf s 319).ignoring.contains 319 = false ∧
    declaredOf 319 (fit 63 []) = 1 ∧ roomAt s 0 = true ∧ declaredOf 65 (fit 63 [32]) = 32 ∧ (qOf s 319).order = [0] ∧ pktHeld (qOf s 319) 0 = false ∧
    takeFirst 0 (qOf s 319).items = some (⟨.head, 0, true, [], 0, 0⟩, []) ∧ (qOf s 319).lastRead + qTimeout (qOf s 319) ≤ s.tick ∧
    (∀ i ∈ (qOf s 65).items, i.pkt ≠ (qOf s 65).nextPkt) := by decide
set_option maxRecDepth 4000 in
theorem wit_entryWrite_full : let s := qx { items := items 64 .tail, nextPkt := 64 }
    qFull (canSpill s) (qOf s 319) = true ∧ openOf (qOf s 319) 319 = none ∧ roomAt s 0 = true := by decide
theorem wit_crossing : let s : State := { tick := 9, dies := [(31, { rstN := true, stampCid := 254 })], splq := [(33, { crossing := 64, crossAt := 9 })] }
    canonical s = true ∧ roomAt s 0 = true ∧ (dieOf s 31).rstN = true ∧ crossFull s.tick (qOf s 33) = true ∧
    openOf (qOf s 33) 319 = none ∧ (dieOf s 31).stampCid = 254 ∧ (qOf s 319).items.length < 64 := by decide
theorem wit_ctxPrivate : let s : State := { dies := [(30, { rstN := true }), (31, { rstN := true, stampCid := 255 })] }
    canonical s = true ∧ (dieOf s 31).stampCid = 255 ∧ (dieOf s 30).stampCid = 0 ∧ (dieOf s 30).rstN = true := by decide
theorem wit_middle : let s := qx { items := items 16 .spilling ++ items 16 .fetching, midFrames := 1, midBase := 0x7ffff, nextPkt := 40 }
    canonical s = true ∧ qCountAt (qOf s 319) .spilling = 16 ∧ qCountAt (qOf s 319) .fetching = 16 ∧ s.pav.cid0Failed = false ∧
    (∀ i ∈ itemsAt (qOf s 319) .spilling, selectRow s (lineChan (midLine (qOf s 319) i.pos)) (middleReq (qOf s 319) true i) = .ok) ∧
    (readsOutcome s (middleReads s 319) ⟨.ok, 16⟩).status = .ok ∧ (readsOutcome s (middleReads s 319) ⟨.tagFail, 15⟩).status = .tagFail ∧
    (∃ i ∈ itemsAt (qOf s 319) .spilling, selectRow { s with pav := { tamper := true } } (lineChan (midLine (qOf s 319) i.pos)) (middleReq (qOf s 319) true i) ≠ .ok) ∧
    (qOf { s with splq := [] } 319).order = [] ∧ pktHeld { qOf s 319 with midFail := true } 0 = true := by decide
theorem wit_packetShortTimeout : let o : OpenPkt := ⟨319, 1, 2, 1, 25000, none⟩
    let s := qx { items := items 2 .tail, order := [0], opens := [o], nextPkt := 2 }
    canonical s = true ∧ openOf (qOf s 319) 319 = some o ∧ o.lastTick + qTimeout (qOf s 319) ≤ s.tick ∧ roomAt s 0 = true := by decide

/-! ## Orangery and digest engines -/

/-- Slots 13, 3248 and 4095 ACTIVE under given attributes for CID 40; a private set of CID 1; the key-use gate open. -/
def ox : State := { tick := 16380, gates := 1, orng := { ready := true, maskStart := some 0, slots := [(12, { state := .active, len := 32, active := mkHalf 12 0 [9] 2 }), (13, { state := .active, len := 32, active := mkHalf 13 0 [8] 2 }), (448, { state := .active, attr := attrEngine, cid := 1, len := 64, active := mkHalf 448 0 [7] 2 }), (449, { state := .active, attr := attrEngine, cid := 1, len := 32, active := mkHalf 449 0 [6] 2 }), (3248, { state := .active, attr := attrDerive, cid := 40, len := 32, active := mkHalf 3248 0 [5] 3 }), (4095, { state := .active, attr := attrRef, cid := 40, len := 16, active := mkHalf 4095 0 [4] 3 })] } }
set_option maxRecDepth 20000 in
theorem wit_vault_form : canonical ox = true ∧ ox.orng.zeroized = false ∧ gateOpen ox 0 = true ∧ (slotOf ox 4095).state = .active ∧
    (slotOf ox 4095).attr = attrRef ∧ (slotOf ox 4095).cid = 40 ∧ remaskLate ox 0 4095 = 0 ∧ remasked ox (slotOf ox 4095) 0 = false ∧ ox.orng.queue = [] ∧ drawReady ox = true ∧
    roomAt ox 0 = true ∧ slotOf ox 4094 = {} ∧ opensSet 448 = true ∧ opensSet 4095 = false ∧ freeWorking 1 { orng := {} } = [3248] := by decide
/-- Every share passes its code. -/
theorem wit_vault_codes : halfOk 4095 0 (slotOf ox 4095).active = true ∧ halfOk 3248 0 (slotOf ox 3248).active = true ∧
    halfOk 448 0 (slotOf ox 448).active = true ∧ halfOk 449 0 (slotOf ox 449).active = true ∧ halfOk 4095 0 (mkHalf 4094 0 [4] 3) = false := by decide +kernel
set_option maxRecDepth 20000 in
theorem wit_derive_form : let d : DeriveReq := ⟨3248, ascii "OCN-OWNER", [], 256, [4000], attrDerive, 40⟩
    let e : DeriveReq := ⟨3248, [1], [], 512, [4000], attrDerive, 40⟩
    deriveRange d = true ∧ deriveForm d ox = false ∧ deriveStates d ox = .ok ∧ deriveRange e = true ∧ deriveForm e ox = true ∧
    deriveStates e ox = .ok ∧ slotOf ox 4000 = {} ∧ deriveRange { e with targets := [63] } = false ∧
    deriveStates { e with targets := [4095] } ox = .notPermitted := by decide
/-- The derivation key is used whole; the state is unchanged. -/
theorem wit_derive : useSlot 3248 attrDerive 40 ox = ((.ok, halfKey (slotOf ox 3248).active (slotOf ox 3248).len), ox) ∧
    useSlot 3248 attrDerive 41 ox = ((.keyAttrDenied, []), ox) ∧ (kdf [5] [] [] 512).length ≤ 64 := by
  have h : halfOk 3248 0 (slotOf ox 3248).active = true := wit_vault_codes.2.1
  have c : slotCheck 3248 attrDerive 40 ox = .ok := by decide
  have c2 : slotCheck 3248 attrDerive 41 ox = .keyAttrDenied := by decide
  refine ⟨?_, ?_, by decide +kernel⟩
  · simp only [useSlot, c, h, if_true]
  · simp only [useSlot, c2]
/-- A load of slot 3250 whose pending half holds a key, verified or not. -/
def ldx (res : Status) (c : Option Nat) : State := { ox with orng := { ox.orng with slots := [(3250, { pending := true, cid := 40, pend := mkHalf 3250 1 [7] 3 })], loads := [⟨[3250], [16], [attrEnc], .blob, res, c, .none, ([], []), []⟩] } }
theorem wit_loads : canonical (ldx .ok none) = true ∧ (loadAt (ldx .ok none) 3250).isSome = true ∧
    (loadAt (ldx .ok (some 16379)) 3250).map (·.commitS) = some (some 16379) ∧ (slotOf (ldx .ok none) 3250).state = .empty ∧
    loadOutcome ⟨[3250], [16], [attrEnc], .blob, .keyBlobInvalid, none, .none, ([], []), []⟩ (ldx .keyBlobInvalid none) ≠ .ok := by decide
theorem wit_loads_ok : loadOutcome ⟨[3250], [16], [attrEnc], .blob, .ok, none, .none, ([], []), []⟩ (ldx .ok none) = .ok ∧
    halfOk 3250 1 (slotOf (ldx .ok none) 3250).pend = true ∧ halfOk 3251 1 (slotOf (ldx .ok none) 3250).pend = false := by decide +kernel
theorem wit_blobExport : reseedDue ox = false ∧ genWaits { ox with orng := { ox.orng with requests := 2 ^ 20 } } = true ∧
    (slotOf ox 12).state = .active ∧ (slotOf ox 13).state = .active := by decide
theorem wit_blob_keys : (deviceKey 12 ox).isSome = true ∧ (deviceKey 13 ox).isSome = true ∧ checkSlot (blobKeySlot []) ox = ox := by
  have h : halfOk 12 0 (slotOf ox 12).active = true := by decide +kernel
  have h3 : halfOk 13 0 (slotOf ox 13).active = true := by decide +kernel
  have a : (slotOf ox 12).state = .active := by decide
  have a3 : (slotOf ox 13).state = .active := by decide
  have b : blobKeySlot [] = 12 := by decide
  refine ⟨by simp [deviceKey, a, h], by simp [deviceKey, a3, h3], by rw [b]; simp [checkSlot, h]⟩
set_option maxRecDepth 20000 in
/-- Alternating bits pass both tests; equal bits fail both; a second failure stands before the third. -/
theorem wit_entropy : let good := List.replicate 128 (0x55 : Byte)
    let bad := List.replicate 128 (0 : Byte)
    (rctRun (rawBits good) false 0 false).2.2 = false ∧ aptFail (rawBits good) = false ∧ (rctRun (rawBits bad) false 0 false).2.2 = true ∧
    good.length = 128 ∧ bad.length = 128 ∧ roomAt { ox with orng := { ox.orng with failRun := 2 } } 1 = true := by decide +kernel
theorem wit_reseed : let s : State := { ox with orng := { ox.orng with requests := 2 ^ 20, pool := [[]] } }
    reseedDue s = true ∧ s.orng.ready = true ∧ s.orng.pool = [[]] ∧ genWaits s = false := by decide
theorem wit_generateQueueTimeout : let s : State := { tick := 250000, orng := { queue := [(0, .exportBlob 4095 40 false)] } }
    s.orng.queue = [(0, .exportBlob 4095 40 false)] ∧ 0 + 250000 ≤ s.tick := by decide
theorem wit_kbusEstablish : let s : State := { orng := { ready := true }, boot := { verA := 0x5a, verB := 0xa5, belvDone := true } }
    canonical s = true ∧ isVerified s = true ∧ s.orng.booting = false ∧ s.orng.kbusReady = false ∧ s.boot.belvDone = true := by decide
/-- A device that awaits drop 31's confirmation, its ephemeral key in slot 16. -/
def kbx : State := { orng := { ready := true, booting := true, drops := [(31, { attempts := 1 })], slots := [(16, { state := .active, attr := attrWrap, len := 16, active := mkHalf 16 0 [4] 3 })] } }
/-- Whether a public key is a point is uninterpreted (log 11). -/
theorem wit_kbusConfirmation (x : Bytes) (h : Config.ecdhShared ([4] ++ zeros 15) [] = some x) :
    canonical kbx = true ∧ (∃ sec, deviceKey 16 kbx = some sec ∧ Config.ecdhShared sec [] = some x) ∧ kbx.orng.kbusUp.getLsbD 31 = false ∧
    (dropOf kbx 31).attempts = 1 ∧ drawReady kbx = true ∧ kbx.orng.kbusUp ||| (1#32 <<< 31) ≠ BitVec.allOnes 32 ∧ checkSlot 16 kbx = kbx := by
  have o : halfOk 16 0 (slotOf kbx 16).active = true := by decide +kernel
  have k : halfKey (slotOf kbx 16).active 16 = [4] ++ zeros 15 := by decide +kernel
  refine ⟨by decide, ⟨_, ?_, h⟩, by decide, by decide, by decide, by decide, by simp [checkSlot, o]⟩
  have a : (slotOf kbx 16).state = .active := by decide
  have l : (slotOf kbx 16).len = 16 := by decide
  simp [deviceKey, a, o, l, k]
/-- A digest descriptor: operation, algorithm SHA-384, priority 3, slot, length 3. -/
def dgd (op slot : Nat) : Bytes := [BitVec.ofNat 8 op, 1, 3, 0] ++ leNat 2 slot ++ [0, 0] ++ zeros 8 ++ leNat 8 3 ++ zeros 8 ++ leNat 8 64 ++ zeros 24
/-- Whether SRAM addresses lie in a requester's reach is uninterpreted (log 127). -/
theorem wit_dgReach (n : Nat) (h : Config.sramReach 36 0 3 = true) (k : Config.sramReach 36 0 48 = true) :
    dgReachOk (parseDg 36 n 0 (dgd 1 0)) = true := by
  have a : (parseDg 36 n 0 (dgd 1 0)).external = false := by rfl
  have b : (parseDg 36 n 0 (dgd 1 0)).source = 0 := by rfl
  have c : (parseDg 36 n 0 (dgd 1 0)).len = 3 := by rfl
  have d : (parseDg 36 n 0 (dgd 1 0)).result = 0 := by rfl
  have e : algLen (parseDg 36 n 0 (dgd 1 0)).alg = 48 := by rfl
  have f : (parseDg 36 n 0 (dgd 1 0)).requester = 36 := rfl
  simp [dgReachOk, a, b, c, d, e, f, h, k]
set_option maxRecDepth 20000 in
theorem wit_digestHash : let s : State := { dgst := { enabled := true } }
    canonical s = true ∧ (parseDg 36 1 0 (dgd 1 0)).op = 1 ∧ dgCheck (parseDg 36 1 0 (dgd 1 0)) (dgd 1 0) s = .ok ∧ freeDg s = some 1 ∧
    (parseDg 36 1 0 (dgd 1 0)).resume = false ∧ dgCheck (parseDg 36 1 40 (dgd 4 4096)) (dgd 4 4096) s = .badDescriptor ∧
    dgCheck (parseDg 36 1 0 (dgd 1 4096)) (dgd 1 4096) s = .badDescriptor ∧ (parseDg 36 1 0 (dgd 1 4096)).op = 1 ∧
    dgCheck (parseDg 36 1 40 (dgd 2 4096)) (dgd 2 4096) s = .notPermitted ∧ (parseDg 36 1 40 (dgd 0 0)).op = 0 := by decide
set_option maxRecDepth 20000 in
theorem wit_hmac : let s : State := { ox with dgst := { enabled := true }, orng := { ox.orng with slots := [(4095, { state := .active, attr := attrEnc, cid := 40, len := 16, active := mkHalf 4095 0 [4] 3 })] } }
    canonical s = true ∧ (parseDg 36 1 40 (dgd 2 4095)).op = 2 ∧ dgCheck (parseDg 36 1 40 (dgd 2 4095)) (dgd 2 4095) s = .ok ∧ freeDg s = some 1 ∧
    slotCheck 4095 (dgAttr (parseDg 36 1 40 (dgd 2 4095))) 40 s = .ok ∧ s.dgst.cache = [] ∧ (slotOf s 4095).active = (slotOf ox 4095).active ∧
    gateOpen s 0 = true ∧ gateOpen { s with gates := 0 } 0 = false ∧ (slotOf s 4095).state = .active ∧ s.dgst.engines = [] ∧
    freeDg { s with orng := { zeroized := true } } = some 1 ∧ dgCheck (parseDg 36 1 40 (dgd 2 4095)) (dgd 2 4095) { s with orng := { zeroized := true } } = .ok := by decide
/-- Engine 3 runs a hash of 3 bytes, or one of 200 that the hash in the queue pre-empts. -/
def dgx (len : Nat) (pre : Bool) : State := { tick := 9, dgst := { queue := if pre then [parseDg 36 2 0 (dgd 1 0)] else [], engines := [(3, { run := some ⟨{ parseDg 36 1 0 (dgd 1 0) with len := len, compare := true }, 0, algInit 1, 0, [], if pre then some (parseDg 36 2 0 (dgd 1 0)) else none, 9⟩ })] } }
set_option maxRecDepth 20000 in
theorem wit_digestDone : canonical (dgx 3 false) = true ∧ ((dgOf (dgx 3 false) 3).run.map (fun r => r.done + [1, 2, 3].length = r.req.len)) = some True ∧
    ((dgOf (dgx 200 true) 3).run.map (fun r => decide (r.preempt = some (parseDg 36 2 0 (dgd 1 0))) && decide (r.req.op = 1) && decide (r.done + 128 < r.req.len))) = some true ∧
    (dgx 200 true).dgst.queue = [parseDg 36 2 0 (dgd 1 0)] ∧ (parseDg 36 2 0 (dgd 1 0)).resume = false ∧ (parseDg 36 2 0 (dgd 1 0)).extend = false ∧ canonical (dgx 200 true) = true := by
  refine ⟨by decide, ?_, by decide, rfl, by decide, by decide, by decide⟩
  simp [dgx, dgOf, mapGet]
theorem wit_unitEn : writeReach 0 0x30404 = true := by decide
/-- Supplies within their windows. -/
def sup : Supplies := ⟨1800, 1000⟩
/-- A device in Maker with the OTP-programming gate open, word 80 programmed and words of OTP as given. -/
def otx (a : NMap (BitVec 40)) : State := { tick := 5, gates := 0x2d, otp := { array := a, sensed := true, wdata := 0x11 } }
set_option maxRecDepth 20000 in
theorem wit_program : writeReach 0 0x40008 = true ∧ otpReady sup (otx []) = true ∧ regionOfWord 80 = some 0 ∧
    arrayLocked (otx []) (otpRegion 0).lock = false ∧ arrayWord (otx []) 80 = 0 ∧ regionOfWord 64 = none ∧ regionOfWord 96 = none ∧
    arrayLocked (otx [(143, 0xffff)]) (otpRegion 1).lock = true ∧ arrayLocked (otx [(143, 0x7fff)]) (otpRegion 1).lock = false ∧
    arrayLocked (otx []) 127 = false := by decide
set_option maxRecDepth 20000 in
/-- The columns begin 0x07, 0x0B, 0x0D, 0x0E, 0x13 (R271); a word whose one data bit fails is corrected. -/
theorem test_otpCode : (List.range 5).map otpColumn = [0x07, 0x0b, 0x0d, 0x0e, 0x13] ∧ otpEncode 0 = 0x5a00000000 ∧
    otpDecode (otpEncode 0x11) = some 0x11 ∧ otpDecode (otpEncode 0x11 ^^^ 4) = some 0x11 ∧ otpDecode 3 = none := by decide +kernel
set_option maxRecDepth 20000 in
theorem wit_thermo : thermoNow (otx [(8, 1), (12, 1), (56, 1)]) 0 = 1 ∧ arrayLocked (otx []) 63 = false ∧
    thermoNow (otx [(11, 0x80000000), (19, 0x80000000)]) 0 = 128 := by decide +kernel
set_option maxRecDepth 20000 in
theorem wit_lock_incomplete : regionComplete (rereadVal [] (otx [])) (otpRegion 2) = false ∧
    arrayLocked (otx []) (otpRegion 2).lock = false := by decide
/-- POLICY with content words 1 and 0 and their digest. -/
def policySet : NMap (BitVec 40) := [(128, otpEncode 1), (129, otpEncode 0), (130, otpEncode (regionDigest [1, 0]))]
theorem wit_lock_complete : regionComplete (rereadVal [] (otx policySet)) (otpRegion 1) = true ∧ drawReady { orng := { ready := true } } = true := by decide +kernel
/-- A word of IDENT that the two margins read apart leaves its region incomplete (R280). -/
theorem test_lock_marginal : rereadVal [⟨80, 0, 1⟩] (otx []) 80 = none := by decide +kernel
set_option maxRecDepth 20000 in
theorem wit_lcycAdvance : let s := otx []
    advanceCheck (eraseOwner 4 s) 4 = none ∧ neededBurns s (advanceBurns s 4) ≠ [] ∧ advanceCheck (eraseOwner 1 s) 1 = some .otpLockIncomplete ∧
    advanceCheck (eraseOwner 3 s) 3 = some .notPermitted ∧ mgmtOk ⟨3, true, 0, 0, 0, true⟩ { s with band := { assocs := [(0, some 5)] } } = true := by decide
set_option maxRecDepth 20000 in
theorem wit_lcycReturned : let s : State := { otx [] with gates := 0x6d, otp := { (otx []).otp with state := 2 } }
    canonical s = true ∧ otpReady sup s = true ∧ gateOpen s 6 = true ∧ s.ctxs = [] ∧ thermoNow s 1 = 0 ∧ thermoNow s 2 = 0 ∧
    advanceCheck (eraseOwner 3 s) 3 = none := by decide +kernel
/-- A command that burns two bits of word 8. -/
def pulsing (f : OtpFor) (n : Nat) : State := { otx [] with otp := { (otx []).otp with cmd := some ⟨[(8, 3)], n, f, .none⟩ } }
theorem wit_otpPulseEnd : (pulsing (.advance 4) 2).otp.cmd = some ⟨[(8, 3)], 2, .advance 4, .none⟩ ∧
    (pulsing .command 2).otp.repairAt = none ∧ (3 : BitVec 40) &&& 0 = 0 ∧ (3 : BitVec 40) &&& 1 ≠ 0 := by decide
theorem wit_supplyAbort : suppliesOk ⟨1745, 1000⟩ = false ∧ suppliesOk ⟨1746, 950⟩ = true ∧ suppliesOk ⟨1854, 1050⟩ = true ∧
    suppliesOk ⟨1855, 1000⟩ = false := by decide
set_option maxRecDepth 20000 in
theorem wit_overrideWrite : writeReach 0 (0x40100 + 8 * 15) = true ∧ (otx []).otp.sensed = true ∧ (otx []).belv.ready = false ∧
    mapWf (zeros 48) (otx []).belv.mr = true ∧ roomAt (otx []) 0 = true := by decide
/-- Sensing a blank array votes Maker; a copy caught half way to Integrator beside two copies of each is repaired. -/
def unsensed (a : NMap (BitVec 40)) : State := { boot := { romDone := true, phase := 1 }, otp := { array := a } }
set_option maxRecDepth 20000 in
theorem wit_sensing : repairOf [] (senseAll [] (unsensed [])) = none ∧ canonical (unsensed []) = true ∧
    lcVote (senseAll [] (unsensed [])) = (0, 5) := by decide +kernel
set_option maxRecDepth 20000 in
theorem wit_sensing_repair : let s := unsensed [(0, 0x1000000ff), (1, 0x1000000ff), (2, 0x10000000f)]
    repairOf [] (senseAll [] s) = some (2, 1) := by decide +kernel
set_option maxRecDepth 20000 in
theorem wit_sensing_invalid : let s := unsensed [(0, 1), (1, 2), (2, 4)]
    (lcVote (senseAll [] s)).1 = 5 ∧ roomAt s 1 = true := by decide +kernel
set_option maxRecDepth 20000 in
theorem wit_bootRomStart : let s := State.reset
    s.boot.romDone = false ∧ s.belv.ready = false ∧ mapWf (zeros 48) s.belv.mr = true := by decide
/-- The array has been sensed and two entropy blocks wait. -/
def seeded : State := { otp := { sensed := true }, boot := { romDone := true, phase := 2 }, orng := { pool := [[], []] } }
theorem wit_drbgReady : canonical seeded = true ∧ seeded.otp.sensed = true ∧ 2 ≤ seeded.orng.blocks ∧ seeded.orng.ready = false ∧
    seeded.orng.error = false ∧ seeded.orng.zeroized = false ∧ identComplete seeded = false := by decide
set_option maxRecDepth 20000 in
/-- Blank flash: no slot is OK. -/
theorem wit_slotSelection : let s : State := { seeded with orng := { ready := true } }
    s.boot.phase = 2 ∧ s.orng.ready = true ∧ s.boot.noImage = false ∧ s.pav.tamper = false ∧ canonical s = true ∧ roomAt s 0 = true ∧
    mapWf (zeros 48) s.belv.mr = true ∧ checkSlot 14 s = s ∧ checkSlot 15 s = s ∧ slotRecord s 1 = none ∧ slotRank s 0 = slotRank s 1 := by decide +kernel
/-- Bytes of slot A from `off` on. -/
def slotBytes (off : Nat) (b : Bytes) : NMap Byte := b.zipIdx.map (fun x => (0x100000 + off + x.2, x.1))
/-- A part entry of a type with no bytes, at offset 32,768. -/
def emptyPart (t : Byte) (d : Bytes) : Bytes := [t, 0, 0, 0, 0, 0x80, 0, 0] ++ zeros 8 ++ fit 48 d
/-- A header whose first entry is an empty part of a type. -/
def onePart (t : Byte) (d : Bytes) : NMap Byte := slotBytes 80 [1, 0] ++ slotBytes 96 (emptyPart t d)
/-- A boot streaming slot A, `k` parts done. -/
def streaming (k : Nat) (d : Bytes) : State :=
  { otp := { sensed := true }, flash := onePart 2 d, boot := { romDone := true, phase := 3, slot := some 0, parts := List.replicate k true } }
set_option maxRecDepth 20000 in
theorem wit_headers : (streaming 1 []).orng.error = false ∧ (streaming 1 []).dgst.cut0 = false ∧ (streaming 1 []).boot.parts.length < 4 ∧ canonical (streaming 1 []) = true ∧ (streaming 1 []).boot.failed = none ∧
    (partOfType (slotHeader (streaming 1 []) 0) 2).isSome = true ∧ mapWf (zeros 48) (streaming 1 []).belv.mr = true ∧
    (let s : State := { flash := slotBytes 16 (leNat 8 7) }
     headerSeq (slotHeader s 0) = 7 ∧ headerSeq (slotHeader s 0) < headerSeq (slotHeader s 1)) ∧
    (let s : State := { flash := slotBytes 24 (leNat 4 7), otp := { thermo := [(0, 4)] } }
     headerSvn (slotHeader s 0) = 7 ∧ (floorOf s).1 = 2048) := by decide +kernel
/-- SHA-384 of no bytes (FIPS 180-4). -/
def emptySha : Bytes :=
  [0x38, 0xb0, 0x60, 0xa7, 0x51, 0xac, 0x96, 0x38, 0x4c, 0xd9, 0x32, 0x7e, 0xb1, 0xb1, 0xe3, 0x6a, 0x21, 0xfd, 0xb7, 0x11, 0x14, 0xbe, 0x07, 0x43,
   0x4c, 0x0c, 0xc7, 0xbf, 0x63, 0xf6, 0xe1, 0xda, 0x27, 0x4e, 0xde, 0xbf, 0xe7, 0x6f, 0x65, 0xfb, 0xd5, 0x1a, 0xd2, 0xf1, 0x48, 0x98, 0xb9, 0x5b]
theorem test_sha384_empty : sha384 [] = emptySha := by decide +kernel
theorem emptySha_ne : emptySha ≠ zeros 48 := by decide
set_option maxRecDepth 20000 in
theorem wit_part (d : Bytes) (hd : d = emptySha ∨ d = zeros 48) :
    (partOfType (slotHeader (streaming 1 d) 0) 2).map (fun p => (imgPartBytes (streaming 1 d) 0 p, p.digest)) = some ([], d) := by
  rcases hd with rfl | rfl <;> decide +kernel
/-- A part whose digest agrees, and one whose digest does not. -/
theorem wit_dgst0ImageEnd (p : PartEntry) :
    (partOfType (slotHeader (streaming 1 emptySha) 0) 2 = some p → sha384 (imgPartBytes (streaming 1 emptySha) 0 p) = p.digest) ∧
    (partOfType (slotHeader (streaming 1 (zeros 48)) 0) 2 = some p → sha384 (imgPartBytes (streaming 1 (zeros 48)) 0 p) ≠ p.digest) := by
  constructor <;> intro h
  · have w := wit_part emptySha (.inl rfl)
    rw [h] at w
    simp only [Option.map_some, Option.some.injEq, Prod.mk.injEq] at w
    rw [w.1, w.2, test_sha384_empty]
  · have w := wit_part (zeros 48) (.inr rfl)
    rw [h] at w
    simp only [Option.map_some, Option.some.injEq, Prod.mk.injEq] at w
    rw [w.1, w.2, test_sha384_empty]
    exact emptySha_ne
/-- Whether a chain verifies is uninterpreted (log 11): a header with a signature that does, and one that does not. -/
theorem wit_verified (s : State) (h : Bytes) (k : Bytes × Bytes)
    (hd : (Config.derChain (slice h 8192 (leAt h 6612 4))).map (·.length) = some 3)
    (hc : chainVerify (trustAnchor s) (slice h 8192 (leAt h 6612 4)) = some k)
    (he : Config.ecdsaVerify k.1 (slice h 0 1888) (slice h 1888 96) = true)
    (hm : Config.mldsaVerify k.2 (slice h 0 1888) (slice h 1984 4627) = true) :
    headerSigned s h = true ∧ (streaming 4 []).boot.phase = 3 ∧ (streaming 4 []).boot.failed = none ∧ (streaming 4 []).boot.parts.length = 4 ∧
    noRestart (streaming 4 []) = false ∧ attemptLate (streaming 4 []) = false ∧
    attemptLate { streaming 4 [] with tick := 6250000 } = true := by
  refine ⟨?_, by decide, by decide, by decide, by decide, by decide, by decide⟩
  simp only [headerSigned, hd, hc, he, hm, Bool.and_self, decide_true]
theorem wit_verified_not (s : State) (h : Bytes) (hc : chainVerify (trustAnchor s) (slice h 8192 (leAt h 6612 4)) = none) :
    headerSigned s h = false := by simp only [headerSigned, hc, Bool.and_false]
theorem wit_bootAttemptFail : let s : State := { boot := { phase := 3, slot := some 1, failed := some .dgstCompareFail } }
    noRestart s = false ∧ s.boot.failed = some .dgstCompareFail ∧ readsFlash s = true ∧ noRestart { s with orng := { error := true } } = true := by decide
theorem wit_freezeTimeout : let s : State := { tick := 8750000, boot := { phase := 4, slot := some 1 } }
    s.boot.frozen = false ∧ s.boot.attemptAt + 8750000 ≤ s.tick ∧ s.boot.phase = 4 := by decide
/-- Entry 0, a part of a type with no bytes, waits for its deferred check. -/
def deferring (t : Byte) : State := { flash := onePart t [], gates := 0x82, dgst := { enabled := true }, boot := { phase := 5, slot := some 0, deferred := [0] } }
set_option maxRecDepth 20000 in
/-- Neither digest is that of no bytes. -/
theorem wit_deferredCheckDone : canonical (deferring 2) = true ∧ gateOpen (deferring 2) 1 = true ∧ (deferring 2).boot.deferred.contains 0 = true ∧ gateOpen (deferring 5) 7 = true ∧ (deferring 2).pav.tamper = false ∧
    (deferring 2).dgst.enabled = true ∧ (dieOf (deferring 5) 3).state = .held ∧ (dieOf (deferring 5) 3).releasedAt = none ∧
    (partEntry (slotHeader (deferring 2) 0) 0).type = 2 ∧ (partEntry (slotHeader (deferring 5) 0) 0).type = 5 ∧
    targetDies (partEntry (slotHeader (deferring 5) 0) 0) = [0] := by decide +kernel
theorem wit_deferred_bytes :
    (let p := partEntry (slotHeader (deferring 2) 0) 0
     deferredBytes (deferring 2) p = [] ∧ p.defer ≠ emptySha) ∧
    (let p := partEntry (slotHeader (deferring 5) 0) 0
     deferredBytes (deferring 5) p = [] ∧ p.digest ≠ emptySha) ∧
    (let p := partEntry (slotHeader { deferring 5 with flash := onePart 5 emptySha } 0) 0
     deferredBytes { deferring 5 with flash := onePart 5 emptySha } p = [] ∧ p.digest = emptySha) := by decide +kernel
theorem wit_freeze : writeReach 1 0x5002C = true ∧ (1 : Word).getLsbD 0 = true ∧ (2 : Word).getLsbD 0 = false := by decide
/-- All parts hashed, the keys of the DeviceID layer in place. -/
def hashed : State := { gates := 1, boot := { phase := 4, parts := [true, true, true, true] }, orng := { ready := true, slots := [(1, { state := .active, attr := attrDerive, len := 48, active := mkHalf 1 0 [4] 3 })] } }
theorem wit_belvedereSequenceDone : canonical hashed = true ∧ hashed.boot.parts.length = 4 ∧ hashed.boot.belvDone = false ∧ hashed.orng.zeroized = false ∧
    hashed.belv.ready = false ∧ mapWf (zeros 48) hashed.belv.mr = true ∧ hashed.belv.publicOnly = false ∧
    gateOpen hashed 0 = true ∧ drawReady hashed = true := by decide
/-- Its one key passes its codes. -/
theorem wit_belvedere_codes : (slotOf hashed 1).state = .active ∧
    (∀ k, k < 64 → (slotOf hashed k).state = .active → halfOk k 0 (slotOf hashed k).active = true) := by
  refine ⟨by decide, fun k _ h => ?_⟩
  by_cases e : k = 1
  · subst e; decide +kernel
  · have d : slotOf hashed k = {} := by simp [slotOf, hashed, mapGet, e]
    rw [d] at h; exact absurd h (by decide)
/-- Everything READY waits for has happened; no link is up. -/
def due : State := { tick := 250, boot := { phase := 4, frozen := true, belvDone := true, verA := 0x5a, verB := 0xa5 }, orng := { ready := true }, grnh := { verified := true }, gates := 3 }
theorem wit_ready : canonical due = true ∧ runningDg due = [] ∧ due.orng.loads = [] ∧ (∀ e, (engOf due e).up = false) ∧ due.belv.publicOnly = false ∧
    (∀ k, (slotOf due k).state = .empty) ∧ readyDue due = true ∧ (dieOf due 31).state = .held ∧ gatesAllowed due = 0xff ∧
    pendingActivation due = none ∧ (dieOf due 31).releasedAt = none ∧ heldBack due 31 = false := by
  refine ⟨by decide, by decide, rfl, fun _ => rfl, rfl, fun _ => rfl, by decide, by decide, by decide, by decide, by decide, by decide⟩
theorem wit_pottingShed : let s : State := { boot := { phase := 2, noImage := true } }
    shedOff s = false ∧ s.otp.state < 4 ∧ shedOff { s with otp := { state := 2 } } = true := by decide
/-- The Potting Shed, a sender known or not. -/
def shed (mac : Option (BitVec 48)) : State := { tick := 2500000000, flash := onePart 2 [], boot := { phase := 6, shed := { active := true, mac := mac, written := 16 } } }
set_option maxRecDepth 20000 in
theorem wit_shed : (shed none).boot.shed.mac = none ∧ (shed none).boot.shed.announced + 250000000 ≤ (shed none).tick ∧
    (shed (some 5)).boot.shed.mac = some 5 ∧ (16 : Nat) = (shed (some 5)).boot.shed.written ∧ (shed none).logv.half = none ∧
    canonical (shed none) = true ∧ (shed (some 5)).boot.shed.last + 2500000000 ≤ (shed (some 5)).tick ∧
    (shed (some 5)).pav.supply = none ∧ (shed (some 5)).pav.tamper = false ∧ (shedCheck 32768 (shed (some 5))).1 ≠ .ok := by decide +kernel
/-- A header of 8,192 bytes with four empty parts, sequence 7. -/
def imgHdr (d : Bytes) : Bytes :=
  ascii "OCNH" ++ [1, 0, 0, 0] ++ zeros 8 ++ leNat 8 7 ++ zeros 56 ++ [4] ++ zeros 15 ++
  [1, 2, 3, 4].flatMap (fun t => emptyPart t d ++ zeros 48) ++ zeros 7648
/-- An image that passes the checks of END where its chain verifies. -/
def shedGood : State := { shed (some 5) with flash := slotBytes 0 (imgHdr emptySha) }
set_option maxRecDepth 100000 in
theorem wit_pottingEnd_header : headerOk (slotHeader shedGood 0) = true := by decide +kernel
set_option maxRecDepth 100000 in
theorem wit_pottingEnd_parts : bindingOk shedGood (slotHeader shedGood 0) = true ∧ headerSvn (slotHeader shedGood 0) = 0 ∧
    headerSeq (slotHeader shedGood 0) = 7 ∧ (partsOf (slotHeader shedGood 0)).map (fun p => (p.length, imgPartBytes shedGood 0 p, p.digest)) =
      List.replicate 4 (0, [], emptySha) := by decide +kernel
theorem wit_checkParts (e n : Nat) (ps : List PartEntry) : ∀ s : State,
    (∀ p ∈ ps, ∀ t : State, t.flash = s.flash → sha384 (imgPartBytes t n p) = p.digest) → (checkParts e n ps s).1 = true := by
  induction ps with
  | nil => intro s _; rfl
  | cons p ps ih =>
    intro s h
    have hp : sha384 (imgPartBytes s n p) = p.digest := h p (.head _) s rfl
    simp only [checkParts, hp, decide_true, if_true]
    exact ih _ (fun q hq t ht => h q (.tail _ hq) t ht)
theorem wit_shedCheck (s : State) (h1 : headerOk (slotHeader s 0) = true) (h2 : hardwareOk s (slotHeader s 0) = true)
    (h3 : bindingOk s (slotHeader s 0) = true) (h4 : ¬ headerSvn (slotHeader s 0) < s.boot.floor) (h5 : headerSeq (slotHeader s 0) ≠ 0)
    (h6 : headerSigned s (slotHeader s 0) = true) (h7 : (checkParts 0 0 (partsOf (slotHeader s 0)) s).1 = true) (n : Nat)
    (h8 : n = 32768 + ((partsOf (slotHeader s 0)).map (·.length)).foldl (· + ·) 0) : (shedCheck n s).1 = .ok := by
  have hu : updateHeaderCheck (slotHeader s 0) (decide (headerSeq (slotHeader s 0) ≠ 0)) s = .ok := by
    unfold updateHeaderCheck
    rw [if_neg (by simp [h1]), if_neg (by simp [h2]), if_neg (by simp [h3]), if_neg (by simp [h4, h5]), if_neg (by simp [h6])]
  obtain ⟨t, ht⟩ : ∃ t, checkParts 0 0 (partsOf (slotHeader s 0)) s = (true, t) := ⟨_, Prod.ext h7 rfl⟩
  unfold shedCheck
  simp only [hu, ht, ← h8, Nat.lt_irrefl, if_false]
theorem wit_pottingEnd (h : headerSigned shedGood (slotHeader shedGood 0) = true) : (shedCheck 32768 shedGood).1 = .ok := by
  obtain ⟨h3, h4, h5, h7⟩ := wit_pottingEnd_parts
  have h2 : hardwareOk shedGood (slotHeader shedGood 0) = true := by
    simp only [hardwareOk, show identComplete shedGood = false by decide, Bool.not_false, Bool.true_or]
  refine wit_shedCheck shedGood wit_pottingEnd_header h2 h3 (by rw [h4]; exact Nat.not_lt_zero _) (by rw [h5]; exact Nat.succ_ne_zero 6) h ?_ 32768 ?_
  · refine wit_checkParts 0 0 _ shedGood (fun p hp t ht => ?_)
    have e : imgPartBytes t 0 p = imgPartBytes shedGood 0 p := by simp only [imgPartBytes, flashRead, ht]
    have hm : (p.length, imgPartBytes shedGood 0 p, p.digest) ∈ List.replicate 4 (0, ([] : Bytes), emptySha) :=
      h7 ▸ List.mem_map_of_mem hp
    have := (List.mem_replicate.1 hm).2
    simp only [Prod.mk.injEq] at this
    rw [e, this.2.1, this.2.2, test_sha384_empty]
  · have e : (partsOf (slotHeader shedGood 0)).map (·.length) = [0, 0, 0, 0] := by
      have := congrArg (List.map (fun x : Nat × Bytes × Bytes => x.1)) h7
      rw [List.map_map] at this
      exact this
    rw [e]; rfl
/-- The block of `cx` up to READY, with a queue of signing requests. -/
def bx (n : Nat) : State := { cx with belv := { ready := true, slot0 := true, queue := List.replicate n (.spdm (.doe none) 1 [] false true) }, orng := { ready := true } }
theorem wit_attestEvidence : canonical (bx 15) = true ∧ hostOk opAttestEvidence (hc 40 (zeros 32) 8051 (.data [])) (bx 15) = true ∧
    attestable (hc 40 (zeros 32) 8051 (.data [])) (bx 15) = true ∧ (bx 15).belv.publicOnly = false ∧ activationPending (bx 15) = false ∧
    evidenceLen (bx 15) 40 ≤ 8051 ∧ (bx 15).belv.queue.length < 16 ∧ 16 ≤ (bx 16).belv.queue.length ∧
    attestable (hc 0 (zeros 32) 8051 (.data [])) (bx 15) = true ∧ hostOk opAttestEvidence (hc 0 (zeros 32) 7427 (.data [])) (bx 15) = true ∧
    evidenceLen (bx 15) 0 = 7427 ∧ hostOk opAttestEvidence (hc 40 (zeros 32) 7426 (.data [])) (bx 15) = true := by decide
theorem wit_attest_refused : let s := { bx 0 with belv := { (bx 0).belv with publicOnly := true } }
    let a := { bx 0 with updt := { (bx 0).updt with activating := true } }
    hostOk opAttestEvidence (hc 40 (zeros 32) 8051 (.data [])) s = true ∧ activationPending a = true ∧ canonical s = true ∧ canonical a = true ∧
    hostOk opAttestEvidence (hc 40 (zeros 32) 8051 (.data [])) a = true ∧
    hostOk opAttestEvidence { hc 40 (zeros 32) 8051 (.data []) with gen := 6 } (bx 0) = true ∧ (ctxOf (bx 0) 40).gen = 7 ∧
    hostOk opAttestEvidence (hc 50 (zeros 32) 8051 (.data [])) { bx 0 with ctxs := [(50, { gen := 7 })] } = true := by decide
/-- An evidence request in progress for a command of ring 5. -/
def signing : State := { bx 0 with belv := { (bx 0).belv with queue := [.evidence (.host 3) [9] .ok] }, host := { (bx 0).host with inProg := [⟨3, 5, 5, 0x21, false, 40, 0x0101, false, .none, 0, 8051, .data []⟩], nextId := 4 } }
theorem wit_signingDone : canonical signing = true ∧ (signing.host.inProg.find? (fun x => x.id == 3)).isSome = true ∧
    (cplOf signing 5).enable = true ∧ (Status.ok ≠ Status.badDescriptor) ∧ (bx 1).belv.queue = .spdm (.doe none) 1 [] false true :: [] := by decide
theorem wit_mrExtend : mgmtOk ⟨3, true, 0, 0, 0, true⟩ (bx 0) = true ∧ mapWf (zeros 48) (bx 0).belv.mr = true ∧ (bx 0).belv.ready = true ∧
    (bx 0).belv.log.length < 512 ∧ (zeros 48).length = 48 := by decide
theorem wit_mrExtend_full : 512 ≤ ({ bx 0 with belv := { (bx 0).belv with log := List.replicate 512 [] } } : State).belv.log.length :=
  Nat.le_of_eq List.length_replicate.symm
set_option maxRecDepth 4000 in
/-- An MCTP source: tag 3, association 0. -/
def mc3 : SpdmPort := .mctp ⟨3, 0⟩ none
set_option maxRecDepth 4000 in
theorem wit_spdm : spdmOpen (.doe none) (bx 15) = true ∧ spdmOpen mc3 (bx 15) = true ∧ spdmSigns mc3 (bx 15) = true ∧ (bx 15).belv.queue.length < 16 ∧
    offered (bx 15) 0 = true ∧ offered (bx 15) 1 = false ∧ testBit (leAt [0x80] 0 4) 7 = true ∧ testBit (leAt [0x7f] 0 4) 7 = false ∧
    summaryHash (bx 15) 0 = some [] ∧ summaryHash (bx 15) 2 = none ∧ measValue (bx 15) [] 16 = some (zeros 48) ∧
    measValue (bx 15) [] 0x21 = some [] ∧ spdmSupported 0x85 = false ∧ maxSessions (bx 15) = 4 := by decide
theorem wit_getCertificate (b : Byte) (h : Config.rootCertificate (trustAnchor { bx 0 with logv := { recs := [⟨6, 1, [2, 0, 0, 0]⟩, ⟨6, 2, [3, 0, 0, 0]⟩] } }) = [b]) :
    0 < (servedChain { bx 0 with logv := { recs := [⟨6, 1, [2, 0, 0, 0]⟩, ⟨6, 2, [3, 0, 0, 0]⟩] } } 0).length := by
  have e : storedChain { bx 0 with logv := { recs := [⟨6, 1, [2, 0, 0, 0]⟩, ⟨6, 2, [3, 0, 0, 0]⟩] } } (slotLevels 0) =
      some (Config.rootCertificate (trustAnchor { bx 0 with logv := { recs := [⟨6, 1, [2, 0, 0, 0]⟩, ⟨6, 2, [3, 0, 0, 0]⟩] } }) ++ []) := by
    unfold storedChain
    rw [show allSome ((slotLevels 0).map (identityCert { bx 0 with logv := { recs := [⟨6, 1, [2, 0, 0, 0]⟩, ⟨6, 2, [3, 0, 0, 0]⟩] } })) = some [[], []] by decide]
    rfl
  simp only [servedChain, e, h, Option.getD_some, List.append_nil, List.length_append, List.length_cons, List.length_nil]
  omega
/-- A session begun on DOE. -/
def session : State := { bx 0 with
  belv := { (bx 0).belv with sessions := [{ port := .doe, id := 5, slot := 3248, up := false, last := 0 }] }
  orng := { ready := true, slots := [(3248, { state := .active, attr := attrDerive, len := 48, active := mkHalf 3248 0 [4] 3 })] } }
/-- Whether a key is a point is uninterpreted (log 11). -/
theorem wit_keyExchange (x : Bytes) (h : Config.ecdhShared (drbg 48 (spdmHeard (.doe none) session)).1 [4] = some x) : spdmSigns (.doe none) session = true ∧
    ((spdmHeard (.doe none) session).belv.sessions.filter (fun x => decide (x.port = .doe))).length < maxSessions session ∧
    Config.ecdhShared (drbg 48 (spdmHeard (.doe none) session)).1 [4] = some x ∧ (∀ x ∈ (spdmHeard (.doe none) session).belv.sessions, x.port = .doe → x.id ≠ 6) ∧
    (spdmHeard (.doe none) session).belv.sessions.find? (fun y => decide (y.port = .doe) && y.id == 5) =
      some { port := .doe, id := 5, slot := 3248, up := false, last := 0 } ∧
    (∀ x ∈ (spdmHeard mc3 session).belv.sessions, ¬ (x.port = .mctp ∧ x.id = 5)) ∧ canonical (spdmHeard (.doe none) session) = true ∧
    runningDg session = [] ∧ session.orng.loads = [] := by
  refine ⟨by decide, by decide, h, by decide, by decide, by decide, by decide, rfl, rfl⟩
set_option maxRecDepth 100000 in
/-- Its secret's slot passes its codes; the next working slot is free. -/
theorem wit_session_slots : deviceKey 3248 session = some (halfKey (mkHalf 3248 0 [4] 3) 48) ∧
    (freeWorking 2 (spdmHeard (.doe none) session)).length = 2 ∧ freeWorking 1 (spdmHeard (.doe none) session) = [3249] ∧
    numbersLeft (.doe none) session = true ∧ numbersLeft (.doe (some 5)) session = true ∧ spdmReaches (.doe (some 5)) session = true := by
  decide +kernel
theorem wit_keyExchange_limit : let s : State := { session with belv := { session.belv with maxSess := 1 } }
    maxSessions s ≤ ((spdmHeard (.doe none) s).belv.sessions.filter (fun x => decide (x.port = .doe))).length ∧ spdmSigns (.doe none) s = true := by decide
/-- A session that is not established does not serve a secured request; one that is does. -/
theorem wit_spdm_session : sessionServed (.doe (some 5)) (spdmHeard (.doe (some 5)) session) = false ∧ spdmReaches (.doe (some 5)) session = true ∧
    spdmOpen (.doe (some 5)) { session with belv := { session.belv with sessions := [{ port := .doe, id := 5, slot := 3248, up := true, last := 0 }] } } = true := by decide
theorem wit_spdm_closed : let s : State := { bx 0 with belv := { ready := true, publicOnly := true } }
    spdmOpen (.doe none) s = true ∧ spdmReaches (.doe none) {} = true ∧ ({} : State).belv.ready = false ∧ spdmReaches mc3 { bx 0 with belv := {} } = true ∧
    (let z := { bx 0 with orng := { zeroized := true } }; spdmReaches mc3 z = true ∧ activationPending z = false ∧ z.belv.ready = true) ∧
    tagBusy { bx 0 with mgmt := [⟨3, 0x10, .none⟩] } 3 = true := by decide
/-- The alias keys in their slots. -/
def aliased : State := { bx 0 with orng := { ready := true, slots := [(4, { state := .active, attr := attrEnc, len := 48, active := mkHalf 4 0 [4] 3 }), (5, { state := .active, attr := attrEnc, len := 32, active := mkHalf 5 0 [4] 3 })] } }
theorem wit_signReady : signReady aliased = true ∧ sealStatus (bx 15) 40 = .ok ∧ canonical aliased = true := by
  have a : halfOk 4 0 (slotOf aliased 4).active = true := by decide +kernel
  have b : halfOk 5 0 (slotOf aliased 5).active = true := by decide +kernel
  have c : (slotOf aliased 4).state = .active := by decide
  have d : (slotOf aliased 5).state = .active := by decide
  refine ⟨by simp [signReady, deviceKey, a, b, c, d], by decide, by decide⟩
theorem wit_doe : roomAt {} 0 = true ∧ (bx 0).belv.ready = true ∧ (2 : Byte).toNat ≤ 2 ∧ (bx 0).host.doe.busy = false := by decide
/-- Both flash record keys stand in the vault. -/
def recordKeys : Orng := { slots := [14, 15].map (fun n => (n, { state := .active, len := 48, active := mkHalf n 0 [1] 0 })) }
/-- Management served: every gate open, the running slot `slot`, records of the log as given. -/
def up14 (slot : Nat) (rs : List LogRec) : State :=
  { tick := 250000000, gates := 0xff, belv := { ready := true }, boot := { phase := 5, slot := some slot, seq := 9, trial := true }, logv := { half := some 0, pos := 0x2000, next := 9, recs := rs }, updt := { gens := [(0, 3), (1, 4)] }, otp := { sensed := true }, band := { assocs := [(0, some 250000000)] }, orng := recordKeys }
/-- The header of a command on slot 1 with its generation. -/
def hdr1 (g : BitVec 16) : MgmtHdr := ⟨3, true, 1, g, 0, true⟩
/-- Whether a chain verifies is uninterpreted (log 11). -/
theorem wit_dtlsHandshake (e : Bytes) (hs : State) (hm : hs = { up14 1 [] with otp := { region := 0x10 }, band := { assocs := [(0, some 4)] }, orng := { slots := [(4, { state := .active, len := 48, active := mkHalf 4 0 [1] 0 })] } })
    (hc : peerChain (mgmtAnchor hs) [] = some e) (hv : Config.ecdsaVerify e [] [] = true) :
    onlyBooting hs = false ∧ peerTrusted [] [] [] hs = true ∧ (⟨0xC04E, []⟩ : DtlsHello).port = udpPort hs ∧ activeAssocs hs < maxAssocs hs ∧
    (∃ k, k < maxAssocs hs ∧ mapGet none hs.band.assocs k = none) := by
  refine ⟨by subst hm; decide, ?_, by subst hm; decide, by subst hm; decide, 1, by subst hm; decide, by subst hm; decide⟩
  simp only [peerTrusted, hc, hv, show mgmtComplete hs = true by subst hm; decide, Bool.and_self]
theorem wit_handshake_key : (deviceKey 4 { up14 1 [] with otp := { region := 0x10 }, band := { assocs := [(0, some 4)] }, orng := { slots := [(4, { state := .active, len := 48, active := mkHalf 4 0 [1] 0 })] } }).isSome = true ∧
    deviceKey 4 (up14 1 []) = none ∧ (⟨5, []⟩ : DtlsHello).port ≠ udpPort (up14 1 []) ∧ udpPort { up14 1 [] with band := { port := 7 } } = 7 := by decide +kernel
theorem wit_mctpMessageTimeout : lateStatus ⟨⟨3, 0⟩, 0, 8, 4⟩ (up14 1 []) = some .lengthShort ∧ lateStatus ⟨⟨3, 0⟩, 0, 4, 8⟩ (up14 1 []) = some .lengthLong ∧
    lateStatus ⟨⟨3, 0⟩, 1, 8, 4⟩ (up14 1 []) = none ∧ tagBusy (up14 1 []) 3 = false := by decide
theorem wit_handshake_refused : (up14 1 []).boot.phase ≠ 7 ∧ peerTrusted [] [] [] (up14 1 []) = false ∧ onlyBooting (up14 1 []) = false ∧ onlyBooting {} = true ∧
    mapGet none ({ up14 1 [] with band := { assocs := [(3, some 0)] } } : State).band.assocs 3 = some 0 ∧
    (let s : State := { tick := 15000000000 }; 0 + 15000000000 ≤ s.tick) := by decide
theorem wit_mgmt14 : mgmtOk (hdr1 4) (up14 1 []) = true ∧ mgmtOpcodes.contains 0x52 = false ∧ mgmtOpcodes.contains 0xff = false := by decide
theorem wit_keygenEpoch (chain sig e d : Bytes) (_hc : chainVerify (trustAnchor (up14 1 [])) chain = some (e, d)) (hk : Config.keygenRole chain = true)
    (he : Config.ecdsaVerify e (epochMessage (up14 1 [])) (slice sig 0 96) = true)
    (hd : Config.mldsaVerify d (epochMessage (up14 1 [])) (slice sig 96 4627) = true) :
    (Config.keygenRole chain && Config.ecdsaVerify e (epochMessage (up14 1 [])) (slice sig 0 96) &&
      Config.mldsaVerify d (epochMessage (up14 1 [])) (slice sig 96 4627)) = true ∧ otpReady sup (up14 1 []) = true ∧
    (up14 1 []).otp.state < 4 ∧ arrayLocked (up14 1 []) 63 = false := by
  refine ⟨by simp only [hk, he, hd, Bool.and_self], by decide, by decide, by decide⟩
theorem wit_keygenEpoch_value : thermoNow (up14 1 []) 3 < 128 := by decide +kernel
/-- A context whose tenant lets its memory be read. -/
def readable : State := { up14 1 [] with ctxs := [(254, { state := .drained, gen := 7, privSet := true, consent := some { scope := 2, expiry := 250000000, nonce := [] } })] }
theorem wit_ctxMemoryRead : mgmtOk ⟨3, true, 254, 7, 0, true⟩ readable = true ∧ (ctxOf readable 254).gen = 7 ∧
    memoryReadAllowed readable 254 0 = true ∧ memoryReadAllowed readable 254 3 = false := by decide
/-- Slot 1 is VALID with sequence 9 and no CONFIRM. -/
def trialRec : LogRec := ⟨1, 5, slotPayload 1 2 9 []⟩
set_option maxRecDepth 20000 in
theorem wit_settingsWrite : mgmtOk (hdr1 4) (up14 1 []) = true ∧ canonical (up14 1 []) = true ∧ slotInTrial (up14 1 []) 0 = false ∧
    slotInTrial (up14 1 []) 1 = false ∧ activationPending (up14 1 []) = false ∧ gateOpen (up14 1 []) 6 = true ∧ logRoom (up14 1 []) = true ∧
    slotInTrial (up14 1 [trialRec]) 1 = true ∧ recordStatus (up14 1 []) = none ∧ ([] : Bytes).length ≤ 65523 ∧
    recordStatus { up14 1 [] with orng := {} } = some .notPermitted := by decide +kernel
set_option maxRecDepth 20000 in
theorem wit_updtConfirm : namesSlot (hdr1 4) 1 (up14 1 [trialRec]) = true ∧ logRoom (up14 1 [trialRec]) = true ∧ (up14 1 [trialRec]).boot.seq < 2 ^ 64 ∧
    slotInTrial (up14 1 [trialRec]) 1 = true ∧ pendingActivation (up14 1 [trialRec]) = none ∧ (up14 0 [trialRec]).boot.slot ≠ some 1 ∧
    namesSlot (hdr1 4) 1 (up14 0 [⟨1, 5, slotPayload 1 1 9 []⟩]) = true ∧ slotRecord (up14 0 [⟨1, 5, slotPayload 1 1 9 []⟩]) 1 = some (1, 9, zeros 48) ∧
    (3 : BitVec 16) ≠ mapGet 0 (up14 1 [trialRec]).updt.gens 1 := by decide
set_option maxRecDepth 20000 in
/-- The activation asked for a confirmation after one second. -/
theorem wit_autoConfirmExpiry : let s := up14 1 [trialRec, ⟨5, 6, activationPayload 1 9 [] true 1 0 none⟩]
    autoConfirm s = some 1 ∧ slotInTrial s 1 = true ∧ s.boot.readyAt + 250000000 * 1 ≤ s.tick ∧ logRoom s = true ∧ s.boot.seq < 2 ^ 64 ∧ s.dies = [] ∧
    autoConfirm (up14 1 [trialRec]) = none := by decide
set_option maxRecDepth 20000 in
theorem wit_icmpv6Request : gateOpen State.reset 3 = false ∧ gateOpen (up14 1 []) 3 = true ∧ ownAddress (linkLocal (up14 1 [])) (up14 1 []) = true ∧
    ownAddress 1 (up14 1 []) = false ∧ mapGet none (up14 1 []).band.assocs 0 ≠ none ∧ mapGet none (up14 1 []).band.assocs 3 = none ∧
    (up14 1 []).pav.supply = none ∧ onlyBooting (up14 1 []) = false := by decide +kernel
/-- An update in progress with an image, phase and declared size. -/
def upd (x : Update) : State := { up14 0 [] with updt := { current := some x }, dgst := { enabled := true }, flash := slotBytes 0x4000050 [0, 0] }
theorem wit_pldm : pldmOk ⟨7, 0⟩ (up14 1 []) = true ∧ (up14 1 []).updt.current = none ∧ slotInTrial (up14 1 []) 0 = false ∧
    activationPending (up14 1 []) = false ∧ otherValid (up14 1 []) = false ∧ gateOpen (up14 1 []) 6 = true ∧ pldmCommands.contains 0x7f = false ∧
    slotInTrial (up14 1 [trialRec]) 1 = true ∧ pldmOk ⟨7, 0⟩ (upd { tag := 7 }) = true ∧ stagedImage (up14 1 []) = none := by decide
theorem wit_firmwareData : let x : Update := { tag := 7, size := some 5, image := [1, 2], phase := 1 }
    (upd x).updt.current = some x ∧ pldmOk ⟨7, 0⟩ (upd x) = true ∧ headerStatus [1, 2] [1, 2, 3] (upd x) = .ok ∧
    deltaStatus [1, 2] [1, 2, 3] (upd x) = .ok ∧ [3].length ≤ 4096 ∧ [1, 2].length + [3].length < 5 ∧ 5 < [1, 2].length + (zeros 4).length := by decide
/-- The delta header of a full image without operations. -/
def fullDelta : Bytes := ascii "OCNX" ++ [1, 0] ++ zeros 122
set_option maxRecDepth 4000 in
theorem fullDelta_length : fullDelta.length = 128 ∧ (fullDelta.take 127).length = 127 ∧ fullDelta.take 127 ++ [0] = fullDelta ∧ (zeros 128).length = 128 := by decide
/-- A header's worth of bytes. -/
def pre : Bytes := List.replicate 32768 0
theorem pre_length : pre.length = 32768 := List.length_replicate
/-- An image up to its last byte. -/
def almost : Bytes := pre ++ fullDelta.take 127
theorem almost_end : almost ++ [0] = pre ++ fullDelta := by
  rw [almost, List.append_assoc, fullDelta_length.2.2.1]
theorem wit_image_lengths : almost.length = 32895 ∧ (almost ++ [0]).length = 32896 := by
  constructor <;> simp only [almost, List.length_append, pre_length, fullDelta_length.2.1, List.length_cons, List.length_nil, Nat.reduceAdd]
theorem headerOk_zero (l : Bytes) : headerOk (0 :: l) = false := by
  have h : decide (slice (0 :: l) 0 4 = ascii "OCNH") = false := by
    simp only [decide_eq_false_iff_not]
    intro e
    have := congrArg List.head? e
    simp [slice, fit] at this
    revert this
    decide
  simp only [headerOk, h, Bool.false_and]
/-- The header of an image of zeros is refused when its last byte arrives; one already judged is not judged again. -/
theorem wit_image (l new : Bytes) (s : State) (hl : l.length = 32766) : headerStatus (0 :: l) (0 :: l ++ [5]) s = .updtHeaderReject ∧
    headerStatus pre new s = .ok := by
  constructor
  · unfold headerStatus
    rw [if_pos (by simp [hl])]
    have e : (0 :: l ++ [5]).take 32768 = 0 :: (l ++ [5]) := by
      rw [List.take_of_length_le (by simp [hl])]; rfl
    simp only [e, updateHeaderCheck, headerOk_zero, Bool.not_false, if_true]
  · unfold headerStatus
    rw [if_neg (by simp [pre_length])]
theorem deltaHead_pre (d : Bytes) (h : d.length = 128) : deltaHead (pre ++ d) = d := by
  simp [deltaHead, slice, fit, List.drop_left' pre_length, zeros, List.take_of_length_le (Nat.le_of_eq h), h]
set_option maxRecDepth 4000 in
/-- A delta header of zeros is refused. -/
theorem wit_delta (s : State) : deltaStatus pre (pre ++ zeros 128) s = .badDescriptor := by
  unfold deltaStatus
  rw [if_pos (by simp [pre_length, zeros]), deltaHead_pre _ fullDelta_length.2.2.2]
  unfold deltaCheck
  rw [if_pos (by decide)]
set_option maxRecDepth 4000 in
theorem wit_image_complete (s : State) : headerStatus almost (almost ++ [0]) s = .ok ∧ deltaStatus almost (almost ++ [0]) s = .ok ∧
    deltaOps (almost ++ [0]) s = .ok [] := by
  refine ⟨?_, ?_, ?_⟩
  · unfold headerStatus
    rw [if_neg (by simp [wit_image_lengths.1])]
  · unfold deltaStatus
    rw [if_pos (by rw [wit_image_lengths.1, wit_image_lengths.2]; decide), almost_end, deltaHead_pre _ fullDelta_length.1]
    have h1 : ¬ (slice fullDelta 0 4 ≠ ascii "OCNX" ∨ leAt fullDelta 4 2 ≠ 1 ∨ leAt fullDelta 6 2 ≥ 2 ∨ allZero (slice fullDelta 80 48) = false) := by decide
    have h2 : deltaFull fullDelta = true := by decide
    have h3 : ¬ (32768 + deltaTarget fullDelta > slotSize) := by decide
    unfold deltaCheck
    rw [if_neg h1, if_neg (by simp [h2]), if_neg h3]
  · have hd : (pre ++ fullDelta).drop 32896 = [] := List.drop_eq_nil_of_le (by simp [pre_length, fullDelta_length.1])
    have h0 : leAt fullDelta 12 4 = 0 := by decide
    have ht : deltaTarget fullDelta = 0 := by decide
    simp only [deltaOps, almost_end, deltaHead_pre _ fullDelta_length.1, hd, h0, ht, parseDelta, List.isEmpty_nil, if_true, List.map_nil,
      List.foldl_nil, Nat.lt_irrefl, if_false]
theorem wit_upd : canonical (upd { tag := 7 }) = true ∧ logRoom (upd { tag := 7 }) = true := by decide
theorem wit_firmwareDataTimeout : let x : Update := { tag := 7, size := some 5, phase := 1 }
    (let s : State := { tick := 2500000000, updt := { current := some x } }; x.last + 2500000000 ≤ s.tick) ∧ x.size.isSome = true ∧ x.phase < 3 := by decide
set_option maxRecDepth 20000 in
theorem wit_stagingDone : let s := upd { tag := 7, phase := 3 }
    otherSlot s = 1 ∧ partsOf (slotHeader s 1) = [] ∧ recordStatus s = none ∧ s.boot.slot.getD 0 ≤ 1 ∧ s.dgst.enabled = true := by decide +kernel
/-- Whether a format differs is uninterpreted (log 47). -/
theorem wit_newFormat (b : Bytes) (h : Config.settingsFor [] [] = some b) :
    newFormat [] { up14 0 [] with boot := { slot := some 0, settings := some [] } } = some (b.take 262144) := by
  simp only [newFormat, Option.bind_some, h, Option.map_some]
/-- The other slot holds one empty part with a digest of zeros. -/
def badPart : State := { up14 1 [] with flash := onePart 2 [], dgst := { enabled := true }, updt := { current := some { tag := 7, phase := 3 } } }
set_option maxRecDepth 20000 in
theorem wit_stagingDone_bad : otherSlot badPart = 0 ∧ (partsOf (slotHeader badPart 0)).map (fun p => (imgPartBytes badPart 0 p, p.digest)) =
    [([], zeros 48)] := by decide +kernel
theorem wit_stagingDone_digest : sha384 [] ≠ zeros 48 := by rw [test_sha384_empty]; exact emptySha_ne
/-- Slot 1 is STAGED. -/
def stagedRec : LogRec := ⟨1, 5, slotPayload 1 1 9 []⟩
set_option maxRecDepth 20000 in
theorem wit_activateFirmware : stagedImage (up14 0 [stagedRec]) = some (1, 9, zeros 48) ∧ pldmOk ⟨7, 0⟩ (up14 0 [stagedRec]) = true ∧
    (up14 0 [stagedRec]).updt.activating = false ∧ (up14 0 [stagedRec]).ctxs = [] ∧ logRoom (up14 0 [stagedRec]) = true ∧
    (({ up14 0 [stagedRec] with ctxs := [(4, { state := .keyed })] } : State).ctxs.any (fun e => e.2.state != .free)) = true ∧
    recordStatus (up14 0 [stagedRec]) = none ∧ recordStatus { up14 0 [stagedRec] with orng := {} } = some .notPermitted := by decide +kernel
set_option maxRecDepth 20000 in
/-- A syndrome of each kind: none, a column, one check bit, two check bits. -/
theorem wit_otp_syndromes : let syn := fun w : BitVec 40 => otpParity (otpData w) ^^^ otpCheck w ^^^ 0x5a
    syn (otpEncode 5) = 0 ∧ syn (otpEncode 5 ^^^ (1#40 <<< 31)) = otpColumn 31 ∧ syn (otpEncode 5 ^^^ (1#40 <<< 39)) = 1#8 <<< 7 ∧
    (syn (otpEncode 5 ^^^ 0xc000000000) ≠ 0 ∧ (∀ k < 32, syn (otpEncode 5 ^^^ 0xc000000000) ≠ otpColumn k) ∧
      (∀ j < 8, syn (otpEncode 5 ^^^ 0xc000000000) ≠ 1#8 <<< j)) := by decide +kernel
theorem wit_otp_pulse : let s : State := { otp := { cmd := some ⟨[(80, otpEncode 5)], 0, .command, .none⟩ } }
    canonical s = true ∧ arrayWord s 80 = 0 ∧ s.otp.repairAt = none ∧ s.otp.cmd = some ⟨[(80, otpEncode 5)], 0, .command, .none⟩ := by decide +kernel
theorem wit_lock16 : canonical (otx policySet) = true ∧ otpReady sup (otx policySet) = true ∧ arrayLocked (otx policySet) (otpRegion 1).lock = false ∧
    (otx policySet).otp.state = 0 := by decide +kernel
theorem wit_kcv16 : ox.orng.zeroized = false ∧ gateOpen ox 0 = true ∧ opensSet 3248 = false ∧ (slotOf ox 3248).state = .active ∧ ctxSlot 1 0 = 448 ∧
    (slotOf ox 448).state = .active ∧ (slotOf ox 448).len = 64 ∧ (slotOf ox 449).state = .active ∧ (slotOf ox 449).len = 32 ∧ groupSlot 255 = 2990 ∧
    opensSet 2990 = true ∧ opensSet (ctxSlot 254 0) = true := by decide
end Sys2Proof.Tests
end

section
/-! PROOF. Register writes: the path of a write by its master and offset, what each part's fields take, and the refusal of a
write out of reach (20_register_index.md). -/

namespace Sys2Proof.RegisterWrites

open Sys2Proof Sys2Proof.Machine Sys2Proof.Laws

/-! ## Parts of the window (Table REGS-1) -/

theorem partOf_otp {off : Nat} (lo : 0x40000 ≤ off) (hi : off < 0x50000) : partOf off = .otp := by
  unfold partOf; grind
theorem partOf_link {off : Nat} (lo : 0xA0000 ≤ off) (hi : off < 0xC0000) : partOf off = .link := by
  unfold partOf; grind
theorem partOf_pergola {off : Nat} (lo : 0xD0000 ≤ off) (hi : off < 0xE0000) : partOf off = .pergola := by
  unfold partOf; grind
theorem partOf_spill {off : Nat} (lo : 0xE0000 ≤ off) (hi : off < 0xF0000) : partOf off = .spill := by
  unfold partOf; grind
theorem partOf_host {off : Nat} (lo : 0x100000 ≤ off) (hi : off < 0x140000) : partOf off = .host := by
  unfold partOf; grind
theorem partOf_lodge {off : Nat} (lo : 0x150000 ≤ off) (hi : off < 0x170000) : partOf off = .lodge := by
  unfold partOf; grind
theorem lt_of_partOf_lodge {off : Nat} (h : partOf off = .lodge) : off < 0x170000 := by
  by_contra hi
  unfold partOf at h; grind

/-- The master of a Lodge window or Pergola slice is never control firmware. -/
theorem five_le_ownLodge (off : Nat) : 5 ≤ ownLodge off := by
  unfold ownLodge; split <;> omega

/-- The four control-firmware masters reach the same offsets (R416). -/
theorem writeReach_firmware {m : Nat} (off : Nat) (h1 : 1 ≤ m) (h4 : m ≤ 4) : writeReach m off = writeReach 1 off := by
  have hf : isFirmware m = true := by simp [isFirmware, h1, h4]
  have hm : m ≠ ownLodge off := by have := five_le_ownLodge off; omega
  have hw : 1 ≠ ownLodge off := by have := five_le_ownLodge off; omega
  have h37 : m ≠ 37 := by omega
  have h0 : m ≠ 0 := by omega
  have h36 : m ≤ 36 := by omega
  have hf1 : isFirmware 1 = true := rfl
  unfold writeReach
  cases partOf off <;> simp [hf, hf1, hm, hw, h4, h0, h36]

theorem among_iff {off : Nat} {xs : List Nat} : among off xs = true ↔ off ∈ xs := by simp [among]

/-! ## The path of a write -/

/-- A write by master `m` comes to the fields of the part that `off` lies in. -/
def reachesFields (m off : Nat) : Bool := decide (off % 4 = 0) && listedReg off && !ownCommand off && writeReach m off

theorem reachesFields_firmware {m : Nat} (off : Nat) (h1 : 1 ≤ m) (h4 : m ≤ 4) : reachesFields m off = reachesFields 1 off := by
  simp only [reachesFields, writeReach_firmware off h1 h4]

theorem exec_registerWrite (m : Fin 39) (off : BitVec 24) (v : Word) (s : State) :
    exec (.registerWrite m off v) s = .next (registerWriteEffect m.val off.toNat v s) := rfl

/-- Within reach a guarded write takes effect; the host target port needs its gate. -/
theorem guardWrite_reached {m off : Nat} {k : State → State} {s : State} (hr : writeReach m off = true)
    (hm : m ≠ 37 ∨ gateOpen s 2 = true) : guardWrite m off k s = k s := by
  unfold guardWrite
  rw [if_neg (by rintro ⟨h37, -, hg⟩; simp_all), if_pos hr]

/-- Out of reach a guarded write is refused. -/
theorem guardWrite_refused {m off : Nat} {k : State → State} {s : State} (hr : writeReach m off = false) :
    guardWrite m off k s = refuseWrite m off s := by
  unfold guardWrite
  split
  next h => simp [refuseWrite, h.1]
  next => simp [hr]

theorem exec_registerWrite_fields {m : Fin 39} {off : BitVec 24} {n : Nat} {v : Word} {s : State} (hn : off.toNat = n)
    (h : reachesFields m.val n = true) (hm : m.val ≠ 37 ∨ gateOpen s 2 = true) :
    exec (.registerWrite m off v) s = .next (fieldWrite n v s) := by
  simp only [reachesFields, Bool.and_eq_true, decide_eq_true_eq, Bool.not_eq_true'] at h
  obtain ⟨⟨⟨ha, hl⟩, ho⟩, hr⟩ := h
  rw [exec_registerWrite, hn, registerWriteEffect, if_neg (by simp [ha, hl]), if_neg (by simp [ho]), guardWrite_reached hr hm]

theorem exec_registerWrite_firmware {m : Fin 39} {off : BitVec 24} {n : Nat} {v : Word} {s : State} (h1 : 1 ≤ m.val)
    (h4 : m.val ≤ 4) (hn : off.toNat = n) (h : reachesFields 1 n = true) :
    exec (.registerWrite m off v) s = .next (fieldWrite n v s) :=
  exec_registerWrite_fields hn (by rwa [reachesFields_firmware n h1 h4]) (.inl (by omega))

/-- A register whose commands have rows of their own, written within reach: only a reserved OP has an effect. -/
theorem exec_registerWrite_own {m : Fin 39} {off : BitVec 24} {n : Nat} {v : Word} {s : State} (hn : off.toNat = n)
    (hl : listedReg n = true) (ha : n % 4 = 0) (ho : ownCommand n = true) (hr : writeReach m.val n = true) (hm : m.val ≠ 37) :
    exec (.registerWrite m off v) s = .next (
      if n = 0x80088 ∧ refusedOp v = true then refuseLock s
      else if n = 0x40008 ∧ refusedOp v = true then otpCommand .none (otpStatus .notPermitted .none) s
      else s) := by
  rw [exec_registerWrite, hn, registerWriteEffect, if_neg (by simp [ha, hl]), if_pos ho, ownWrite, guardWrite_reached hr (.inl hm)]

/-- OP 0, 6 and 7 are reserved in FENC_LOCK_CMD and OTPC_CMD. -/
theorem refusedOp_of_reserved {v : Word} (hv : v.toNat % 8 = 0 ∨ v.toNat % 8 = 6 ∨ v.toNat % 8 = 7) : refusedOp v = true := by
  simpa [refusedOp, among] using hv

/-- A command that the OTP controller takes is judged by its own meaning. -/
theorem otpCommand_ready {w : Waiter} {k : State → State} {s : State} (hg : gateOpen s 5 = true) (ht : s.pav.tamper = false)
    (hc : s.otp.cmd = none) : otpCommand w k s = k s := by
  simp [otpCommand, hg, ht, hc]

/-- A write out of reach is refused, whether the register has a command of its own or not (R418). -/
theorem registerWriteEffect_refused {m off : Nat} {v : Word} {s : State} (hr : writeReach m off = false) :
    registerWriteEffect m off v s = if off % 4 ≠ 0 ∨ listedReg off = false then s else refuseWrite m off s := by
  unfold registerWriteEffect ownWrite
  split
  next => rfl
  next => split <;> exact guardWrite_refused hr

/-- The host target port and the test access port post no record (R382, R423). -/
theorem refuseWrite_port {m off : Nat} {s : State} (hm : 37 ≤ m) : refuseWrite m off s = s := by
  simp [refuseWrite, hm]

/-- The owner of a listed Pergola slice or Lodge window is one of the 32 Lodges, or none. -/
theorem ownLodge_ne_tap {off : Nat} (hl : listedReg off = true) : ownLodge off ≠ 38 := by
  unfold ownLodge
  split
  next h => have := lt_of_partOf_lodge h; omega
  next h =>
    simp only [listedReg, h, Bool.and_eq_true, decide_eq_true_eq] at hl
    omega
  next => omega

/-- The test access port reaches no listed register. -/
theorem writeReach_tap {off : Nat} (hl : listedReg off = true) : writeReach 38 off = false := by
  have hown : ¬ 38 = ownLodge off := fun h => ownLodge_ne_tap hl h.symm
  unfold writeReach
  cases partOf off <;> simp [isFirmware, hown]

/-- A refused write of a unit that has posted none for 1 ms is one NOT_PERMITTED record at queue 0, and no other effect (R418). -/
theorem refuseWrite_recorded {m off : Nat} {s : State} (hm : m ≤ 36) (hr : roomAt s 0 = true) (hc : canonical s = true)
    (ht : mapGet 0 s.pav.notPerm m ≤ s.tick) :
    let t := refuseWrite m off s
    recorded t 0 .notPermitted = true ∧
      t = { s with splq := t.splq, outs := t.outs, pav := { s.pav with notPerm := mapSet 0 s.pav.notPerm m (s.tick + 250000) } } ∧
      (∀ q, q ≠ 0 → qOf t q = qOf s q) := by
  have he : refuseWrite m off s = postFault .notPermitted 2 m (leNat 4 off)
      { s with pav := { s.pav with notPerm := mapSet 0 s.pav.notPerm m (s.tick + 250000) } } := by
    unfold refuseWrite
    rw [if_neg (by omega)]
  simp only [he, postFault]
  refine ⟨recorded_postRecord hc hr ?_, ?_, fun q hq => qOf_postRecord_other hc hr hq⟩
  · simp only [genericRecord, List.append_assoc]
    exact leAt_status _ _
  · rfl

/-! ## Read-only registers -/

/-- No read-only register has a command of its own. -/
theorem ownCommand_readOnly {off : Nat} (h : readOnlyReg off = true) : ownCommand off = false := by
  by_contra ho
  simp only [ownCommand, Bool.not_eq_false, Bool.or_eq_true, Bool.and_eq_true, decide_eq_true_eq] at ho
  obtain ((hx | ⟨hlo, hhi⟩) | ⟨hp, hx⟩) | ⟨hp, hx⟩ := ho
  · simp only [among_iff, List.mem_cons, List.not_mem_nil, or_false] at hx
    obtain rfl | rfl | rfl | rfl | rfl | rfl := hx <;> exact absurd h (by decide)
  · simp [readOnlyReg, partOf_otp (show 0x40000 ≤ off by omega) (by omega)] at h
  · simp only [among_iff, List.mem_cons, List.not_mem_nil, or_false] at hx
    obtain hx | hx | hx | hx := hx <;> simp [readOnlyReg, hp, hx, among] at h
  · simp [readOnlyReg, hp, hx, among] at h

/-- Control firmware reaches every part that has a read-only register. -/
theorem writeReach_readOnly {off : Nat} (h : readOnlyReg off = true) : writeReach 1 off = true := by
  have hf : isFirmware 1 = true := rfl
  unfold readOnlyReg at h
  unfold writeReach
  cases hp : partOf off <;> simp only [hp] at h ⊢
  case lodge =>
    simp only [among_iff, List.mem_cons, List.not_mem_nil, or_false] at h
    rw [if_neg (by omega), hf, Bool.true_or]
  case digest | otp | boot | sundial | reserved => exact absurd h Bool.false_ne_true
  all_goals simp [hf]

/-- A write of a read-only register changes no field. -/
theorem fieldWrite_readOnly {off : Nat} (v : Word) (s : State) (h : readOnlyReg off = true) : fieldWrite off v s = s := by
  unfold readOnlyReg at h
  unfold fieldWrite
  cases hp : partOf off <;> simp only [hp, among_iff, List.mem_cons, List.not_mem_nil, or_false, decide_eq_true_eq,
    Bool.or_eq_true, Bool.and_eq_true, Bool.false_eq_true] at h ⊢
  case pavilion => unfold pavWrite; rw [if_neg (by omega), if_neg (by omega)]
  case orangery => unfold orngWrite; rw [if_neg (by omega), if_neg (by omega)]
  case belvedere => unfold belvWrite; rw [if_neg (by omega), if_neg (by omega)]
  case fence =>
    unfold fenceWrite chanWrite
    rw [if_neg (by omega), if_neg (by omega), if_neg (by omega), if_neg (by omega), if_neg (by omega), if_neg (by omega)]
  case link =>
    unfold linkWrite engineWrite
    split at h <;> simp only [Bool.and_eq_true, decide_eq_true_eq] at h
    next hw => rw [if_pos hw]; rw [if_neg (by omega), if_neg (by omega)]
    next hw => rw [if_neg hw, if_neg (c := off = 0xAC000) (by omega), if_neg (c := off = 0xAC004) (by omega), ite_self]
  case greenhouse =>
    split at h
    next =>
      simp only [Bool.or_eq_true, Bool.and_eq_true, decide_eq_true_eq] at h
      unfold grnhWrite; rw [if_neg (by omega), if_neg (by omega)]
    next => exact absurd h Bool.false_ne_true
  case pergola => unfold pergWrite; simp only []; rw [if_neg (by omega), if_neg (by omega), if_neg (by omega)]
  case spill =>
    unfold splqWrite
    simp only []
    rw [if_neg (by omega), if_neg (c := off % 0x20 = 0) (by omega), if_neg (c := off % 0x20 = 4) (by omega), ite_self]
  case power => unfold powerWrite; rw [if_neg (by omega), if_neg (by omega)]
  case host =>
    unfold hostWrite; simp only []
    rw [if_neg (by omega), if_neg (by omega), if_neg (by omega), if_neg (by omega), if_neg (by omega)]
  case bandstand => unfold bandWrite; rw [if_neg (by omega), if_neg (by omega), if_neg (by omega)]
  case lodge => unfold lodgeWrite; simp only []; rw [if_neg (by omega), if_neg (by omega), if_neg (by omega), if_neg (by omega)]

/-! ## Fields -/

/-- A sticky bit written with one is cleared unless it was set in the same tick (R10). -/
theorem wc_eq (s : State) (v : Word) (i : Nat) (b : Sticky) :
    wc s v i b = if v.getLsbD i && b != some s.tick then none else b := by
  unfold wc w1c wipe
  cases v.getLsbD i <;> by_cases hb : b = some s.tick <;> simp [hb]

theorem fieldWrite_faultStatus (v : Word) (s : State) :
    fieldWrite 0x18 v s = { s with pav := { s.pav with
      stTamper := if v.getLsbD 0 && s.pav.stTamper != some s.tick then none else s.pav.stTamper
      stSupply := if v.getLsbD 1 && s.pav.stSupply != some s.tick then none else s.pav.stSupply
      stWdog := if v.getLsbD 3 && s.pav.stWdog != some s.tick then none else s.pav.stWdog
      stFlogLost := if v.getLsbD 4 && s.pav.stFlogLost != some s.tick then none else s.pav.stFlogLost } } := by
  simp only [← wc_eq]; rfl

theorem fieldWrite_otpStatus (v : Word) (s : State) :
    fieldWrite 0x40000 v s = { s with otp := { s.otp with
      marginal := if v.getLsbD 1 && s.otp.marginal != some s.tick then none else s.otp.marginal
      supplyAbort := if v.getLsbD 3 && s.otp.supplyAbort != some s.tick then none else s.otp.supplyAbort
      verifyFail := if v.getLsbD 4 && s.otp.verifyFail != some s.tick then none else s.otp.verifyFail
      lockRefused := if v.getLsbD 5 && s.otp.lockRefused != some s.tick then none else s.otp.lockRefused } } := by
  simp only [← wc_eq]; rfl

theorem fieldWrite_wdogCfg (v : Word) (s : State) : fieldWrite 0x20 v s = if s.host.everReady then s
    else { s with pav := { s.pav with wdogTicks := v.setWidth 16 } } := by
  change pavWrite 0x20 v s = _
  cases h : s.host.everReady <;> simp [pavWrite, h]

theorem fieldWrite_fenceTopCfg (v : Word) (s : State) : fieldWrite 0x80080 v s = if s.boot.frozen then s
    else { s with fence := { s.fence with addrBits := v.setWidth 6, scrubShare := (v >>> 8).setWidth 4 } } := rfl

theorem fieldWrite_spdmCfg (v : Word) (s : State) : fieldWrite 0x20004 v s = if s.boot.frozen then s
    else { s with belv := { s.belv with maxSess := v.setWidth 3, idleS := (v >>> 8).setWidth 8, slot1En := v.getLsbD 16 } } := by
  change belvWrite 0x20004 v s = _
  cases h : s.boot.frozen <;> simp [belvWrite, h]

theorem fieldWrite_powerCfg (v : Word) (s : State) : fieldWrite 0xF0004 v s = if s.host.everReady then s
    else { s with power := { s.power with
      vmax := v.setWidth 12, vfloor := (v >>> 12).setWidth 12, start := (v >>> 24).setWidth 4 } } := by
  change powerWrite 0xF0004 v s = _
  cases h : s.host.everReady <;> simp [powerWrite, h]

/-! ## Arrays of registers -/

/-- An offset of the window is itself as a word of 24 bits. -/
theorem toNat_offset {n : Nat} (h : n < 2 ^ 24) : (BitVec.ofNat 24 n).toNat = n := by
  rw [BitVec.toNat_ofNat, Nat.mod_eq_of_lt h]

/-- A register of link engine `e` (Table REGS-13). -/
theorem reachesFields_engine {e off : Nat} (he : e < 96) (lo : 0xA0000 + 0x200 * e ≤ off) (hi : off ≤ 0xA0024 + 0x200 * e)
    (ha : off % 4 = 0) : reachesFields 1 off = true := by
  have hp := partOf_link (off := off) (by omega) (by omega)
  simp only [reachesFields, listedReg, ownCommand, writeReach, isFirmware, hp, among]
  simp [ha]
  omega

/-- A register of Pergola slice `d`, for control firmware and for the slice's own Lodge (Table REGS-3). -/
theorem reachesFields_slice {m d off : Nat} (hd : d < 32) (lo : 0xD0000 + 0x100 * d ≤ off) (hi : off ≤ 0xD002C + 0x100 * d)
    (ha : off % 4 = 0) (hm : 1 ≤ m ∧ m ≤ 4 ∨ m = 5 + d) : reachesFields m off = true := by
  have hp := partOf_pergola (off := off) (by omega) (by omega)
  simp only [reachesFields, listedReg, ownCommand, writeReach, isFirmware, ownLodge, hp, among]
  simp [ha]
  omega

/-- A register of spill queue `q` (Table REGS-18). -/
theorem reachesFields_queue {q off : Nat} (hq : q < 320) (lo : 0xE0000 + 0x20 * q ≤ off) (hi : off ≤ 0xE0014 + 0x20 * q)
    (ha : off % 4 = 0) : reachesFields 1 off = true := by
  have hp := partOf_spill (off := off) (by omega) (by omega)
  simp only [reachesFields, listedReg, ownCommand, writeReach, isFirmware, hp, among]
  simp [ha]
  omega

/-- A register of a host page, for control firmware and for the host target port (Table REGS-3). -/
theorem reachesFields_page {m off : Nat} (lo : 0x100000 ≤ off) (hi : off < 0x140000)
    (ho : off % 0x1000 = 0x000 ∨ off % 0x1000 = 0x004 ∨ off % 0x1000 = 0x850)
    (hm : 1 ≤ m ∧ m ≤ 4 ∨ m = 37) : reachesFields m off = true := by
  have hp := partOf_host lo hi
  simp only [reachesFields, listedReg, ownCommand, writeReach, isFirmware, hp, among]
  simp
  omega

/-- LDG_SWITCH_CFG and LDG_PWR_CFG of die `d`, for control firmware and for the die's own Lodge (Table REGS-3). -/
theorem reachesFields_die {m d off : Nat} (hd : d < 32) (ho : off = 0x150100 + 0x1000 * d ∨ off = 0x150200 + 0x1000 * d)
    (hm : 1 ≤ m ∧ m ≤ 4 ∨ m = 5 + d) : reachesFields m off = true := by
  have hp := partOf_lodge (off := off) (by omega) (by omega)
  simp only [reachesFields, listedReg, ownCommand, writeReach, isFirmware, ownLodge, hp, among]
  simp
  rw [if_neg (by omega)]
  omega

theorem fieldWrite_linkClass {e : Nat} (he : e < 96) (v : Word) (s : State) :
    fieldWrite (0xA0024 + 0x200 * e) v s = if s.boot.frozen then s else updEng e (fun x => { x with cls := v.setWidth 2 }) s := by
  have hi : (0xA0024 + 0x200 * e - 0xA0000) / 0x200 = e := by omega
  rw [fieldWrite, partOf_link (by omega) (by omega)]
  simp only [linkWrite, engineWrite, hi]
  rw [if_pos (by omega), if_neg (by omega)]
  cases h : s.boot.frozen
  · rw [if_pos ⟨by omega, rfl⟩]; rfl
  · rw [if_neg (by simp)]; rfl

theorem fieldWrite_pergCfg {d : Nat} (hd : d < 32) (v : Word) (s : State) : fieldWrite (0xD0004 + 0x100 * d) v s =
    updSlice d (fun x => { x with service := v.getLsbD 0, waitTicks := (v >>> 4).setWidth 24 }) s := by
  have hi : (0xD0004 + 0x100 * d - 0xD0000) / 0x100 = d := by omega
  rw [fieldWrite, partOf_pergola (by omega) (by omega)]
  simp only [pergWrite, hi]
  rw [if_neg (by omega), if_pos (by omega)]

theorem fieldWrite_pergSel {d : Nat} (hd : d < 32) (v : Word) (s : State) : fieldWrite (0xD0028 + 0x100 * d) v s =
    updSlice d (fun x => { x with sel := v.setWidth 14 }) s := by
  have hi : (0xD0028 + 0x100 * d - 0xD0000) / 0x100 = d := by omega
  rw [fieldWrite, partOf_pergola (by omega) (by omega)]
  simp only [pergWrite, hi]
  rw [if_neg (by omega), if_neg (by omega), if_pos (by omega)]

theorem fieldWrite_splqCfg {q : Nat} (hq : q < 320) (v : Word) (s : State) : fieldWrite (0xE0000 + 0x20 * q) v s =
    if s.host.everReady then s else updQ q (fun x => { x with midFrames := v.setWidth 6, timeout := (v >>> 8).setWidth 24 }) s := by
  have hi : (0xE0000 + 0x20 * q - 0xE0000) / 0x20 = q := by omega
  rw [fieldWrite, partOf_spill (by omega) (by omega)]
  simp only [splqWrite, hi]
  rw [if_neg (by omega), if_pos (c := (0xE0000 + 0x20 * q) % 0x20 = 0) (by omega)]

theorem fieldWrite_midBase {q : Nat} (hq : q < 320) (v : Word) (s : State) : fieldWrite (0xE0004 + 0x20 * q) v s =
    if s.host.everReady then s else updQ q (fun x => { x with midBase := v.setWidth 19 }) s := by
  have hi : (0xE0004 + 0x20 * q - 0xE0000) / 0x20 = q := by omega
  rw [fieldWrite, partOf_spill (by omega) (by omega)]
  simp only [splqWrite, hi]
  rw [if_neg (by omega), if_neg (c := (0xE0004 + 0x20 * q) % 0x20 = 0) (by omega),
    if_pos (c := (0xE0004 + 0x20 * q) % 0x20 = 4) (by omega)]

theorem fieldWrite_switchCfg {d : Nat} (hd : d < 32) (v : Word) (s : State) : fieldWrite (0x150100 + 0x1000 * d) v s =
    if anyScheduled s then s else updDie d (fun x => { x with bound := v.setWidth 13, saveKib := (v >>> 16).setWidth 12 }) s := by
  have hi : (0x150100 + 0x1000 * d - 0x150000) / 0x1000 = d := by omega
  rw [fieldWrite, partOf_lodge (by omega) (by omega)]
  simp only [lodgeWrite, hi]
  rw [if_pos (by omega)]

theorem fieldWrite_lodgePwrCfg {d : Nat} (hd : d < 32) (v : Word) (s : State) : fieldWrite (0x150200 + 0x1000 * d) v s =
    if s.host.everReady then s else updPwr d (fun x => { x with mLo := v.setWidth 8, mHi := (v >>> 8).setWidth 8 }) s := by
  have hi : (0x150200 + 0x1000 * d - 0x150000) / 0x1000 = d := by omega
  rw [fieldWrite, partOf_lodge (by omega) (by omega)]
  simp only [lodgeWrite, hi]
  rw [if_neg (by omega), if_neg (by omega), if_pos (by omega)]

theorem fieldWrite_ctxSel {page : Nat} (hp : page < 64) (v : Word) (s : State) : fieldWrite (0x100850 + 0x1000 * page) v s =
    { s with host := { s.host with ctxSel := v.setWidth 8 } } := by
  rw [fieldWrite, partOf_host (by omega) (by omega)]
  simp only [hostWrite]
  rw [if_neg (by omega), if_neg (by omega), if_neg (by omega), if_neg (by omega), if_pos (by omega)]

/-- A master of a host page is control firmware, or the host target port with its gate open. -/
theorem portGate {m : Nat} {s : State} (hm : 1 ≤ m ∧ m ≤ 4 ∨ m = 37 ∧ gateOpen s 2 = true) : m ≠ 37 ∨ gateOpen s 2 = true :=
  hm.imp (fun h => by omega) (fun h => h.2)

/-! ## A ring's base while the ring is enabled -/

section
variable {α : Type} {d : α} {m : NMap α} {k : Nat}

theorem mapErase_of_default (hd : ∀ e ∈ m, e.2 ≠ d) (hk : mapGet d m k = d) : mapErase m k = m := by
  induction m with
  | nil => rfl
  | cons e m ih =>
    obtain ⟨k', v⟩ := e
    have hv : v ≠ d := hd (k', v) (by simp)
    unfold mapErase
    unfold mapGet at hk
    split at hk
    next => exact absurd hk hv
    next h =>
      rw [if_neg h]
      split at hk
      next h' => rw [if_pos h']
      next h' => rw [if_neg h', ih (fun e he => hd e (by simp [he])) hk]

theorem mapPut_mapGet_self (hk : mapGet d m k ≠ d) : mapPut m k (mapGet d m k) = m := by
  induction m with
  | nil => exact absurd rfl hk
  | cons e m ih =>
    obtain ⟨k', v⟩ := e
    unfold mapGet at hk ⊢
    unfold mapPut
    split at hk
    next h => simp [h]
    next h =>
      split at hk
      next => exact absurd rfl hk
      next h' => simp [h, h', ih hk]

/-- A change that leaves the element as it is leaves a canonical map as it is. -/
theorem mapMod_fixed [DecidableEq α] {f : α → α} (hm : mapWf d m = true) (hf : f (mapGet d m k) = mapGet d m k) :
    mapMod d m k f = m := by
  simp only [mapWf, Bool.and_eq_true, List.all_eq_true, decide_eq_true_eq] at hm
  rw [mapMod, hf, mapSet]
  split
  next h => exact mapErase_of_default hm.2 h
  next h => exact mapPut_mapGet_self h

end

/-- A command ring's base does not change while the ring is enabled (R383). -/
theorem fieldWrite_ringBase {page off : Nat} (hp : page < 64) (ho : off = 0x100000 + 0x1000 * page ∨ off = 0x100004 + 0x1000 * page)
    (v : Word) {s : State} (he : (ringOf s page).enable = true) (hc : canonical s = true) : fieldWrite off v s = s := by
  have hi : (off - 0x100000) / 0x1000 = page := by omega
  rw [fieldWrite, partOf_host (by omega) (by omega)]
  simp only [hostWrite, hi]
  rw [if_pos (by omega), updRing, mapMod_fixed (canonical_host_rings hc)]
  exact if_pos he

/-! ## The statement -/

/-- Control firmware's write of a read-only register changes nothing. -/
theorem exec_registerWrite_readOnly {m : Fin 39} {off : BitVec 24} (v : Word) (s : State) (h1 : 1 ≤ m.val) (h4 : m.val ≤ 4)
    (h : readOnlyReg off.toNat = true) : exec (.registerWrite m off v) s = .next s := by
  have hr : writeReach m.val off.toNat = true := by rw [writeReach_firmware _ h1 h4]; exact writeReach_readOnly h
  rw [exec_registerWrite, registerWriteEffect, ownCommand_readOnly h, guardWrite_reached hr (.inl (by omega)),
    fieldWrite_readOnly v s h]
  simp

/-- At an unaligned offset, and at one that no chapter lists, there is no register (R415). -/
theorem exec_registerWrite_nowhere (m : Fin 39) {off : BitVec 24} (v : Word) (s : State)
    (h : off.toNat % 4 ≠ 0 ∨ listedReg off.toNat = false) : exec (.registerWrite m off v) s = .next s := by
  rw [exec_registerWrite, registerWriteEffect, if_pos h]

theorem exec_registerWrite_refused {m : Fin 39} {off : BitVec 24} (v : Word) (s : State) (ha : off.toNat % 4 = 0)
    (hl : listedReg off.toNat = true) (hr : writeReach m.val off.toNat = false) :
    exec (.registerWrite m off v) s = .next (refuseWrite m.val off.toNat s) := by
  rw [exec_registerWrite, registerWriteEffect_refused hr, if_neg (by simp [ha, hl])]

/-- The test access port writes nothing (R423). -/
theorem exec_registerWrite_tap (off : BitVec 24) (v : Word) (s : State) : exec (.registerWrite 38 off v) s = .next s := by
  by_cases ha : off.toNat % 4 = 0
  · cases hl : listedReg off.toNat
    · exact exec_registerWrite_nowhere 38 v s (.inr hl)
    · rw [exec_registerWrite_refused v s ha hl (writeReach_tap hl)]
      exact congrArg _ (refuseWrite_port (by decide))
  · exact exec_registerWrite_nowhere 38 v s (.inl ha)

/-- Settles O16: each clause is the path of its write, then the fields of the register it comes to. -/
theorem registerWritesKeepToTheirFields : Obligations.RegisterWritesKeepToTheirFields := by
  unfold Obligations.RegisterWritesKeepToTheirFields
  refine ⟨?_, ?_, ?_, ?_, ?_, ?_, ?_, ?_, ?_, ?_, ?_, ?_, ?_, ?_, ?_, ?_, ?_, ?_, ?_, ?_, ?_, exec_registerWrite_tap, ?_, ?_, ?_⟩
  · intro m v s h1 h4 -- PAV_FAULT_STATUS
    rw [exec_registerWrite_firmware (n := 0x18) h1 h4 rfl (by decide), fieldWrite_faultStatus]
  · intro m v s h1 h4 -- PAV_WDOG_CFG
    rw [exec_registerWrite_firmware (n := 0x20) h1 h4 rfl (by decide), fieldWrite_wdogCfg]
  · intro m v s h1 h4 -- FENC_TOP_CFG
    rw [exec_registerWrite_firmware (n := 0x80080) h1 h4 rfl (by decide), fieldWrite_fenceTopCfg]
  · intro m v s h1 h4 -- ORNG_SLOT_SEL
    exact exec_registerWrite_firmware (n := 0x10004) h1 h4 rfl (by decide)
  · intro m v s h1 h4 hv -- FENC_LOCK_CMD
    have hr : writeReach m.val 0x80088 = true := by rw [writeReach_firmware _ h1 h4]; decide
    rw [exec_registerWrite_own (n := 0x80088) rfl (by decide) (by decide) (by decide) hr (by omega),
      if_pos ⟨rfl, refusedOp_of_reserved hv⟩]
    rfl
  · intro v s hg ht hc hv -- OTPC_CMD
    rw [exec_registerWrite_own (n := 0x40008) rfl (by decide) (by decide) (by decide) (by decide) (by decide),
      if_neg (by simp), if_pos ⟨rfl, refusedOp_of_reserved hv⟩]
    exact congrArg _ (otpCommand_ready hg ht hc)
  · intro m v s h1 h4 -- BELV_SPDM_CFG
    rw [exec_registerWrite_firmware (n := 0x20004) h1 h4 rfl (by decide), fieldWrite_spdmCfg]
  · intro m v s h1 h4 -- FENC_LOCK_GROUPS
    exact exec_registerWrite_firmware (n := 0x80084) h1 h4 rfl (by decide)
  · intro m v s h1 h4 -- LNKF_TOP_CFG, LNKF_CLASS_MODE
    exact ⟨exec_registerWrite_firmware (n := 0xAC000) h1 h4 rfl (by decide),
      exec_registerWrite_firmware (n := 0xAC004) h1 h4 rfl (by decide)⟩
  · intro m e v s h1 h4 -- LNKF_LINK_CFG
    rw [exec_registerWrite_firmware h1 h4 (toNat_offset (by omega)) (reachesFields_engine e.isLt (by omega) (by omega) (by omega)),
      fieldWrite_linkClass e.isLt]
  · intro m v s h1 h4 -- GRNH_TOP_CFG
    exact exec_registerWrite_firmware (n := 0xC0200) h1 h4 rfl (by decide)
  · intro m d v s hm -- PERG_CFG, PERG_SEL
    have reach (off : Nat) (lo : 0xD0000 + 0x100 * d.val ≤ off) (hi : off ≤ 0xD002C + 0x100 * d.val) (ha : off % 4 = 0) :=
      exec_registerWrite_fields (m := m) (v := v) (s := s) (toNat_offset (n := off) (by omega))
        (reachesFields_slice d.isLt lo hi ha hm) (.inl (by omega))
    rw [reach _ (by omega) (by omega) (by omega), reach _ (by omega) (by omega) (by omega), fieldWrite_pergCfg d.isLt,
      fieldWrite_pergSel d.isLt]
    exact ⟨rfl, rfl⟩
  · intro m q v s h1 h4 -- SPLQ_CFG, SPLQ_MID_BASE
    have reach (off : Nat) (lo : 0xE0000 + 0x20 * q.val ≤ off) (hi : off ≤ 0xE0014 + 0x20 * q.val) (ha : off % 4 = 0) :=
      exec_registerWrite_firmware (v := v) (s := s) h1 h4 (toNat_offset (n := off) (by omega)) (reachesFields_queue q.isLt lo hi ha)
    rw [reach _ (by omega) (by omega) (by omega), reach _ (by omega) (by omega) (by omega), fieldWrite_splqCfg q.isLt,
      fieldWrite_midBase q.isLt]
    exact ⟨rfl, rfl⟩
  · intro m v s h1 h4 -- PWRM_CFG
    rw [exec_registerWrite_firmware (n := 0xF0004) h1 h4 rfl (by decide), fieldWrite_powerCfg]
  · intro m page v s hm -- HOST_CTX_SEL
    rw [exec_registerWrite_fields (toNat_offset (by omega))
      (reachesFields_page (by omega) (by omega) (by omega) (by omega)) (portGate hm), fieldWrite_ctxSel page.isLt]
  · intro m page v s hm he hc -- HOST_CMD_BASE_LO, HOST_CMD_BASE_HI
    have fixed (off : Nat) (ho : off = 0x100000 + 0x1000 * page.val ∨ off = 0x100004 + 0x1000 * page.val) :
        exec (.registerWrite m (BitVec.ofNat 24 off) v) s = .next s := by
      rw [exec_registerWrite_fields (toNat_offset (n := off) (by omega))
        (reachesFields_page (by omega) (by omega) (by omega) (by omega)) (portGate hm), fieldWrite_ringBase page.isLt ho v he hc]
    exact ⟨fixed _ (.inl rfl), fixed _ (.inr rfl)⟩
  · intro m v s h1 h4 -- BAND_CFG
    exact exec_registerWrite_firmware (n := 0x140004) h1 h4 rfl (by decide)
  · intro m d v s hm -- LDG_SWITCH_CFG, LDG_PWR_CFG
    have reach (off : Nat) (ho : off = 0x150100 + 0x1000 * d.val ∨ off = 0x150200 + 0x1000 * d.val) :=
      exec_registerWrite_fields (m := m) (v := v) (s := s) (toNat_offset (n := off) (by omega))
        (reachesFields_die d.isLt ho hm) (.inl (by omega))
    rw [reach _ (.inl rfl), reach _ (.inr rfl), fieldWrite_switchCfg d.isLt, fieldWrite_lodgePwrCfg d.isLt]
    exact ⟨rfl, rfl⟩
  · intro v s -- OTPC_WDATA, OTPC_STATUS
    refine ⟨exec_registerWrite_fields (n := 0x4000C) rfl (by decide) (.inl (by decide)), ?_⟩
    rw [exec_registerWrite_fields (n := 0x40000) rfl (by decide) (.inl (by decide)), fieldWrite_otpStatus]
  · intro m off v s h1 h4 h -- read-only
    exact exec_registerWrite_readOnly v s h1 h4 h
  · intro m off v s h -- unaligned, unlisted
    exact exec_registerWrite_nowhere m v s h
  · intro m off v s hm ha hl hw hr hc ht -- out of reach
    exact ⟨_, exec_registerWrite_refused v s ha hl hw, refuseWrite_recorded hm hr hc ht⟩
  · intro m v s h5 hm hr hc ht -- PAV_FAULT_STATUS by a Lodge
    have hw : writeReach m.val 0x18 = false := by change isFirmware m.val = false; simp [isFirmware]; omega
    exact ⟨_, exec_registerWrite_refused v s rfl rfl hw, refuseWrite_recorded hm hr hc ht⟩
  · intro v s -- PAV_FAULT_STATUS by the host target port
    rw [exec_registerWrite_refused v s rfl rfl rfl]
    exact congrArg _ (refuseWrite_port (by decide))

end Sys2Proof.RegisterWrites
end

section
/-! PROOF. Loss and return of the reference clock, and reads of the _LO registers (01_the_complex.md). -/

namespace Sys2Proof.Timebase

open Sys2Proof Sys2Proof.Machine Sys2Proof.Laws

/-! ## Management events -/

/-- What a management event holds begins with its status, OK (R405). -/
theorem leAt_event_status (code kind unit : Nat) (detail : Bytes) (s : State) :
    leAt (fit 63 (patch (genericRecord s .ok kind unit detail) 62 (leNat 1 code))) 0 2 = (statusCode .ok).toNat := by
  have h : ∃ bs, patch (genericRecord s .ok kind unit detail) 62 (leNat 1 code) = leBv 2 (statusCode .ok) ++ bs := by
    simp [patch, genericRecord, fit, leBv, leNat]
  obtain ⟨bs, h⟩ := h
  rw [h, leAt_status]

theorem recorded_postEvent {code kind unit : Nat} {detail : Bytes} {s : State} (hc : canonical s = true) (hr : roomAt s 1 = true) :
    recorded (postEvent code kind unit detail s) 1 .ok = true :=
  recorded_postRecord hc hr (leAt_event_status ..)

theorem qOf_postEvent_other {code kind unit n : Nat} {detail : Bytes} {s : State} (hc : canonical s = true) (hr : roomAt s 1 = true)
    (hn : n ≠ 1) : qOf (postEvent code kind unit detail s) n = qOf s n := qOf_postRecord_other hc hr hn

/-! ## The reference (R18) -/

theorem exec_refLoss {s : State} (h : s.sund.refLock = true) : exec .refLoss s =
    .next (postEvent 0x01 17 0 [] { s with sund := { s.sund with refLoss := some s.tick, refLock := false } }) :=
  congrArg _ (if_pos h)

theorem exec_refRelock {s : State} (h : s.sund.refLock = false) : exec .refRelock s =
    .next (postEvent 0x02 17 0 [] { s with sund := { s.sund with refLock := true } }) :=
  congrArg _ (if_neg (by simp [h]))

/-- Settles O14: each event changes its bits of Sundial, then posts one record at queue 1. -/
theorem referenceLossAndReturn : Obligations.ReferenceLossAndReturn := by
  unfold Obligations.ReferenceLossAndReturn
  constructor
  · intro s hc hr hl
    exact ⟨_, exec_refLoss hl, rfl, recorded_postEvent hc hr, rfl, fun q hq => qOf_postEvent_other hc hr hq⟩
  · intro s hc hr hl
    exact ⟨_, exec_refRelock hl, rfl, recorded_postEvent hc hr, rfl, fun q hq => qOf_postEvent_other hc hr hq⟩

/-! ## _LO registers (R30, R257, R403, R420) -/

/-- Bits [31:0] of a register. -/
theorem ofNat_low (x : BitVec 64) : BitVec.ofNat 32 x.toNat = x.setWidth 32 := BitVec.ofNat_toNat 32 x

/-- Bits [63:32] of a register. -/
theorem ofNat_high (x : BitVec 64) : BitVec.ofNat 32 (x.toNat / 2 ^ 32) = (x >>> 32).setWidth 32 := by
  apply BitVec.eq_of_toNat_eq
  simp [Nat.shiftRight_eq_div_pow]

theorem exec_sundTickLoRead (m : Fin 39) (s : State) :
    exec (.sundTickLoRead m) s = .next (if readAllowed s m 0x180000 = true then { s with
      outs := s.outs ++ [.regRead m 0x180000 (BitVec.ofNat 32 s.tick)]
      sund := { s.sund with tickHi := mapSet 0 s.sund.tickHi m (BitVec.ofNat 32 (s.tick / 2 ^ 32)) } }
      else { s with outs := s.outs ++ [.regRead m 0x180000 0] }) := rfl

theorem exec_orngZeroTickLoRead (m : Fin 39) (s : State) :
    exec (.orngZeroTickLoRead m) s = .next (if readAllowed s m 0x10024 = true then { s with
      outs := s.outs ++ [.regRead m 0x10024 (s.orng.zeroTick.setWidth 32)]
      sund := { s.sund with zeroHi := mapSet 0 s.sund.zeroHi m ((s.orng.zeroTick >>> 32).setWidth 32) } }
      else { s with outs := s.outs ++ [.regRead m 0x10024 0] }) := by
  rw [← ofNat_high, ← ofNat_low]
  rfl

/-- A read of a counter, by the offset its page, bank and index give (Table HOST-7). -/
theorem exec_hostPerfLoRead {m : Fin 39} {page : Fin 64} {perCtx : Bool} {i : Fin 8} {s : State} {off : Nat}
    (ho : 0x100000 + 0x1000 * page.val + (if perCtx then 0x858 else 0x810) + 8 * i.val = off) :
    exec (.hostPerfLoRead m page perCtx i) s = .next (if readAllowed s m off = true then { s with
      outs := s.outs ++ [.regRead m off (BitVec.ofNat 32 (perfValue s perCtx i))]
      sund := { s.sund with
        perfHi := mapSet 0 s.sund.perfHi (perfKey m perCtx i) (BitVec.ofNat 32 (perfValue s perCtx i / 2 ^ 32)) } }
      else { s with outs := s.outs ++ [.regRead m off 0] }) := by
  have hp : pageOff page.val ((if perCtx then 0x858 else 0x810) + 8 * i.val) = off := ho ▸ (Nat.add_assoc ..).symm
  change Host.Outcome.next (perfLoEffect m.val page.val perCtx i.val s) = _
  rw [perfLoEffect, hp]
  rfl

theorem perfValue_device {i : Nat} (hi : i < 7) (s : State) : perfValue s false i = mapGet 0 s.host.devShown i := by
  rw [perfValue, if_neg (by omega), if_neg (by simp)]

/-- A context's counter reads zero without consent (R84). -/
theorem perfValue_unconsented {s : State} (h : (ctxOf s s.host.ctxSel.toNat).consent = none) (i : Nat) : perfValue s true i = 0 := by
  simp [perfValue, consentNow, h]

/-! ## Reach of the _LO registers (Table REGS-3) -/

theorem readAllowed_tickLo {m : Nat} (hm : m ≤ 36) (s : State) : readAllowed s m 0x180000 = true := by
  have hp : partOf 0x180000 = .sundial := by decide
  simp [readAllowed, readReach, hp, hm, show m ≠ 38 by omega, show m ≠ 37 by omega]

theorem readAllowed_zeroTickLo {m : Nat} (hm : m ≤ 4) (s : State) : readAllowed s m 0x10024 = true := by
  have hp : partOf 0x10024 = .orangery := by decide
  simp [readAllowed, readReach, hp, hm, show m ≠ 38 by omega, show m ≠ 37 by omega]

/-- Control firmware reads every host page. -/
theorem readAllowed_page {m off : Nat} (h1 : 1 ≤ m) (h4 : m ≤ 4) (lo : 0x100000 ≤ off) (hi : off < 0x140000) (s : State) :
    readAllowed s m off = true := by
  have hp := RegisterWrites.partOf_host lo hi
  simp [readAllowed, readReach, isFirmware, hp, h1, h4, show m ≠ 38 by omega, show m ≠ 37 by omega]

/-- Settles O15: each read is a case split on the master's reach, and what a counter shows is read off its value. -/
theorem lowReadsLatchTheHighWord : Obligations.LowReadsLatchTheHighWord := by
  unfold Obligations.LowReadsLatchTheHighWord
  refine ⟨exec_sundTickLoRead, fun m s hm => readAllowed_tickLo hm s, exec_orngZeroTickLoRead, fun m s hm => readAllowed_zeroTickLo hm s,
    ?_, ?_, ?_, ?_⟩
  · intro m page perCtx i s
    refine ⟨_, exec_hostPerfLoRead rfl, fun h => if_neg (by simp [h]), fun h => if_pos h⟩
  · intro m page i s h1 h4
    exact ⟨readAllowed_page h1 h4 (by omega) (by omega) s, readAllowed_page h1 h4 (by omega) (by omega) s⟩
  · intro m page i s hi h
    refine ⟨_, exec_hostPerfLoRead (off := 0x100810 + 0x1000 * page.val + 8 * i.val) (by simp; omega), ?_⟩
    rw [if_pos h, perfValue_device hi]
    exact ⟨rfl, rfl⟩
  · intro m page i s h hc
    refine ⟨_, exec_hostPerfLoRead (off := 0x100858 + 0x1000 * page.val + 8 * i.val) (by simp; omega), ?_⟩
    rw [if_pos h, perfValue_unconsented hc]
    exact ⟨rfl, rfl⟩

end Sys2Proof.Timebase
end

section
/-! PROOF. Locked changes of the memory fence, from their command to their commit, and the frames of the scrub engine
(04_memory_fence.md R99, R110, R116; 01_the_complex.md R16, R17). -/

namespace Sys2Proof.LockedChanges

open Sys2Proof Sys2Proof.Machine Sys2Proof.Laws

/-! ## A map changed at every key -/

/-- A change at every listed key reads as the change, where it keeps what an unlisted key reads as. -/
theorem mapGet_mapAll {α : Type} [DecidableEq α] {d : α} {f : Nat → α → α} {m : NMap α} {k : Nat} (hm : mapWf d m = true)
    (hd : f k d = d) : mapGet d (mapAll d f m) k = f k (mapGet d m k) := by
  have above : ∀ b, mapAbove b m = true → mapGet d (mapAll d f m) k = f k (mapGet d m k) := by
    clear hm
    induction m with
    | nil => exact fun _ _ => hd.symm
    | cons e m ih =>
      intro b hb
      obtain ⟨k', v⟩ := e
      simp only [mapAbove, Bool.and_eq_true, decide_eq_true_eq] at hb
      have hm := ih _ hb.2
      have hrest : k < k' + 1 → mapGet d (mapAll d f m) k = d := mapGet_below (mapAbove_mapAll hb.2)
      have hcons : mapAll d f ((k', v) :: m) = if f k' v = d then mapAll d f m else (k', f k' v) :: mapAll d f m := by
        unfold mapAll
        by_cases h : f k' v = d <;> simp [h]
      rw [hcons]
      rcases Nat.lt_trichotomy k k' with hk | rfl | hk
      · split <;> simp [mapGet, hk, Nat.ne_of_lt hk, hd, hrest (by omega)]
      · by_cases h : f k v = d <;> simp [mapGet, h, hrest (by omega)]
      · have h1 : k ≠ k' := by omega
        have h2 : ¬ k < k' := by omega
        split <;> simp [mapGet, h1, h2, hm]
  exact above 0 (by simp only [mapWf, Bool.and_eq_true] at hm; exact hm.1)

/-! ## FENC_LOCK_CMD (R116) -/

/-- A LOCK command by control firmware comes to the list of pending changes. -/
theorem guardWrite_lockCmd {m : Nat} {k : State → State} {s : State} (h1 : 1 ≤ m) (h4 : m ≤ 4) :
    guardWrite m lockCmdOff k s = k s := by
  have hr : writeReach m lockCmdOff = true := by rw [RegisterWrites.writeReach_firmware _ h1 h4]; decide
  exact RegisterWrites.guardWrite_reached hr (.inl (by omega))

/-- A written change takes a place, or sets ERR where none is free. -/
theorem writeLock_eq (op : LockOp) (s : State) : writeLock op s = { s with fence :=
    if s.fence.locks.length < 8 then { s.fence with locks := s.fence.locks ++ [⟨op, s.fence.lockGroups, .firmware, s.tick⟩] }
    else { s.fence with lockErr := some s.tick } } := by
  unfold writeLock
  split <;> rfl

/-! ## The choice of a change (R17) -/

theorem nextLock_oldest {s : State} {l : Lock} {ls : List Lock} (h : lockFree s [] l = true) :
    nextLock (fun _ => true) s [] (l :: ls) = some ([], l, ls) := by simp [nextLock, h]

/-- A change that may not commit lets the one behind it commit, where that one may. -/
theorem nextLock_second {s : State} {a l : Lock} {ls : List Lock} (ha : lockFree s [] a = false) (hl : lockFree s [a] l = true) :
    nextLock (fun _ => true) s [] (a :: l :: ls) = some ([a], l, ls) := by simp [nextLock, ha, hl]

/-- The oldest change may commit in a tick in which none has. -/
theorem lockFree_oldest {s : State} (l : Lock) (h : s.fence.lastCommit < s.tick) : lockFree s [] l = true := by
  simp [lockFree, Nat.ne_of_lt h]

theorem exec_lockedChangeCommit {s : State} {l : Lock} {before after : List Lock}
    (h : nextLock (fun _ => true) s [] s.fence.locks = some (before, l, after)) :
    exec .lockedChangeCommit s = .next (commitLock l (before ++ after) s) := by
  change Host.Outcome.next (lockCommitEffect s) = _
  rw [lockCommitEffect, h]

/-! ## The commit of control firmware's change -/

/-- The fence and Sundial once a change has left the list for its commit. -/
def lockTaken (l : Lock) (others : List Lock) (s : State) : State := { s with
  fence := { s.fence with
    locks := others, lastCommit := s.tick
    lastGroups := if s.fence.lastCommit = s.tick then s.fence.lastGroups ||| l.groups else l.groups
    commitAt := (namedGroups l.groups).foldl (fun m i => mapSet 0 m i s.tick) s.fence.commitAt }
  sund := { s.sund with lockLast := BitVec.ofNat 32 s.tick } }

theorem noteSeal_fence (op : LockOp) (s : State) : (noteSeal op s).fence = s.fence := by cases op <;> rfl
theorem noteSeal_frame (op : LockOp) (s : State) : noteSeal op s = { s with groups := (noteSeal op s).groups } := by cases op <;> rfl

/-- Where no change waits for a place and nothing awaits the commit, it is the channels' change and the group's seal. -/
theorem commitLock_firmware {l : Lock} {others : List Lock} {s : State} (ho : l.owner = .firmware) (hw : s.fence.lockWait = []) :
    commitLock l others s = noteSeal l.op (lockApply l (lockTaken l others s)) := by
  have hp : promoteLock (noteSeal l.op (lockApply l (lockTaken l others s))) = noteSeal l.op (lockApply l (lockTaken l others s)) := by
    have hwait : (noteSeal l.op (lockApply l (lockTaken l others s))).fence.lockWait = [] := by rw [noteSeal_fence]; exact hw
    rw [promoteLock, hwait]
  rw [← hp]
  simp only [commitLock, ho, lockDone, lockTaken, decide_eq_true_eq, word]

section
variable {l : Lock} {others : List Lock} {s : State} (ho : l.owner = .firmware) (hw : s.fence.lockWait = [])
include ho hw

theorem commitLock_fence : (commitLock l others s).fence = (lockApply l (lockTaken l others s)).fence := by
  rw [commitLock_firmware ho hw, noteSeal_fence]

theorem commitLock_frame : commitLock l others s = { s with
    fence := (commitLock l others s).fence, groups := (commitLock l others s).groups
    sund := { s.sund with lockLast := BitVec.ofNat 32 s.tick } } := by
  rw [commitLock_firmware ho hw, noteSeal_frame]
  rfl

theorem commitLock_groups : (commitLock l others s).groups = (noteSeal l.op s).groups := by
  rw [commitLock_firmware ho hw]
  cases l.op <;> rfl

theorem chanOf_commitLock (hc : canonical s = true) (n : Nat) : chanOf (commitLock l others s) n =
    if l.groups.getLsbD (n / 32) = true then lockChan (lockTaken l others s) l.op (chanOf s n) else chanOf s n := by
  rw [chanOf, commitLock_fence ho hw]
  refine mapGet_mapAll (f := fun n c => if l.groups.getLsbD (n / 32) = true then lockChan (lockTaken l others s) l.op c else c)
    (canonical_fence_chans hc) ?_
  split <;> rfl

theorem chanOf_commitLock_other (hc : canonical s = true) {n : Nat} (hn : l.groups.getLsbD (n / 32) = false) :
    chanOf (commitLock l others s) n = chanOf s n := by
  rw [chanOf_commitLock ho hw hc, if_neg (by simp [hn])]

end

/-- A change that invalidates an entry's CID lets the entry serve in its own tick and in none after it (R99). -/
theorem entryLive_lockEntry_ofCid {e : KcEntry} {u t : Nat} (hd : e.dead = none) (hut : u < t) :
    entryLive u (lockEntry (.ofCid e.cid) u e) = true ∧ entryLive t (lockEntry (.ofCid e.cid) u e) = false := by
  simp [lockEntry, lockNames, entryLive, hd, hut]

/-- A commit that seals a group notes the seal at it; any other leaves the groups (R99). -/
theorem noteSeal_cases (op : LockOp) {s : State} (hc : canonical s = true) :
    (∃ g, op = .sealGroup g ∧ groupOf (noteSeal op s) g = { groupOf s g with fillSealed := some ((groupOf s g).fillSealed.getD s.tick) } ∧
      ∀ k, k ≠ g → groupOf (noteSeal op s) k = groupOf s k) ∨ ((noteSeal op s).groups = s.groups ∧ ∀ g, op ≠ .sealGroup g) := by
  cases op with
  | sealGroup g => exact .inl ⟨g, rfl, groupOf_updGroup_same hc, fun k hk => groupOf_updGroup_other hc hk⟩
  | pairs _ _ => exact .inr ⟨rfl, by simp⟩
  | ofCid _ => exact .inr ⟨rfl, by simp⟩
  | ofGroup _ => exact .inr ⟨rfl, by simp⟩
  | all => exact .inr ⟨rfl, by simp⟩

/-! ## Scrub frames (R110) -/

theorem noteScrubbed_fence (f : ScrubFor) (s : State) : (noteScrubbed f s).fence = s.fence := by cases f <;> rfl
theorem noteScrubbed_frames (f : ScrubFor) (s : State) : (noteScrubbed f s).frames = s.frames := by cases f <;> rfl
theorem noteScrubbed_outs (f : ScrubFor) (s : State) : (noteScrubbed f s).outs = s.outs := by cases f <;> rfl

theorem canonical_noteScrubbed {f : ScrubFor} {s : State} (h : canonical s = true) : canonical (noteScrubbed f s) = true := by
  cases f with
  | destroy c => exact canonical_updCtx h
  | retire g => exact canonical_updGroup h
  | bind => exact h
  | release _ => exact h
  | scrub => exact h

/-- The state with a frame of a job done: out of the queue, its record in the frame table and the counters changed. -/
def frameDone (n : Nat) (x : ScrubFrame) (f : ScrubFor) (s : State) : State :=
  countUp 6 x.cid 1 (updFrame n (frameScrubbed f) (noteScrubbed f { s with fence := { s.fence with scrub := s.fence.scrub.erase x } }))

theorem frameDone_fence (n : Nat) (x : ScrubFrame) (f : ScrubFor) (s : State) :
    (frameDone n x f s).fence = { s.fence with scrub := s.fence.scrub.erase x } := noteScrubbed_fence f _

theorem frameDone_outs (n : Nat) (x : ScrubFrame) (f : ScrubFor) (s : State) : (frameDone n x f s).outs = s.outs :=
  noteScrubbed_outs f _

theorem frameDone_ctxs (n : Nat) (x : ScrubFrame) (f : ScrubFor) (s : State) :
    (frameDone n x f s).ctxs = (countUp 6 x.cid 1 (noteScrubbed f s)).ctxs := by cases f <;> rfl

theorem frameOf_frameDone_same {n : Nat} {x : ScrubFrame} {f : ScrubFor} {s : State} (hc : canonical s = true) :
    frameOf (frameDone n x f s) n = frameScrubbed f (frameOf s n) := by
  have h := frameOf_updFrame_same (k := n) (f := frameScrubbed f)
    (canonical_noteScrubbed (f := f) (s := { s with fence := { s.fence with scrub := s.fence.scrub.erase x } }) hc)
  rwa [frameOf, frameOf, noteScrubbed_frames] at h

theorem frameOf_frameDone_other {n m : Nat} {x : ScrubFrame} {f : ScrubFor} {s : State} (hc : canonical s = true) (hm : m ≠ n) :
    frameOf (frameDone n x f s) m = frameOf s m := by
  have h := frameOf_updFrame_other (f := frameScrubbed f)
    (canonical_noteScrubbed (f := f) (s := { s with fence := { s.fence with scrub := s.fence.scrub.erase x } }) hc) hm
  rwa [frameOf, frameOf, noteScrubbed_frames] at h

/-- A frame whose lines are not all acknowledged is not done. -/
theorem exec_scrubFrameDone_unwritten {n : Fin 524288} {s : State} (h : frameWritten s n = false) :
    exec (.scrubFrameDone n) s = .next s := by
  change Host.Outcome.next (scrubFrameDoneEffect n.val s) = _
  rw [scrubFrameDoneEffect]
  cases scrubInProgress s n.val <;> simp [h]

/-- A scrub job with one frame fewer to come. -/
def shortenJob (j : ScrubJob) (s : State) : State := { s with fence := { s.fence with
  jobs := s.fence.jobs.map (fun y => if y.no = j.no then { y with left := y.left - 1 } else y) } }

/-- A scrub job taken from the list. -/
def dropJob (j : ScrubJob) (s : State) : State := { s with fence := { s.fence with
  jobs := s.fence.jobs.filter (fun y => y.no != j.no) } }

/-- A frame whose lines are all acknowledged is done; the last of its job completes what waits for the job. -/
theorem exec_scrubFrameDone {n : Fin 524288} {s : State} {x : ScrubFrame} {j : ScrubJob} (hx : scrubInProgress s n = some x)
    (hj : s.fence.jobs.find? (fun j => j.no == x.job) = some j) (hw : frameWritten s n = true) :
    exec (.scrubFrameDone n) s = .next (if j.left ≤ 1 then finish j.waiter .ok [] (dropJob j (frameDone n x j.for_ s))
      else shortenJob j (frameDone n x j.for_ s)) := by
  change Host.Outcome.next (scrubFrameDoneEffect n.val s) = _
  simp only [scrubFrameDoneEffect, hx, hw, hj, Bool.not_true, Bool.false_eq_true, if_false]
  rfl

theorem frameOf_shortenJob (j : ScrubJob) (s : State) (m : Nat) : frameOf (shortenJob j s) m = frameOf s m := rfl
theorem frameOf_dropJob (j : ScrubJob) (s : State) (m : Nat) : frameOf (dropJob j s) m = frameOf s m := rfl

theorem dropJob_jobs {j k : ScrubJob} {s : State} (h : k ∈ (dropJob j s).fence.jobs) : k.no ≠ j.no := by
  simpa using (List.mem_filter.mp h).2

theorem shortenJob_jobs {j : ScrubJob} {s : State} (h : j ∈ s.fence.jobs) :
    { j with left := j.left - 1 } ∈ (shortenJob j s).fence.jobs := List.mem_map.mpr ⟨j, h, if_pos rfl⟩

/-! ## The statement -/

/-- Settles O36: the commands' path, the commit of the oldest change that may, and the end of a frame. -/
theorem lockedChangesAndScrubs : Obligations.LockedChangesAndScrubs := by
  unfold Obligations.LockedChangesAndScrubs
  refine ⟨?_, ?_, ?_, ?_, fun n s h => exec_scrubFrameDone_unwritten h, ?_⟩
  · intro m id mask s c op h1 h4 hm
    have he : exec c s = .next (guardWrite m.val lockCmdOff (writeLock op) s) := by
      simp only [List.mem_cons, Prod.mk.injEq, List.not_mem_nil, or_false] at hm
      rcases hm with ⟨rfl, rfl⟩ | ⟨rfl, rfl⟩ | ⟨rfl, rfl⟩ | ⟨rfl, rfl⟩ | ⟨rfl, rfl⟩ <;> rfl
    rw [he, guardWrite_lockCmd h1 h4, writeLock_eq]
  · intro s l ls hc hl ho hw ht
    have he : exec .lockedChangeCommit s = .next (commitLock l ls s) :=
      exec_lockedChangeCommit (before := []) (hl ▸ nextLock_oldest (lockFree_oldest l ht))
    have hchan := fun n => chanOf_commitLock (others := ls) ho hw hc n
    have hf := commitLock_frame (others := ls) ho hw
    have hg := commitLock_groups (others := ls) ho hw
    refine ⟨_, he, by rw [commitLock_fence ho hw]; rfl, by rw [hf], by rw [commitLock_fence ho hw]; rfl,
      fun n _ hn => chanOf_commitLock_other ho hw hc hn, ?_, ?_, ?_, ?_, ?_⟩
    · intro n _ hn
      rw [hchan n, if_pos hn]
      exact ⟨rfl, rfl, rfl, rfl⟩
    · intro n e t _ hn he hd hop ht
      rw [hchan n, if_pos hn, hop]
      exact ⟨List.mem_map_of_mem he, entryLive_lockEntry_ofCid hd ht⟩
    · simp only [groupOf, hg]
      exact (noteSeal_cases l.op hc).imp id And.left
    · rintro ⟨g, hop⟩
      refine ⟨g, hop, ?_⟩
      simp only [groupOf, hg, hop]
      exact congrArg Group.fillSealed (groupOf_updGroup_same hc)
    · rw [hf]
  · intro s a l ls hc hl ho hw ha hfree
    refine ⟨_, exec_lockedChangeCommit (hl ▸ nextLock_second ha hfree), ?_, ?_, fun n _ hn => chanOf_commitLock_other ho hw hc hn⟩
    · rw [commitLock_fence ho hw]; rfl
    · rw [commitLock_fence ho hw]; rfl
  · intro n s x j hc hx hj hl hw
    have he := exec_scrubFrameDone hx hj hw
    rw [if_neg (by omega)] at he
    have hf := frameDone_fence n x j.for_ s
    have hmem : j ∈ (frameDone n x j.for_ s).fence.jobs := by rw [hf]; exact List.mem_of_find?_eq_some hj
    exact ⟨_, he, congrArg Fence.scrub hf, (frameOf_shortenJob ..).trans (frameOf_frameDone_same hc), ⟨_, shortenJob_jobs hmem, rfl, rfl⟩,
      fun m hm => (frameOf_shortenJob ..).trans (frameOf_frameDone_other hc hm), frameDone_ctxs n x j.for_ s, frameDone_outs n x j.for_ s⟩
  · intro n s x j hc hx hj hl hw
    have he := exec_scrubFrameDone hx hj hw
    rw [if_pos hl] at he
    exact ⟨_, he, congrArg Fence.scrub (frameDone_fence n x j.for_ s), (frameOf_dropJob ..).trans (frameOf_frameDone_same hc),
      fun k hk => dropJob_jobs hk, fun m hm => (frameOf_dropJob ..).trans (frameOf_frameDone_other hc hm)⟩

end Sys2Proof.LockedChanges
end

section
/-! PROOF. The path of a management command: what the intake leaves for the command's own meaning, and what a reply leaves
(14_update_and_bandstand.md R316, R317). -/

namespace Sys2Proof.Management

open Sys2Proof Sys2Proof.Machine Sys2Proof.Laws

/-- A management command in progress. -/
def progOf (o : Nat) (u : UnitRef) (m : MgmtHdr) : MgmtProg := ⟨m.tag.val, o, u⟩

/-- The state in which a taken command is judged by its own meaning. -/
def taken (o : Nat) (u : UnitRef) (m : MgmtHdr) (s : State) : State :=
  { s with mgmt := s.mgmt ++ [progOf o u m], sund := { s.sund with mgmtPtr := s.sund.mgmtPtr + 1 }, band := heard m.assoc s }

theorem mgmtCommand_taken {o : Nat} {u : UnitRef} {m : MgmtHdr} {body : MgmtProg → State → State} {s : State}
    (h : mgmtOk m s = true) : mgmtCommand o u m body s = body (progOf o u m) (taken o u m s) := mgmtCommand_ok h

/-- A message of at most 65,523 bytes of operands is within R316 (log 151). -/
theorem within_short {n : Nat} (h : n ≤ 65523) (k : MgmtProg → State → State) (p : MgmtProg) (s : State) : within n k p s = k p s :=
  if_neg (by simp only [mctpMost]; omega)

theorem within_long {n : Nat} (h : 65523 < n) (k : MgmtProg → State → State) (p : MgmtProg) (s : State) :
    within n k p s = replyMgmt p .lengthLong [] s := if_pos (by simp only [mctpMost]; omega)

/-- No other reply is owed for the tag of a taken command, so its reply leaves the commands in progress as they were. -/
theorem mgmt_taken {o : Nat} {u : UnitRef} {m : MgmtHdr} {s : State} (h : mgmtOk m s = true) :
    (taken o u m s).mgmt.filter (fun x => x.tag != m.tag.val) = s.mgmt := by
  have hfree : s.mgmt.any (fun x => x.tag == m.tag.val) = false := by
    simp only [mgmtOk, Bool.and_eq_true, Bool.not_eq_true', tagBusy, Bool.or_eq_false_iff] at h
    exact h.2.1
  have hkeep : s.mgmt.filter (fun x => x.tag != m.tag.val) = s.mgmt := by
    simpa [List.filter_eq_self] using hfree
  simp [taken, progOf, hkeep]

/-- A reply stands among the new outputs, whatever the command has sent before it. -/
theorem replied_replyMgmt {s t : State} {p : MgmtProg} {m : MgmtHdr} {st : Status} {d : Bytes} (hp : p.tag = m.tag.val)
    (ho : s.outs <+: t.outs) : replied s (replyMgmt p st d t) m st = true := by
  obtain ⟨os, ho⟩ := ho
  have hn : newOuts s (replyMgmt p st d t) = os ++ [.mgmtReply p.tag p.opcode st (unitView t p.unit).2 (unitView t p.unit).1 d] := by
    simp [newOuts, replyMgmt, emit, ← ho]
  simp [replied, hn, hp]

/-- A command that only replies has changed nothing else. -/
theorem onlyAnswered_replyMgmt {o : Nat} {u : UnitRef} {m : MgmtHdr} {s : State} (h : mgmtOk m s = true) (st : Status) (d : Bytes) :
    onlyAnswered s (replyMgmt (progOf o u m) st d (taken o u m s)) m := by
  have hm := mgmt_taken (o := o) (u := u) h
  simp only [onlyAnswered, replyMgmt, emit, progOf] at hm ⊢
  rw [hm]
  rfl

/-- A command that is answered with a status alone. -/
theorem onlyAnswered_of_exec {c : Instr} {o : Nat} {u : UnitRef} {m : MgmtHdr} {st : Status} {s : State} (h : mgmtOk m s = true)
    (he : exec c s = .next (replyMgmt (progOf o u m) st [] (taken o u m s))) :
    ∃ t, exec c s = .next t ∧ replied s t m st = true ∧ onlyAnswered s t m :=
  ⟨_, he, replied_replyMgmt rfl (List.prefix_refl _), onlyAnswered_replyMgmt h st []⟩

end Sys2Proof.Management
end

section
/-! PROOF. The flash and the record log: what a program and an erase operation change, and what the append of a record adds
(13_gatehouse_boot.md R295, R296, R332). -/

namespace Sys2Proof.RecordLog

open Sys2Proof Sys2Proof.Machine Sys2Proof.Laws

/-! ## Bytes of the flash -/

theorem mapWf_flashPut {off : Nat} {bs : Bytes} {m : NMap Byte} (h : mapWf 0xff m = true) : mapWf 0xff (flashPut off bs m) = true := by
  induction bs generalizing off m with
  | nil => exact h
  | cons b bs ih => exact ih (mapWf_mapSet h)

/-- A byte outside a program operation's range. -/
theorem mapGet_flashPut_other {off a : Nat} {bs : Bytes} {m : NMap Byte} (h : mapWf 0xff m = true)
    (ha : a < off ∨ off + bs.length ≤ a) : mapGet 0xff (flashPut off bs m) a = mapGet 0xff m a := by
  induction bs generalizing off m with
  | nil => rfl
  | cons b bs ih =>
    simp only [List.length_cons] at ha
    rw [flashPut, ih (mapWf_mapSet h) (by omega), mapGet_mapSet_other h (by omega)]

/-- A byte inside it. -/
theorem mapGet_flashPut_same {off k : Nat} {bs : Bytes} {m : NMap Byte} (h : mapWf 0xff m = true) (hk : k < bs.length) :
    mapGet 0xff (flashPut off bs m) (off + k) = bs.getD k 0 := by
  induction bs generalizing off k m with
  | nil => exact absurd hk (Nat.not_lt_zero _)
  | cons b bs ih =>
    rw [flashPut]
    cases k with
    | zero => rw [mapGet_flashPut_other (mapWf_mapSet h) (.inl (by omega)), Nat.add_zero, mapGet_mapSet_same h, List.getD_cons_zero]
    | succ k =>
      rw [show off + (k + 1) = off + 1 + k by omega, ih (mapWf_mapSet h) (by simpa using hk), List.getD_cons_succ]

/-- Entries taken out of a map by their keys. -/
theorem mapAbove_filter {α : Type} {p : Nat → Bool} {m : NMap α} {b : Nat} (h : mapAbove b m = true) :
    mapAbove b (m.filter (fun e => p e.1)) = true := by
  induction m generalizing b with
  | nil => rfl
  | cons e m ih =>
    simp only [mapAbove, Bool.and_eq_true, decide_eq_true_eq] at h
    cases hp : p e.1
    · simpa [hp] using mapAbove_mono (ih h.2) (by omega)
    · simpa [hp, mapAbove, h.1] using ih h.2

theorem mapGet_filter {α : Type} {d : α} {p : Nat → Bool} {m : NMap α} {b k : Nat} (h : mapAbove b m = true) (hk : p k = true) :
    mapGet d (m.filter (fun e => p e.1)) k = mapGet d m k := by
  induction m generalizing b with
  | nil => rfl
  | cons e m ih =>
    simp only [mapAbove, Bool.and_eq_true, decide_eq_true_eq] at h
    cases hp : p e.1
    · have hne : k ≠ e.1 := by rintro rfl; simp [hp] at hk
      by_cases hlt : k < e.1
      · have hout : mapGet d (m.filter (fun e => p e.1)) k = d := mapGet_below (mapAbove_filter h.2) (by omega)
        simp [hp, mapGet, hne, hlt, hout]
      · simp [hp, mapGet, hne, hlt, ih h.2]
    · simp [hp, mapGet, ih h.2]

theorem mapWf_flashErase {off n : Nat} {s : State} (h : mapWf 0xff s.flash = true) : mapWf 0xff (flashErase off n s).flash = true := by
  simp only [mapWf, Bool.and_eq_true, List.all_eq_true, flashErase] at h ⊢
  exact ⟨mapAbove_filter (p := fun a => decide (a < off) || decide (off + n ≤ a)) h.1, fun e he => h.2 e (List.mem_filter.mp he).1⟩

/-- A byte outside an erase operation's range. -/
theorem mapGet_flashErase_other {off n a : Nat} {s : State} (h : mapWf 0xff s.flash = true) (ha : a < off ∨ off + n ≤ a) :
    mapGet 0xff (flashErase off n s).flash a = mapGet 0xff s.flash a := by
  simp only [mapWf, Bool.and_eq_true] at h
  exact mapGet_filter (p := fun a => decide (a < off) || decide (off + n ≤ a)) h.1 (by simpa using ha)

/-! ## Record keys -/

/-- An operation that appends records goes on where the vault has both record keys. -/
theorem withRecords_ok {refuse : Status → State → State} {k : State → State} {s : State} (h : recordStatus s = none) :
    withRecords refuse k s = k s := by rw [withRecords, h]

theorem withRecords_refused {refuse : Status → State → State} {k : State → State} {s : State} {st : Status}
    (h : recordStatus s = some st) : withRecords refuse k s = refuse st (checkSlots [14, 15] s) := by rw [withRecords, h]

/-- Both record keys are there. -/
theorem recordKeys {s : State} (h : recordStatus s = none) : (∃ key, recordKey s = some key) ∧ checkSlot 15 s = s := by
  unfold recordStatus at h
  split at h
  next => cases h
  next h14 =>
    split at h
    next => cases h
    next h15 =>
      refine ⟨Option.isSome_iff_exists.mp (by simpa [recordKey, Option.isSome_iff_ne_none] using h14), ?_⟩
      have hok : (slotOf s 15).state = .active ∧ halfOk 15 0 (slotOf s 15).active = true := by
        by_contra hno
        exact h15 (by simp [deviceKey, hno])
      rw [checkSlot, if_neg (by simp [hok.2])]

theorem outs_postRecord (q k : Nat) (p : Bytes) (s : State) : s.outs <+: (postRecord q k p s).outs := by
  have hput : ∀ (n : Nat) (x : SpillQ) (t : State), t.outs <+: (putQ n x t).outs := fun n x t => List.prefix_append ..
  simp only [postRecord]
  split
  · exact (hput _ _ _).trans (hput _ _ _)
  · exact hput _ _ _

theorem outs_postEvent (code kind unit : Nat) (detail : Bytes) (s : State) : s.outs <+: (postEvent code kind unit detail s).outs :=
  outs_postRecord ..

/-- What leaves the flash and the log, and may send. -/
structure LogKept (s t : State) : Prop where
  flash : t.flash = s.flash
  logv : t.logv = s.logv
  outs : s.outs <+: t.outs

theorem LogKept.trans {s t u : State} (h1 : LogKept s t) (h2 : LogKept t u) : LogKept s u :=
  ⟨h2.flash.trans h1.flash, h2.logv.trans h1.logv, h1.outs.trans h2.outs⟩

theorem logKept_postRecord (q k : Nat) (p : Bytes) (s : State) : LogKept s (postRecord q k p s) := ⟨rfl, rfl, outs_postRecord ..⟩

/-- The check of a slot, a failed code included (R236). -/
theorem logKept_checkSlot (n : Nat) (s : State) : LogKept s (checkSlot n s) := by
  have hself : LogKept s s := ⟨rfl, rfl, List.prefix_refl _⟩
  simp only [checkSlot]
  split
  · simp only [slotFail, halfFail]
    have hfault : ∀ (st : Status) (b : Bytes) (t : State), LogKept t (postFaultRaw st 15 b t) := fun _ _ _ => logKept_postRecord ..
    have hbad : ∀ (o : Orng), LogKept s { s with orng := o } := fun _ => ⟨rfl, rfl, List.prefix_refl _⟩
    split
    · exact ((hbad _).trans (hfault _ _ _)).trans (logKept_postRecord ..)
    · exact (hbad _).trans (hfault _ _ _)
  · exact hself

theorem logKept_checkSlots (ns : List Nat) (s : State) : LogKept s (checkSlots ns s) := by
  induction ns generalizing s with
  | nil => exact ⟨rfl, rfl, List.prefix_refl _⟩
  | cons n ns ih => exact (logKept_checkSlot n s).trans (ih _)

/-! ## Appending a record (R295) -/

theorem length_sha384_le (m : Bytes) : (sha384 m).length ≤ 48 := List.length_take_le ..

theorem length_leNat (n x : Nat) : (leNat n x).length = n := by
  induction n generalizing x with
  | zero => rfl
  | succ n ih => simp [leNat, ih]

theorem length_recordBytes_le (key : Bytes) (kind seq : Nat) (payload : Bytes) :
    (recordBytes key ⟨kind, seq, payload⟩).length ≤ 68 + payload.length := by
  have hmac_le : ∀ m, (hmac384 key m).length ≤ 48 := fun _ => length_sha384_le _
  simp only [recordBytes, leBv, List.length_append, length_leNat]
  exact Nat.le_trans (Nat.add_le_add_left (hmac_le _) _) (by omega)

theorem roundUp_le (n : Nat) : roundUp n 16 ≤ n + 15 := Nat.div_mul_le_self ..

/-- A log half ends before the image slots (Table BOOT-1). -/
theorem halfEnd_le (h : Nat) : halfBase h + halfSize ≤ 0x100000 := by
  unfold halfBase halfSize
  split <;> omega

/-- The log has `r` bytes left in its active half, or is uninitialised (R296). -/
def roomLeft (r : Nat) (s : State) : Prop :=
  match s.logv.half with
  | some h => h ≤ 1 ∧ s.logv.pos + r ≤ halfSize
  | none => 0x1000 + r ≤ halfSize

theorem roomLeft_of_logRoom {s : State} (h : logRoom s = true) : roomLeft 0x40000 s := by
  unfold logRoom at h
  unfold roomLeft
  split at h <;> simp_all [halfSize]

theorem roomLeft_mono {r r' : Nat} {s : State} (hr : r' ≤ r) (h : roomLeft r s) : roomLeft r' s := by
  unfold roomLeft at h ⊢
  split at h <;> omega

/-- The log ready for a record: initialised where it was not. -/
def logReady (key : Bytes) (s : State) : State := if s.logv.half.isNone then initLog key s else s

/-- The records of a log that is ready for one more. -/
def recsBefore (s : State) : List LogRec := if s.logv.half.isNone then [⟨8, 1, leNat 8 0⟩] else s.logv.recs

theorem initLog_logv (key : Bytes) (s : State) :
    (initLog key s).logv = { half := some 0, pos := 0x1000, next := 2, recs := [⟨8, 1, leNat 8 0⟩] } := rfl

theorem initLog_flash (key : Bytes) (s : State) : (initLog key s).flash =
    flashPut (halfBase 0) (recordBytes key ⟨8, 1, leNat 8 0⟩ ++ zeros 4020) (flashErase (halfBase 0) halfSize s).flash := by
  simp only [initLog, putCompact, flashWrite, emit]

theorem putRecord_flash (key : Bytes) (h kind : Nat) (payload : Bytes) (s : State) : (putRecord key h kind payload s).flash =
    flashPut (halfBase h + s.logv.pos) (recordBytes key ⟨kind, s.logv.next, payload⟩) s.flash := by
  simp only [putRecord, flashWrite, emit]

theorem logReady_none (key : Bytes) {s : State} (h : s.logv.half = none) : logReady key s = initLog key s := by simp [logReady, h]

theorem logReady_some (key : Bytes) {s : State} {k : Nat} (h : s.logv.half = some k) : logReady key s = s := by simp [logReady, h]

theorem logReady_recs (key : Bytes) (s : State) : (logReady key s).logv.recs = recsBefore s := by
  unfold logReady recsBefore
  split <;> rfl

theorem logReady_frame (key : Bytes) (s : State) :
    logReady key s = { s with flash := (logReady key s).flash, logv := (logReady key s).logv, outs := (logReady key s).outs } := by
  cases h : s.logv.half with
  | none => simp only [logReady_none key h, initLog, putCompact, flashWrite, flashErase, emit]
  | some k => rw [logReady_some key h]

theorem logReady_outs (key : Bytes) (s : State) : s.outs <+: (logReady key s).outs := by
  unfold logReady
  split
  · exact List.prefix_append ..
  · exact List.prefix_refl _

theorem logReady_half {key : Bytes} {r : Nat} {s : State} (h : roomLeft r s) :
    ∃ h, (logReady key s).logv.half = some h ∧ h ≤ 1 ∧ (logReady key s).logv.pos + r ≤ halfSize := by
  unfold roomLeft at h
  cases hh : s.logv.half with
  | none =>
    rw [hh] at h
    rw [logReady_none key hh, initLog_logv]
    exact ⟨0, rfl, Nat.zero_le 1, h⟩
  | some k =>
    rw [hh] at h
    rw [logReady_some key hh]
    exact ⟨k, hh, h⟩

theorem mapWf_logReady (key : Bytes) {s : State} (hw : mapWf 0xff s.flash = true) : mapWf 0xff (logReady key s).flash = true := by
  cases h : s.logv.half with
  | none => rw [logReady_none key h, initLog_flash]; exact mapWf_flashPut (mapWf_flashErase hw)
  | some k => rwa [logReady_some key h]

/-- The initialisation stays in half 0. -/
theorem mapGet_logReady (key : Bytes) {s : State} {a : Nat} (hw : mapWf 0xff s.flash = true) (ha : 0x100000 ≤ a) :
    mapGet 0xff (logReady key s).flash a = mapGet 0xff s.flash a := by
  cases h : s.logv.half with
  | none =>
    have hlen := length_recordBytes_le key 8 1 (leNat 8 0)
    have hend := halfEnd_le 0
    have hz : (recordBytes key ⟨8, 1, leNat 8 0⟩ ++ zeros 4020).length ≤ halfSize := by
      simp only [List.length_append, zeros, List.length_replicate, length_leNat, halfSize] at hlen ⊢
      omega
    rw [logReady_none key h, initLog_flash, mapGet_flashPut_other (mapWf_flashErase hw) (.inr (by omega)),
      mapGet_flashErase_other hw (.inr (by omega))]
  | some k => rw [logReady_some key h]

/-- A record that finds room, a whole half short of compaction, goes to the log's next position. -/
theorem appendRecord_eq {kind r : Nat} {payload : Bytes} {s : State} (hk : recordStatus s = none) (hr : roomLeft r s)
    (h64 : 65536 ≤ r) (hp : payload.length ≤ 1024) : ∃ key h, h ≤ 1 ∧ (logReady key s).logv.half = some h ∧
      (logReady key s).logv.pos + r ≤ halfSize ∧ appendRecord kind payload s = putRecord key h kind payload (logReady key s) := by
  obtain ⟨⟨key, hkey⟩, h15⟩ := recordKeys hk
  obtain ⟨h, hh, h1, hpos⟩ := logReady_half (key := key) hr
  refine ⟨key, h, h1, hh, hpos, ?_⟩
  have hready : (if s.logv.half.isNone then initLog key s else s) = logReady key s := rfl
  have hcompact : ¬ (halfSize - (logReady key s).logv.pos < 65536 ∧ firmwareRuns s = true) := by omega
  have hfull : ¬ halfSize < (logReady key s).logv.pos + 68 + payload.length := by omega
  simp only [appendRecord, hkey, h15, hready]
  simp only [hh, Option.getD_some]
  rw [if_neg hcompact, if_neg hfull, hh]
  rfl

/-- What an append with room adds: one record, at the end. -/
structure Appended (kind : Nat) (payload : Bytes) (s t : State) : Prop where
  frame : t = { s with flash := t.flash, logv := t.logv, outs := t.outs }
  recs : ∃ r, t.logv.recs = recsBefore s ++ [r] ∧ r.kind = kind ∧ r.payload = payload
  outs : s.outs <+: t.outs
  initialised : t.logv.half.isSome = true

section
variable {kind : Nat} {payload : Bytes} {s t : State} (h : Appended kind payload s t)
include h

theorem Appended.boot : t.boot = s.boot := by rw [h.frame]
theorem Appended.otp : t.otp = s.otp := by rw [h.frame]
theorem Appended.recordStatus : recordStatus t = recordStatus s := by rw [h.frame]; rfl

end

section
variable {kind r : Nat} {payload : Bytes} {s : State} (hk : recordStatus s = none) (hr : roomLeft r s) (h64 : 65536 ≤ r)
  (hp : payload.length ≤ 1024)
include hk hr h64 hp

theorem appendRecord_appended : Appended kind payload s (appendRecord kind payload s) := by
  obtain ⟨key, h, h1, hh, hpos, he⟩ := appendRecord_eq (kind := kind) hk hr h64 hp
  rw [he]
  refine ⟨?_, ⟨⟨kind, (logReady key s).logv.next, payload⟩, ?_, rfl, rfl⟩, ?_, ?_⟩
  · simp only [putRecord, flashWrite, emit]
    rw [logReady_frame key s]
  · rw [← logReady_recs key s]; rfl
  · exact (logReady_outs key s).trans (List.prefix_append ..)
  · exact hh ▸ rfl

/-- A record takes at most 1,108 bytes. -/
theorem appendRecord_roomLeft : roomLeft (r - 1108) (appendRecord kind payload s) := by
  obtain ⟨key, h, h1, hh, hpos, he⟩ := appendRecord_eq (kind := kind) hk hr h64 hp
  have hlen := length_recordBytes_le key kind (logReady key s).logv.next payload
  rw [he]
  change match (logReady key s).logv.half with | some h => h ≤ 1 ∧ _ | none => _
  rw [hh]
  refine ⟨h1, ?_⟩
  change roundUp ((logReady key s).logv.pos + _) 16 + _ ≤ _
  have := roundUp_le ((logReady key s).logv.pos + (recordBytes key ⟨kind, (logReady key s).logv.next, payload⟩).length)
  omega

/-- Nothing beyond the log's halves changes. -/
theorem mapGet_appendRecord {a : Nat} (hw : mapWf 0xff s.flash = true) (ha : 0x100000 ≤ a) :
    mapGet 0xff (appendRecord kind payload s).flash a = mapGet 0xff s.flash a := by
  obtain ⟨key, h, h1, hh, hpos, he⟩ := appendRecord_eq (kind := kind) hk hr h64 hp
  have hlen := length_recordBytes_le key kind (logReady key s).logv.next payload
  have hend := halfEnd_le h
  rw [he, putRecord_flash, mapGet_flashPut_other (mapWf_logReady key hw) (.inr (by omega)), mapGet_logReady key hw ha]

end

end Sys2Proof.RecordLog
end

section
/-! PROOF. Management commands on fuses, memory, settings and image slots: what each does where it may, and that it does nothing
elsewhere (14_update_and_bandstand.md R318 to R320, R328, R330). -/

namespace Sys2Proof.Management

open Sys2Proof Sys2Proof.Machine Sys2Proof.Laws Sys2Proof.RecordLog

/-! ## KEYGEN_EPOCH (R318) -/

theorem exec_keygenEpoch {m : MgmtHdr} {chain sig : Bytes} {v : Supplies} {s : State} (h : mgmtOk m s = true) :
    exec (.keygenEpoch m chain sig v) s =
      .next (within (chain.length + sig.length) (keygenBody chain sig v) (progOf 0x12 .none m) (taken 0x12 .none m s)) :=
  congrArg _ (mgmtCommand_taken h)

/-- The message's signatures verify under the chain's keys, and the chain carries the role. -/
def epochSigned (chain sig e d : Bytes) (s : State) : Bool :=
  Config.keygenRole chain && Config.ecdsaVerify e (epochMessage s) (slice sig 0 96) && Config.mldsaVerify d (epochMessage s) (slice sig 96 4627)

theorem keygenBody_refused {chain sig : Bytes} {v : Supplies} {p : MgmtProg} {s : State}
    (h : ∀ e d, chainVerify (trustAnchor s) chain = some (e, d) → epochSigned chain sig e d s = false) :
    keygenBody chain sig v p s = replyMgmt p .notPermitted [] s := by
  unfold keygenBody
  cases hc : chainVerify (trustAnchor s) chain with
  | none => rfl
  | some k => exact if_neg (by simpa [epochSigned] using h k.1 k.2 hc)

/-- The value of a thermometer is past its highest burned bit. -/
theorem thermo_above (burned : Nat → Bool) (n : Nat) :
    ∀ b, forUpTo n (fun b v => if burned b then b + 1 else v) 0 ≤ b → b < n → burned b = false := by
  induction n with
  | zero => exact fun _ _ h => absurd h (Nat.not_lt_zero _)
  | succ n ih =>
    intro b hv hb
    simp only [forUpTo] at hv
    split at hv
    next => omega
    next hn =>
      rcases Nat.lt_succ_iff_lt_or_eq.mp hb with hb | rfl
      · exact ih b hv hb
      · simpa using hn

/-- Bit `b` of thermometer `c` reads burned: at least two of its three copies are (R273). -/
def burnedAt (s : State) (c b : Nat) : Bool :=
  decide (2 ≤ ((List.range 3).filter (fun p => (otpData (arrayWord s (8 + 12 * c + 4 * p + b / 32))).getLsbD (b % 32))).length)

theorem burnedAt_thermoNow {s : State} {c : Nat} (h : thermoNow s c < 128) : burnedAt s c (thermoNow s c) = false :=
  thermo_above (burnedAt s c) 128 _ (Nat.le_refl _) h

/-- A counter that may still advance has a copy of its next bit unburned. -/
theorem exists_unburned {s : State} {c : Nat} (h : thermoNow s c < 128) : ∃ p, p < 3 ∧
    (arrayWord s (8 + 12 * c + 4 * p + thermoNow s c / 32)).getLsbD (thermoNow s c % 32) = false := by
  have hb := burnedAt_thermoNow h
  by_contra hall
  push Not at hall
  have hfull : (List.range 3).filter (fun p =>
      (otpData (arrayWord s (8 + 12 * c + 4 * p + thermoNow s c / 32))).getLsbD (thermoNow s c % 32)) = List.range 3 := by
    rw [List.filter_eq_self]
    intro p hp
    simpa [otpData, Nat.mod_lt] using hall p (List.mem_range.mp hp)
  simp [burnedAt, hfull] at hb

/-- So its advance has something to burn. -/
theorem neededBurns_ne_nil {s : State} {c : Nat} (h : thermoNow s c < 128) : neededBurns s (thermoBurns s c) ≠ [] := by
  obtain ⟨p, hp, hbit⟩ := exists_unburned h
  have hmem : (8 + 12 * c + 4 * p + thermoNow s c / 32, 1#40 <<< (thermoNow s c % 32)) ∈ thermoBurns s c :=
    List.mem_map.mpr ⟨p, List.mem_range.mpr hp, rfl⟩
  have hne : 1#40 <<< (thermoNow s c % 32) &&& ~~~(arrayWord s (8 + 12 * c + 4 * p + thermoNow s c / 32)) ≠ 0 := by
    intro h0
    have hk : thermoNow s c % 32 < 40 := by omega
    rw [BitVec.getLsbD_eq_getElem hk] at hbit
    have := congrArg (fun x : BitVec 40 => x.getLsbD (thermoNow s c % 32)) h0
    simp [hbit, hk] at this
  exact List.ne_nil_of_mem (List.mem_filter.mpr ⟨List.mem_map.mpr ⟨_, hmem, rfl⟩, by simpa using hne⟩)

/-- A signed KEYGEN_EPOCH begins its burn. -/
theorem keygenBody_burns {chain sig e d : Bytes} {v : Supplies} {p : MgmtProg} {s : State}
    (hc : chainVerify (trustAnchor s) chain = some (e, d)) (hs : epochSigned chain sig e d s = true) (hr : otpReady v s = true)
    (hl : s.otp.state < 4) (ht : thermoNow s 3 < 128) (hk : arrayLocked s 63 = false) : keygenBody chain sig v p s =
      { s with otp := { s.otp with cmd := some ⟨neededBurns s (thermoBurns s 3), 0, .command, .mgmt p.tag⟩ } } := by
  simp only [otpReady, Bool.and_eq_true, Bool.not_eq_true', Option.isNone_iff_eq_none] at hr
  obtain ⟨⟨⟨⟨hg, hcmd⟩, htam⟩, hsup⟩, hv⟩ := hr
  unfold epochSigned at hs
  simp [keygenBody, hc, hs, otpCommand, hg, htam, hcmd, thermoAdvance, Nat.not_le.mpr hl, Nat.not_le.mpr ht, hk, beginBurn, hsup, hv,
    neededBurns_ne_nil ht]

/-! ## CTX_MEMORY_READ (R319) -/

/-- The lines that a range of bytes touches. -/
def linesOf (addr len : Nat) : List Nat := (List.range ((addr + len - 1) / 64 + 1 - addr / 64)).map (· + addr / 64)

/-- The reads of a permitted request, presented line by line at the internal ports of their channels. -/
def readsSent (cid ksel addr len tag : Nat) (s : State) : State :=
  (linesOf addr len).foldl (fun s l => presentReq (l / 64 % Config.channels) ⟨.internal .memoryRead, l, cid, ksel, 0, none, 0⟩ s)
    { s with fence := { s.fence with memReads := s.fence.memReads ++
      [⟨cid, addr % 64, len, (linesOf addr len).map (fun l => (l, none)), .mgmt tag⟩] } }

/-- A context under consent is in a state that CTX_FENCED does not answer. -/
theorem not_fenced_of_memoryReadAllowed {s : State} {cid ksel : Nat} (h : memoryReadAllowed s cid ksel = true) :
    (ctxOf s cid).state ≠ .fenced := by
  intro hf
  simp [memoryReadAllowed, hf] at h

section
variable {m : MgmtHdr} {cid : Fin 256} {ksel : Fin 4} {addr : BitVec 64} {len : Nat} {s : State} (h : mgmtOk m s = true)
  (hu : m.unit.toNat = cid) (h1 : 1 ≤ cid.val) (h254 : cid.val ≤ 254) (hlo : 64 ≤ len) (hhi : len ≤ 4096) (hal : len % 64 = 0)
include h hu h1 h254 hlo hhi hal

/-- A request with operands in their ranges is judged by generation, state and consent. -/
theorem exec_ctxMemoryRead : exec (.ctxMemoryRead m cid ksel addr len) s = .next (
    if m.gen ≠ (ctxOf s cid).gen ∨ m.gen = 0 then
      replyMgmt (progOf 0x38 (.ctx cid.val) m) .staleGeneration [] (taken 0x38 (.ctx cid.val) m s)
    else if (ctxOf s cid).state = .fenced ∧ (ctxOf s cid).fencedAt = s.tick then
      replyMgmt (progOf 0x38 (.ctx cid.val) m) .ctxFenced [] (taken 0x38 (.ctx cid.val) m s)
    else if !memoryReadAllowed s cid ksel then
      replyMgmt (progOf 0x38 (.ctx cid.val) m) .notPermitted [] (taken 0x38 (.ctx cid.val) m s)
    else readsSent cid ksel addr.toNat len m.tag (taken 0x38 (.ctx cid.val) m s)) := by
  refine congrArg Host.Outcome.next ((mgmtCommand_taken h).trans ?_)
  rw [memoryReadBody, if_neg (by omega)]
  rfl

theorem exec_ctxMemoryRead_stale (hg : m.gen ≠ (ctxOf s cid).gen ∨ m.gen = 0) : exec (.ctxMemoryRead m cid ksel addr len) s =
    .next (replyMgmt (progOf 0x38 (.ctx cid.val) m) .staleGeneration [] (taken 0x38 (.ctx cid.val) m s)) := by
  rw [exec_ctxMemoryRead h hu h1 h254 hlo hhi hal, if_pos hg]

variable (hg : m.gen = (ctxOf s cid).gen) (h0 : m.gen ≠ 0)
include hg h0

theorem exec_ctxMemoryRead_allowed (ha : memoryReadAllowed s cid ksel = true) : exec (.ctxMemoryRead m cid ksel addr len) s =
    .next (readsSent cid ksel addr.toNat len m.tag (taken 0x38 (.ctx cid.val) m s)) := by
  rw [exec_ctxMemoryRead h hu h1 h254 hlo hhi hal, if_neg (fun hs => hs.elim (· hg) h0),
    if_neg (fun hf => not_fenced_of_memoryReadAllowed ha hf.1), if_neg (by simp [ha])]

theorem exec_ctxMemoryRead_refused (ha : memoryReadAllowed s cid ksel = false) : exec (.ctxMemoryRead m cid ksel addr len) s =
    .next (replyMgmt (progOf 0x38 (.ctx cid.val) m)
      (if (ctxOf s cid).state = .fenced ∧ (ctxOf s cid).fencedAt = s.tick then .ctxFenced else .notPermitted) []
      (taken 0x38 (.ctx cid.val) m s)) := by
  rw [exec_ctxMemoryRead h hu h1 h254 hlo hhi hal, if_neg (fun hs => hs.elim (· hg) h0)]
  split
  · rfl
  · rw [if_pos (by simp [ha])]

end

/-! ## Fields of payloads -/

/-- A little-endian field of a byte string. -/
theorem leAt_field (as bs : Bytes) (n x : Nat) : leAt (as ++ (leNat n x ++ bs)) as.length n = x % 256 ^ n := by
  have hs : slice (as ++ (leNat n x ++ bs)) as.length n = leNat n x := by
    have ht : (leNat n x ++ bs).take n = leNat n x := List.take_left' (length_leNat n x)
    simp [slice, fit, ht, length_leNat, zeros]
  rw [leAt, hs, leVal_leNat]

theorem length_fit (n : Nat) (bs : Bytes) : (fit n bs).length = n := by
  simp only [fit, zeros, List.length_append, List.length_replicate, List.length_take]
  omega

theorem slotPayload_slot {n : Nat} (hn : n < 256) (st seq : Nat) (dg : Bytes) : leAt (slotPayload n st seq dg) 0 1 = n := by
  have h := leAt_field [] (leNat 1 st ++ zeros 2 ++ leNat 8 seq ++ fit 48 dg) 1 n
  simpa [slotPayload, Nat.mod_eq_of_lt hn] using h

theorem slotPayload_state {st : Nat} (hs : st < 256) (n seq : Nat) (dg : Bytes) : leAt (slotPayload n st seq dg) 1 1 = st := by
  have h := leAt_field (leNat 1 n) (zeros 2 ++ leNat 8 seq ++ fit 48 dg) 1 st
  simpa [slotPayload, length_leNat, Nat.mod_eq_of_lt hs] using h

theorem length_slotPayload (n st seq : Nat) (dg : Bytes) : (slotPayload n st seq dg).length = 60 := by
  simp [slotPayload, length_leNat, length_fit, zeros]

theorem length_trialPayload (n seq : Nat) : (trialPayload n seq).length = 12 := by simp [trialPayload, length_leNat, zeros]

/-- A CONFIRM record names its slot and sequence number. -/
theorem recSlotSeq_trialPayload {n seq : Nat} (hn : n < 256) (hs : seq < 2 ^ 64) (r : LogRec) (hr : r.payload = trialPayload n seq) :
    recSlotSeq r = (n, seq) := by
  have h0 := leAt_field [] (zeros 3 ++ leNat 8 seq) 1 n
  have h4 := leAt_field (leNat 1 n ++ zeros 3) [] 8 seq
  have e0 : leAt (trialPayload n seq) 0 1 = n := by simpa [trialPayload, Nat.mod_eq_of_lt hn] using h0
  rw [Nat.mod_eq_of_lt (show seq < 256 ^ 8 from hs)] at h4
  have e4 : leAt (trialPayload n seq) 4 8 = seq := by simpa [trialPayload, length_leNat, zeros] using h4
  rw [recSlotSeq, hr, e0, e4]

/-! ## SETTINGS_WRITE (R320) -/

/-- The payload of a SETTINGS record. -/
def settingsPayload (b : Bytes) (s : State) : Bytes := leNat 4 (settingsFree s) ++ leNat 4 b.length ++ sha384 b

theorem length_settingsPayload_le (b : Bytes) (s : State) : (settingsPayload b s).length ≤ 56 := by
  have := length_sha384_le b
  simp only [settingsPayload, List.length_append, length_leNat]
  omega

/-- A settings block on its way: free space erased and programmed, the record still to come. -/
def settingsStored (b : Bytes) (s : State) : State :=
  flashWrite (settingsBase + settingsFree s) b (flashErase (settingsBase + settingsFree s) 0x40000 s)

section
variable {b : Bytes} {s : State} (hk : recordStatus s = none) (hr : logRoom s = true)
include hk hr

theorem writeSettings_appended : Appended 7 (settingsPayload b s) (settingsStored b s) (writeSettings b s) :=
  appendRecord_appended (s := settingsStored b s) hk (roomLeft_of_logRoom (s := s) hr) (by omega)
    (Nat.le_trans (length_settingsPayload_le b s) (by omega))

theorem writeSettings_flash (hw : mapWf 0xff s.flash = true) {k : Nat} (hkb : k < b.length) :
    mapGet 0xff (writeSettings b s).flash (settingsBase + settingsFree s + k) = b.getD k 0 := by
  have he := mapWf_flashErase (off := settingsBase + settingsFree s) (n := 0x40000) hw
  refine (mapGet_appendRecord (s := settingsStored b s) hk (roomLeft_of_logRoom (s := s) hr) (by omega)
    (Nat.le_trans (length_settingsPayload_le b s) (by omega)) (mapWf_flashPut he) ?_).trans (mapGet_flashPut_same he hkb)
  simp only [settingsBase]
  omega

end

/-- The reply to a command that has changed the flash and the log alone. -/
theorem replyMgmt_logged {o : Nat} {u : UnitRef} {m : MgmtHdr} {st : Status} {d : Bytes} {s t : State} (h : mgmtOk m s = true)
    (ht : t = { taken o u m s with flash := t.flash, logv := t.logv, outs := t.outs }) :
    replyMgmt (progOf o u m) st d t = { s with
      flash := t.flash, logv := t.logv, outs := (replyMgmt (progOf o u m) st d t).outs
      sund := (replyMgmt (progOf o u m) st d t).sund, band := heard m.assoc s } := by
  have hm := mgmt_taken (o := o) (u := u) h
  rw [ht]
  simp only [replyMgmt, emit, progOf] at hm ⊢
  rw [hm]
  rfl

/-! ## Retiring a slot (R330) -/

/-- The record with which a slot was last marked is in force. -/
theorem isRetired_of_last {k : Nat} {rs : List LogRec} {r : LogRec} {u : State} (hu : u.logv.recs = rs ++ [r]) (hkind : r.kind = 1)
    (hslot : leAt r.payload 0 1 = k) (hst : leAt r.payload 1 1 = 3) : isRetired u k = true := by
  have hf : inForce u 1 (fun r => decide (leAt r.payload 0 1 = k)) = some r := by
    simp [inForce, hu, List.filter_append, hkind, hslot]
  simp [isRetired, slotRecord, hf, hst]

/-- What retiring a slot leaves. -/
structure Retired (k : Nat) (s u : State) : Prop where
  retired : isRetired u k = true
  frame : u = { s with flash := u.flash, logv := u.logv, outs := u.outs, updt := { s.updt with gens := u.updt.gens } }
  recs : ∃ r, u.logv.recs = recsBefore s ++ [r]
  outs : s.outs <+: u.outs

section
variable {k : Nat} {s u : State} (h : Retired k s u)
include h

theorem Retired.boot : u.boot = s.boot := by rw [h.frame]
theorem Retired.otp : u.otp = s.otp := by rw [h.frame]

end

theorem retireSlot_eq (k : Nat) (s : State) : ∃ seq dg, retireSlot k s = markSlot k 3 seq dg s := by
  unfold retireSlot
  split
  · exact ⟨_, _, rfl⟩
  · exact ⟨_, _, rfl⟩

theorem retireSlot_retired {k r : Nat} {s : State} (hk : recordStatus s = none) (hr : roomLeft r s) (h64 : 65536 ≤ r) (hn : k < 256) :
    Retired k s (retireSlot k s) := by
  obtain ⟨seq, dg, he⟩ := retireSlot_eq k s
  obtain ⟨⟨key, hkey⟩, -⟩ := recordKeys hk
  have ha := appendRecord_appended (kind := 1) (payload := slotPayload k 3 seq dg) hk hr h64 (by rw [length_slotPayload]; omega)
  obtain ⟨r, hrecs, hkind, hpay⟩ := ha.recs
  rw [he, markSlot, if_neg (by simp [hkey])]
  refine ⟨isRetired_of_last hrecs hkind ?_ ?_, ?_, ⟨r, hrecs⟩, ha.outs⟩
  · rw [hpay, slotPayload_slot hn]
  · rw [hpay, slotPayload_state (by omega)]
  · rw [ha.frame]

/-! ## The confirmation of the running slot (R328) -/

/-- A confirmation stands in the log, and only records 2 and 3 of R328 follow it. -/
def confirmedTail (n seq : Nat) (t : State) : Prop :=
  ∃ pre c rs, t.logv.recs = pre ++ c :: rs ∧ c.kind = 4 ∧ recSlotSeq c = (n, seq) ∧ ∀ r ∈ rs, r.kind = 7 ∨ r.kind = 2

theorem confirmedTail.isConfirmed {n seq : Nat} {t : State} (h : confirmedTail n seq t) : isConfirmed t n seq = true := by
  obtain ⟨pre, c, rs, hrecs, hkind, hsn, -⟩ := h
  simp [Machine.isConfirmed, hrecs, hkind, hsn]

/-- No SLOT_STATE record has come since. -/
theorem confirmedTail.not_recordedSince {n seq : Nat} {t : State} (h : confirmedTail n seq t) (p : LogRec → Bool) :
    recordedSince t n seq 1 p = false := by
  obtain ⟨pre, c, rs, hrecs, hkind, hsn, hrs⟩ := h
  have hnot : ∀ r ∈ rs.reverse, (!(decide (r.kind = 4) && decide (recSlotSeq r = (n, seq)))) = true := by
    intro r hr
    rcases hrs r (List.mem_reverse.mp hr) with h | h <;> simp [h]
  have htake : (t.logv.recs.reverse.takeWhile (fun r => !(decide (r.kind = 4) && decide (recSlotSeq r = (n, seq))))) = rs.reverse := by
    rw [hrecs, List.reverse_append, List.reverse_cons, List.append_assoc, List.takeWhile_append_of_pos hnot, List.singleton_append,
      List.takeWhile_cons_of_neg (by simp [hkind, hsn]), List.append_nil]
  rw [recordedSince, htake, List.any_eq_false]
  intro r hr
  rcases hrs r (List.mem_reverse.mp hr) with h | h <;> simp [h]

/-- A step of a confirmation of slot `n` has led from `s` to `t`, which has `r` bytes of its log left. -/
structure Confirming (n r : Nat) (s t : State) : Prop where
  tail : confirmedTail n s.boot.seq t
  initialised : t.logv.half.isSome = true
  room : roomLeft r t
  keys : recordStatus t = none
  boot : t.boot = s.boot
  array : t.otp.array = s.otp.array
  outs : s.outs <+: t.outs

theorem recsBefore_initialised {s : State} (h : s.logv.half.isSome = true) : recsBefore s = s.logv.recs := by
  cases hh : s.logv.half <;> simp_all [recsBefore]

/-- Record 1 of R328. -/
theorem confirming_confirm {n r : Nat} {s : State} (hk : recordStatus s = none) (hr : roomLeft r s) (h64 : 65536 ≤ r) (hn : n < 256)
    (hs : s.boot.seq < 2 ^ 64) : Confirming n (r - 1108) s (appendRecord 4 (trialPayload n s.boot.seq) s) := by
  have hp : (trialPayload n s.boot.seq).length ≤ 1024 := by rw [length_trialPayload]; omega
  have ha := appendRecord_appended (kind := 4) hk hr h64 hp
  obtain ⟨c, hrecs, hkind, hpay⟩ := ha.recs
  refine ⟨⟨recsBefore s, c, [], hrecs, hkind, recSlotSeq_trialPayload hn hs c hpay, by simp⟩, ha.initialised,
    appendRecord_roomLeft hk hr h64 hp, ha.recordStatus.trans hk, ha.boot, congrArg Otp.array ha.otp, ha.outs⟩

/-- Records 2 and 3 of R328, each only where it is missing. -/
theorem Confirming.append {n r kind : Nat} {payload : Bytes} {s t : State} (h : Confirming n r s t) (h64 : 65536 ≤ r)
    (hkind : kind = 7 ∨ kind = 2) (hp : payload.length ≤ 1024) (done : Prop) [Decidable done] :
    Confirming n (r - 1108) s (if done then t else appendRecord kind payload t) := by
  split
  · exact ⟨h.tail, h.initialised, roomLeft_mono (Nat.sub_le r 1108) h.room, h.keys, h.boot, h.array, h.outs⟩
  · have ha := appendRecord_appended (kind := kind) h.keys h.room h64 hp
    obtain ⟨pre, c, rs, hrecs, hck, hcs, hrs⟩ := h.tail
    obtain ⟨x, hx, hxk, -⟩ := ha.recs
    rw [recsBefore_initialised h.initialised, hrecs] at hx
    refine ⟨⟨pre, c, rs ++ [x], by simpa using hx, hck, hcs, ?_⟩, ha.initialised, appendRecord_roomLeft h.keys h.room h64 hp,
      ha.recordStatus.trans h.keys, ha.boot.trans h.boot, (congrArg Otp.array ha.otp).trans h.array,
      h.outs.trans ha.outs⟩
    intro y hy
    rcases List.mem_append.mp hy with hy | hy
    · exact hrs y hy
    · rw [List.mem_singleton.mp hy, hxk]; exact hkind

/-- The advance of OTP counter 0 begins a burn at most (R329). -/
theorem raiseFloor_frame (svn : Nat) (s : State) :
    raiseFloor svn s = { s with otp := (raiseFloor svn s).otp } ∧ (raiseFloor svn s).otp.array = s.otp.array := by
  simp only [raiseFloor]
  split
  · exact ⟨rfl, rfl⟩
  next h =>
    have hrep : s.otp.repairAt = none := by
      simp only [not_or] at h
      simpa using h.2.2.1
    simp only [beginBurn]
    split
    · exact ⟨rfl, rfl⟩
    · split
      · simp [endOtp, hrep, finish]
      · exact ⟨rfl, rfl⟩

theorem Confirming.raiseFloor {n r : Nat} {s t : State} (h : Confirming n r s t) (svn : Nat) : Confirming n r s (raiseFloor svn t) := by
  obtain ⟨hf, ha⟩ := raiseFloor_frame svn t
  rw [hf]
  exact { h with array := ha.trans h.array }

/-- What the records of a confirmation leave, once they are there. -/
structure Confirmed (n : Nat) (s u : State) : Prop where
  confirmed : isConfirmed u n s.boot.seq = true
  retired : isRetired u (1 - n) = true
  boot : u.boot = s.boot
  array : u.otp.array = s.otp.array
  outs : s.outs <+: u.outs

/-- A record of R328 stands after the confirmation in force; a SLOT_STATE record is one for the other slot. -/
def doneSince (n kind : Nat) (t : State) : Bool :=
  recordedSince t n t.boot.seq kind (fun r => decide (kind ≠ 1) || decide (leAt r.payload 0 1 = 1 - n))

/-- Record 2 of R328: the settings block of the activation. -/
def settingsStep (n : Nat) (a : LogRec) (t : State) : State :=
  if leAt a.payload 64 4 = 0xffffffff ∨ doneSince n 7 t = true then t else appendRecord 7 (slice a.payload 64 56) t

/-- Record 3 of R328: the floor. -/
def floorStep (n svn : Nat) (t : State) : State := if doneSince n 2 t = true then t else appendRecord 2 (leNat 4 svn) t

/-- Record 4 of R328: the other slot retired unless it is. -/
def retireStep (n : Nat) (t : State) : State := if (isRetired t (1 - n) || doneSince n 1 t) = true then t else retireSlot (1 - n) t

theorem confirmRest_eq {n : Nat} {t : State} (hn : t.boot.slot.getD 0 = n) (hc : isConfirmed t n t.boot.seq = true) : confirmRest t =
    match activationOf t n t.boot.seq with
    | none => retireStep n t
    | some a => retireStep n (if testBit (leAt a.payload 1 1) 0 = true then
        raiseFloor t.boot.svn (floorStep n t.boot.svn (settingsStep n a t)) else settingsStep n a t) := by
  subst hn
  rw [confirmRest, if_neg (by simp [hc])]
  rfl

section
variable {n r : Nat} {s t : State} (h : Confirming n r s t)
include h

theorem Confirming.settings (h64 : 65536 ≤ r) (a : LogRec) : Confirming n (r - 1108) s (settingsStep n a t) :=
  h.append h64 (.inl rfl) (by rw [slice, length_fit]; omega) _

theorem Confirming.floor (h64 : 65536 ≤ r) (svn : Nat) : Confirming n (r - 1108) s (floorStep n svn t) :=
  h.append h64 (.inr rfl) (by rw [length_leNat]; omega) _

theorem Confirming.retire (h64 : 65536 ≤ r) (hn : n < 2) : Confirmed n s (retireStep n t) := by
  have hnone : doneSince n 1 t = false := by
    rw [doneSince, h.boot]
    exact h.tail.not_recordedSince _
  rw [retireStep, hnone, Bool.or_false]
  split
  next hr => exact ⟨h.tail.isConfirmed, hr, h.boot, h.array, h.outs⟩
  next =>
    have hr := retireSlot_retired (k := 1 - n) h.keys h.room h64 (by omega)
    refine ⟨?_, hr.retired, hr.boot.trans h.boot,
      (congrArg Otp.array hr.otp).trans h.array, h.outs.trans hr.outs⟩
    obtain ⟨x, hx⟩ := hr.recs
    have hc := h.tail.isConfirmed
    rw [recsBefore_initialised h.initialised] at hx
    simp only [isConfirmed] at hc ⊢
    rw [hx, List.any_append, hc, Bool.true_or]

/-- Records 2 to 4 of R328, as the activation asks for them. -/
theorem Confirming.rest (h64 : 67752 ≤ r) (hn : n < 2) (hslot : s.boot.slot = some n) : Confirmed n s (confirmRest t) := by
  have hnt : t.boot.slot.getD 0 = n := by rw [h.boot, hslot]; rfl
  rw [confirmRest_eq hnt (by rw [h.boot]; exact h.tail.isConfirmed)]
  split
  next => exact h.retire (by omega) hn
  next a _ =>
    have hset := h.settings (by omega) a
    split
    · exact ((hset.floor (by omega) _).raiseFloor _).retire (by omega) hn
    · exact hset.retire (by omega) hn

end

/-- The running slot in trial confirmed. -/
theorem confirmSlot_confirmed {n : Nat} {s : State} (hslot : s.boot.slot = some n) (hn : n < 2) (hk : recordStatus s = none)
    (hr : logRoom s = true) (hs : s.boot.seq < 2 ^ 64) : confirmedSlot n s (confirmSlot s) ∧ s.outs <+: (confirmSlot s).outs := by
  have hd : s.boot.slot.getD 0 = n := by rw [hslot]; rfl
  have hc := (confirming_confirm hk (roomLeft_of_logRoom hr) (by omega) (show n < 256 by omega) hs).rest (by omega) hn hslot
  simp only [confirmSlot, hd]
  generalize confirmRest (appendRecord 4 (trialPayload n s.boot.seq) s) = t at hc ⊢
  refine ⟨⟨rfl, congrArg (fun b : Boot => { b with trial := false }) hc.boot, hc.array, hc.confirmed, hc.retired⟩, ?_⟩
  refine List.IsPrefix.trans ?_ (outs_postEvent ..)
  exact hc.outs

/-! ## Commands on slots (R24) -/

section
variable {m : MgmtHdr} {n o : Nat} {u : UnitRef} {p : MgmtProg} {k : Nat → MgmtProg → State → State} {s : State}

theorem slotCommand_named (h : namesSlot m n s = true) : slotCommand m k p (taken o u m s) = k n p (taken o u m s) := by
  simp only [namesSlot, Bool.and_eq_true, decide_eq_true_eq] at h
  obtain ⟨⟨⟨rfl, h2⟩, hg⟩, h0⟩ := h
  have hfresh : ¬ (m.gen ≠ mapGet 0 (taken o u m s).updt.gens m.unit.toNat ∨ m.gen = 0) := fun h => h.elim (· hg) h0
  rw [slotCommand, if_neg (by omega), if_neg hfresh]

theorem slotCommand_stale (hn : m.unit.toNat = n) (h2 : n < 2) (hg : m.gen ≠ mapGet 0 s.updt.gens n ∨ m.gen = 0) :
    slotCommand m k p (taken o u m s) = replyMgmt p .staleGeneration [] (taken o u m s) := by
  subst hn
  rw [slotCommand, if_neg (by omega), if_pos (c := m.gen ≠ mapGet 0 (taken o u m s).updt.gens m.unit.toNat ∨ m.gen = 0) hg]

end

theorem exec_updtConfirm {m : MgmtHdr} {s : State} (h : mgmtOk m s = true) : exec (.updtConfirm m) s =
    .next (slotCommand m confirmBody (progOf 0x48 (mgmtSlot m) m) (taken 0x48 (mgmtSlot m) m s)) := congrArg _ (mgmtCommand_taken h)

theorem exec_updtDiscard {m : MgmtHdr} {s : State} (h : mgmtOk m s = true) : exec (.updtDiscard m) s =
    .next (slotCommand m discardBody (progOf 0x49 (mgmtSlot m) m) (taken 0x49 (mgmtSlot m) m s)) := congrArg _ (mgmtCommand_taken h)

theorem exec_settingsWrite {m : MgmtHdr} {b : Bytes} {s : State} (h : mgmtOk m s = true) : exec (.settingsWrite m b) s =
    .next (within b.length (settingsBody b) (progOf 0x40 .none m) (taken 0x40 .none m s)) := congrArg _ (mgmtCommand_taken h)

/-- The running slot may be confirmed while it is in trial (R328). -/
theorem confirmBody_ok {n : Nat} {p : MgmtProg} {s : State} (hslot : s.boot.slot = some n) (htrial : slotInTrial s n = true)
    (hk : recordStatus s = none) : confirmBody n p s = replyMgmt p .ok [] (confirmSlot s) := by
  rw [confirmBody, if_pos ⟨hslot, htrial⟩, withRecords_ok hk]

theorem confirmBody_refused {n : Nat} {p : MgmtProg} {s : State} (h : s.boot.slot ≠ some n ∨ slotInTrial s n = false) :
    confirmBody n p s = replyMgmt p .notPermitted [] s :=
  if_neg fun hc => h.elim (· hc.1) (by simp [hc.2])

/-- A slot that is STAGED or in trial, that neither runs nor is named by an activation, may be discarded (R330). -/
theorem discardBody_ok {n : Nat} {p : MgmtProg} {s : State} (hrun : s.boot.slot ≠ some n)
    (hst : slotInTrial s n = true ∨ ∃ q dg, slotRecord s n = some (1, q, dg)) (hpend : pendingActivation s = none)
    (hact : s.updt.activating = false) (hk : recordStatus s = none) :
    discardBody n p s = replyMgmt p .ok [] (retireSlot n s) := by
  simp only [discardBody, hpend]
  rw [if_neg, withRecords_ok hk]
  rcases hst with h | ⟨q, dg, h⟩ <;> simp [hrun, hact, h]

theorem discardBody_refused {n : Nat} {p : MgmtProg} {s : State} (h : s.boot.slot = some n ∨ s.updt.activating = true) :
    discardBody n p s = replyMgmt p .notPermitted [] s := by
  unfold discardBody
  rw [if_pos]
  rcases h with h | h <;> simp [h]

/-- AUTO_CONFIRM_EXPIRY where its conditions hold (R328). -/
theorem exec_autoConfirmExpiry {s : State} {t n : Nat} (ha : autoConfirm s = some t) (hready : s.belv.ready = true)
    (hslot : s.boot.slot = some n) (htrial : slotInTrial s n = true) (htam : s.pav.tamper = false) (hsup : s.pav.supply = none)
    (hdue : s.boot.readyAt + 250000000 * t ≤ s.tick) (hdies : ∀ e ∈ s.dies, e.2.state ≠ .failed) (hk : recordStatus s = none) :
    exec .autoConfirmExpiry s = .next (confirmSlot s) := by
  change Host.Outcome.next (autoConfirmEffect s) = _
  simp only [autoConfirmEffect, ha]
  rw [if_pos]
  simpa [hready, runningInTrial, hslot, htrial, htam, hsup, hdue, hk] using hdies

/-- It has none without AUTO_CONFIRM_S, before READY, and where a die is FAILED. -/
theorem exec_autoConfirmExpiry_idle {s : State}
    (h : autoConfirm s = none ∨ s.belv.ready = false ∨ ∃ e ∈ s.dies, e.2.state = .failed) : exec .autoConfirmExpiry s = .next s := by
  change Host.Outcome.next (autoConfirmEffect s) = _
  unfold autoConfirmEffect
  split
  next => rfl
  next t ha =>
    rw [if_neg]
    rcases h with h | h | ⟨e, he, hf⟩
    · simp [h] at ha
    · simp [h]
    · simp only [Bool.and_eq_true, List.all_eq_true]
      exact fun hall => by simpa [hf] using hall.2 e he

/-- SETTINGS_WRITE may write: no slot in trial, no activation pending, the flash gate open (R320, log 74). -/
theorem settingsBody_ok {b : Bytes} {p : MgmtProg} {s : State} (hb : b.length ≤ 65523) (h0 : slotInTrial s 0 = false)
    (h1 : slotInTrial s 1 = false) (ha : activationPending s = false) (hg : gateOpen s 6 = true) : settingsBody b p s =
      withRecords (fun st => replyMgmt p st []) (fun s => replyMgmt p .ok [] (writeSettings b s)) s := by
  rw [settingsBody, if_neg (by omega), if_neg (by simp [h0, h1, ha, hg])]

theorem settingsBody_refused {b : Bytes} {p : MgmtProg} {s : State} (hb : b.length ≤ 65523)
    (h : slotInTrial s 0 = true ∨ slotInTrial s 1 = true ∨ activationPending s = true ∨ gateOpen s 6 = false) :
    settingsBody b p s = replyMgmt p .notPermitted [] s := by
  rw [settingsBody, if_neg (by omega), if_pos]
  simpa [or_assoc] using h

/-! ## The statement -/

/-- Settles O56: each command's path, then what its own meaning does where it may, and the reply alone elsewhere. -/
theorem managementActsOnlyWhereItMay : Obligations.ManagementActsOnlyWhereItMay := by
  unfold Obligations.ManagementActsOnlyWhereItMay
  refine ⟨?_, ?_, ?_, ?_, ?_, ?_, ?_, fun s h => exec_autoConfirmExpiry_idle h⟩
  · intro m chain sig e d v s hok hc hs hlen hr hl ht hk -- KEYGEN_EPOCH
    refine ⟨_, exec_keygenEpoch hok, ?_⟩
    rw [within_short hlen, keygenBody_burns (s := taken 0x12 .none m s) hc hs hr hl ht hk]
    exact ⟨rfl, rfl⟩
  · intro m chain sig v s hok -- KEYGEN_EPOCH refused
    have he := exec_keygenEpoch (chain := chain) (sig := sig) (v := v) hok
    refine ⟨fun hlen hs => ?_, fun hlen => ?_⟩
    · rw [within_short hlen, keygenBody_refused (s := taken 0x12 .none m s) hs] at he
      exact onlyAnswered_of_exec hok he
    · rw [within_long hlen] at he
      exact onlyAnswered_of_exec hok he
  · intro m cid ksel addr len s a hok hu h1 h254 hlo hhi hal ha -- CTX_MEMORY_READ
    refine ⟨fun hg h0 hallow => ⟨_, rfl, ?_⟩, fun hg h0 hno => ?_, fun hstale =>
      onlyAnswered_of_exec hok (exec_ctxMemoryRead_stale hok hu h1 h254 hlo hhi hal hstale)⟩
    · rw [ha, exec_ctxMemoryRead_allowed hok hu h1 h254 hlo hhi hal hg h0 hallow]
      rfl
    · obtain ⟨t, ht, hrep, hans⟩ := onlyAnswered_of_exec hok (exec_ctxMemoryRead_refused hok hu h1 h254 hlo hhi hal hg h0 hno)
      exact ⟨t, ht, hans, hrep⟩
  · intro m b s hok hc -- SETTINGS_WRITE
    have he := exec_settingsWrite (b := b) hok
    refine ⟨?_, ?_, ?_, ?_⟩
    · intro hb h0 h1 ha hg hr hk
      have happ := writeSettings_appended (b := b) (s := taken 0x40 .none m s) hk hr
      rw [within_short hb, settingsBody_ok (s := taken 0x40 .none m s) hb h0 h1 ha hg, withRecords_ok (s := taken 0x40 .none m s) hk] at he
      obtain ⟨r, hrecs, hkind, hpay⟩ := happ.recs
      exact ⟨_, he, replied_replyMgmt rfl ((List.prefix_append ..).trans happ.outs),
        fun k hkb => writeSettings_flash (s := taken 0x40 .none m s) hk hr (canonical_flash hc) hkb,
        ⟨r, (congrArg List.getLast? hrecs).trans List.getLast?_concat, hkind, hpay⟩, replyMgmt_logged hok happ.frame⟩
    · intro st hb h0 h1 ha hg hk
      rw [within_short hb, settingsBody_ok (s := taken 0x40 .none m s) hb h0 h1 ha hg, withRecords_refused (s := taken 0x40 .none m s) hk] at he
      have hkept := logKept_checkSlots [14, 15] (taken 0x40 .none m s)
      exact ⟨_, he, replied_replyMgmt rfl hkept.outs, hkept.flash, hkept.logv⟩
    · intro hb h
      rw [within_short hb, settingsBody_refused (s := taken 0x40 .none m s) hb h] at he
      exact onlyAnswered_of_exec hok he
    · intro hb
      rw [within_long hb] at he
      exact onlyAnswered_of_exec hok he
  · intro m n s hok hn hr hs -- UPDT_CONFIRM, UPDT_DISCARD
    have hn2 : n < 2 := by
      simp only [namesSlot, Bool.and_eq_true, decide_eq_true_eq] at hn
      exact hn.1.1.2
    have hcon := exec_updtConfirm hok
    have hdis := exec_updtDiscard hok
    rw [slotCommand_named hn] at hcon hdis
    refine ⟨?_, ?_, ?_, ?_⟩
    · intro hslot htrial hk
      have hdone := confirmSlot_confirmed (s := taken 0x48 (mgmtSlot m) m s) hslot hn2 hk hr hs
      rw [confirmBody_ok (s := taken 0x48 (mgmtSlot m) m s) hslot htrial hk] at hcon
      exact ⟨_, hcon, replied_replyMgmt rfl hdone.2, hdone.1⟩
    · intro h
      rw [confirmBody_refused (s := taken 0x48 (mgmtSlot m) m s) h] at hcon
      exact onlyAnswered_of_exec hok hcon
    · intro hrun hst hpend hact hk
      have hret := retireSlot_retired (k := n) (s := taken 0x49 (mgmtSlot m) m s) hk (roomLeft_of_logRoom hr) (by omega) (by omega)
      rw [discardBody_ok (s := taken 0x49 (mgmtSlot m) m s) hrun hst hpend hact hk] at hdis
      exact ⟨_, hdis, replied_replyMgmt rfl hret.outs, hret.retired, hret.boot, hret.otp⟩
    · intro h
      rw [discardBody_refused (s := taken 0x49 (mgmtSlot m) m s) h] at hdis
      exact onlyAnswered_of_exec hok hdis
  · intro m n s hok hn h2 hg -- stale generations
    have hcon := exec_updtConfirm hok
    have hdis := exec_updtDiscard hok
    rw [slotCommand_stale hn h2 hg] at hcon hdis
    exact ⟨onlyAnswered_of_exec hok hcon, onlyAnswered_of_exec hok hdis⟩
  · intro s t n ha hready hslot hn htrial htam hsup hdue hdies hr hs hk -- AUTO_CONFIRM_EXPIRY
    exact ⟨_, exec_autoConfirmExpiry ha hready hslot htrial htam hsup hdue hdies hk,
      (confirmSlot_confirmed hslot hn hk hr hs).1⟩

end Sys2Proof.Management
end

section
/-! PROOF. Zeroising of key slots (10_orangery_keys.md R236, R237, R265): in a map in canonical form a zeroised slot is EMPTY, whatever
loads and digest requests end with its key. -/

namespace Sys2Proof.Zeroising

open Sys2Proof Sys2Proof.Machine Sys2Proof.Laws

/-! ## Answers leave the vault -/

theorem irqAfter_orng (noIrq : Bool) (r : Nat) (s : State) : (irqAfter noIrq r s).orng = s.orng := by
  simp only [irqAfter]
  split
  · rfl
  · split <;> rfl

theorem writeCpl_orng (r : Nat) (noIrq : Bool) (b : Bytes) (s : State) : (writeCpl r noIrq b s).orng = s.orng := irqAfter_orng ..

theorem noteBad_orng (ip : InProg) (s : State) : (noteBad ip s).orng = s.orng := by
  simp only [noteBad]
  split <;> rfl

theorem completeHost_orng (ip : InProg) (st : Status) (d : Bytes) (s : State) : (completeHost ip st d s).orng = s.orng := by
  simp only [completeHost, apply_ite State.orng, countUp_orng, writeCpl_orng, updCpl_orng, noteBad_orng, ite_self]

theorem finish_orng (w : Waiter) (st : Status) (d : Bytes) (s : State) : (finish w st d s).orng = s.orng := by
  cases w with
  | none => rfl
  | host id =>
    simp only [finish]
    split
    · exact completeHost_orng ..
    · rfl
  | mgmt tag =>
    simp only [finish]
    split <;> rfl

theorem answerLoad_orng (l : KeyLoad) (st : Status) (d : Bytes) (s : State) : (answerLoad l st d s).orng = s.orng := by
  simp only [answerLoad]
  split
  · exact finish_orng ..
  · exact finish_orng ..
  · rfl

/-! ## What gives no EMPTY slot a key -/

/-- Between two states every slot that was EMPTY has stayed so, and the slots' map its canonical form. -/
structure GainsNoKey (s t : State) : Prop where
  wf : mapWf {} s.orng.slots = true → mapWf {} t.orng.slots = true
  empty : mapWf {} s.orng.slots = true → ∀ n, (slotOf s n).state = .empty → (slotOf t n).state = .empty

theorem GainsNoKey.refl (s : State) : GainsNoKey s s := ⟨id, fun _ _ => id⟩

theorem GainsNoKey.trans {s t u : State} (h1 : GainsNoKey s t) (h2 : GainsNoKey t u) : GainsNoKey s u :=
  ⟨h2.wf ∘ h1.wf, fun h n => h2.empty (h1.wf h) n ∘ h1.empty h n⟩

/-- What leaves the slots as they were. -/
theorem GainsNoKey.of_slots {s t : State} (h : t.orng.slots = s.orng.slots) : GainsNoKey s t := by
  refine ⟨fun hw => h ▸ hw, fun _ n he => ?_⟩
  rwa [slotOf, h]

/-- Steps that each give none, one after another. -/
theorem GainsNoKey.foldl {α : Type} {f : State → α → State} (hf : ∀ s a, GainsNoKey s (f s a)) (as : List α) (s : State) :
    GainsNoKey s (as.foldl f s) := by
  induction as generalizing s with
  | nil => exact .refl s
  | cons a as ih => exact (hf s a).trans (ih _)

/-- What a changed slot reads as, where the map of the slots alone is known to be in canonical form. -/
theorem slotOf_updSlot_self {n : Nat} {f : Slot → Slot} {s : State} (hw : mapWf {} s.orng.slots = true) :
    slotOf (updSlot n f s) n = f (slotOf s n) := mapGet_mapMod_same hw

theorem slotOf_updSlot_ne {n k : Nat} {f : Slot → Slot} {s : State} (hw : mapWf {} s.orng.slots = true) (hk : k ≠ n) :
    slotOf (updSlot n f s) k = slotOf s k := mapGet_mapMod_other hw hk

/-- A changed slot that was not EMPTY, or is EMPTY now. -/
theorem GainsNoKey.updSlot {n : Nat} {f : Slot → Slot} {s : State}
    (hf : (slotOf s n).state = .empty → (f (slotOf s n)).state = .empty) : GainsNoKey s (updSlot n f s) := by
  refine ⟨mapWf_mapMod, fun hw k he => ?_⟩
  by_cases hk : k = n
  · subst hk
    rw [slotOf_updSlot_self hw]
    exact hf he
  · rwa [slotOf_updSlot_ne hw hk]

/-- A failed code makes a slot that was not EMPTY BAD (R236). -/
theorem gainsNoKey_halfFail {n half : Nat} {byRemask : Bool} {s : State} (hn : (slotOf s n).state ≠ .empty) :
    GainsNoKey s (halfFail n half byRemask s) := by
  refine (GainsNoKey.updSlot (f := fun x => { x with state := .bad, active := {}, pend := {}, pending := false })
    (fun he => absurd he hn)).trans (.of_slots ?_)
  simp only [halfFail]
  split <;> rfl

theorem gainsNoKey_checkSlot (n : Nat) (s : State) : GainsNoKey s (checkSlot n s) := by
  simp only [checkSlot]
  split
  next h => exact gainsNoKey_halfFail (by simp [h.1])
  next => exact .refl s

theorem gainsNoKey_useSlot (n : Nat) (attr : BitVec 5) (cid : Nat) (s : State) : GainsNoKey s (useSlot n attr cid s).2 := by
  have hbad (hok : slotCheck n attr cid s = .ok) : GainsNoKey s (slotFail n false s) := by
    refine gainsNoKey_halfFail (fun he => ?_)
    simp only [slotCheck, he] at hok
    split at hok <;> cases hok
  unfold useSlot
  split
  next hok =>
    simp only []
    split
    · exact .refl s
    · exact hbad hok
  next => exact .refl s

theorem gainsNoKey_dropPending (n : Nat) (s : State) : GainsNoKey s (dropPending n s) :=
  .updSlot (fun he => by simp [he])

/-- The end of the loads that held a slot's pending half (Table ORNG-11). -/
theorem gainsNoKey_dropLoads (n : Nat) (s : State) : GainsNoKey s (dropLoads n s) := by
  have hloads : GainsNoKey s { s with orng := { s.orng with loads := s.orng.loads.filter (fun l => !l.slots.contains n) } } := .of_slots rfl
  simp only [dropLoads]
  refine hloads.trans (.foldl (fun t l => ?_) _ _)
  refine (GainsNoKey.foldl (fun u m => ?_) l.slots t).trans (.of_slots (by rw [answerLoad_orng]))
  split
  · exact .refl u
  · exact gainsNoKey_dropPending m u

/-- A slot emptied. -/
theorem gainsNoKey_emptySlot (n : Nat) (s : State) : GainsNoKey s (updSlot n (fun _ => {}) s) :=
  .updSlot (fun _ => by simp only [])

theorem gainsNoKey_zeroiseSlot (n : Nat) (s : State) : GainsNoKey s (zeroiseSlot n s) :=
  (gainsNoKey_emptySlot n s).trans (gainsNoKey_dropLoads n _)

/-! ## Digest requests that end or start -/

theorem runDg_orng (e : Nat) (r : DgReq) (chain outer : Bytes) (done : Nat) (s : State) :
    (runDg e r chain outer done s).orng = s.orng := by
  simp only [runDg]
  split <;> rfl

theorem cachedStates_orng (n alg : Nat) (key : Bytes) (s : State) : (cachedStates n alg key s).2.orng = s.orng := by
  simp only [cachedStates]
  split <;> rfl

theorem gainsNoKey_runDg (e : Nat) (r : DgReq) (chain outer : Bytes) (done : Nat) (s : State) :
    GainsNoKey s (runDg e r chain outer done s) := .of_slots (by rw [runDg_orng])

theorem gainsNoKey_answerDg (r : DgReq) (st : Status) (b : Bytes) (s : State) : GainsNoKey s (answerDg r st b s) := .of_slots rfl

theorem gainsNoKey_unmarkDg (r : DgReq) (s : State) : GainsNoKey s (unmarkDg r s) := .of_slots rfl

theorem gainsNoKey_setQueueDg (q : List DgReq) (s : State) : GainsNoKey s (setQueueDg q s) := .of_slots rfl

theorem gainsNoKey_failDg (e : Nat) (run : DgRun) (st : Status) (s : State) : GainsNoKey s (failDg e run st s) := .of_slots rfl

theorem gainsNoKey_checkSlots (ns : List Nat) (s : State) : GainsNoKey s (checkSlots ns s) :=
  .foldl (fun t n => gainsNoKey_checkSlot n t) ns s

/-- A request put on an engine: the use of its key may find a code failed and make a slot BAD, which was ACTIVE before. -/
theorem gainsNoKey_startDg (e : Nat) (r : DgReq) (s0 : State) : GainsNoKey s0 (startDg e r s0) := by
  refine (gainsNoKey_unmarkDg r s0).trans ?_
  unfold startDg
  generalize unmarkDg r s0 = s
  have huse := gainsNoKey_useSlot r.slot (dgAttr r) r.cid s
  simp only []
  split
  · exact gainsNoKey_answerDg ..
  split
  · split
    · split
      · exact gainsNoKey_runDg ..
      · exact gainsNoKey_answerDg ..
    · exact gainsNoKey_runDg ..
  · split
    next key s1 hs =>
      rw [hs] at huse
      have hcache : GainsNoKey s (cachedStates r.slot r.alg key s1).2 := huse.trans (.of_slots (by rw [cachedStates_orng]))
      split
      · split
        · exact hcache.trans (gainsNoKey_runDg ..)
        · exact hcache.trans ((gainsNoKey_checkSlots ..).trans (gainsNoKey_answerDg ..))
      · exact hcache.trans (gainsNoKey_runDg ..)
    next hs =>
      rw [hs] at huse
      exact huse.trans (gainsNoKey_answerDg ..)

theorem gainsNoKey_pumpDg (n : Nat) (s : State) : GainsNoKey s (pumpDg n s) := by
  induction n generalizing s with
  | zero => exact .refl s
  | succ n ih =>
    unfold pumpDg
    split
    next e r rs _ _ => exact ((gainsNoKey_setQueueDg rs s).trans (gainsNoKey_startDg e r _)).trans (ih _)
    next => exact .refl s

theorem gainsNoKey_leaveDg (e : Nat) (run : DgRun) (s : State) : GainsNoKey s (leaveDg e run s) := by
  unfold leaveDg
  refine GainsNoKey.trans ?_ (gainsNoKey_pumpDg 16 _)
  split
  next q _ =>
    split
    · exact (gainsNoKey_setQueueDg _ s).trans (gainsNoKey_startDg e q _)
    · exact .refl s
  next => exact .refl s

theorem gainsNoKey_uncacheSlot (n : Nat) (s : State) : GainsNoKey s (uncacheSlot n s) := .of_slots rfl

/-- What ends with a slot's HMAC states (R265). -/
theorem gainsNoKey_dropKey (n : Nat) (s : State) : GainsNoKey (zeroiseSlot n s) (dropKey n s) := by
  unfold dropKey
  refine (gainsNoKey_uncacheSlot n _).trans (.foldl (fun t x => ?_) _ _)
  exact (gainsNoKey_failDg x.1 x.2 .keyZeroized t).trans (gainsNoKey_leaveDg x.1 x.2 _)

/-! ## A zeroised slot is EMPTY -/

theorem slotState_zeroiseSlot {n : Nat} {s : State} (hw : mapWf {} s.orng.slots = true) :
    (slotOf (zeroiseSlot n s) n).state = .empty := by
  refine (gainsNoKey_dropLoads n _).empty ((gainsNoKey_emptySlot n s).wf hw) n ?_
  rw [slotOf_updSlot_self hw]

/-- Slots zeroised one after another are all EMPTY at the end. -/
theorem slotState_dropKeys {ns : List Nat} {n : Nat} {s : State} (hw : mapWf {} s.orng.slots = true) (hn : n ∈ ns) :
    (slotOf (dropKeys ns s) n).state = .empty := by
  induction ns generalizing s with
  | nil => exact absurd hn List.not_mem_nil
  | cons m ns ih =>
    have hdrop := (gainsNoKey_zeroiseSlot m s).trans (gainsNoKey_dropKey m s)
    have hrest : GainsNoKey (dropKey m s) (dropKeys (m :: ns) s) :=
      .foldl (fun t k => (gainsNoKey_zeroiseSlot k t).trans (gainsNoKey_dropKey k t)) ns _
    rcases List.mem_cons.mp hn with rfl | hn
    · exact hrest.empty (hdrop.wf hw) n ((gainsNoKey_dropKey n s).empty ((gainsNoKey_zeroiseSlot n s).wf hw) n (slotState_zeroiseSlot hw))
    · exact ih (hdrop.wf hw) hn

end Sys2Proof.Zeroising
end

section
/-! PROOF. SPDM sessions and the slots of their secrets (09_belvedere_attestation.md R225, R237). -/

namespace Sys2Proof.SpdmSessions

open Sys2Proof Sys2Proof.Machine Sys2Proof.Laws Sys2Proof.Zeroising

/-- In a canonical state an ended session leaves the slot of its secret EMPTY (R225, R237): what O54 says of every state. -/
theorem slotState_endSessions {gone : Session → Bool} {x : Session} {s : State} (hc : canonical s = true)
    (hx : x ∈ s.belv.sessions) (hg : gone x = true) : (slotOf (endSessions gone s) x.slot).state = .empty :=
  slotState_dropKeys (canonical_orng_slots hc) (List.mem_map_of_mem (List.mem_filter.mpr ⟨hx, hg⟩))

/-- An established session. -/
def held : Session := { port := .doe, id := 5, slot := 3248, up := true, last := 0 }

/-- The same session where the slots' map lists its slot twice. -/
def doubled : State :=
  { belv := { sessions := [held] }
    orng := { slots := [(3248, { state := .active }), (3248, { state := .active })] } }

/-- Such a map is not in canonical form. -/
theorem not_canonical_doubled : canonical doubled = false := by
  have hslots : mapWf {} doubled.orng.slots = false := rfl
  exact Bool.eq_false_iff.mpr fun hc => Bool.false_ne_true (hslots.symm.trans (canonical_orng_slots hc))

/-- Zeroising erases the first of the two entries, and the slot reads as the second. -/
theorem slotState_endSessions_doubled : (slotOf (endSessions (fun _ => true) doubled) held.slot).state = .active := by
  simp [endSessions, doubled, held, dropKeys, dropKey, zeroiseSlot, dropLoads, uncacheSlot, updSlot, mapMod, mapSet, mapErase, slotOf, mapGet,
    runningDg, dgOf]

/-- Refutes O54: that an ended session's slot is EMPTY is stated for every state, and where the slots' map is not in canonical form,
here with slot 3248 listed twice, zeroising leaves the second entry ACTIVE. For canonical states this part holds
(`slotState_endSessions`). -/
theorem not_spdmAndTheMailboxAnswer : ¬ Obligations.SpdmAndTheMailboxAnswer := by
  unfold Obligations.SpdmAndTheMailboxAnswer
  intro h
  obtain ⟨-, -, hend, -⟩ := h
  obtain ⟨-, hempty, -⟩ := hend (fun _ => true) doubled _ rfl
  have hheld : (slotOf (endSessions (fun _ => true) doubled) held.slot).state = .empty := hempty held List.mem_cons_self rfl
  rw [slotState_endSessions_doubled] at hheld
  cases hheld

end Sys2Proof.SpdmSessions
end

section
/-! PROOF. What the shared operations leave alone. Completions, replies, records and service requests change the ports, the queues
and the counters of the contexts they are counted for; the ends of keys, jobs and requests change the units as well. None takes back
what a port has sent, and none changes what a context is beside its counters and bindings. -/

namespace Sys2Proof.Frames

open Sys2Proof Sys2Proof.Machine Sys2Proof.Laws

/-! ## Parts that a family of operations may change -/

/-- Parts of the state: `put s t` is `s` with these parts as in `t`. -/
structure Parts where
  put : State → State → State
  put_self : ∀ s, put s s = s
  put_put : ∀ s t u, put (put s t) u = put s u

/-- One change of these parts after another. -/
theorem Parts.trans {s t u : State} (p : Parts) (h1 : t = p.put s t) (h2 : u = p.put t u) : u = p.put s u := by
  have h : p.put t u = p.put s u := by rw [h1, p.put_put]
  exact h2.trans h

/-- What a record or a packet written at a queue changes. -/
def records : Parts where
  put s t := { s with splq := t.splq, outs := t.outs }
  put_self _ := rfl
  put_put _ _ _ := rfl

/-- With the Lodges' dies, whose requests are written or held. -/
def requests : Parts where
  put s t := { s with splq := t.splq, outs := t.outs, dies := t.dies }
  put_self _ := rfl
  put_put _ _ _ := rfl

/-- What the answer to a command, a record or a counter changes. -/
def answers : Parts where
  put s t := { s with host := t.host, mgmt := t.mgmt, ctxs := t.ctxs, splq := t.splq, outs := t.outs }
  put_self _ := rfl
  put_put _ _ _ := rfl

/-- With the Lodges told, the jobs suspended and the waits released. -/
def notices : Parts where
  put s t := { s with
    host := t.host, mgmt := t.mgmt, ctxs := t.ctxs, splq := t.splq, outs := t.outs, dies := t.dies, link := t.link, perg := t.perg }
  put_self _ := rfl
  put_put _ _ _ := rfl

/-- What the slices' waits, and the wakes that end them, change. -/
def wakes : Parts where
  put s t := { s with outs := t.outs, perg := t.perg }
  put_self _ := rfl
  put_put _ _ _ := rfl

/-- With the records of the slices' faults, and the sets of the contexts. -/
def semaphores : Parts where
  put s t := { s with ctxs := t.ctxs, splq := t.splq, outs := t.outs, perg := t.perg }
  put_self _ := rfl
  put_put _ _ _ := rfl

/-- What the end of keys and of the digest requests under them changes. -/
def vault : Parts where
  put s t := { s with host := t.host, mgmt := t.mgmt, ctxs := t.ctxs, splq := t.splq, outs := t.outs, orng := t.orng, dgst := t.dgst }
  put_self _ := rfl
  put_put _ _ _ := rfl

/-- With the links, whose jobs stay. -/
def hops : Parts where
  put s t := { s with
    host := t.host, mgmt := t.mgmt, ctxs := t.ctxs, splq := t.splq, outs := t.outs, orng := t.orng, dgst := t.dgst
    link := { t.link with jobs := s.link.jobs } }
  put_self _ := rfl
  put_put _ _ _ := rfl

/-- What the end of scrub jobs changes; the locked changes stay. -/
def scrubs : Parts where
  put s t := { s with
    host := t.host, mgmt := t.mgmt, ctxs := t.ctxs, splq := t.splq, outs := t.outs
    fence := { t.fence with locks := s.fence.locks, lockWait := s.fence.lockWait } }
  put_self _ := rfl
  put_put _ _ _ := rfl

/-- What the end of checks changes. -/
def checks : Parts where
  put s t := { s with ctxs := t.ctxs, splq := t.splq, outs := t.outs, perg := t.perg, grnh := t.grnh, grnhFills := t.grnhFills }
  put_self _ := rfl
  put_put _ _ _ := rfl

/-- What the end of keys, jobs, scrubs and checks changes. -/
def units : Parts where
  put s t := { s with
    host := t.host, mgmt := t.mgmt, ctxs := t.ctxs, splq := t.splq, outs := t.outs, link := t.link, perg := t.perg
    orng := t.orng, dgst := t.dgst, fence := t.fence, grnh := t.grnh, grnhFills := t.grnhFills }
  put_self _ := rfl
  put_put _ _ _ := rfl

/-- All of these, and the groups. -/
def tenancy : Parts where
  put s t := { s with
    host := t.host, mgmt := t.mgmt, ctxs := t.ctxs, splq := t.splq, outs := t.outs, link := t.link, perg := t.perg
    orng := t.orng, dgst := t.dgst, fence := t.fence, grnh := t.grnh, grnhFills := t.grnhFills, dies := t.dies, groups := t.groups }
  put_self _ := rfl
  put_put _ _ _ := rfl

/-- Every part of `a` is a part of `b`. -/
def Parts.le (a b : Parts) : Prop := ∀ s t, b.put s (a.put s t) = a.put s t

theorem Parts.le.trans {a b c : Parts} (hab : a.le b) (hbc : b.le c) : a.le c := by
  intro s t
  have h := hbc s (a.put s t)
  rwa [hab] at h

theorem records_le_answers : records.le answers := fun _ _ => rfl
theorem records_le_requests : records.le requests := fun _ _ => rfl
theorem records_le_hops : records.le hops := fun _ _ => rfl
theorem records_le_vault : records.le vault := fun _ _ => rfl
theorem answers_le_vault : answers.le vault := fun _ _ => rfl
theorem answers_le_hops : answers.le hops := fun _ _ => rfl
theorem answers_le_scrubs : answers.le scrubs := fun _ _ => rfl
theorem vault_le_hops : vault.le hops := fun _ _ => rfl
theorem vault_le_units : vault.le units := fun _ _ => rfl
theorem hops_le_units : hops.le units := fun _ _ => rfl
theorem scrubs_le_units : scrubs.le units := fun _ _ => rfl
theorem checks_le_units : checks.le units := fun _ _ => rfl
theorem semaphores_le_checks : semaphores.le checks := fun _ _ => rfl
theorem semaphores_le_notices : semaphores.le notices := fun _ _ => rfl
theorem requests_le_notices : requests.le notices := fun _ _ => rfl
theorem wakes_le_semaphores : wakes.le semaphores := fun _ _ => rfl
theorem wakes_le_notices : wakes.le notices := fun _ _ => rfl
theorem answers_le_tenancy : answers.le tenancy := fun _ _ => rfl
theorem answers_le_notices : answers.le notices := fun _ _ => rfl
theorem answers_le_units : answers.le units := fun _ _ => rfl
theorem units_le_tenancy : units.le tenancy := fun _ _ => rfl
theorem notices_le_tenancy : notices.le tenancy := fun _ _ => rfl

/-! ## Contexts -/

section
variable {c k : Nat} {f : Ctx → Ctx} {s : State} (hw : mapWf {} s.ctxs = true)
include hw

theorem ctxOf_updCtx_self : ctxOf (updCtx c f s) c = f (ctxOf s c) := mapGet_mapMod_same hw
theorem ctxOf_updCtx_ne (hk : k ≠ c) : ctxOf (updCtx c f s) k = ctxOf s k := mapGet_mapMod_other hw hk
theorem wf_updCtx : mapWf {} (updCtx c f s).ctxs = true := mapWf_mapMod hw

end

/-- A context without its counters, its import and what it is bound to. -/
def life (c : Ctx) : Ctx :=
  { c with cnt := [], cov := [], importing := none, backing := [], home := none, ksel := [], oddKsel := [] }

/-- From `s` to `t` only the parts `p` change, what the ports have sent stays, and so does every context but for its counters and
bindings. -/
structure Kept (p : Parts) (s t : State) : Prop where
  rest : t = p.put s t
  outs : s.outs <+: t.outs
  wf : mapWf {} s.ctxs = true → mapWf {} t.ctxs = true
  queues : mapWf {} s.splq = true → mapWf {} t.splq = true
  life : mapWf {} s.ctxs = true → ∀ c, life (ctxOf t c) = life (ctxOf s c)

namespace Kept

variable {p q : Parts} {s t u : State}

theorem refl (s : State) : Kept p s s := ⟨(p.put_self s).symm, List.prefix_refl _, id, id, fun _ _ => rfl⟩

theorem trans (h1 : Kept p s t) (h2 : Kept p t u) : Kept p s u where
  rest := p.trans h1.rest h2.rest
  outs := h1.outs.trans h2.outs
  wf := h2.wf ∘ h1.wf
  queues := h2.queues ∘ h1.queues
  life hw c := (h2.life (h1.wf hw) c).trans (h1.life hw c)

theorem mono (h : Kept p s t) (hle : p.le q) : Kept q s t where
  rest := by
    have hq := hle s t
    rw [← h.rest] at hq
    exact hq.symm
  outs := h.outs
  wf := h.wf
  queues := h.queues
  life := h.life

theorem ite {c : Prop} [Decidable c] (h1 : Kept p s t) (h2 : Kept p s u) : Kept p s (if c then t else u) := by
  split
  · exact h1
  · exact h2

/-- Operations that each keep the rest, one after another. -/
theorem foldl {α : Type} {f : State → α → State} (hf : ∀ s a, Kept p s (f s a)) (as : List α) (s : State) : Kept p s (as.foldl f s) := by
  induction as generalizing s with
  | nil => exact refl s
  | cons a as ih => exact (hf s a).trans (ih _)

theorem forUpTo {f : Nat → State → State} (hf : ∀ k s, Kept p s (f k s)) (n : Nat) (s : State) : Kept p s (forUpTo n f s) := by
  induction n with
  | zero => exact refl s
  | succ n ih => exact ih.trans (hf n _)

/-- What leaves the contexts as they are. -/
theorem of_ctxs (h : t = p.put s t) (ho : s.outs <+: t.outs) (hc : t.ctxs = s.ctxs)
    (hq : mapWf {} s.splq = true → mapWf {} t.splq = true) : Kept p s t where
  rest := h
  outs := ho
  queues := hq
  wf hw := hc ▸ hw
  life _ c := by rw [ctxOf, ctxOf, hc]

/-- What sends nothing as well. -/
theorem silent (h : t = p.put s t) (ho : t.outs = s.outs) (hc : t.ctxs = s.ctxs) (hq : t.splq = s.splq) : Kept p s t :=
  of_ctxs h (ho ▸ List.prefix_refl _) hc (fun hw => hq ▸ hw)

/-- A context changed in what its life leaves out. -/
theorem updCtx {c : Nat} {f : Ctx → Ctx} (h : Machine.updCtx c f s = p.put s (Machine.updCtx c f s))
    (hf : Frames.life (f (ctxOf s c)) = Frames.life (ctxOf s c)) : Kept p s (Machine.updCtx c f s) where
  rest := h
  outs := List.prefix_refl _
  wf := mapWf_mapMod
  queues := id
  life hw k := by
    by_cases hk : k = c
    · subst hk
      exact (congrArg Frames.life (mapGet_mapMod_same hw)).trans hf
    · exact congrArg Frames.life (mapGet_mapMod_other hw hk)

end Kept

/-! ## Records -/

theorem wf_postRecord {n k : Nat} {b : Bytes} {s : State} (hw : mapWf {} s.splq = true) : mapWf {} (postRecord n k b s).splq = true := by
  have hite : ∀ {c : Prop} [Decidable c] {x y : NMap SpillQ}, mapWf {} x = true → mapWf {} y = true → mapWf {} (if c then x else y) = true := by
    intro c _ x y hx hy
    split
    · exact hx
    · exact hy
  exact hite (mapWf_mapSet (mapWf_mapSet hw)) (mapWf_mapSet hw)

section
variable {p : Parts} (hp : records.le p)
include hp

theorem kept_putQ (n : Nat) (q : SpillQ) (s : State) : Kept p s (putQ n q s) :=
  Kept.mono (p := records) (.of_ctxs rfl (List.prefix_append ..) rfl mapWf_mapSet) hp

theorem kept_postRecord (n k : Nat) (b : Bytes) (s : State) : Kept p s (postRecord n k b s) :=
  Kept.mono (p := records) (.of_ctxs rfl (RecordLog.outs_postRecord ..) rfl wf_postRecord) hp

theorem kept_writeQ (n port : Nat) (pin : Option (Nat × Nat)) (pr : BitVec 6) (last : Bool) (b : Bytes) (s : State) :
    Kept p s (writeQ n port pin pr last b s).1 := by
  have hfault : ∀ st t, Kept p t (queueFault n st t) :=
    fun st t => .ite (.refl t) (kept_postRecord hp ..)
  have hreport : ∀ r t, Kept p t (reportQ n r t) := by
    intro r t
    cases r with
    | overrun _ => exact hfault _ t
    | short _ => exact hfault _ t
    | long _ => exact hfault _ t
    | accepted => exact .refl t
    | committed => exact .refl t
    | ignored => exact .refl t
  exact (kept_putQ hp ..).trans (hreport ..)

end

/-! ## Answers -/

section
variable {p : Parts} (hp : answers.le p)
include hp

theorem kept_emit (o : Out) (s : State) : Kept p s (emit o s) :=
  Kept.mono (p := answers) (.of_ctxs rfl (List.prefix_append ..) rfl id) hp

theorem kept_updCpl (r : Nat) (f : CplRing → CplRing) (s : State) : Kept p s (updCpl r f s) :=
  Kept.mono (p := answers) (.silent rfl rfl rfl rfl) hp

theorem kept_countUp (i c k : Nat) (s : State) : Kept p s (countUp i c k s) := by
  have hdev : Kept answers s { s with host := { s.host with devCnt := mapMod 0 s.host.devCnt i (· + k) } } := .silent rfl rfl rfl rfl
  exact (hdev.trans (.updCtx rfl rfl)).mono hp

theorem kept_irqAfter (noIrq : Bool) (r : Nat) (s : State) : Kept p s (irqAfter noIrq r s) :=
  .ite (.refl s) (.ite ((kept_updCpl hp ..).trans (kept_emit hp ..)) (kept_updCpl hp ..))

theorem kept_writeCpl (r : Nat) (noIrq : Bool) (b : Bytes) (s : State) : Kept p s (writeCpl r noIrq b s) :=
  ((kept_updCpl hp ..).trans (kept_emit hp ..)).trans (kept_irqAfter hp ..)

theorem kept_noteBad (ip : InProg) (s : State) : Kept p s (noteBad ip s) := by
  have hring : ∀ f t, Kept p t (updRing ip.ring f t) := fun _ _ => Kept.mono (p := answers) (.silent rfl rfl rfl rfl) hp
  exact .ite (hring _ s) (((hring _ s).trans (hring _ _)).trans (kept_postRecord (records_le_answers.trans hp) ..))

theorem kept_completeHost (ip : InProg) (st : Status) (d : Bytes) (s : State) : Kept p s (completeHost ip st d s) := by
  have hprog : Kept p s { s with host := { s.host with inProg := s.host.inProg.filter (fun x => x.id != ip.id) } } :=
    Kept.mono (p := answers) (.silent rfl rfl rfl rfl) hp
  have hbad : ∀ t, Kept p t (if st = .badDescriptor then noteBad ip t else t) :=
    fun t => .ite (kept_noteBad hp ..) (.refl t)
  exact .ite hprog (((hprog.trans (hbad _)).trans (kept_updCpl hp ..)).trans
    (.ite ((kept_writeCpl hp ..).trans (kept_countUp hp ..)) (.refl _)))

theorem kept_finish (w : Waiter) (st : Status) (d : Bytes) (s : State) : Kept p s (finish w st d s) := by
  cases w with
  | none => exact .refl s
  | host id =>
    simp only [finish]
    split
    · exact kept_completeHost hp ..
    · exact .refl s
  | mgmt tag =>
    simp only [finish]
    split
    · exact Kept.mono (p := answers) (.of_ctxs rfl (List.prefix_append ..) rfl id) hp
    · exact .refl s

theorem kept_finishAll (ws : List Waiter) (st : Status) (d : Bytes) (s : State) : Kept p s (finishAll ws st d s) :=
  .foldl (fun t w => kept_finish hp w st d t) ws s

theorem kept_postHostEvent (o : Option (Nat × Nat)) (st : Status) (u : UnitRef) (d : Bytes) (s : State) :
    Kept p s (postHostEvent o st u d s) := 
  .ite (.ite (kept_writeCpl hp ..) (.ite (kept_updCpl hp ..) (kept_updCpl hp ..))) (kept_updCpl hp ..)

end

/-! ## Semaphores -/

theorem kept_wakeWait (c : Nat) (w : Issuer) (st : Status) (s : State) : Kept wakes s (wakeWait c w st s) := by
  cases w <;> exact .of_ctxs rfl (List.prefix_append ..) rfl id

theorem kept_updSlice (d : Nat) (f : Slice → Slice) (s : State) : Kept wakes s (updSlice d f s) := .silent rfl rfl rfl rfl

theorem kept_releaseWaits (f : Nat → Issuer → Bool) (st : Status) (s : State) : Kept wakes s (releaseWaits f st s) := by
  have hring : ∀ (r : List RingMsg) (t : State), Kept wakes t { t with perg := { t.perg with ring := r } } := fun _ _ => .silent rfl rfl rfl rfl
  exact (((Kept.forUpTo (fun d t => kept_updSlice d _ t) _ s).trans (hring _ _)).trans
    (.foldl (fun t _ => kept_wakeWait _ _ st t) _ _)).trans (.foldl (fun t _ => kept_wakeWait _ _ st t) _ _)

theorem kept_evalWaits (d i : Nat) (s : State) : Kept wakes s (evalWaits d i s) :=
  .foldl (fun t _ => .ite ((kept_updSlice ..).trans (kept_wakeWait ..)) (.refl t)) _ s

theorem kept_changeSem (d i v : Nat) (s : State) : Kept wakes s (changeSem d i v s) := (kept_updSlice ..).trans (kept_evalWaits ..)

theorem kept_setCoreSems (d : Nat) (vals : NMap Nat) (s : State) : Kept wakes s (setCoreSems d vals s) :=
  (kept_updSlice ..).trans (.foldl (fun t i => kept_evalWaits d i t) _ _)

theorem kept_freeSetWaits (d : Nat) (s : State) : Kept wakes s (freeSetWaits d s) :=
  (kept_updSlice ..).trans (.foldl (fun t _ => kept_wakeWait _ _ .busy t) _ _)

theorem kept_pergFault (d : Nat) (st : Status) (c : Nat) (w : Issuer) (i v : Nat) (s : State) :
    Kept semaphores s (pergFault d st c w i v s) := by
  have hslice : ∀ f t, Kept semaphores t (updSlice d f t) := fun f t => (kept_updSlice d f t).mono wakes_le_semaphores
  have hrec : ∀ b t, Kept semaphores t (postFaultRaw st 14 b t) := fun b t => .of_ctxs rfl (RecordLog.outs_postRecord ..) rfl wf_postRecord
  exact .ite (hslice _ s) (((hslice _ s).trans (hslice _ _)).trans (hrec _ _))

theorem kept_judgeLeftovers (d c : Nat) (s : State) : Kept semaphores s (judgeLeftovers d c s) := by
  refine .ite (.forUpTo (fun k t => ?_) _ s) (.refl s)
  split
  · exact kept_pergFault ..
  · exact .refl t

theorem kept_unbindSet (c : Nat) (s : State) : Kept semaphores s (unbindSet c s) := by
  simp only [unbindSet]
  split
  · exact .refl s
  · exact (Kept.updCtx rfl rfl).trans (((kept_updSlice ..).trans (kept_freeSetWaits ..)).mono wakes_le_semaphores)

theorem kept_dropSet (c : Nat) (s : State) : Kept semaphores s (dropSet c s) := by
  simp only [dropSet]
  split
  · exact .updCtx rfl rfl
  · exact ((kept_updSlice ..).mono wakes_le_semaphores).trans (.updCtx rfl rfl)

/-- An operation that the pins of receipts are answered with: an ADD at a core semaphore. -/
theorem kept_answerPin (d k c pin : Nat) (s : State) : Kept semaphores s (answerPin d k c pin s) := by
  simp only [answerPin]
  split
  next h =>
    have hi : 48 * k + pin < 15360 := by omega
    have hfault : ∀ t, Kept semaphores t
        (if semValue s d (48 * k + pin) + 1 > semMax then pergFault d .pergSaturated c (.internal d) (48 * k + pin) semMax t else t) :=
      fun t => .ite (kept_pergFault ..) (.refl t)
    have h1 : ¬ semReserved ≤ 48 * k + pin := by simp only [semReserved]; omega
    simp only [pergOperate, reduceCtorEq, if_false, ge_iff_le, h1, Bool.false_and, Bool.false_eq_true, virtBase, hi, if_true, applyLocal]
    exact (hfault s).trans ((kept_changeSem ..).mono wakes_le_semaphores)
  next => exact .refl s

/-! ## Lodges and jobs -/


section
variable {p : Parts} (hp : requests.le p)
include hp

theorem kept_writeSvc (d : Nat) (bs : List Bytes) (s : State) : Kept p s (writeSvc d bs s) := by
  induction bs generalizing s with
  | nil => exact .refl s
  | cons b bs ih =>
    cases bs with
    | nil => exact (kept_writeQ records_le_requests ..).mono hp
    | cons b' bs => exact ((kept_writeQ records_le_requests ..).mono hp).trans (ih _)

theorem kept_updDie (d : Nat) (f : Die → Die) (s : State) : Kept p s (updDie d f s) :=
  Kept.mono (p := requests) (.silent rfl rfl rfl rfl) hp

theorem kept_postLodge (d : Nat) (req : List Bytes) (s : State) : Kept p s (postLodge d req s) :=
  .ite (kept_updDie hp ..) ((kept_updDie hp ..).trans (kept_writeSvc hp ..))

theorem kept_askDies (ds : List Nat) (code c : Nat) (s : State) : Kept p s (askDies ds code c s) :=
  .foldl (fun t d => kept_postLodge hp d _ t) ds s

end

theorem kept_suspendJob (j : Nat) (st : Status) (s : State) : Kept notices s (suspendJob j st s) := by
  have hjob : ∀ f t, Kept notices t (updJob j f t) := fun f t => .silent rfl rfl rfl rfl
  have hdata : Kept notices s (dropJobData j s) := .silent rfl rfl rfl rfl
  exact .ite (hdata.trans (hjob _ _)) (.ite ((hjob _ _).trans (kept_finish answers_le_notices ..)) (.refl s))

/-! ## Key slots -/

theorem kept_updSlot (n : Nat) (f : Slot → Slot) (s : State) : Kept vault s (updSlot n f s) := .silent rfl rfl rfl rfl

theorem kept_answerLoad (l : KeyLoad) (st : Status) (d : Bytes) (s : State) : Kept vault s (answerLoad l st d s) := by
  have himport : ∀ c, Kept vault s (updCtx c (fun x => { x with importing := none }) s) := fun _ => .updCtx rfl rfl
  simp only [answerLoad]
  split
  · exact (himport _).trans (kept_finish answers_le_vault ..)
  · exact (himport _).trans (kept_finish answers_le_vault ..)
  · exact kept_emit answers_le_vault ..

theorem kept_dropLoads (n : Nat) (s : State) : Kept vault s (dropLoads n s) := by
  have hloads : ∀ (l : List KeyLoad), Kept vault s { s with orng := { s.orng with loads := l } } := fun _ => .silent rfl rfl rfl rfl
  exact (hloads _).trans (.foldl (fun t _ => (Kept.foldl (fun u _ => .ite (.refl u) (kept_updSlot ..)) _ t).trans (kept_answerLoad ..)) _ _)

theorem kept_zeroiseSlot (n : Nat) (s : State) : Kept vault s (zeroiseSlot n s) := (kept_updSlot ..).trans (kept_dropLoads ..)

theorem kept_slotFail (n : Nat) (s : State) : Kept vault s (slotFail n false s) := by
  have hrec : ∀ k b t, Kept vault t (postRecord k 15 b t) := fun _ _ _ => kept_postRecord records_le_vault ..
  have hbad : ∀ t, Kept vault t { t with orng := { t.orng with slotBad := raise s.tick t.orng.slotBad } } := fun _ => .silent rfl rfl rfl rfl
  have hone f b := ((kept_updSlot n f s).trans (hbad _)).trans (hrec 0 b _)
  exact .ite ((hone _ _).trans (hrec ..)) (hone _ _)

theorem kept_checkSlot (n : Nat) (s : State) : Kept vault s (checkSlot n s) := .ite (kept_slotFail ..) (.refl s)

theorem kept_useSlot (n : Nat) (attr : BitVec 5) (c : Nat) (s : State) : Kept vault s (useSlot n attr c s).2 := by
  unfold useSlot
  split
  · simp only []
    split
    · exact .refl s
    · exact kept_slotFail ..
  · exact .refl s

/-! ## Digest requests that end -/

theorem kept_answerDg (r : DgReq) (st : Status) (b : Bytes) (s : State) : Kept vault s (answerDg r st b s) := kept_emit answers_le_vault ..

theorem kept_failDg (e : Nat) (run : DgRun) (st : Status) (s : State) : Kept vault s (failDg e run st s) := by
  have hclear : Kept vault s (clearDg e s) := .silent rfl rfl rfl rfl
  exact hclear.trans (kept_answerDg ..)

theorem kept_setQueueDg (q : List DgReq) (s : State) : Kept vault s (setQueueDg q s) := .of_ctxs rfl (List.prefix_append ..) rfl id

theorem kept_runDg (e : Nat) (r : DgReq) (chain outer : Bytes) (done : Nat) (s : State) : Kept vault s (runDg e r chain outer done s) := by
  have hstart : ∀ (d : Dgst), Kept vault s { s with dgst := d } := fun _ => .silent rfl rfl rfl rfl
  have hrun d o := (hstart d).trans (kept_emit answers_le_vault o _)
  exact .ite (hrun _ _) ((hrun _ _).trans (kept_failDg ..))

theorem kept_startDg (e : Nat) (r : DgReq) (s0 : State) : Kept vault s0 (startDg e r s0) := by
  have hunmark : Kept vault s0 (unmarkDg r s0) := .silent rfl rfl rfl rfl
  refine hunmark.trans ?_
  unfold startDg
  generalize unmarkDg r s0 = s
  have huse := kept_useSlot r.slot (dgAttr r) r.cid s
  have hcache : ∀ n a k t, Kept vault t (cachedStates n a k t).2 := by
    intro n a k t
    simp only [cachedStates]
    split <;> exact .silent rfl rfl rfl rfl
  simp only []
  split
  · exact kept_answerDg ..
  split
  · split
    · split
      · exact kept_runDg ..
      · exact kept_answerDg ..
    · exact kept_runDg ..
  · split
    next key s1 hs =>
      rw [hs] at huse
      split
      · split
        · exact (huse.trans (hcache ..)).trans (kept_runDg ..)
        · exact ((huse.trans (hcache ..)).trans (.foldl (fun t n => kept_checkSlot n t) _ _)).trans (kept_answerDg ..)
      · exact (huse.trans (hcache ..)).trans (kept_runDg ..)
    next hs =>
      rw [hs] at huse
      exact huse.trans (kept_answerDg ..)

theorem kept_pumpDg (n : Nat) (s : State) : Kept vault s (pumpDg n s) := by
  induction n generalizing s with
  | zero => exact .refl s
  | succ n ih =>
    unfold pumpDg
    split
    · exact ((kept_setQueueDg ..).trans (kept_startDg ..)).trans (ih _)
    · exact .refl s

theorem kept_leaveDg (e : Nat) (run : DgRun) (s : State) : Kept vault s (leaveDg e run s) := by
  unfold leaveDg
  refine Kept.trans ?_ (kept_pumpDg 16 _)
  split
  · exact .ite ((kept_setQueueDg ..).trans (kept_startDg ..)) (.refl s)
  · exact .refl s

theorem kept_dropKey (n : Nat) (s : State) : Kept vault s (dropKey n s) := by
  have hcache : ∀ t, Kept vault t (uncacheSlot n t) := fun _ => .silent rfl rfl rfl rfl
  exact ((kept_zeroiseSlot ..).trans (hcache _)).trans (.foldl (fun t _ => (kept_failDg ..).trans (kept_leaveDg ..)) _ _)

theorem kept_dropKeys (ns : List Nat) (s : State) : Kept vault s (dropKeys ns s) := .foldl (fun t n => kept_dropKey n t) ns s

/-! ## Scrubs and locked changes -/

theorem kept_abortScrub (f : ScrubFrame → Bool) (s : State) : Kept scrubs s (abortScrub f s) := by
  have hfence : ∀ q js cs a, Kept scrubs s { s with fence := { s.fence with scrub := q, jobs := js, chans := cs, aborted := a } } :=
    fun _ _ _ _ => .silent rfl rfl rfl rfl
  exact .ite (.refl s) ((hfence ..).trans (.foldl (fun t _ => kept_finish answers_le_scrubs _ _ _ t) _ _))

theorem kept_issueLock (op : LockOp) (o : LockOwner) (s : State) : Kept units s (issueLock op o s) :=
  .ite (.silent rfl rfl rfl rfl) (.silent rfl rfl rfl rfl)

/-! ## Frames on links, and the end of jobs -/

theorem kept_updEng {p : Parts} (hp : hops.le p) (e : Nat) (f : Engine → Engine) (s : State) : Kept p s (updEng e f s) :=
  Kept.mono (p := hops) (.silent rfl rfl rfl rfl) hp
theorem kept_updJob (j : Nat) (f : Job → Job) (s : State) : Kept units s (updJob j f s) := .silent rfl rfl rfl rfl

theorem kept_freeJob (j : Nat) (s : State) : Kept units s (freeJob j s) := by
  have hforget : ∀ t, Kept units t (forgetJob j t) := fun _ => .silent rfl rfl rfl rfl
  exact (((((kept_dropKeys ..).mono vault_le_units).trans (hforget _)).trans (kept_updJob ..)).trans (kept_finish answers_le_units ..)).trans
    (kept_finish answers_le_units ..)

theorem kept_failLink (e : Nat) (st : Status) (s : State) : Kept hops s (failLink e st s) := by
  have hexch : Kept hops s (dropExchange (engOf s e).exch s) := by
    unfold dropExchange
    split
    · exact .refl s
    · exact (kept_dropKeys ..).mono vault_le_hops
  exact (hexch.trans (kept_updEng (fun _ _ => rfl) ..)).trans (kept_postRecord records_le_hops ..)

theorem kept_sendHop (e type : Nat) (body : Bytes) (s : State) : Kept hops s (sendHop e type body s) := by
  have hsend : ∀ f o t, Kept hops t (emit o (updEng e f t)) := fun _ _ _ => (kept_updEng (fun _ _ => rfl) ..).trans (kept_emit answers_le_hops ..)
  exact .ite (hsend _ _ s) (.ite (kept_updEng (fun _ _ => rfl) ..) (.ite ((hsend _ _ s).trans (kept_failLink ..)) (hsend _ _ s)))

theorem kept_sealFrame (e j dir : Nat) (b key : Bytes) (s : State) : Kept units s (sealFrame e j dir b key s) :=
  .ite ((kept_updEng hops_le_units ..).trans (kept_updEng hops_le_units ..)) (((((kept_updJob ..).trans (kept_updJob ..)).trans (kept_updEng hops_le_units ..)).trans
    (kept_countUp answers_le_units ..)).trans ((kept_sendHop ..).mono hops_le_units))

theorem kept_submitFrame (e j dir : Nat) (b : Bytes) (s : State) : Kept units s (submitFrame e j dir b s) := by
  simp only [submitFrame]
  split
  · exact kept_sealFrame ..
  · exact (kept_updEng hops_le_units ..).trans (kept_updEng hops_le_units ..)

theorem kept_sendClose (e : Nat) (s : State) (j : Nat) : Kept units s (sendClose e s j) := by
  have hegress : Kept units s (closeEgress e s) := by
    simp only [closeEgress]
    split
    · exact .refl s
    · exact (kept_updEng hops_le_units ..).trans (kept_submitFrame ..)
  exact .ite ((Kept.ite hegress (.refl s)).trans (kept_submitFrame ..)) (kept_updEng hops_le_units ..)

theorem kept_beginClose (j : Nat) (s : State) : Kept units s (beginClose j s) := by
  have hsettle : ∀ t, Kept units t (settleClose j t) := fun t => .ite (kept_freeJob ..) (.refl t)
  exact .ite (.refl s) (((kept_updJob ..).trans (.foldl (fun t _ => (kept_sendClose ..).trans (kept_updJob ..)) _ _)).trans (hsettle _))

theorem kept_forceClose (j : Nat) (s : State) : Kept units s (forceClose j s) :=
  .ite (.refl s) ((kept_updJob ..).trans (kept_freeJob ..))

/-! ## Checks that are dropped -/

theorem kept_updGrEng (d : Nat) (f : GrEng → GrEng) (s : State) : Kept checks s (updGrEng d f s) := .silent rfl rfl rfl rfl

theorem kept_dropCheck (d i : Nat) (c : Check) (s : State) : Kept checks s (dropCheck d i c s) := by
  have hcov : ∀ k (f : NMap Nat → NMap Nat) t, Kept checks t (updCtx k (fun c => { c with cov := f c.cov }) t) := fun _ _ _ => .updCtx rfl rfl
  have hpin : ∀ a b e g t, Kept checks t (answerPin a b e g t) := fun _ _ _ _ _ => (kept_answerPin ..).mono semaphores_le_checks
  have hsettle : ∀ t, Kept checks t (settleRetires t) := by
    intro t
    have hretires : ∀ (g : Grnh), Kept checks t { t with grnh := g } := fun _ => .silent rfl rfl rfl rfl
    exact (hretires _).trans (.foldl (fun u _ => hpin _ _ _ _ u) _ _)
  have hdown f g := ((kept_updGrEng d f s).trans (hcov c.rcpt.cid (fun m => mapMod 0 m 4 (· - 1)) _)).trans
    ((kept_updGrEng d g _).trans (hcov c.rcpt.cid (fun m => mapMod 0 m 3 (· + 1)) _))
  exact (Kept.ite (hdown _ _) ((hdown _ _).trans (hpin ..))).trans (hsettle _)

theorem kept_dropChecks (f : Nat → Check → Bool) (s : State) : Kept checks s (dropChecks f s) := by
  have hdie : ∀ d t, Kept checks t (((checksOf t d).filter (fun x => f d x.2)).foldl (fun u x => dropCheck d x.1 x.2 u) t) :=
    fun d t => .foldl (fun u _ => kept_dropCheck d _ _ u) _ t
  exact .forUpTo hdie Config.dies s

theorem kept_grnhForget (c : Nat) (s : State) : Kept checks s (grnhForget c s) := by
  have hdrop : Kept checks s (dropChecks (fun _ x => x.rcpt.cid == c) s) :=
    kept_dropChecks ..
  unfold grnhForget
  generalize dropChecks _ s = t at hdrop ⊢
  exact hdrop.trans (.silent rfl rfl rfl rfl)

end Sys2Proof.Frames
end

section
/-! PROOF. The path of a host command: what its intake leaves for the command's own meaning, and what its completion shows
(18_host_rings.md R385, R390, R395). -/

namespace Sys2Proof.HostPath

open Sys2Proof Sys2Proof.Machine Sys2Proof.Laws Sys2Proof.Frames

/-! ## A taken command -/

/-- The command in progress. -/
def progOf (op : HostOp) (u : UnitRef) (h : HostCmd) (s : State) : InProg := (takeHost op.code u h s).1

/-- The state in which a taken command is judged by its own meaning; it is reasoned about through the lemmas below alone. -/
@[irreducible] def taken (op : HostOp) (u : UnitRef) (h : HostCmd) (s : State) : State := (takeHost op.code u h s).2

/-- The intake changes the host's rings and its own pointer alone. -/
theorem taken_rest (op : HostOp) (u : UnitRef) (h : HostCmd) (s : State) :
    taken op u h s = { s with host := (taken op u h s).host, sund := (taken op u h s).sund } := by
  unfold taken
  rfl

section
variable (op : HostOp) (u : UnitRef) (h : HostCmd) (s : State)

@[simp] theorem taken_outs : (taken op u h s).outs = s.outs := by rw [taken_rest]
@[simp] theorem taken_ctxs : (taken op u h s).ctxs = s.ctxs := by rw [taken_rest]
@[simp] theorem taken_frames : (taken op u h s).frames = s.frames := by rw [taken_rest]
@[simp] theorem taken_groups : (taken op u h s).groups = s.groups := by rw [taken_rest]
@[simp] theorem taken_dies : (taken op u h s).dies = s.dies := by rw [taken_rest]
@[simp] theorem taken_fence : (taken op u h s).fence = s.fence := by rw [taken_rest]
@[simp] theorem taken_orng : (taken op u h s).orng = s.orng := by rw [taken_rest]
@[simp] theorem taken_splq : (taken op u h s).splq = s.splq := by rw [taken_rest]
@[simp] theorem taken_power : (taken op u h s).power = s.power := by rw [taken_rest]
@[simp] theorem taken_pav : (taken op u h s).pav = s.pav := by rw [taken_rest]
@[simp] theorem taken_tick : (taken op u h s).tick = s.tick := by rw [taken_rest]
@[simp] theorem taken_link : (taken op u h s).link = s.link := by rw [taken_rest]
@[simp] theorem taken_dgst : (taken op u h s).dgst = s.dgst := by rw [taken_rest]
@[simp] theorem taken_grnh : (taken op u h s).grnh = s.grnh := by rw [taken_rest]
@[simp] theorem taken_belv : (taken op u h s).belv = s.belv := by rw [taken_rest]
@[simp] theorem taken_perg : (taken op u h s).perg = s.perg := by rw [taken_rest]

@[simp] theorem ctxOf_taken (c : Nat) : ctxOf (taken op u h s) c = ctxOf s c := by rw [ctxOf, ctxOf, taken_ctxs]
@[simp] theorem frameOf_taken (n : Nat) : frameOf (taken op u h s) n = frameOf s n := by rw [frameOf, frameOf, taken_frames]
@[simp] theorem groupOf_taken (n : Nat) : groupOf (taken op u h s) n = groupOf s n := by rw [groupOf, groupOf, taken_groups]
@[simp] theorem dieOf_taken (n : Nat) : dieOf (taken op u h s) n = dieOf s n := by rw [dieOf, dieOf, taken_dies]
@[simp] theorem slotOf_taken (n : Nat) : slotOf (taken op u h s) n = slotOf s n := by rw [slotOf, slotOf, taken_orng]
@[simp] theorem qOf_taken (n : Nat) : qOf (taken op u h s) n = qOf s n := by rw [qOf, qOf, taken_splq]
@[simp] theorem jobOf_taken (n : Nat) : jobOf (taken op u h s) n = jobOf s n := by rw [jobOf, jobOf, taken_link]
@[simp] theorem sliceOf_taken (n : Nat) : sliceOf (taken op u h s) n = sliceOf s n := by rw [sliceOf, sliceOf, taken_perg]

theorem inProg_taken : (taken op u h s).host.inProg = s.host.inProg ++ [progOf op u h s] := by
  unfold taken
  rfl

end

/-- The commands in progress and the arbiter's pointers are no maps. -/
theorem canonical_of_intake {s : State} {ps : List InProg} {n : Nat} {x : Sund} (hc : canonical s = true) :
    canonical { s with host := { s.host with inProg := ps, nextId := n }, sund := x } = true := hc

theorem cplOf_of_intake {s : State} {ps : List InProg} {n : Nat} {x : Sund} (r : Nat) :
    cplOf { s with host := { s.host with inProg := ps, nextId := n }, sund := x } r = cplOf s r := rfl

section
variable {op : HostOp} {u : UnitRef} {h : HostCmd} {s : State}

theorem hostCommand_taken {body : InProg → State → State} (hok : hostOk op h s = true) :
    hostCommand op u h body s = body (progOf op u h s) (taken op u h s) := by
  unfold taken
  exact hostCommand_ok hok

/-- A context command that its generation and Table CTX-2 let through. -/
theorem ctxCommand_taken {cmd : CtxCmd} {body : InProg → State → State} (hok : hostOk op h s = true)
    (hcheck : ctxCheck cmd h.cid h.gen s = none) :
    ctxCommand op cmd h body s = body (progOf op (cidUnit h) h s) (taken op (cidUnit h) h s) := by
  have htaken : ctxCheck cmd h.cid.val h.gen (taken op (cidUnit h) h s) = none := by
    rw [taken_rest]
    exact hcheck
  simp only [ctxCommand, hostCommand_taken hok, htaken]

theorem canonical_taken (hc : canonical s = true) : canonical (taken op u h s) = true := by
  simp only [taken, takeHost]
  exact canonical_of_intake (canonical_updCpl (canonical_updRing hc))

/-- The ring that a taken command completes on is enabled (R385). -/
theorem enable_taken (hok : hostOk op h s = true) (hc : canonical s = true) :
    (cplOf (taken op u h s) (progOf op u h s).cpl).enable = true := by
  have hen : (cplOf s (ringOf s h.ring.val).cpl.toNat).enable = true := by
    simp only [hostOk, Bool.and_eq_true, canTake] at hok
    tauto
  simp only [taken, progOf, takeHost]
  rw [cplOf_of_intake, cplOf_updCpl_same (canonical_updRing hc)]
  exact hen

end

/-- A command whose number no earlier one has is found by it. -/
theorem find?_fresh {xs : List InProg} {ip : InProg} (h : ∀ x ∈ xs, x.id ≠ ip.id) :
    (xs ++ [ip]).find? (fun x => x.id == ip.id) = some ip := by
  have hxs : xs.find? (fun x => x.id == ip.id) = none := by simpa [List.find?_eq_none] using h
  simp [List.find?_append, hxs]

theorem ids_ne {op : HostOp} {h : HostCmd} {s : State} (hok : hostOk op h s = true) : ∀ x ∈ s.host.inProg, x.id ≠ s.host.nextId := by
  simp only [hostOk, Bool.and_eq_true, idsFresh, List.all_eq_true, decide_eq_true_eq] at hok
  exact fun x hx => Nat.ne_of_lt (hok.2 x hx)

/-- The end of the work of a taken command is its completion, where the commands in progress are still those of its intake. -/
theorem finish_taken {op : HostOp} {u : UnitRef} {h : HostCmd} {s t : State} (hok : hostOk op h s = true)
    (ht : t.host.inProg = (taken op u h s).host.inProg) (st : Status) (d : Bytes) :
    finish (.host (progOf op u h s).id) st d t = completeHost (progOf op u h s) st d t := by
  have hfind : t.host.inProg.find? (fun x => x.id == (progOf op u h s).id) = some (progOf op u h s) := by
    rw [ht, inProg_taken]
    exact find?_fresh (ids_ne hok)
  simp only [finish, hfind]

/-! ## Completions -/

/-- What has been sent between two states. -/
theorem mem_newOuts {o : Out} {s t u : State} (hs : s.outs <+: t.outs) (hu : t.outs ++ [o] <+: u.outs) : o ∈ newOuts s u := by
  obtain ⟨os, hos⟩ := hs
  obtain ⟨ps, hps⟩ := hu
  simp [newOuts, ← hps, ← hos]

/-- A completion begins with its status and the TAG of the descriptor (Table HOST-4). -/
theorem leAt_cplBytes (st : Status) (tag gen : BitVec 16) (state : Nat) (event : Bool) (ring : Nat) (d : Bytes) (b : Byte) :
    leAt (patch (cplBytes st tag gen state event ring d) 7 [b]) 0 2 = (statusCode st).toNat ∧
    leAt (patch (cplBytes st tag gen state event ring d) 7 [b]) 2 2 = tag.toNat := by
  have hbytes : ∃ rest, patch (cplBytes st tag gen state event ring d) 7 [b] = leNat 2 (statusCode st).toNat ++ (leNat 2 tag.toNat ++ rest) := by
    simp [patch, cplBytes, fit, leBv, leNat]
  obtain ⟨rest, hbytes⟩ := hbytes
  rw [hbytes]
  constructor
  · exact (Management.leAt_field [] _ 2 _).trans (Nat.mod_eq_of_lt (statusCode st).isLt)
  · have htag := Management.leAt_field (leNat 2 (statusCode st).toNat) rest 2 tag.toNat
    rw [RecordLog.length_leNat] at htag
    exact htag.trans (Nat.mod_eq_of_lt tag.isLt)

section
variable {ip : InProg} {st : Status} {d : Bytes} {s t : State}

/-- The state in which a completion is written: the command is no longer in progress, its entry no longer reserved. -/
def unreserved (ip : InProg) (st : Status) (t : State) : State :=
  updCpl ip.cpl (fun c => { c with reserved := c.reserved - 1 }) (if st = .badDescriptor
    then noteBad ip { t with host := { t.host with inProg := t.host.inProg.filter (fun x => x.id != ip.id) } }
    else { t with host := { t.host with inProg := t.host.inProg.filter (fun x => x.id != ip.id) } })

/-- The bytes of a completion. -/
def bytesOf (ip : InProg) (st : Status) (d : Bytes) (t : State) : Bytes :=
  cplBytes st ip.tag (unitView t ip.unit).1 (unitView t ip.unit).2 false ip.ring (detailOf st d)

theorem completeHost_eq (ip : InProg) (st : Status) (d : Bytes) (t : State) :
    completeHost ip st d t = if ip.dead then { t with host := { t.host with inProg := t.host.inProg.filter (fun x => x.id != ip.id) } }
      else if (cplOf (unreserved ip st t) ip.cpl).enable
      then countUp 5 ip.cid 1 (writeCpl ip.cpl ip.noIrq (bytesOf ip st d (unreserved ip st t)) (unreserved ip st t))
      else unreserved ip st t := rfl

theorem cplOf_updCpl_of {r : Nat} {f : CplRing → CplRing} (hw : mapWf {} t.host.cpls = true) : cplOf (updCpl r f t) r = f (cplOf t r) :=
  mapGet_mapMod_same hw

theorem enable_unreserved (hst : st ≠ .badDescriptor) (hw : mapWf {} t.host.cpls = true) (he : (cplOf t ip.cpl).enable = true) :
    (cplOf (unreserved ip st t) ip.cpl).enable = true := by
  rw [unreserved, if_neg hst, cplOf_updCpl_of (by exact hw)]
  exact he

theorem unreserved_outs (hst : st ≠ .badDescriptor) : (unreserved ip st t).outs = t.outs := by
  rw [unreserved, if_neg hst, updCpl_outs]

/-- What a completion that is written sends first. -/
theorem completion_sent (r : Nat) (noIrq : Bool) (b : Bytes) (t : State) :
    t.outs ++ [.completion r (cplOf t r).tail.toNat (patch b 7 [byteAt b 7 ||| (if (cplOf t r).phase then 1 else 0)])] <+:
      (writeCpl r noIrq b t).outs := by
  simp only [writeCpl]
  refine List.IsPrefix.trans ?_ (kept_irqAfter (p := answers) (fun _ _ => rfl) noIrq r _).outs
  exact List.prefix_refl _

/-- The completion of a command is written with its status and TAG. -/
theorem completed_completeHost {h : HostCmd} (hd : ip.dead = false) (htag : ip.tag = h.tag) (hst : st ≠ .badDescriptor)
    (hw : mapWf {} t.host.cpls = true) (he : (cplOf t ip.cpl).enable = true) (ho : s.outs <+: t.outs) :
    completed s (completeHost ip st d t) h st = true := by
  have hsent := completion_sent ip.cpl ip.noIrq (bytesOf ip st d (unreserved ip st t)) (unreserved ip st t)
  rw [completeHost_eq, hd, if_neg Bool.false_ne_true, if_pos (enable_unreserved hst hw he), completed, List.any_eq_true]
  refine ⟨_, mem_newOuts (by rwa [unreserved_outs hst]) (hsent.trans (kept_countUp (p := answers) (fun _ _ => rfl) 5 ip.cid 1 _).outs), ?_⟩
  have hb := leAt_cplBytes st h.tag (unitView (unreserved ip st t) ip.unit).1 (unitView (unreserved ip st t) ip.unit).2 false ip.ring
    (detailOf st d)
  simp only [bytesOf, hb, htag, decide_true, Bool.and_self]

theorem irqAfter_ctxs (noIrq : Bool) (r : Nat) (s : State) : (irqAfter noIrq r s).ctxs = s.ctxs := by
  simp only [irqAfter]
  split
  · rfl
  · split <;> rfl

theorem writeCpl_ctxs (r : Nat) (noIrq : Bool) (b : Bytes) (s : State) : (writeCpl r noIrq b s).ctxs = s.ctxs :=
  irqAfter_ctxs ..

theorem countUp_ctxs (i c k : Nat) (s : State) :
    (countUp i c k s).ctxs = mapMod {} s.ctxs c (fun x => { x with cnt := mapMod 0 x.cnt i (· + k) }) := rfl

theorem noteBad_ctxs (ip : InProg) (s : State) : (noteBad ip s).ctxs = s.ctxs := by
  simp only [noteBad]
  split <;> rfl

/-- A completion counts for its own CID, where it is posted: every other context stays (R403). -/
theorem completeHost_ctxs (ip : InProg) (st : Status) (d : Bytes) (t : State) :
    (completeHost ip st d t).ctxs = t.ctxs ∨
    (completeHost ip st d t).ctxs = mapMod {} t.ctxs ip.cid (fun c => { c with cnt := mapMod 0 c.cnt 5 (· + 1) }) := by
  have hun : (unreserved ip st t).ctxs = t.ctxs := by
    rw [unreserved, updCpl_ctxs]
    split
    · rw [noteBad_ctxs]
    · rfl
  have hcount : ∀ b, (countUp 5 ip.cid 1 (writeCpl ip.cpl ip.noIrq b (unreserved ip st t))).ctxs =
      mapMod {} t.ctxs ip.cid (fun c => { c with cnt := mapMod 0 c.cnt 5 (· + 1) }) := by
    intro b
    rw [countUp_ctxs, writeCpl_ctxs, hun]
  rw [completeHost_eq]
  split
  · exact .inl rfl
  · split
    · exact .inr (hcount _)
    · exact .inl hun

theorem ctxOf_completeHost_other {c : Nat} (hw : mapWf {} t.ctxs = true) (hc : c ≠ ip.cid) :
    ctxOf (completeHost ip st d t) c = ctxOf t c := by
  obtain h | h := completeHost_ctxs ip st d t
  · rw [ctxOf, ctxOf, h]
  · rw [ctxOf, h]
    exact mapGet_mapMod_other hw hc

end

/-- The work of `h`, begun in `s` and standing at `t`, is answered: its completion with status `st` is written in `u`, and beside the
ports nothing changes but the counters of the command's CID. -/
structure Answered (s : State) (h : HostCmd) (cid : Nat) (st : Status) (t u : State) : Prop where
  done : completed s u h st = true
  rest : u = answers.put t u
  other : ∀ c, c ≠ cid → ctxOf u c = ctxOf t c
  life : ∀ c, Frames.life (ctxOf u c) = Frames.life (ctxOf t c)

theorem answered_completeHost {ip : InProg} {st : Status} {d : Bytes} {s t : State} {h : HostCmd} (hd : ip.dead = false)
    (htag : ip.tag = h.tag) (hst : st ≠ .badDescriptor) (hcpl : mapWf {} t.host.cpls = true) (he : (cplOf t ip.cpl).enable = true)
    (hw : mapWf {} t.ctxs = true) (ho : s.outs <+: t.outs) : Answered s h ip.cid st t (completeHost ip st d t) where
  done := completed_completeHost hd htag hst hcpl he ho
  rest := (kept_completeHost (p := answers) (fun _ _ => rfl) ip st d t).rest
  other _ hne := ctxOf_completeHost_other hw hne
  life := (kept_completeHost (p := answers) (fun _ _ => rfl) ip st d t).life hw

section
variable {op : HostOp} {u : UnitRef} {h : HostCmd} {s t : State} {st : Status} {d : Bytes}

/-- Where the command's own meaning leaves the host's rings alone. -/
theorem answered_taken (hok : hostOk op h s = true) (hc : canonical s = true) (hst : st ≠ .badDescriptor)
    (hh : t.host = (taken op u h s).host) (hw : mapWf {} t.ctxs = true) (ho : s.outs <+: t.outs) :
    Answered s h h.cid st t (completeHost (progOf op u h s) st d t) := by
  refine answered_completeHost (ip := progOf op u h s) rfl rfl hst ?_ ?_ hw ho
  · rw [hh]
    exact canonical_host_cpls (canonical_taken hc)
  · rw [cplOf, hh]
    exact enable_taken hok hc

/-- Where the command is answered at once. -/
theorem refused_taken (hok : hostOk op h s = true) (hc : canonical s = true) (hst : st ≠ .badDescriptor) :
    Answered s h h.cid st (taken op u h s) (completeHost (progOf op u h s) st d (taken op u h s)) :=
  answered_taken hok hc hst rfl (canonical_ctxs (canonical_taken hc)) (by rw [taken_outs])

/-- The same of work that somebody waits for. -/
theorem answered_finish (hok : hostOk op h s = true) (hc : canonical s = true) (hst : st ≠ .badDescriptor)
    (hh : t.host = (taken op u h s).host) (hw : mapWf {} t.ctxs = true) (ho : s.outs <+: t.outs) :
    Answered s h h.cid st t (finish (.host (progOf op u h s).id) st d t) := by
  rw [finish_taken hok (congrArg (·.inProg) hh)]
  exact answered_taken hok hc hst hh hw ho

end

end Sys2Proof.HostPath
end

section
/-! PROOF. CTX_CREATE takes a FREE CID (03_tenant_contexts.md R60, R64, Table CTX-2). -/

namespace Sys2Proof.Creation

open Sys2Proof Sys2Proof.Machine Sys2Proof.Laws Sys2Proof.Frames Sys2Proof.HostPath

/-! ## The created context -/

section
variable {cid v : Nat} {o : Nat × Nat} {s : State}

theorem canonical_createContext (hc : canonical s = true) : canonical (createContext cid v o s) = true :=
  canonical_updCtx (canonical_putQ (canonical_updCtx hc))

theorem createContext_outs (cid v : Nat) (o : Nat × Nat) (s : State) : s.outs <+: (createContext cid v o s).outs :=
  List.prefix_append ..

theorem ctxOf_createContext_self (hc : canonical s = true) : (ctxOf (createContext cid v o s) cid).state = .created ∧
    (ctxOf (createContext cid v o s) cid).gen = (ctxOf s cid).gen ∧ (ctxOf (createContext cid v o s) cid).v = v := by
  have hmeasured : ∃ c : Ctx, c.state = .created ∧ c.gen = (ctxOf s cid).gen ∧ c.v = v ∧
      ctxOf (createContext cid v o s) cid =
        { c with cmr := mapSet (zeros 48) c.cmr 0 (sha384 (mapGet (zeros 48) c.cmr 0 ++
          sha384 (leNat 1 cid ++ leNat 1 v ++ leBv 2 (ctxOf s cid).gen ++ zeros 4))) } := by
    refine ⟨{ gen := (ctxOf s cid).gen, state := .created, v := v, map := [], ring := some o }, rfl, rfl, rfl, ?_⟩
    refine (ctxOf_updCtx_same (canonical_putQ (canonical_updCtx hc))).trans ?_
    have hput : ∀ (n : Nat) (q : SpillQ) (t : State), ctxOf (putQ n q t) cid = ctxOf t cid := fun _ _ _ => rfl
    rw [hput, ctxOf_updCtx_same hc]
  obtain ⟨c, hstate, hgen, hv, hctx⟩ := hmeasured
  rw [hctx]
  exact ⟨hstate, hgen, hv⟩

theorem ctxOf_createContext_other {c : Nat} (hc : canonical s = true) (hne : c ≠ cid) :
    ctxOf (createContext cid v o s) c = ctxOf s c := by
  refine (ctxOf_updCtx_other (canonical_putQ (canonical_updCtx hc)) hne).trans ?_
  exact ctxOf_updCtx_other (f := fun c => { gen := c.gen, state := .created, v := v, map := [], ring := some o }) hc hne

end

/-! ## The command -/

/-- Naming a unit touches the commands in progress alone. -/
theorem nameUnit_rest (id : Nat) (x : UnitRef) (s : State) :
    nameUnit id x s = { s with host := { s.host with inProg := (nameUnit id x s).host.inProg } } := rfl

theorem cplOf_nameUnit (id : Nat) (x : UnitRef) (s : State) (r : Nat) : cplOf (nameUnit id x s) r = cplOf s r := rfl

theorem canonical_nameUnit {id : Nat} {x : UnitRef} {s : State} (hc : canonical s = true) : canonical (nameUnit id x s) = true := hc

/-- The command in progress with the created context as its unit. -/
def namedProg (cid : Nat) (h : HostCmd) (s : State) : InProg :=
  { progOf opCtxCreate (cidUnit h) h s with unit := .ctx cid, cid := cid }

/-- The commands in progress before it keep their units. -/
theorem find?_nameUnit {cid id : Nat} {xs : List InProg} {ip : InProg} (hip : ip.id = id) (h : ∀ x ∈ xs, x.id ≠ id) :
    ((xs ++ [ip]).map (fun x => if x.id = id then { x with unit := UnitRef.ctx cid, cid := cid } else x)).find? (fun x => x.id == id) =
      some { ip with unit := .ctx cid, cid := cid } := by
  have hxs : xs.map (fun x => if x.id = id then { x with unit := UnitRef.ctx cid, cid := cid } else x) = xs :=
    (List.map_congr_left (fun x hx => if_neg (h x hx))).trans (List.map_id _)
  have hnone : xs.find? (fun x => x.id == id) = none := by simpa [List.find?_eq_none] using h
  simp [List.map_append, hxs, hnone, hip]

/-- The state in which a create that takes `cid` completes. -/
def createdAt (cid : Nat) (h : HostCmd) (s : State) : State :=
  nameUnit (progOf opCtxCreate (cidUnit h) h s).id (.ctx cid) (createContext cid (opByte h 20).toNat
    (h.ring.val, (ringOf (taken opCtxCreate (cidUnit h) h s) h.ring.val).epoch) (taken opCtxCreate (cidUnit h) h s))

section
variable {cid : Nat} {h : HostCmd} {s : State}

theorem createCid_taken (n : Nat) : createCid n (taken opCtxCreate (cidUnit h) h s) = createCid n s := by
  simp only [createCid, ctxOf_taken]

theorem canonical_createdAt (hc : canonical s = true) : canonical (createdAt cid h s) = true :=
  canonical_nameUnit (canonical_createContext (canonical_taken hc))

theorem outs_createdAt : s.outs <+: (createdAt cid h s).outs := by
  have hsent := createContext_outs cid (opByte h 20).toNat (h.ring.val, (ringOf (taken opCtxCreate (cidUnit h) h s) h.ring.val).epoch)
    (taken opCtxCreate (cidUnit h) h s)
  rw [taken_outs] at hsent
  exact hsent

theorem cplOf_createdAt (r : Nat) : cplOf (createdAt cid h s) r = cplOf (taken opCtxCreate (cidUnit h) h s) r :=
  cplOf_nameUnit ..

/-- The create finds its command by its number, and with it the CID that it counts for. -/
theorem finish_createdAt (hok : hostOk opCtxCreate h s = true) (st : Status) (d : Bytes) :
    finish (.host (progOf opCtxCreate (cidUnit h) h s).id) st d (createdAt cid h s) =
      completeHost (namedProg cid h s) st d (createdAt cid h s) := by
  have hfind : (createdAt cid h s).host.inProg.find? (fun x => x.id == (progOf opCtxCreate (cidUnit h) h s).id) =
      some (namedProg cid h s) := by
    have hprog : (createdAt cid h s).host.inProg =
        (s.host.inProg ++ [progOf opCtxCreate (cidUnit h) h s]).map (fun x =>
          if x.id = (progOf opCtxCreate (cidUnit h) h s).id then { x with unit := UnitRef.ctx cid, cid := cid } else x) := by
      rw [← inProg_taken]
      rfl
    rw [hprog]
    exact find?_nameUnit rfl (ids_ne hok)
  simp only [finish, hfind]

theorem exec_ctxCreate (hok : hostOk opCtxCreate h s = true) (hcid : createCid h.cid s = (.ok, cid)) :
    exec (.ctxCreate h) s = .next (completeHost (namedProg cid h s) .ok (leNat 1 cid) (createdAt cid h s)) := by
  refine congrArg Host.Outcome.next (?_ : hostCommand opCtxCreate (cidUnit h) h (ctxCreateBody h) s = _)
  rw [hostCommand_taken hok, ctxCreateBody, createCid_taken, hcid]
  exact finish_createdAt hok ..

theorem answered_create (hc : canonical s = true) (hok : hostOk opCtxCreate h s = true) :
    Answered s h cid .ok (createdAt cid h s) (completeHost (namedProg cid h s) .ok (leNat 1 cid) (createdAt cid h s)) := by
  refine answered_completeHost (ip := namedProg cid h s) rfl rfl (by decide) ?_ ?_ (canonical_ctxs (canonical_createdAt hc)) outs_createdAt
  · exact canonical_host_cpls (canonical_createdAt hc)
  · rw [cplOf_createdAt]
    exact enable_taken hok hc

theorem ctxOf_createdAt (c : Nat) : ctxOf (createdAt cid h s) c = ctxOf (createContext cid (opByte h 20).toNat
    (h.ring.val, (ringOf (taken opCtxCreate (cidUnit h) h s) h.ring.val).epoch) (taken opCtxCreate (cidUnit h) h s)) c := by
  rw [createdAt, nameUnit_rest]
  rfl

end

/-- What a create that takes a CID leaves. -/
theorem created {h : HostCmd} {s : State} {cid : Nat} (hc : canonical s = true) (hok : hostOk opCtxCreate h s = true)
    (hcid : createCid h.cid s = (.ok, cid)) :
    ∃ t, exec (.ctxCreate h) s = .next t ∧ (ctxOf t cid).state = .created ∧ (ctxOf t cid).gen = (ctxOf s cid).gen ∧
      (ctxOf t cid).v = (opByte h 20).toNat ∧ completed s t h .ok = true ∧
      (∀ c, c ≠ cid → ctxOf t c = ctxOf s c) ∧ t.frames = s.frames ∧ t.orng = s.orng ∧ t.fence = s.fence ∧
      t.groups = s.groups ∧ t.dies = s.dies := by
  have hct := canonical_taken (op := opCtxCreate) (u := cidUnit h) (h := h) hc
  obtain ⟨hstate, hgen, hv⟩ := ctxOf_createContext_self (cid := cid) (v := (opByte h 20).toNat)
    (o := (h.ring.val, (ringOf (taken opCtxCreate (cidUnit h) h s) h.ring.val).epoch)) hct
  rw [← ctxOf_createdAt] at hstate hgen hv
  rw [ctxOf_taken] at hgen
  obtain ⟨hdone, hrest, hother, hlife⟩ := answered_create (cid := cid) hc hok
  rw [exec_ctxCreate hok hcid]
  generalize completeHost _ _ _ _ = t at hdone hrest hother hlife
  refine ⟨t, rfl, ?_, ?_, ?_, hdone, ?_, ?_⟩
  · exact (congrArg Ctx.state (hlife cid)).trans hstate
  · exact (congrArg Ctx.gen (hlife cid)).trans hgen
  · exact (congrArg Ctx.v (hlife cid)).trans hv
  · intro c hne
    rw [hother c hne, ctxOf_createdAt, ctxOf_createContext_other hct hne, ctxOf_taken]
  · rw [hrest]
    exact ⟨taken_frames .., taken_orng .., taken_fence .., taken_groups .., taken_dies ..⟩

/-- The lowest CID that a create may take. -/
theorem createCid_zero {s : State} {cid : Nat} (h1 : 1 ≤ cid) (h2 : cid ≤ 254) (hfree : (ctxOf s cid).state = .free)
    (hcool : (ctxOf s cid).cooldown = none) (hlow : ∀ c, 1 ≤ c → c < cid → (ctxOf s c).state ≠ .free ∨ (ctxOf s c).cooldown ≠ none) :
    createCid 0 s = (.ok, cid) := by
  obtain ⟨i, rfl⟩ : ∃ i, cid = i + 1 := ⟨cid - 1, by omega⟩
  have hfind : (List.range 254).find? (fun i => decide ((ctxOf s (i + 1)).state = .free) && (ctxOf s (i + 1)).cooldown.isNone) = some i := by
    rw [List.find?_range_eq_some]
    refine ⟨by simp [hfree, hcool], by simp; omega, fun j hj => ?_⟩
    have := hlow (j + 1) (by omega) (by omega)
    simp only [Bool.not_eq_true', Bool.and_eq_false_iff, decide_eq_false_iff_not, Option.isNone_eq_false_iff, Option.isSome_iff_ne_none]
    exact this
  simp only [createCid, if_true, hfind]

/-- Settles O21: a create makes its CID CREATED through one path, whether it is named or the lowest free one. -/
theorem createTakesAFreeCid : Obligations.CreateTakesAFreeCid := by
  unfold Obligations.CreateTakesAFreeCid
  refine ⟨fun h s hc hok hne hfree hcool => ?_, fun h s cid hc hok h0 h1 h2 hfree hcool hlow => ?_, fun h s hc hok hne hfree hcool => ?_⟩
  · have hcid : createCid h.cid s = (.ok, h.cid.val) := by simp [createCid, hne, hfree, hcool, ctxTable]
    exact created hc hok hcid
  · obtain ⟨t, hrun, hstate, hgen, hv, hdone, hother, hframes, horng, hfence, -⟩ :=
      created hc hok (by rw [h0]; exact createCid_zero h1 h2 hfree hcool hlow)
    exact ⟨t, hrun, hstate, hgen, hv, hdone, hother, hframes, horng, hfence⟩
  · have hcid : createCid h.cid s = (.busy, 0) := by simp [createCid, hne, hfree, ctxTable, Option.isSome_iff_ne_none, hcool]
    have hrun : exec (.ctxCreate h) s =
        .next (completeHost (progOf opCtxCreate (cidUnit h) h s) .busy [] (taken opCtxCreate (cidUnit h) h s)) := by
      refine congrArg Host.Outcome.next (?_ : hostCommand opCtxCreate (cidUnit h) h (ctxCreateBody h) s = _)
      rw [hostCommand_taken hok, ctxCreateBody, createCid_taken, hcid]
    obtain ⟨hdone, hrest, -, hlife⟩ := refused_taken (u := cidUnit h) (d := []) (st := .busy) hok hc (by decide)
    rw [hrun]
    generalize completeHost _ _ _ _ = t at hdone hrest hlife
    refine ⟨t, rfl, hdone, ?_, ?_⟩
    · exact (congrArg State.frames hrest).trans (taken_frames ..)
    · have hlife := hlife h.cid
      rw [ctxOf_taken] at hlife
      exact (congrArg Ctx.state hlife).trans hfree

end Sys2Proof.Creation
end

section
/-! PROOF. Frame lists are served whole or not at all (03_tenant_contexts.md R67 to R69, 18_host_rings.md R391, R393). -/

namespace Sys2Proof.FrameLists

open Sys2Proof Sys2Proof.Machine Sys2Proof.Laws Sys2Proof.Frames Sys2Proof.HostPath

/-! ## Lists -/

/-- A list whose entries all pass, and none twice where that counts, has no refused entry. -/
theorem firstRefused_none {once : Bool} {p : Nat → Bool} {ws : List Nat} (hp : ∀ n ∈ ws, p n = true) (hd : once = true → ws.Nodup) :
    firstRefused once p ws = none := by
  rw [firstRefused, List.find?_eq_none]
  intro i hi
  have hlt : i < ws.length := List.mem_range.mp hi
  have hget : ws.getD i 0 = ws[i] := by simp [List.getD, hlt]
  have honce : (once && (ws.take i).contains ws[i]) = false := by
    cases once with
    | false => rfl
    | true =>
      have hnd := hd rfl
      rw [← List.take_append_drop i ws, List.nodup_append] at hnd
      have hmem : ws[i] ∈ ws.drop i := List.mem_drop_iff_getElem.mpr ⟨0, by simpa using hlt, by simp⟩
      simp only [Bool.true_and, List.contains_eq_mem, decide_eq_false_iff_not]
      exact fun hin => hnd.2.2 _ hin _ hmem rfl
  rw [hget, honce, hp _ (List.getElem_mem hlt)]
  decide

/-- An entry that does not pass makes its list refused. -/
theorem firstRefused_some {once : Bool} {p : Nat → Bool} {ws : List Nat} {n : Nat} (hn : n ∈ ws) (hp : p n = false) :
    ∃ i, firstRefused once p ws = some i := by
  obtain ⟨i, hi, rfl⟩ := List.mem_iff_getElem.mp hn
  refine Option.isSome_iff_exists.mp ?_
  rw [firstRefused, List.find?_isSome]
  exact ⟨i, List.mem_range.mpr hi, by simp [List.getD, hi, hp]⟩

/-- A list in the descriptor is read where it stands. -/
theorem withList_inline {h : HostCmd} {ip : InProg} {k : List Nat → State → State} {s : State} (hl : h.bufLen = 0) :
    withList h ip k s = k (frameWords h) s := if_pos hl

theorem allOrNone_served {ip : InProg} {once : Bool} {p : Nat → Bool} {ws : List Nat} {k : State → State} {s : State}
    (hp : ∀ n ∈ ws, p n = true) (hd : once = true → ws.Nodup) : allOrNone ip once p ws k s = k s := by
  rw [allOrNone, firstRefused_none hp hd]

/-! ## Frames bound -/

section
variable {f : Frame} {ws : List Nat} {s : State}

/-- Frames bound one after another: in the frame table alone. -/
theorem foldl_updFrame (f : Frame) (ws : List Nat) (s : State) : ws.foldl (fun s n => updFrame n (fun _ => f) s) s =
    { s with frames := (ws.foldl (fun s n => updFrame n (fun _ => f) s) s).frames } := by
  induction ws generalizing s with
  | nil => rfl
  | cons n ws ih => exact ih (updFrame n (fun _ => f) s)

theorem frameOf_foldl_updFrame (hc : canonical s = true) (n : Nat) :
    frameOf (ws.foldl (fun s n => updFrame n (fun _ => f) s) s) n = if n ∈ ws then f else frameOf s n := by
  induction ws generalizing s with
  | nil => rfl
  | cons m ws ih =>
    rw [List.foldl_cons, ih (canonical_updFrame hc)]
    by_cases hm : n = m
    · subst hm
      simp [frameOf_updFrame_same hc]
    · simp [hm, frameOf_updFrame_other hc hm]

end

/-! ## Commands -/

theorem exec_ctxFrameBind {h : HostCmd} {s : State} (hok : hostOk opCtxFrameBind h s = true) (hl : h.bufLen = 0)
    (hcheck : ctxCheck .frameBind h.cid h.gen s = none) (hclass : (opByte h 20).toNat ≤ 1) :
    exec (.ctxFrameBind h) s = .next (allOrNone (progOf opCtxFrameBind (cidUnit h) h s) true
      (fun n => decide ((frameOf s n).owner = 255) && decide ((frameOf s n).cls ≠ .device)) (frameWords h)
      (bindFrames h.cid (bindClass (opByte h 20).toNat) 0 (opByte h 21).toNat (.host (progOf opCtxFrameBind (cidUnit h) h s).id)
        (frameWords h)) (taken opCtxFrameBind (cidUnit h) h s)) := by
  have hown : bindClass (opByte h 20).toNat ≠ .shared := by
    rcases Nat.le_one_iff_eq_zero_or_eq_one.mp hclass with h0 | h1
    · rw [h0]
      decide
    · rw [h1]
      decide
  refine congrArg Host.Outcome.next (?_ : ctxCommand opCtxFrameBind .frameBind h (frameBindBody h) s = _)
  simp only [ctxCommand_taken hok hcheck, frameBindBody, if_neg hown, withList_inline hl, frameOf_taken]

/-- A bind of frames of CID 255 (R67, R68). -/
theorem frames_bound {h : HostCmd} {s : State} (hc : canonical s = true) (hok : hostOk opCtxFrameBind h s = true) (hl : h.bufLen = 0)
    (hcheck : ctxCheck .frameBind h.cid h.gen s = none) (hclass : (opByte h 20).toNat ≤ 1) (hnd : (frameWords h).Nodup)
    (hfree : ∀ n ∈ frameWords h, (frameOf s n).owner = 255 ∧ (frameOf s n).cls ≠ .device) :
    ∃ t, exec (.ctxFrameBind h) s = .next t ∧
      (∀ n ∈ frameWords h, frameOf t n = { owner := h.cid.val, cls := if (opByte h 20).toNat = 1 then .save else .priv, group := 0, zeroing := true }) ∧
      (∀ n, n ∉ frameWords h → frameOf t n = frameOf s n) ∧
      t.fence.scrub.length = s.fence.scrub.length + (frameWords h).length ∧ t.ctxs = s.ctxs ∧ t.orng = s.orng ∧ t.outs = s.outs := by
  have hcls : bindClass (opByte h 20).toNat = if (opByte h 20).toNat = 1 then .save else .priv := by
    rcases Nat.le_one_iff_eq_zero_or_eq_one.mp hclass with h0 | h1
    · rw [h0]
      decide
    · rw [h1]
      decide
  rw [exec_ctxFrameBind hok hl hcheck hclass, allOrNone_served (fun n hn => by simp [hfree n hn]) (fun _ => hnd)]
  refine ⟨_, rfl, ?_⟩
  have hframe := fun n => frameOf_foldl_updFrame (f := { owner := h.cid.val, cls := bindClass (opByte h 20).toNat, group := 0, zeroing := true })
    (ws := frameWords h) (canonical_taken (op := opCtxFrameBind) (u := cidUnit h) (h := h) hc) n
  have hrest := foldl_updFrame { owner := h.cid.val, cls := bindClass (opByte h 20).toNat, group := 0, zeroing := true } (frameWords h)
    (taken opCtxFrameBind (cidUnit h) h s)
  simp only [bindFrames]
  generalize (frameWords h).foldl _ _ = b at hframe hrest
  have hfence : b.fence = s.fence := (congrArg State.fence hrest).trans (taken_fence ..)
  have hctxs : b.ctxs = s.ctxs := (congrArg State.ctxs hrest).trans (taken_ctxs ..)
  have horng : b.orng = s.orng := (congrArg State.orng hrest).trans (taken_orng ..)
  have houts : b.outs = s.outs := (congrArg State.outs hrest).trans (taken_outs ..)
  have hb : ∀ n, frameOf (queueScrub (frameWords h) (fun _ => if bindClass (opByte h 20).toNat = .shared then .group 0 else .ctx h.cid) h.cid
      (if bindClass (opByte h 20).toNat = .shared then (opByte h 21).toNat else 0) .bind
      (.host (progOf opCtxFrameBind (cidUnit h) h s).id) b).2 n = frameOf b n := fun _ => rfl
  refine ⟨fun n hn => ?_, fun n hn => ?_, ?_, hctxs, horng, houts⟩
  · rw [hb, hframe, if_pos hn, hcls]
  · rw [hb, hframe, if_neg hn, frameOf_taken]
  · simp [queueScrub, hfence]

/-- A list queued to be rewritten under CID 255: the scrub engine's queue alone changes (R69, R393). -/
theorem queueScrub_unowned {ws : List Nat} {f : ScrubFor} {w : Waiter} {s t : State} (hfence : t.fence = s.fence) :
    (queueScrub ws (fun _ => .unowned) 255 0 f w t).2.fence.scrub =
      s.fence.scrub ++ ws.map (fun n => ⟨n, s.fence.nextJob, .unowned, 255, 0, false⟩) := by
  simp only [queueScrub, hfence]

/-- Settles O23: a list is judged as a whole before its first frame is touched. -/
theorem frameListsAreServedWholeOrNotAtAll : Obligations.FrameListsAreServedWholeOrNotAtAll := by
  unfold Obligations.FrameListsAreServedWholeOrNotAtAll
  refine ⟨fun h s hc hok _ hl hcheck hclass hnd hfree => frames_bound hc hok hl hcheck hclass hnd hfree,
    fun h s n hc hok _ hl hcheck hclass hn howner => ?_, fun h s hc hok _ hl hcheck hnd hmine => ?_, fun h s hc hok hl hfree => ?_,
    fun m fs s hok h1 h2 hfree => ?_, fun m fs s hok hlen => ?_⟩
  · obtain ⟨i, hi⟩ := firstRefused_some (once := true) (p := fun n => decide ((frameOf s n).owner = 255) && decide ((frameOf s n).cls ≠ .device))
      hn (by simp [howner])
    obtain ⟨hdone, hrest, -, -⟩ := refused_taken (u := cidUnit h) (d := leNat 4 i) (st := .notPermitted) hok hc (by decide)
    have hrun : exec (.ctxFrameBind h) s = .next (completeHost (progOf opCtxFrameBind (cidUnit h) h s) .notPermitted (leNat 4 i)
        (taken opCtxFrameBind (cidUnit h) h s)) := by
      rw [exec_ctxFrameBind hok hl hcheck hclass, allOrNone, hi]
    rw [hrun]
    generalize completeHost _ _ _ _ = t at hdone hrest
    exact ⟨t, rfl, hdone, (congrArg State.frames hrest).trans (taken_frames ..), (congrArg State.fence hrest).trans (taken_fence ..)⟩
  · have hrun : exec (.ctxFrameRelease h) s = .next (queueScrub (frameWords h) (fun _ => .unowned) 255 0 (.release h.cid)
        (.host (progOf opCtxFrameRelease (cidUnit h) h s).id) (taken opCtxFrameRelease (cidUnit h) h s)).2 := by
      refine congrArg Host.Outcome.next (?_ : ctxCommand opCtxFrameRelease .frameRelease h (frameReleaseBody h) s = _)
      simp only [ctxCommand_taken hok hcheck, frameReleaseBody, withList_inline hl, frameOf_taken]
      exact allOrNone_served (fun n hn => by simpa using hmine n hn) (fun _ => hnd)
    exact ⟨_, hrun, taken_frames .., queueScrub_unowned (taken_fence ..), taken_ctxs .., taken_orng .., taken_outs ..⟩
  · have hrun : exec (.scrubFrames h) s = .next (queueScrub (frameWords h) (fun _ => .unowned) 255 0 .scrub
        (.host (progOf opScrubFrames .none h s).id) (taken opScrubFrames .none h s)).2 := by
      refine congrArg Host.Outcome.next (?_ : hostCommand opScrubFrames .none h (scrubFramesBody h) s = _)
      simp only [hostCommand_taken hok, scrubFramesBody, withList_inline hl]
      refine allOrNone_served (fun n hn => ?_) (fun hf => absurd hf (by decide))
      simp [scrubable, frameOf_taken, hfree n hn]
    exact ⟨_, hrun, taken_frames .., queueScrub_unowned (taken_fence ..), taken_ctxs .., taken_orng .., taken_outs ..⟩
  · have hrun : exec (.mgmtScrubFrames m fs) s = .next (queueScrub (fs.map (·.val)) (fun _ => .unowned) 255 0 .scrub (.mgmt m.tag.val)
        (Management.taken 0x04 .none m s)).2 := by
      refine congrArg Host.Outcome.next (?_ : mgmtCommand 0x04 .none m (within (4 + 4 * fs.length) (mgmtScrubBody (fs.map (·.val)))) s = _)
      have hlist : ¬ ((fs.map (·.val)).length = 0 ∨ (fs.map (·.val)).length > 16384) := by
        rw [List.length_map]
        omega
      have hpass : firstRefused false (scrubable (Management.taken 0x04 .none m s)) (fs.map (·.val)) = none := by
        refine firstRefused_none (fun n hn => ?_) (fun hf => absurd hf (by decide))
        obtain ⟨x, hx, rfl⟩ := List.mem_map.mp hn
        have hframe : frameOf (Management.taken 0x04 .none m s) x = frameOf s x := rfl
        simp [scrubable, hframe, hfree x hx]
      rw [Management.mgmtCommand_taken hok, Management.within_short (by omega), mgmtScrubBody, if_neg hlist, hpass]
      rfl
    refine ⟨_, hrun, rfl, ?_, rfl, rfl, rfl⟩
    refine (queueScrub_unowned (s := s) (t := Management.taken 0x04 .none m s) rfl).trans ?_
    rw [List.map_map]
    rfl
  · have hrun : exec (.mgmtScrubFrames m fs) s =
        .next (replyMgmt (Management.progOf 0x04 .none m) .lengthLong [] (Management.taken 0x04 .none m s)) := by
      refine congrArg Host.Outcome.next (?_ : mgmtCommand 0x04 .none m (within (4 + 4 * fs.length) (mgmtScrubBody (fs.map (·.val)))) s = _)
      rw [Management.mgmtCommand_taken hok, Management.within_long (by omega)]
    exact ⟨_, hrun, Management.replied_replyMgmt rfl (List.prefix_refl _), rfl, rfl⟩

end Sys2Proof.FrameLists
end

section
/-! PROOF. Seals, schedules and power policies (03_tenant_contexts.md R70, R75, 17_power_thermal.md R376). -/

namespace Sys2Proof.Tenancy

open Sys2Proof Sys2Proof.Machine Sys2Proof.Laws Sys2Proof.Frames Sys2Proof.HostPath

/-! ## Locked changes -/

theorem issueLock_rest (op : LockOp) (o : LockOwner) (s : State) : issueLock op o s = { s with fence := (issueLock op o s).fence } := by
  simp only [issueLock]
  split <;> rfl

/-- A locked change that has been issued is in force or waits, over all 16 groups. -/
theorem mem_issueLock (op : LockOp) (o : LockOwner) (s : State) :
    ⟨op, 0xffff, o, s.tick⟩ ∈ (issueLock op o s).fence.locks ++ (issueLock op o s).fence.lockWait := by
  simp only [issueLock]
  split <;> simp

/-! ## Seal -/

/-- The seal of an OPEN group by its creator. -/
theorem exec_ctxPrefixSeal {h : HostCmd} {s : State} {g : Nat} (hok : hostOk opCtxPrefixSeal h s = true)
    (hcheck : ctxCheck .prefixSeal h.cid h.gen s = none) (hksel : mapGet none (ctxOf s h.cid).ksel (opByte h 20).toNat = some g)
    (hopen : (groupOf s g).state = .open_) (hseal : (groupOf s g).sealTick = none) (hfree : (groupOf s g).sealing = false)
    (hmine : (groupOf s g).creator = h.cid.val) :
    exec (.ctxPrefixSeal h) s = .next (issueLock (.sealGroup g) (.sealing g (.host (progOf opCtxPrefixSeal (cidUnit h) h s).id))
      (updGroup g (fun x => { x with sealing := true }) (taken opCtxPrefixSeal (cidUnit h) h s))) := by
  refine congrArg Host.Outcome.next (?_ : ctxCommand opCtxPrefixSeal .prefixSeal h (prefixSealBody h) s = _)
  have hstate : groupStateAt (taken opCtxPrefixSeal (cidUnit h) h s) g = .open_ := by
    simp only [groupStateAt, groupOf_taken, hopen, hseal]
  simp only [ctxCommand_taken hok hcheck, prefixSealBody, ctxOf_taken, hksel, hstate, groupOf_taken, hfree, hmine, hopen, reduceCtorEq,
    Bool.false_eq_true, or_self, if_false, and_self, if_true]

/-! ## Schedule -/

/-- A map put in force: the context's fields, then requests to the Lodges. -/
theorem kept_putMap (cid n : Nat) (m : List (Option Nat)) (s : State) : Kept requests
    (updCtx cid (fun c => { c with map := m, slice := n, state := if m.all (·.isNone) then c.state else .running }) s) (putMap cid n m s) :=
  .foldl (fun t d => kept_postLodge (fun _ _ => rfl) d _ t) _ _

/-- A schedule that names a die and is let through. -/
theorem exec_ctxSchedule {h : HostCmd} {s : State} (hok : hostOk opCtxSchedule h s = true)
    (hcheck : ctxCheck .schedule h.cid h.gen s = none) (hwait : (ctxOf s h.cid).schedWait = none)
    (hff : (slice h.ops (4 + (ctxOf s h.cid).v) (32 - (ctxOf s h.cid).v)).all (· == 0xff) = true)
    (hsome : ∃ d, some d ∈ scheduleMap h (ctxOf s h.cid).v)
    (hdies : ∀ d, some d ∈ scheduleMap h (ctxOf s h.cid).v → (dieOf s d).state = .running ∧
      (ctxOf s h.cid).v * 320 * ((dieOf s d).saveKib.toNat + 1) ≤ (saveFrames s h.cid).length * 2048) :
    exec (.ctxSchedule h) s = .next (finish (.host (progOf opCtxSchedule (cidUnit h) h s).id) .ok []
      (putMap h.cid (opNat h 20 4) (scheduleMap h (ctxOf s h.cid).v) (taken opCtxSchedule (cidUnit h) h s))) := by
  refine congrArg Host.Outcome.next (?_ : ctxCommand opCtxSchedule .schedule h (scheduleBody h) s = _)
  have hmem : ∀ d ∈ (scheduleMap h (ctxOf s h.cid).v).filterMap id, (dieOf s d).state = .running ∧
      (ctxOf s h.cid).v * 320 * ((dieOf s d).saveKib.toNat + 1) ≤ (saveFrames s h.cid).length * 2048 := by
    intro d hd
    exact hdies d (by simpa using hd)
  have hrun : ((scheduleMap h (ctxOf s h.cid).v).filterMap id).any (fun d => decide ((dieOf s d).state ≠ .running)) = false := by
    rw [List.any_eq_false]
    exact fun d hd => by simp [(hmem d hd).1]
  have hfit : ((scheduleMap h (ctxOf s h.cid).v).filterMap id).any
      (fun d => !saveFits (taken opCtxSchedule (cidUnit h) h s) h.cid (ctxOf s h.cid).v d) = false := by
    rw [List.any_eq_false]
    exact fun d hd => by simpa [saveFits, slotKib, saveFrames] using (hmem d hd).2
  have hne : ((scheduleMap h (ctxOf s h.cid).v).filterMap id).isEmpty = false := by
    obtain ⟨d, hd⟩ := hsome
    have hin : d ∈ (scheduleMap h (ctxOf s h.cid).v).filterMap id := by simpa using hd
    exact List.isEmpty_eq_false_iff.mpr (List.ne_nil_of_mem hin)
  have hend : endSchedule h.cid .ok (taken opCtxSchedule (cidUnit h) h s) = taken opCtxSchedule (cidUnit h) h s := by
    simp only [endSchedule, ctxOf_taken, hwait]
  simp only [ctxCommand_taken hok hcheck, scheduleBody, ctxOf_taken, hff, dieOf_taken, hrun, hfit, hend, hne, Bool.not_true,
    Bool.false_eq_true, Bool.or_self, if_false]

/-- A context that a schedule maps to dies. -/
theorem scheduled {h : HostCmd} {s : State} (hc : canonical s = true) (hok : hostOk opCtxSchedule h s = true)
    (hsome : ∃ d, some d ∈ scheduleMap h (ctxOf s h.cid).v) :
    ∃ t, finish (.host (progOf opCtxSchedule (cidUnit h) h s).id) .ok []
        (putMap h.cid (opNat h 20 4) (scheduleMap h (ctxOf s h.cid).v) (taken opCtxSchedule (cidUnit h) h s)) = t ∧
      (ctxOf t h.cid).state = .running ∧
      (ctxOf t h.cid).map = scheduleMap h (ctxOf s h.cid).v ∧ (ctxOf t h.cid).slice = opNat h 20 4 ∧
      completed s t h .ok = true ∧ (∀ c, c ≠ h.cid.val → ctxOf t c = ctxOf s c) ∧ t.frames = s.frames ∧ t.orng = s.orng ∧
      t.fence = s.fence := by
  have hct := canonical_taken (op := opCtxSchedule) (u := cidUnit h) (h := h) hc
  have hput := kept_putMap h.cid (opNat h 20 4) (scheduleMap h (ctxOf s h.cid).v) (taken opCtxSchedule (cidUnit h) h s)
  generalize putMap _ _ _ _ = b at hput
  have hctxs : ∀ c, ctxOf b c = ctxOf (updCtx h.cid (fun c => { c with
      map := scheduleMap h (ctxOf s h.cid).v, slice := opNat h 20 4
      state := if (scheduleMap h (ctxOf s h.cid).v).all (·.isNone) then c.state else .running })
      (taken opCtxSchedule (cidUnit h) h s)) c := fun c => (congrArg (fun t => ctxOf t c) hput.rest :)
  have hnotAll : ((scheduleMap h (ctxOf s h.cid).v).all (·.isNone)) = false := by
    obtain ⟨d, hd⟩ := hsome
    exact List.all_eq_false.mpr ⟨some d, hd, by simp⟩
  have hsame := hctxs h.cid
  rw [ctxOf_updCtx_same hct, hnotAll] at hsame
  obtain ⟨hdone, hrest, hother, hlife⟩ := answered_finish (u := cidUnit h) (t := b) (st := .ok) (d := []) hok hc (by decide)
    (congrArg State.host hput.rest :) (hput.wf (canonical_ctxs (canonical_updCtx hct))) (by
      have houts := hput.outs
      rw [updCtx_outs, taken_outs] at houts
      exact houts)
  generalize finish _ _ _ b = t at hdone hrest hother hlife
  have hself := hlife h.cid
  rw [hsame] at hself
  refine ⟨t, rfl, congrArg Ctx.state hself, congrArg Ctx.map hself, congrArg Ctx.slice hself, hdone, fun c hne => ?_, ?_, ?_, ?_⟩
  · rw [hother c hne, hctxs, ctxOf_updCtx_other hct hne, ctxOf_taken]
  · exact (congrArg State.frames hrest).trans ((congrArg State.frames hput.rest).trans (taken_frames ..))
  · exact (congrArg State.orng hrest).trans ((congrArg State.orng hput.rest).trans (taken_orng ..))
  · exact (congrArg State.fence hrest).trans ((congrArg State.fence hput.rest).trans (taken_fence ..))

/-! ## Power policy -/

/-- The fields that POWER_POLICY sets (R376). -/
def withPolicy (h : HostCmd) (c : Ctx) : Ctx := { c with w := (opByte h 20).toNat, fMin := (opByte h 21).toNat, pMax := opNat h 22 2 }

/-- A policy is in force at once; its completion says whether a die of the context is clipped. -/
theorem exec_powerPolicy {h : HostCmd} {s : State} (hok : hostOk opPowerPolicy h s = true) (hgen : h.gen ≠ 0)
    (hcur : h.gen = (ctxOf s h.cid).gen) (hstate : (ctxOf s h.cid).state = .keyed ∨ (ctxOf s h.cid).state = .running) :
    ∃ st d, (st = .ok ∨ st = .pwrPolicyClipped) ∧ exec (.powerPolicy h) s = .next (completeHost (progOf opPowerPolicy (cidUnit h) h s) st d
      (updCtx h.cid (withPolicy h) (taken opPowerPolicy (cidUnit h) h s))) := by
  have hpass : policyTable (ctxOf s h.cid).state = none := by
    obtain hk | hr := hstate
    · rw [hk]
      rfl
    · rw [hr]
      rfl
  have hbody : ∀ st d, powerPolicyBody h (progOf opPowerPolicy (cidUnit h) h s) (taken opPowerPolicy (cidUnit h) h s) =
      completeHost (progOf opPowerPolicy (cidUnit h) h s) st d (updCtx h.cid (withPolicy h) (taken opPowerPolicy (cidUnit h) h s)) →
      exec (.powerPolicy h) s = .next (completeHost (progOf opPowerPolicy (cidUnit h) h s) st d
        (updCtx h.cid (withPolicy h) (taken opPowerPolicy (cidUnit h) h s))) := by
    intro st d hb
    refine congrArg Host.Outcome.next (?_ : hostCommand opPowerPolicy (cidUnit h) h (powerPolicyBody h) s = _)
    rw [hostCommand_taken hok, hb]
  have hcheck : ¬ (h.gen ≠ (ctxOf s h.cid).gen ∨ h.gen = 0) := fun hbad => hbad.elim (· hcur) hgen
  cases hclip : ownClipped (taken opPowerPolicy (cidUnit h) h s) h.cid with
  | none => exact ⟨.ok, [], .inl rfl, hbody _ _ (by simp only [powerPolicyBody, ctxOf_taken, if_neg hcheck, hpass, hclip]; rfl)⟩
  | some x =>
    exact ⟨.pwrPolicyClipped, leNat 2 x.2.1 ++ leNat 1 x.1, .inr rfl,
      hbody _ _ (by simp only [powerPolicyBody, ctxOf_taken, if_neg hcheck, hpass, hclip]; rfl)⟩

/-- Settles O24: each command changes its own unit, and asks or answers. -/
theorem sealScheduleAndPowerPolicy : Obligations.SealScheduleAndPowerPolicy := by
  unfold Obligations.SealScheduleAndPowerPolicy
  refine ⟨fun h s g hc hok _ hcheck hksel hopen hseal hfree hmine => ?_, fun h s hc hok _ hcheck hwait hff hsome hdies => ?_,
    fun h s hc hok _ hgen hcur hstate => ?_⟩
  · have hct := canonical_taken (op := opCtxPrefixSeal) (u := cidUnit h) (h := h) hc
    have hmem := mem_issueLock (.sealGroup g) (.sealing g (.host (progOf opCtxPrefixSeal (cidUnit h) h s).id))
      (updGroup g (fun x => { x with sealing := true }) (taken opCtxPrefixSeal (cidUnit h) h s))
    have hrest := issueLock_rest (.sealGroup g) (.sealing g (.host (progOf opCtxPrefixSeal (cidUnit h) h s).id))
      (updGroup g (fun x => { x with sealing := true }) (taken opCtxPrefixSeal (cidUnit h) h s))
    rw [exec_ctxPrefixSeal hok hcheck hksel hopen hseal hfree hmine]
    generalize issueLock _ _ _ = t at hmem hrest
    have hgroups : ∀ x, groupOf t x = groupOf (updGroup g (fun x => { x with sealing := true }) (taken opCtxPrefixSeal (cidUnit h) h s)) x :=
      fun x => (congrArg (fun t => groupOf t x) hrest :)
    have hself := hgroups g
    rw [groupOf_updGroup_same hct, groupOf_taken] at hself
    refine ⟨t, rfl, congrArg Group.sealing hself, (congrArg Group.state hself).trans hopen, ⟨_, hmem, rfl, rfl⟩, fun x hne => ?_,
      (congrArg State.ctxs hrest).trans (taken_ctxs ..), (congrArg State.frames hrest).trans (taken_frames ..),
      (congrArg State.orng hrest).trans (taken_orng ..), (congrArg State.outs hrest).trans (taken_outs ..)⟩
    rw [hgroups, groupOf_updGroup_other hct hne, groupOf_taken]
  · obtain ⟨t, ht, hall⟩ := scheduled hc hok hsome
    exact ⟨t, (exec_ctxSchedule hok hcheck hwait hff hsome hdies).trans (congrArg Host.Outcome.next ht), hall⟩
  · have hct := canonical_taken (op := opPowerPolicy) (u := cidUnit h) (h := h) hc
    obtain ⟨st, d, hst, hrun⟩ := exec_powerPolicy hok hgen hcur hstate
    have hbad : st ≠ .badDescriptor := by
      obtain rfl | rfl := hst
      · decide
      · decide
    obtain ⟨hdone, hrest, hother, hlife⟩ := answered_taken (u := cidUnit h) (st := st) (d := d)
      (t := updCtx h.cid (withPolicy h) (taken opPowerPolicy (cidUnit h) h s)) hok hc hbad rfl (canonical_ctxs (canonical_updCtx hct))
      (by rw [updCtx_outs, taken_outs])
    rw [hrun]
    generalize completeHost _ _ _ _ = t at hdone hrest hother hlife
    have hself := hlife h.cid
    rw [ctxOf_updCtx_same hct, ctxOf_taken] at hself
    refine ⟨t, rfl, congrArg Ctx.w hself, congrArg Ctx.fMin hself, congrArg Ctx.pMax hself, (congrArg Ctx.state hself :), ?_, fun c hne => ?_,
      (congrArg State.power hrest).trans (taken_power ..), (congrArg State.dies hrest).trans (taken_dies ..),
      (congrArg State.frames hrest).trans (taken_frames ..)⟩
    · obtain rfl | rfl := hst
      · exact .inl hdone
      · exact .inr hdone
    · rw [hother c hne, ctxOf_updCtx_other hct hne, ctxOf_taken]

end Sys2Proof.Tenancy
end

section
/-! PROOF. Drains and destroys start (03_tenant_contexts.md R61, R78, R80, R83, Table CTX-2), on both paths. -/

namespace Sys2Proof.DrainStart

open Sys2Proof Sys2Proof.Machine Sys2Proof.Laws Sys2Proof.Frames Sys2Proof.HostPath

/-! ## Drains -/

/-- The drain that a context gets (Table CTX-9, tick T). -/
def drainOf (cid : Nat) (w : Waiter) (s : State) : Drain :=
  ⟨if (diesOf s cid).isEmpty then .counts else .lodges, diesOf s cid, s.tick + drainLimit, (match w with | .none => [] | w => [w]), s.tick,
    !(diesOf s cid).isEmpty⟩

/-- A context under a drain. -/
def draining (k : Drain) (t : Nat) (c : Ctx) : Ctx := { c with state := .draining, drain := some k, map := [], forced := false, leftAt := t }

section
variable {cid : Nat} {w : Waiter} {s : State}

/-- With no empty map pending, the start of a drain is a change of its context alone. -/
theorem startDrain_eq (hc : canonical s = true) (hwait : (ctxOf s cid).schedWait = none) :
    startDrain cid w s = updCtx cid (draining (drainOf cid w s) s.tick) s := by
  have hctx : (ctxOf (updCtx cid (draining (drainOf cid w s) s.tick) s) cid).schedWait = none := by
    rw [ctxOf_updCtx_same hc]
    exact hwait
  change endSchedule cid .ctxState (updCtx cid (draining (drainOf cid w s) s.tick) s) = _
  rw [endSchedule, hctx]

theorem drainContext_started (hc : canonical s = true) (hwait : (ctxOf s cid).schedWait = none) (hstate : (ctxOf s cid).state ≠ .drained) :
    drainContext cid w s = updCtx cid (draining (drainOf cid w s) s.tick) s := by
  rw [drainContext, if_neg hstate, startDrain_eq hc hwait]

/-- A command that passes Table CTX-2. -/
theorem ctxTable_of_ctxCheck {cmd : CtxCmd} {gen : BitVec 16} (h : ctxCheck cmd cid gen s = none) :
    ctxTable cmd (ctxOf s cid).state = none := by
  simp only [ctxCheck] at h
  split at h
  · exact absurd h (by simp)
  · exact h

/-! ## Destroys -/

/-- What a destroy ends at once, and the waiter that it adds. -/
def granted (w : Waiter) (c : Ctx) : Ctx := { endGrants c with destroyWaiters := c.destroyWaiters ++ [w] }

/-- What a destroy that is accepted makes of a context `c` at tick `n` (R80). -/
structure Destroys (w : Waiter) (n : Nat) (c c' : Ctx) : Prop where
  drained : c.state = .drained → c'.state = .destroying ∧ c'.destroy.map (·.tick) = some n
  fenced : c.state = .fenced → c'.state = .destroying ∧ c'.drain.map (·.deadline) = some (n + 2500000)
  joins : c.state ≠ .drained → c.state ≠ .fenced → c'.state = .draining ∧ c'.destroyPending = true
  waiters : c'.destroyWaiters = c.destroyWaiters ++ [w]
  consent : c'.consent = none
  weight : c'.w = 8
  floor : c'.fMin = 0
  limit : c'.pMax = 0

/-- A destroy that starts a drain. -/
theorem destroys_startDrain (hc : canonical s = true) (hwait : (ctxOf s cid).schedWait = none)
    (hdrained : (ctxOf s cid).state ≠ .drained) (hfenced : (ctxOf s cid).state ≠ .fenced) :
    let t := updCtx cid (fun c => { c with destroyPending := true }) (startDrain cid .none (updCtx cid (granted w) s))
    Destroys w s.tick (ctxOf s cid) (ctxOf t cid) ∧ (∀ c, c ≠ cid → ctxOf t c = ctxOf s c) ∧ t = { s with ctxs := t.ctxs } := by
  have hc1 : canonical (updCtx cid (granted w) s) = true := canonical_updCtx hc
  have hwait1 : (ctxOf (updCtx cid (granted w) s) cid).schedWait = none := by
    rw [ctxOf_updCtx_same hc]
    exact hwait
  rw [startDrain_eq hc1 hwait1]
  refine ⟨?_, fun c hne => ?_, rfl⟩
  · rw [ctxOf_updCtx_same (canonical_updCtx hc1), ctxOf_updCtx_same hc1, ctxOf_updCtx_same hc]
    exact ⟨fun h => absurd h hdrained, fun h => absurd h hfenced, fun _ _ => ⟨rfl, rfl⟩, rfl, rfl, rfl, rfl, rfl⟩
  · rw [ctxOf_updCtx_other (canonical_updCtx hc1) hne, ctxOf_updCtx_other hc1 hne, ctxOf_updCtx_other hc hne]

/-- A destroy that only changes its context. -/
theorem destroys_updCtx {f : Ctx → Ctx} (hc : canonical s = true) (hf : Destroys w s.tick (ctxOf s cid) (f (granted w (ctxOf s cid)))) :
    let t := updCtx cid f (updCtx cid (granted w) s)
    Destroys w s.tick (ctxOf s cid) (ctxOf t cid) ∧ (∀ c, c ≠ cid → ctxOf t c = ctxOf s c) ∧ t = { s with ctxs := t.ctxs } := by
  have hc1 : canonical (updCtx cid (granted w) s) = true := canonical_updCtx hc
  refine ⟨?_, fun c hne => ?_, rfl⟩
  · rwa [ctxOf_updCtx_same hc1, ctxOf_updCtx_same hc]
  · rw [ctxOf_updCtx_other hc1 hne, ctxOf_updCtx_other hc hne]

theorem destroyContext_destroys (hc : canonical s = true) (hwait : (ctxOf s cid).schedWait = none)
    (htable : ctxTable .destroy (ctxOf s cid).state = none) :
    Destroys w s.tick (ctxOf s cid) (ctxOf (destroyContext cid w s) cid) ∧
      (∀ c, c ≠ cid → ctxOf (destroyContext cid w s) c = ctxOf s c) ∧
      destroyContext cid w s = { s with ctxs := (destroyContext cid w s).ctxs } := by
  unfold destroyContext
  cases hst : (ctxOf s cid).state with
  | drained =>
    refine destroys_updCtx hc ⟨fun _ => ⟨rfl, rfl⟩, fun h => ?_, fun h => absurd hst h, rfl, rfl, rfl, rfl, rfl⟩
    exact absurd (hst.symm.trans h) (by decide)
  | fenced =>
    refine destroys_updCtx hc ⟨fun h => ?_, fun _ => ⟨rfl, rfl⟩, fun _ h => absurd hst h, rfl, rfl, rfl, rfl, rfl⟩
    exact absurd (hst.symm.trans h) (by decide)
  | draining =>
    refine destroys_updCtx hc ⟨fun h => ?_, fun h => ?_, fun _ _ => ⟨hst, rfl⟩, rfl, rfl, rfl, rfl, rfl⟩
    · exact absurd (hst.symm.trans h) (by decide)
    · exact absurd (hst.symm.trans h) (by decide)
  | created => exact destroys_startDrain hc hwait (by simp [hst]) (by simp [hst])
  | keyed => exact destroys_startDrain hc hwait (by simp [hst]) (by simp [hst])
  | running => exact destroys_startDrain hc hwait (by simp [hst]) (by simp [hst])
  | free =>
    rw [hst] at htable
    exact absurd htable (by decide)
  | destroying =>
    rw [hst] at htable
    exact absurd htable (by decide)

end

/-! ## The two paths -/

theorem canonical_mgmtTaken {o : Nat} {u : UnitRef} {m : MgmtHdr} {s : State} (hc : canonical s = true) :
    canonical (Management.taken o u m s) = true := hc

/-- A management command of a context that its generation and Table CTX-2 let through. -/
theorem mgmtContext_taken {cmd : CtxCmd} {o : Nat} {m : MgmtHdr} {k : MgmtProg → State → State} {s : State} (hok : mgmtOk m s = true)
    (h1 : 1 ≤ m.unit.toNat) (h2 : m.unit.toNat ≤ 254) (hcheck : ctxCheck cmd m.unit.toNat m.gen s = none) :
    mgmtCommand o (mgmtCtx m) m (fun p => mgmtContext cmd m (k p) p) s =
      k (Management.progOf o (mgmtCtx m) m) (Management.taken o (mgmtCtx m) m s) := by
  have hrange : ¬ (m.unit.toNat = 0 ∨ m.unit.toNat > 254) := by omega
  have htaken : ctxCheck cmd m.unit.toNat m.gen (Management.taken o (mgmtCtx m) m s) = none := hcheck
  rw [Management.mgmtCommand_taken hok, mgmtContext, if_neg hrange, htaken]

theorem exec_ctxDrain {h : HostCmd} {s : State} (hok : hostOk opCtxDrain h s = true) (hcheck : ctxCheck .drain h.cid h.gen s = none) :
    exec (.ctxDrain h) s = .next (drainContext h.cid (.host (progOf opCtxDrain (cidUnit h) h s).id) (taken opCtxDrain (cidUnit h) h s)) := by
  refine congrArg Host.Outcome.next
    (?_ : ctxCommand opCtxDrain .drain h (fun ip s => drainContext h.cid.val (.host ip.id) s) s = _)
  rw [ctxCommand_taken hok hcheck]

/-- Settles O25: a drain and a destroy change their context alone, by its state. -/
theorem drainAndDestroyStart : Obligations.DrainAndDestroyStart := by
  unfold Obligations.DrainAndDestroyStart
  refine ⟨fun h s hc hok _ hcheck hstate hwait => ?_, fun h s hc hok _ hcheck hstate => ?_,
    fun m s hc hok h1 h2 hcheck hstate hwait => ?_, fun h s hc hok _ hcheck hwait => ?_, fun m s hc hok h1 h2 hcheck hwait => ?_⟩
  · have hct := canonical_taken (op := opCtxDrain) (u := cidUnit h) (h := h) hc
    rw [exec_ctxDrain hok hcheck, drainContext_started hct (by rwa [ctxOf_taken]) (by rwa [ctxOf_taken])]
    have hself := ctxOf_updCtx_same (k := h.cid) (f := draining (drainOf h.cid (.host (progOf opCtxDrain (cidUnit h) h s).id)
      (taken opCtxDrain (cidUnit h) h s)) (taken opCtxDrain (cidUnit h) h s).tick) hct
    refine ⟨_, rfl, congrArg Ctx.state hself, congrArg Ctx.map hself, ?_, ?_, ?_, fun c hne => ?_, taken_frames .., taken_orng ..,
      taken_fence ..⟩
    · rw [hself]
      exact congrArg (fun n => some (n + 2500000)) (taken_tick ..)
    · rw [hself, ctxOf_taken]
      rfl
    · exact (congrArg List.length (inProg_taken ..)).trans (by simp)
    · rw [ctxOf_updCtx_other hct hne, ctxOf_taken]
  · have hrun : drainContext h.cid (.host (progOf opCtxDrain (cidUnit h) h s).id) (taken opCtxDrain (cidUnit h) h s) =
        finish (.host (progOf opCtxDrain (cidUnit h) h s).id) .ok [] (taken opCtxDrain (cidUnit h) h s) := by
      rw [drainContext, ctxOf_taken, if_pos hstate]
    obtain ⟨hdone, hrest, -, hlife⟩ := refused_taken (u := cidUnit h) (d := []) (st := .ok) hok hc (by decide)
    rw [exec_ctxDrain hok hcheck, hrun, finish_taken hok rfl]
    generalize completeHost _ _ _ _ = t at hdone hrest hlife
    have hself := hlife h.cid
    rw [ctxOf_taken] at hself
    exact ⟨t, rfl, hdone, (congrArg Ctx.state hself :).trans hstate, (congrArg State.frames hrest).trans (taken_frames ..)⟩
  · have hct := canonical_mgmtTaken (o := 0x02) (u := mgmtCtx m) (m := m) hc
    have hrun : exec (.mgmtCtxDrain m) s = .next (updCtx m.unit.toNat (draining (drainOf m.unit.toNat (.mgmt m.tag.val)
        (Management.taken 0x02 (mgmtCtx m) m s)) s.tick) (Management.taken 0x02 (mgmtCtx m) m s)) := by
      refine congrArg Host.Outcome.next ((mgmtContext_taken (k := fun p => drainContext m.unit.toNat (.mgmt p.tag)) hok h1 h2 hcheck).trans ?_)
      exact drainContext_started hct hwait hstate
    have hself := ctxOf_updCtx_same (k := m.unit.toNat) (f := draining (drainOf m.unit.toNat (.mgmt m.tag.val)
      (Management.taken 0x02 (mgmtCtx m) m s)) s.tick) hct
    refine ⟨_, hrun, congrArg Ctx.state hself, congrArg Ctx.map hself, ?_, fun c hne => ?_, rfl, rfl, rfl⟩
    · rw [hself]
      rfl
    · exact ctxOf_updCtx_other hct hne
  · have hct := canonical_taken (op := opCtxDestroy) (u := cidUnit h) (h := h) hc
    have hrun : exec (.ctxDestroy h) s =
        .next (destroyContext h.cid (.host (progOf opCtxDestroy (cidUnit h) h s).id) (taken opCtxDestroy (cidUnit h) h s)) := by
      refine congrArg Host.Outcome.next
        (?_ : ctxCommand opCtxDestroy .destroy h (fun ip s => destroyContext h.cid.val (.host ip.id) s) s = _)
      rw [ctxCommand_taken hok hcheck]
    obtain ⟨hd, hother, hrest⟩ := destroyContext_destroys (w := .host (progOf opCtxDestroy (cidUnit h) h s).id) (cid := h.cid) hct
      (by rwa [ctxOf_taken]) (by rw [ctxOf_taken]; exact ctxTable_of_ctxCheck hcheck)
    rw [hrun]
    generalize destroyContext _ _ _ = t at hd hother hrest
    rw [ctxOf_taken, taken_tick] at hd
    simp only [ctxOf_taken] at hother
    exact ⟨t, rfl, hd.drained, hd.fenced, hd.joins, hd.waiters, hd.consent, hd.weight, hd.floor, hd.limit, hother,
      (congrArg State.frames hrest).trans (taken_frames ..), (congrArg State.orng hrest).trans (taken_orng ..),
      (congrArg State.fence hrest).trans (taken_fence ..)⟩
  · have hrun : exec (.mgmtCtxDestroy m) s =
        .next (destroyContext m.unit.toNat (.mgmt m.tag.val) (Management.taken 0x03 (mgmtCtx m) m s)) :=
      congrArg Host.Outcome.next (mgmtContext_taken (k := fun p => destroyContext m.unit.toNat (.mgmt p.tag)) hok h1 h2 hcheck)
    obtain ⟨hd, hother, hrest⟩ := destroyContext_destroys (w := .mgmt m.tag.val) (cid := m.unit.toNat)
      (canonical_mgmtTaken (o := 0x03) (u := mgmtCtx m) (m := m) hc) hwait (ctxTable_of_ctxCheck hcheck)
    rw [hrun]
    generalize destroyContext _ _ _ = t at hd hother hrest
    exact ⟨t, rfl, fun hs => (hd.drained hs).1, fun hs => (hd.fenced hs).1, hd.joins, hd.waiters, hd.consent, hd.weight, hd.floor, hd.limit,
      hother, (congrArg State.frames hrest :), (congrArg State.orng hrest :), (congrArg State.fence hrest :)⟩

end Sys2Proof.DrainStart
end

section
/-! PROOF. Consent, policy and report (03_tenant_contexts.md R83, 08_greenhouse_verification.md R189, R203). -/

namespace Sys2Proof.Consents

open Sys2Proof Sys2Proof.Machine Sys2Proof.Laws Sys2Proof.Frames Sys2Proof.HostPath

/-- A context command that changes its context, extends a measurement register of it and completes OK. -/
theorem measured {op : HostOp} {u : UnitRef} {h : HostCmd} {s : State} {f : Ctx → Ctx} {r : Nat} {m : Bytes} (hc : canonical s = true)
    (hok : hostOk op h s = true) :
    ∃ t x, finish (.host (progOf op u h s).id) .ok [] (measureCmr h.cid r m (updCtx h.cid f (taken op u h s))) = t ∧
      completed s t h .ok = true ∧ life (ctxOf t h.cid) = life { f (ctxOf s h.cid) with cmr := x } ∧
      (∀ c, c ≠ h.cid.val → ctxOf t c = ctxOf s c) ∧ t.frames = s.frames := by
  have hct := canonical_taken (op := op) (u := u) (h := h) hc
  have hcu : canonical (updCtx h.cid f (taken op u h s)) = true := canonical_updCtx hct
  have hself : ctxOf (measureCmr h.cid r m (updCtx h.cid f (taken op u h s))) h.cid =
      { f (ctxOf s h.cid) with cmr := (mapSet (zeros 48) (f (ctxOf s h.cid)).cmr r
          (sha384 (mapGet (zeros 48) (f (ctxOf s h.cid)).cmr r ++ sha384 m))) } := by
    rw [measureCmr, extendCmr, ctxOf_updCtx_same hcu, ctxOf_updCtx_same hct, ctxOf_taken]
  obtain ⟨hdone, hrest, hother, hlife⟩ := answered_finish (u := u) (st := .ok) (d := [])
    (t := measureCmr h.cid r m (updCtx h.cid f (taken op u h s))) hok hc (by decide) rfl (canonical_ctxs (canonical_updCtx hcu)) (by
      rw [measureCmr, extendCmr, updCtx_outs, updCtx_outs, taken_outs])
  generalize finish _ _ _ _ = t at hdone hrest hother hlife
  refine ⟨t, _, rfl, hdone, (hlife h.cid).trans (congrArg life hself), fun c hne => ?_, (congrArg State.frames hrest).trans (taken_frames ..)⟩
  rw [hother c hne, measureCmr, extendCmr, ctxOf_updCtx_other hcu hne, ctxOf_updCtx_other hct hne, ctxOf_taken]

theorem withBuffer_data {h : HostCmd} {ip : InProg} {k : Bytes → State → State} {s : State} {b : Bytes} (hb : h.buf = .data b) :
    withBuffer h ip k s = k (fit h.bufLen b) s := by
  rw [withBuffer, hb]

section
variable {op : HostOp} {u : UnitRef} {h : HostCmd} {s : State}

theorem consentOk_taken (cid : Nat) (t : Bytes) : consentOk cid t (taken op u h s) = consentOk cid t s := by
  rw [taken_rest]
  rfl

theorem policyCheck_taken (cid : Nat) (t : Bytes) : policyCheck cid t (taken op u h s) = policyCheck cid t s := by
  rw [taken_rest]
  rfl

theorem coverageRecord_taken (cid : Nat) (q : Bool) : coverageRecord (taken op u h s) cid q = coverageRecord s cid q := by
  rw [taken_rest]
  rfl

theorem fineConsent_taken (cid : Nat) : fineConsent (taken op u h s) cid = fineConsent s cid := by
  rw [taken_rest]
  rfl

end

/-- The consent that a token gives (R83). -/
def consentOf (t : Bytes) : Option Consent :=
  if leAt t 3 1 % 4 = 0 then none else some ⟨BitVec.ofNat 8 (leAt t 3 1 % 4), leAt t 8 8, slice t 64 32⟩

/-- The policy that VERIFY_POLICY carries (R189). -/
def policyOf (t : Bytes) : VPolicy :=
  { rate := leAt t 6 2, fence := decide (leAt t 3 1 = 1), seq := leAt t 8 8, nonce := slice t 64 32, set := true }

theorem exec_debugConsent {h : HostCmd} {s : State} {b : Bytes} (hok : hostOk opDebugConsent h s = true)
    (hcheck : ctxCheck .debugConsent h.cid h.gen s = none) (hb : h.buf = .data b) (hk : consentOk h.cid (fit h.bufLen b) s = true) :
    exec (.debugConsent h) s = .next (finish (.host (progOf opDebugConsent (cidUnit h) h s).id) .ok []
      (measureCmr h.cid 3 (slice (fit h.bufLen b) 0 96) (updCtx h.cid (fun c => { c with consent := consentOf (fit h.bufLen b) })
        (taken opDebugConsent (cidUnit h) h s)))) := by
  refine congrArg Host.Outcome.next (?_ : ctxCommand opDebugConsent .debugConsent h (consentBody h) s = _)
  rw [ctxCommand_taken hok hcheck, consentBody, withBuffer_data hb]
  simp only [consentOk_taken, hk, if_true]
  rfl

theorem exec_verifyPolicy {h : HostCmd} {s : State} {b : Bytes} (hok : hostOk opVerifyPolicy h s = true)
    (hcheck : ctxCheck .debugConsent h.cid h.gen s = none) (hb : h.buf = .data b) (hk : policyCheck h.cid (fit h.bufLen b) s = .ok) :
    exec (.verifyPolicy h) s = .next (finish (.host (progOf opVerifyPolicy (cidUnit h) h s).id) .ok []
      (measureCmr h.cid 2 (slice (fit h.bufLen b) 0 96) (updCtx h.cid (fun c => { c with
        policyOld := policyAt c s.tick, policy := policyOf (fit h.bufLen b), policyAt := s.tick })
        (taken opVerifyPolicy (cidUnit h) h s)))) := by
  refine congrArg Host.Outcome.next (?_ : ctxCommand opVerifyPolicy .debugConsent h (policyBody h) s = _)
  rw [ctxCommand_taken hok hcheck, policyBody, withBuffer_data hb]
  simp only [policyCheck_taken, hk, taken_tick]
  rfl

/-- A report of a context that exists, for a buffer that holds it (R203). -/
theorem exec_verifyReport {h : HostCmd} {s : State} {b : Bytes} (hok : hostOk opVerifyReport h s = true) (hgen : h.gen ≠ 0)
    (hcur : h.gen = (ctxOf s h.cid).gen) (hfree : (ctxOf s h.cid).state ≠ .free) (hdest : (ctxOf s h.cid).state ≠ .destroying)
    (hlen : 80 ≤ h.bufLen) (hb : h.buf = .data b) :
    exec (.verifyReport h) s = .next (completeHost (progOf opVerifyReport (cidUnit h) h s) .ok
      (leNat 4 (coverageRecord s h.cid (!fineConsent s h.cid)).length)
      (emit (.hostWrite h.bufAddr (coverageRecord s h.cid (!fineConsent s h.cid))) (taken opVerifyReport (cidUnit h) h s))) := by
  refine congrArg Host.Outcome.next (?_ : hostCommand opVerifyReport (cidUnit h) h (reportBody h) s = _)
  have hcheck : ¬ (h.gen ≠ (ctxOf s h.cid).gen ∨ h.gen = 0) := fun hbad => hbad.elim (· hcur) hgen
  have hgone : ¬ ((ctxOf s h.cid).state = .free ∨ (ctxOf s h.cid).state = .destroying) := fun hbad => hbad.elim hfree hdest
  have hwrite : (progOf opVerifyReport (cidUnit h) h s).write = .data b := hb
  simp only [hostCommand_taken hok, reportBody, ctxOf_taken, if_neg hcheck, if_neg hgone, if_neg (Nat.not_lt.mpr hlen), writeBuffer, hwrite,
    coverageRecord_taken, fineConsent_taken]
  rfl

/-- Settles O26: what a token or policy carries is in force when the command completes, and a report is written before. -/
theorem consentPolicyAndReport : Obligations.ConsentPolicyAndReport := by
  unfold Obligations.ConsentPolicyAndReport
  refine ⟨fun h s b hc hok _ hcheck hb hk => ?_, fun h s b hc hok _ hcheck hb hk => ?_,
    fun h s b hc hok _ hgen hcur hfree hdest hlen hb => ?_⟩
  · obtain ⟨t, x, ht, hdone, hself, hother, hframes⟩ := measured (u := cidUnit h) (f := fun c => { c with consent := consentOf (fit h.bufLen b) })
      (r := 3) (m := slice (fit h.bufLen b) 0 96) hc hok
    exact ⟨t, (exec_debugConsent hok hcheck hb hk).trans (congrArg Host.Outcome.next ht), hdone, (congrArg Ctx.consent hself :),
      (congrArg Ctx.state hself :), hother, hframes⟩
  · obtain ⟨t, x, ht, hdone, hself, hother, hframes⟩ := measured (u := cidUnit h) (f := fun c => { c with
        policyOld := policyAt c s.tick, policy := policyOf (fit h.bufLen b), policyAt := s.tick })
      (r := 2) (m := slice (fit h.bufLen b) 0 96) hc hok
    have hat : (ctxOf t h.cid).policyAt = s.tick := (congrArg Ctx.policyAt hself :)
    have hold : (ctxOf t h.cid).policyOld = policyAt (ctxOf s h.cid) s.tick := (congrArg Ctx.policyOld hself :)
    refine ⟨t, (exec_verifyPolicy hok hcheck hb hk).trans (congrArg Host.Outcome.next ht), hdone, (congrArg Ctx.policy hself :),
      fun n hle hge => ?_, fun n hlt => ?_, hother, hframes⟩
    · obtain rfl := Nat.le_antisymm hle hge
      rw [policyAt, hat, if_neg (Nat.lt_irrefl _), hold]
    · rw [policyAt, hat, if_pos hlt]
  · have hct := canonical_taken (op := opVerifyReport) (u := cidUnit h) (h := h) hc
    have hsent : (emit (.hostWrite h.bufAddr (coverageRecord s h.cid (!fineConsent s h.cid))) (taken opVerifyReport (cidUnit h) h s)).outs =
        s.outs ++ [.hostWrite h.bufAddr (coverageRecord s h.cid (!fineConsent s h.cid))] :=
      congrArg (· ++ [_]) (taken_outs ..)
    obtain ⟨hdone, hrest, hother, hlife⟩ := answered_taken (u := cidUnit h) (st := .ok)
      (d := leNat 4 (coverageRecord s h.cid (!fineConsent s h.cid)).length)
      (t := emit (.hostWrite h.bufAddr (coverageRecord s h.cid (!fineConsent s h.cid))) (taken opVerifyReport (cidUnit h) h s))
      hok hc (by decide) rfl (canonical_ctxs hct) (hsent ▸ List.prefix_append ..)
    have houts := (kept_completeHost (p := answers) (fun _ _ => rfl) (progOf opVerifyReport (cidUnit h) h s) .ok
      (leNat 4 (coverageRecord s h.cid (!fineConsent s h.cid)).length)
      (emit (.hostWrite h.bufAddr (coverageRecord s h.cid (!fineConsent s h.cid))) (taken opVerifyReport (cidUnit h) h s))).outs
    rw [hsent] at houts
    rw [exec_verifyReport hok hgen hcur hfree hdest hlen hb]
    generalize completeHost _ _ _ _ = t at hdone hrest hother hlife houts
    refine ⟨t, rfl, hdone, ⟨_, mem_newOuts (List.prefix_refl _) houts, rfl⟩, fun c hne => ?_, ?_,
      (congrArg State.frames hrest).trans (taken_frames ..), (congrArg State.grnh hrest).trans (taken_grnh ..)⟩
    · exact (hother c hne).trans (ctxOf_taken ..)
    · have hself := (hlife h.cid).trans (congrArg life (ctxOf_taken opVerifyReport (cidUnit h) h s h.cid))
      exact (congrArg Ctx.state hself :)

end Sys2Proof.Consents
end

section
/-! PROOF. The timers and faults of contexts and groups (03_tenant_contexts.md R62, R63, R77, R81, R83, R84, R108). -/

namespace Sys2Proof.CtxTimers

open Sys2Proof Sys2Proof.Machine Sys2Proof.Laws Sys2Proof.Frames

/-! ## Timers -/

/-- A timer that changes one context changes nothing else. -/
theorem updCtx_alone {c : Nat} {f : Ctx → Ctx} {s : State} (hc : canonical s = true) :
    ctxOf (updCtx c f s) c = f (ctxOf s c) ∧ (∀ x, x ≠ c → ctxOf (updCtx c f s) x = ctxOf s x) ∧
      updCtx c f s = { s with ctxs := (updCtx c f s).ctxs } :=
  ⟨ctxOf_updCtx_same hc, fun _ hne => ctxOf_updCtx_other hc hne, rfl⟩

/-! ## The refresh of the coarsened counters -/

/-- A context under FINE_COUNTERS consent shows its own counters (R84). -/
def showOwn (s : State) (cid : Nat) (c : Ctx) : Ctx := if fineConsent s cid then { c with cntShown := c.cnt } else c

/-- A context shows its coverage coarsened. -/
def showCoarse (c : Ctx) : Ctx := { c with covShown := mapAll 0 (fun _ n => coarse n) c.cov }

theorem refreshEffect_eq {s : State} (h : s.tick % 250000 = 0) : refreshEffect s = { s with
    host := { s.host with devShown := mapAll 0 (fun _ n => coarse n) s.host.devCnt }
    ctxs := mapAll {} (fun _ c => showCoarse c) (mapAll {} (showOwn s) s.ctxs) } := by
  have h2 : s.tick % 2500 = 0 := by omega
  simp only [refreshEffect, h, h2, if_true]
  rfl

/-- A context after the refresh. -/
theorem ctxOf_refreshEffect {s : State} (hc : canonical s = true) (h : s.tick % 250000 = 0) (c : Nat) :
    ctxOf (refreshEffect s) c = showCoarse (showOwn s c (ctxOf s c)) := by
  have hown : showOwn s c {} = {} := by
    rw [showOwn]
    split <;> rfl
  rw [refreshEffect_eq h]
  have hcoarse := LockedChanges.mapGet_mapAll (f := fun _ c => showCoarse c) (k := c) (mapWf_mapAll (f := showOwn s) (canonical_ctxs hc)) rfl
  exact hcoarse.trans (congrArg showCoarse (LockedChanges.mapGet_mapAll (canonical_ctxs hc) hown))

/-! ## Fencing -/

/-- A context that has been fenced for a cause of tick `t` (R63). -/
structure Fenced (cause t : Nat) (c : Ctx) : Prop where
  state : c.state = .fenced
  cause : c.cause = BitVec.ofNat 4 cause
  map : c.map = []
  fenceFrom : c.fenceFrom = some (t + 2)
  drain : c.drain = none

theorem Fenced.of_life {cause t : Nat} {c c' : Ctx} (h : Fenced cause t c) (hl : life c' = life c) : Fenced cause t c' where
  state := (congrArg Ctx.state hl :).trans h.state
  cause := (congrArg Ctx.cause hl :).trans h.cause
  map := (congrArg Ctx.map hl :).trans h.map
  fenceFrom := (congrArg Ctx.fenceFrom hl :).trans h.fenceFrom
  drain := (congrArg Ctx.drain hl :).trans h.drain

/-- What the fencing of `cid` writes to the context. -/
def fencing (cid cause t : Nat) (s : State) (c : Ctx) : Ctx := { c with
  state := .fenced, cause := BitVec.ofNat 4 cause, fenceFrom := some (t + 2), fenceTo := none, fencedAt := s.tick, drain := none, map := []
  leftAt := if (ctxOf s cid).state = .running then s.tick else c.leftAt }

/-- What a fencing answers, suspends, wakes and asks, for the context `c` as it was. -/
def fencingAnswers (cid cause : Nat) (ds : List Nat) (c : Ctx) (s2 : State) : State :=
  let s3 := match c.drain with
    | some k => finishAll k.waiters .ctxFenced [] s2
    | none => s2
  let s4 := (jobsOf s3 cid).foldl (fun s j => suspendJob j .ctxFenced s) s3
  let s5 := releaseWaits (fun w _ => w == cid) .ctxFenced s4
  askDies ds svcFence cid (postHostEvent c.ring (causeStatus cause) (.ctx cid) (leNat 1 cid) s5)

section
variable {cid cause t : Nat} {s : State}

/-- The end of a pending empty map, then the answer to its command. -/
theorem endSchedule_cases (st : Status) (s : State) : endSchedule cid st s = s ∨
    ∃ w, endSchedule cid st s = finish w st [] (updCtx cid (fun c => { c with schedWait := none, saved := [] }) s) := by
  simp only [endSchedule]
  split
  · exact .inl rfl
  · exact .inr ⟨_, rfl⟩

theorem fenceContext_eq : fenceContext cid cause t s = fencingAnswers cid cause (diesOf s cid) (ctxOf s cid)
    (endSchedule cid .ctxFenced (updCtx cid (fencing cid cause t s) s)) := rfl

theorem kept_fencingAnswers (ds : List Nat) (c : Ctx) (s : State) : Kept notices s (fencingAnswers cid cause ds c s) := by
  have hdrain : Kept notices s (match c.drain with
      | some k => finishAll k.waiters .ctxFenced [] s
      | none => s) := by
    split
    · exact kept_finishAll answers_le_notices ..
    · exact .refl s
  exact (((hdrain.trans (.foldl (fun x j => kept_suspendJob j .ctxFenced x) _ _)).trans
    ((kept_releaseWaits ..).mono wakes_le_notices)).trans (kept_postHostEvent answers_le_notices ..)).trans
    (kept_askDies requests_le_notices ..)

theorem fenceContext_spec (hw : mapWf {} s.ctxs = true) : Fenced cause t (ctxOf (fenceContext cid cause t s) cid) ∧
    (∀ x, x ≠ cid → life (ctxOf (fenceContext cid cause t s) x) = life (ctxOf s x)) ∧
    fenceContext cid cause t s = notices.put s (fenceContext cid cause t s) := by
  have hk := kept_fencingAnswers (cid := cid) (cause := cause) (diesOf s cid) (ctxOf s cid)
    (endSchedule cid .ctxFenced (updCtx cid (fencing cid cause t s) s))
  rw [← fenceContext_eq] at hk
  have hfenced : Fenced cause t (fencing cid cause t s (ctxOf s cid)) := ⟨rfl, rfl, rfl, rfl, rfl⟩
  generalize fencing cid cause t s = f at hk hfenced
  generalize fenceContext cid cause t s = u at hk
  have hself : ctxOf (updCtx cid f s) cid = f (ctxOf s cid) := ctxOf_updCtx_self hw
  have hother : ∀ x, x ≠ cid → ctxOf (updCtx cid f s) x = ctxOf s x := fun x hne => ctxOf_updCtx_ne hw hne
  have hw1 : mapWf {} (updCtx cid f s).ctxs = true := wf_updCtx hw
  have hrest : ∀ x, notices.put (updCtx cid f s) x = notices.put s x := fun _ => rfl
  generalize updCtx cid f s = b at hk hself hother hw1 hrest
  obtain he | ⟨w, he⟩ := endSchedule_cases (cid := cid) .ctxFenced b
  · rw [he] at hk
    refine ⟨(hfenced.of_life (congrArg life hself)).of_life (hk.life hw1 cid), fun x hne => ?_, hk.rest.trans (hrest u)⟩
    rw [hk.life hw1, hother x hne]
  · rw [he] at hk
    have hall := (kept_finish answers_le_notices w .ctxFenced [] (updCtx cid (fun c => { c with schedWait := none, saved := [] }) b)).trans hk
    have hw2 : mapWf {} (updCtx cid (fun c => { c with schedWait := none, saved := [] }) b).ctxs = true := wf_updCtx hw1
    have hended : Fenced cause t (ctxOf (updCtx cid (fun c => { c with schedWait := none, saved := [] }) b) cid) := by
      rw [ctxOf_updCtx_self hw1, hself]
      obtain ⟨h1, h2, h3, h4, h5⟩ := hfenced
      exact ⟨h1, h2, h3, h4, h5⟩
    refine ⟨hended.of_life (hall.life hw2 cid), fun x hne => ?_, hall.rest.trans (hrest u)⟩
    rw [hall.life hw2, ctxOf_updCtx_ne hw1 hne, hother x hne]

end

/-- What Table CTX-3 says of a cause and a state. -/
theorem fences_of_listed {cause : Nat} {st : CtxState}
    (h : st = .running ∨ st = .draining ∨ (st = .keyed ∧ cause ≤ 2) ∨ (st = .drained ∧ cause = 1)) : fences cause st = true := by
  obtain rfl | rfl | ⟨rfl, hle⟩ | ⟨rfl, rfl⟩ := h
  · rfl
  · rfl
  · exact decide_eq_true hle
  · rfl

theorem not_fences_of_listed {cause : Nat} {st : CtxState}
    (h : st = .free ∨ st = .created ∨ st = .fenced ∨ st = .destroying ∨ (st = .keyed ∧ 2 < cause) ∨ (st = .drained ∧ cause ≠ 1)) :
    fences cause st = false := by
  obtain rfl | rfl | rfl | rfl | ⟨rfl, hlt⟩ | ⟨rfl, hne⟩ := h
  · rfl
  · rfl
  · rfl
  · rfl
  · exact decide_eq_false (by omega)
  · exact decide_eq_false hne

/-- Settles O28: the timers are equations on one context or group; a fault fences its context and tells the ports, or does nothing. -/
theorem contextTimersAndFaults : Obligations.ContextTimersAndFaults := by
  unfold Obligations.ContextTimersAndFaults
  refine ⟨fun c s t hc hcool hle => ?_, fun c s k hc hk hlt => ?_, fun s hc ht => ?_, fun g s hc hret hinv hfr hend => ?_,
    fun c s hc hst hpend hat => ?_, fun unit s f hc hf => ?_⟩
  · have hrun : cooldownEffect c.val s = updCtx c.val (fun c => { c with cooldown := none }) s := by
      simp only [cooldownEffect, hcool, if_pos hle]
    exact ⟨_, congrArg Host.Outcome.next hrun, updCtx_alone hc⟩
  · have hrun : consentExpiryEffect c.val s = updCtx c.val (fun c => { c with consent := none }) s := by
      simp only [consentExpiryEffect, hk, if_pos hlt]
    exact ⟨_, congrArg Host.Outcome.next hrun, updCtx_alone hc⟩
  · refine ⟨_, rfl, ?_, fun c => ?_, ?_⟩
    · rw [refreshEffect_eq ht]
      rfl
    · rw [ctxOf_refreshEffect hc ht]
      by_cases hfine : fineConsent s c = true
      · simp only [showOwn, hfine, if_true]
        exact ⟨rfl, rfl, rfl, rfl⟩
      · simp only [showOwn, hfine]
        exact ⟨rfl, rfl, rfl, rfl⟩
    · rw [refreshEffect_eq ht]
  · have hrun : groupRetiredEffect g.val s = updGroup g.val (fun _ => {}) s := if_pos ⟨hret, hinv, hfr, hend⟩
    exact ⟨_, congrArg Host.Outcome.next hrun, groupOf_updGroup_same hc, fun x hne => groupOf_updGroup_other hc hne, rfl⟩
  · have hrun : fencedDestroyEffect c.val s = destroyFenced c.val s := if_pos ⟨hst, hpend, hat⟩
    exact ⟨_, congrArg Host.Outcome.next hrun, updCtx_alone hc⟩
  · let a : State := { s with pav := { s.pav with integ := s.pav.integ.erase f }, sund := { s.sund with ptr4 := (s.sund.ptr4 + 1) % 544 } }
    have hrun : exec (.integrityFault unit) s = .next (if fences f.cause (ctxOf s f.cid).state then fenceContext f.cid f.cause f.tick a else a) := by
      refine congrArg Host.Outcome.next (?_ : integrityEffect unit.val s = _)
      rw [integrityEffect, hf]
      rfl
    rw [hrun]
    cases hfen : fences f.cause (ctxOf s f.cid).state with
    | true =>
      obtain ⟨hself, hother, hrest⟩ := fenceContext_spec (cid := f.cid) (cause := f.cause) (t := f.tick) (s := a) (canonical_ctxs hc)
      rw [if_pos rfl]
      generalize fenceContext _ _ _ a = u at hself hother hrest
      refine ⟨u, rfl, (congrArg (·.pav.integ) hrest :), (congrArg (·.sund.ptr4) hrest :), (congrArg State.frames hrest :),
        (congrArg State.groups hrest :), (congrArg State.orng hrest :), (congrArg State.fence hrest :),
        fun _ => ⟨hself.state, hself.cause, hself.map, hself.fenceFrom, hself.drain⟩, fun hnot => ?_, fun x hne => ?_⟩
      · exact absurd (hfen.symm.trans (not_fences_of_listed hnot)) (by decide)
      · exact (congrArg Ctx.state (hother x hne) :)
    | false =>
      rw [if_neg (by decide)]
      refine ⟨a, rfl, rfl, rfl, rfl, rfl, rfl, rfl, fun hlist => ?_, fun _ => ⟨rfl, rfl, rfl⟩, fun _ _ => rfl⟩
      exact absurd (hfen.symm.trans (fences_of_listed hlist)) (by decide)

end Sys2Proof.CtxTimers
end

section
/-! PROOF. Keys that pass through working slots, and the import of a key bundle (10_orangery_keys.md R233, Table ORNG-7,
03_tenant_contexts.md R65, R66). -/

namespace Sys2Proof.KeyImport

open Sys2Proof Sys2Proof.Machine Sys2Proof.Laws Sys2Proof.Frames Sys2Proof.HostPath

/-! ## What changes the vault's slots alone -/

/-- Between two states only the vault changes, and there no load. -/
structure VaultOnly (s t : State) : Prop where
  rest : t = { s with orng := t.orng }
  loads : t.orng.loads = s.orng.loads
  wf : mapWf {} s.orng.slots = true → mapWf {} t.orng.slots = true

theorem VaultOnly.refl (s : State) : VaultOnly s s := ⟨rfl, rfl, id⟩

theorem VaultOnly.trans {s t u : State} (h1 : VaultOnly s t) (h2 : VaultOnly t u) : VaultOnly s u where
  rest := by
    have h : ({ t with orng := u.orng } : State) = { s with orng := u.orng } := by rw [h1.rest]
    exact h2.rest.trans h
  loads := h2.loads.trans h1.loads
  wf := h2.wf ∘ h1.wf

theorem VaultOnly.foldl {α : Type} {f : State → α → State} (hf : ∀ s a, VaultOnly s (f s a)) (as : List α) (s : State) :
    VaultOnly s (as.foldl f s) := by
  induction as generalizing s with
  | nil => exact .refl s
  | cons a as ih => exact (hf s a).trans (ih _)

theorem vaultOnly_updSlot (n : Nat) (f : Slot → Slot) (s : State) : VaultOnly s (updSlot n f s) := ⟨rfl, rfl, mapWf_mapMod⟩

theorem vaultOnly_drawMask (s : State) : VaultOnly s (drawMask s).2 := ⟨rfl, rfl, id⟩

theorem vaultOnly_setSlot (n : Nat) (attr : BitVec 5) (cid : Nat) (g : Option Nat) (key : Bytes) (s : State) :
    VaultOnly s (setSlot n attr cid g key s) := (vaultOnly_drawMask s).trans (vaultOnly_updSlot n _ _)

theorem vaultOnly_setPending (n : Nat) (key : Bytes) (s : State) : VaultOnly s (setPending n key s) :=
  (vaultOnly_drawMask s).trans (vaultOnly_updSlot n _ _)

/-- The slot that a key is written to. -/
theorem slotOf_setSlot_self {n : Nat} {attr : BitVec 5} {cid : Nat} {g : Option Nat} {key : Bytes} {s : State}
    (hw : mapWf {} s.orng.slots = true) : slotOf (setSlot n attr cid g key s) n =
      { state := .active, attr := attr, cid := cid, group := g, len := key.length, active := mkHalf n 0 key (drawMask s).1, pend := {}, pending := false } :=
  Zeroising.slotOf_updSlot_self (s := (drawMask s).2) hw

theorem slotOf_setSlot_ne {n k : Nat} {attr : BitVec 5} {cid : Nat} {g : Option Nat} {key : Bytes} {s : State}
    (hw : mapWf {} s.orng.slots = true) (hk : k ≠ n) : slotOf (setSlot n attr cid g key s) k = slotOf s k :=
  Zeroising.slotOf_updSlot_ne (s := (drawMask s).2) hw hk

/-! ## Working slots -/

theorem mem_freeWorking {k n : Nat} {s : State} (h : n ∈ freeWorking k s) : workingBase ≤ n ∧ (slotOf s n).pending = false := by
  have hmem := List.mem_of_mem_take h
  simp only [List.mem_filter, List.mem_map, List.mem_range, Bool.and_eq_true, Bool.not_eq_true'] at hmem
  obtain ⟨⟨i, -, rfl⟩, -, hpend⟩ := hmem
  exact ⟨Nat.le_add_left .., hpend⟩

/-- Under `loadsHeld` a slot with no pending half belongs to no load. -/
theorem not_held {s : State} {n : Nat} (hl : loadsHeld s = true) (hn : (slotOf s n).pending = false) :
    ∀ l ∈ s.orng.loads, n ∉ l.slots := by
  intro l hmem hin
  simp only [loadsHeld, List.all_eq_true] at hl
  exact absurd (hl l hmem n hin) (by rw [hn]; decide)

theorem dropLoads_unheld {n : Nat} {s : State} (h : ∀ l ∈ s.orng.loads, n ∉ l.slots) : dropLoads n s = s := by
  have hgone : s.orng.loads.filter (fun l => l.slots.contains n) = [] := by simpa using h
  have hkept : s.orng.loads.filter (fun l => !l.slots.contains n) = s.orng.loads := by simpa [List.filter_eq_self] using h
  simp only [dropLoads, hgone, hkept]
  rfl

/-- A slot that no load holds is zeroised alone. -/
theorem zeroiseSlot_unheld {n : Nat} {s : State} (h : ∀ l ∈ s.orng.loads, n ∉ l.slots) :
    zeroiseSlot n s = updSlot n (fun _ => {}) s :=
  dropLoads_unheld (by rwa [(vaultOnly_updSlot n (fun _ => {}) s).loads])

theorem zeroiseSlots_unheld {ns : List Nat} {s : State} (h : ∀ n ∈ ns, ∀ l ∈ s.orng.loads, n ∉ l.slots) :
    zeroiseSlots ns s = ns.foldl (fun s n => updSlot n (fun _ => {}) s) s := by
  induction ns generalizing s with
  | nil => rfl
  | cons n ns ih =>
    have hn := zeroiseSlot_unheld (h n (List.mem_cons_self ..))
    have hrest := ih (s := updSlot n (fun _ => {}) s) (by
      rw [(vaultOnly_updSlot n (fun _ => {}) s).loads]
      exact fun k hk => h k (List.mem_cons_of_mem _ hk))
    simp only [zeroiseSlots, List.foldl_cons] at hrest ⊢
    rw [hn, hrest]

/-- Operations on single slots, one after another, leave every other slot. -/
theorem slotOf_foldl {α : Type} {f : State → α → State} {at_ : α → Nat} {k : Nat} (hf : ∀ s a, VaultOnly s (f s a))
    (hne : ∀ s a, mapWf {} s.orng.slots = true → k ≠ at_ a → slotOf (f s a) k = slotOf s k) {as : List α} {s : State}
    (hw : mapWf {} s.orng.slots = true) (hk : ∀ a ∈ as, k ≠ at_ a) : slotOf (as.foldl f s) k = slotOf s k := by
  induction as generalizing s with
  | nil => rfl
  | cons a as ih =>
    rw [List.foldl_cons, ih ((hf s a).wf hw) (fun b hb => hk b (List.mem_cons_of_mem _ hb)), hne s a hw (hk a (List.mem_cons_self ..))]

/-- Keys that pass through working slots change nothing but the DRBG and those slots. -/
theorem throughWorking_spec {attr : BitVec 5} {cid : Nat} {keys : List Bytes} {s : State} (hl : loadsHeld s = true)
    (hw : mapWf {} s.orng.slots = true) : VaultOnly s (throughWorking attr cid keys s) ∧
      ∀ n, n < workingBase → slotOf (throughWorking attr cid keys s) n = slotOf s n := by
  have hset : ∀ (t : State) (p : Nat × Bytes), VaultOnly t (setSlot p.1 attr cid none p.2 t) := fun _ _ => vaultOnly_setSlot ..
  have hclear : ∀ (t : State) (n : Nat), VaultOnly t (updSlot n (fun _ => {}) t) := fun _ _ => vaultOnly_updSlot ..
  have hv := VaultOnly.foldl hset ((freeWorking keys.length s).zip keys) s
  have hzero := zeroiseSlots_unheld (ns := freeWorking keys.length s)
    (s := ((freeWorking keys.length s).zip keys).foldl (fun s p => setSlot p.1 attr cid none p.2 s) s)
    (fun n hn l hmem => not_held hl (mem_freeWorking hn).2 l (hv.loads ▸ hmem))
  rw [throughWorking, hzero]
  refine ⟨hv.trans (.foldl hclear ..), fun n hn => ?_⟩
  have hne : ∀ m ∈ freeWorking keys.length s, n ≠ m := fun m hm => Nat.ne_of_lt (Nat.lt_of_lt_of_le hn (mem_freeWorking hm).1)
  rw [slotOf_foldl (at_ := id) hclear (fun t m hwt hm => Zeroising.slotOf_updSlot_ne hwt hm) (hv.wf hw) hne]
  refine slotOf_foldl (at_ := Prod.fst) hset (fun t p hwt hp => slotOf_setSlot_ne hwt hp) hw (fun p hp => ?_)
  exact hne p.1 (List.of_mem_zip hp).1

/-! ## CTX_KEY_IMPORT -/

section
variable {op : HostOp} {u : UnitRef} {h : HostCmd} {s : State}

theorem deviceKey_taken (n : Nat) : deviceKey n (taken op u h s) = deviceKey n s := by
  simp only [deviceKey, slotOf_taken]

theorem freeWorking_taken (k : Nat) : freeWorking k (taken op u h s) = freeWorking k s := by
  simp only [freeWorking, slotOf_taken]

theorem loadsHeld_taken : loadsHeld (taken op u h s) = loadsHeld s := by
  simp only [loadsHeld, slotOf_taken, taken_orng]

theorem checkBundle_taken (priv : Bool) (cid : Nat) (gen : BitVec 16) (b : Bytes) :
    checkBundle priv cid gen b (taken op u h s) = checkBundle priv cid gen b s := by
  simp only [checkBundle, openBundle, bundleKey, deviceKey_taken, taken_belv]

/-- An operation that draws, where the DRBG serves (R252). -/
theorem withDraw_ready {g : GenReq} {refuse k : State → State} (hd : drawReady s = true) : withDraw g refuse k s = k s := by
  simp only [drawReady, Bool.and_eq_true, Bool.not_eq_true'] at hd
  simp only [withDraw, hd.1, hd.2, Bool.not_true, Bool.false_eq_true, if_false]

theorem drawReady_taken : drawReady (taken op u h s) = drawReady s := by
  simp only [drawReady, genWaits, reseedDue, taken_orng, taken_tick]

end

/-- The bundle of a context's own set is read from its buffer and then judged. -/
theorem exec_ctxKeyImport {h : HostCmd} {s : State} {b : Bytes} (hok : hostOk opCtxKeyImport h s = true)
    (hcheck : ctxCheck (.keyImport true) h.cid h.gen s = none) (hb : h.buf = .data b) :
    exec (.ctxKeyImport h) s = .next (importBundle h (progOf opCtxKeyImport (cidUnit h) h s) (fit h.bufLen b)
      (taken opCtxKeyImport (cidUnit h) h s)) := by
  refine congrArg Host.Outcome.next (?_ : hostCommand opCtxKeyImport (cidUnit h) h (keyImportBody h) s = _)
  have hcheck' : ctxCheck (.keyImport true) h.cid.val h.gen (taken opCtxKeyImport (cidUnit h) h s) = none := by
    rw [taken_rest]
    exact hcheck
  simp only [hostCommand_taken hok, keyImportBody, hcheck', Consents.withBuffer_data hb]

/-- CREATED is the one state in which a context's own set is imported (Table CTX-2). -/
theorem created_of_keyImport {cid : Nat} {gen : BitVec 16} {s : State} (h : ctxCheck (.keyImport true) cid gen s = none) :
    (ctxOf s cid).state = .created ∧ (ctxOf s cid).gen = gen := by
  have htable := DrainStart.ctxTable_of_ctxCheck h
  have hgen : (ctxOf s cid).gen = gen := by
    simp only [ctxCheck] at h
    split at h
    · exact absurd h (by simp)
    next hne => exact (not_not.mp fun hgen => hne (.inl fun heq => hgen heq.symm))
  refine ⟨?_, hgen⟩
  cases hst : (ctxOf s cid).state with
  | created => rfl
  | free => exact absurd (hst ▸ htable) (by decide)
  | keyed => exact absurd (hst ▸ htable) (by decide)
  | running => exact absurd (hst ▸ htable) (by decide)
  | draining => exact absurd (hst ▸ htable) (by decide)
  | drained => exact absurd (hst ▸ htable) (by decide)
  | fenced => exact absurd (hst ▸ htable) (by decide)
  | destroying => exact absurd (hst ▸ htable) (by decide)

/-- The load of an import of a context's own set. -/
def loadOf (cid : Nat) (w : Waiter) (b : Bytes) (s : State) : KeyLoad :=
  let (st, p) := checkBundle true cid (ctxOf s cid).gen b s
  let ks := importKeys true cid p
  { slots := ks.map (·.1), lens := ks.map (·.2.1.length), attrs := ks.map (·.2.2), for_ := .priv cid, result := st, commitS := none, waiter := w, consent := (slice p 136 97, slice p 240 2592), cmr := slice b 0 56 ++ (bundleKcv true p).2 }

theorem loadOf_result (cid : Nat) (w : Waiter) (b : Bytes) (s : State) :
    (loadOf cid w b s).result = (checkBundle true cid (ctxOf s cid).gen b s).1 := by
  simp only [loadOf]

/-- An import taken changes the vault and the context's `importing` alone. -/
theorem takeImport_spec {cid : Nat} {w : Waiter} {b : Bytes} {s : State} (hc : canonical s = true) (hl : loadsHeld s = true) :
    ∃ t, takeImport true cid w b s = updCtx cid (fun c => { c with importing := some ⟨true, ctxSlot cid 0, w⟩ }) t ∧
      t = { s with orng := t.orng } ∧ loadOf cid w b s ∈ t.orng.loads := by
  let ks := importKeys true cid (checkBundle true cid (ctxOf s cid).gen b s).2
  let a := ks.foldl (fun s k => setPending k.1 k.2.1 (updSlot k.1 (fun x => { x with cid := cid }) s))
    (throughWorking attrWrap 0 (bundleKey b s).toList s)
  have ha : VaultOnly s a := (throughWorking_spec hl (canonical_orng_slots hc)).1.trans
    (.foldl (fun t k => (vaultOnly_updSlot ..).trans (vaultOnly_setPending ..)) _ _)
  refine ⟨addLoad (loadOf cid w b s) a, rfl, ?_, List.mem_append_right _ (List.mem_singleton.mpr rfl)⟩
  rw [addLoad, ha.rest]

/-- An import that is let through (R65). -/
theorem importBundle_taken {h : HostCmd} {ip : InProg} {b : Bytes} {s : State} (hstate : (ctxOf s h.cid).state = .created)
    (hkind : leAt b 2 1 = 0) (hfree : (ctxOf s h.cid).importing = none) (hd : drawReady s = true)
    (hwork : (freeWorking 1 s).isEmpty = false)
    (hslots : ∀ k, k < 3 → (slotOf s (ctxSlot h.cid k)).state ≠ .bad ∧ (slotOf s (ctxSlot h.cid k)).pending = false)
    (h6 : ∃ x, deviceKey 6 s = some x) (h7 : ∃ y, deviceKey 7 s = some y) :
    importBundle h ip b s = takeImport true h.cid (.host ip.id) b s := by
  obtain ⟨x, h6⟩ := h6
  obtain ⟨y, h7⟩ := h7
  have hpriv : decide (leAt b 2 1 ≠ 1) = true := by rw [hkind]; decide
  have htargets : (importKeys true h.cid []).map (·.1) = [ctxSlot h.cid 0, ctxSlot h.cid 1, ctxSlot h.cid 2] := rfl
  have hpend : ([ctxSlot h.cid 0, ctxSlot h.cid 1, ctxSlot h.cid 2].any (fun n => (slotOf s n).pending)) = false := by
    simp [(hslots 0 (by decide)).2, (hslots 1 (by decide)).2, (hslots 2 (by decide)).2]
  have hbad : ([ctxSlot h.cid 0, ctxSlot h.cid 1, ctxSlot h.cid 2].any (fun n => (slotOf s n).state == .bad)) = false := by
    simp [(hslots 0 (by decide)).1, (hslots 1 (by decide)).1, (hslots 2 (by decide)).1]
  simp only [importBundle, hpriv, hstate, ctxTable, htargets, hfree, hpend, hbad, hwork, h6, h7, withDraw_ready hd, Option.isSome_none,
    Option.isNone_some, Bool.or_self, Bool.and_false, Bool.false_eq_true, if_false]

/-- Settles O22: an import that is let through ends in a load under way, a second one in BUSY. -/
theorem keyImportIsTakenAndWaits : Obligations.KeyImportIsTakenAndWaits := by
  unfold Obligations.KeyImportIsTakenAndWaits
  refine ⟨fun h s b hc hok _ hcheck hb hkind hfree hd hwork hl hslots h6 h7 => ?_, fun h s b hc hok _ hcheck hb hkind hbusy => ?_⟩
  · have hct := canonical_taken (op := opCtxKeyImport) (u := cidUnit h) (h := h) hc
    obtain ⟨hstate, hgen⟩ := created_of_keyImport hcheck
    obtain ⟨t, ht, hrest, hload⟩ := takeImport_spec (cid := h.cid) (w := .host (progOf opCtxKeyImport (cidUnit h) h s).id)
      (b := fit h.bufLen b) hct (by rw [loadsHeld_taken]; exact hl)
    have hrun : exec (.ctxKeyImport h) s = .next (updCtx h.cid (fun c => { c with importing := some ⟨true, ctxSlot h.cid 0, .host s.host.nextId⟩ }) t) := by
      have himport := importBundle_taken (h := h) (ip := progOf opCtxKeyImport (cidUnit h) h s) (s := taken opCtxKeyImport (cidUnit h) h s)
        (b := fit h.bufLen b) (by rw [ctxOf_taken]; exact hstate) hkind (by rw [ctxOf_taken]; exact hfree) (by rw [drawReady_taken]; exact hd)
        (by rw [freeWorking_taken]; exact hwork) (by simpa only [slotOf_taken] using hslots) (by rw [deviceKey_taken]; exact h6)
        (by rw [deviceKey_taken]; exact h7)
      rw [exec_ctxKeyImport hok hcheck hb, himport, ht]
      rfl
    have hctxs : ∀ c, ctxOf t c = ctxOf s c := fun c => (congrArg (fun t => ctxOf t c) hrest :).trans (ctxOf_taken ..)
    have hwt : mapWf {} t.ctxs = true := by
      have h1 : t.ctxs = s.ctxs := (congrArg State.ctxs hrest :).trans (taken_ctxs ..)
      rw [h1]
      exact canonical_ctxs hc
    rw [hrun]
    refine ⟨_, rfl, ?_, ?_, ⟨_, hload, rfl, rfl, ?_⟩, ?_, (congrArg State.outs hrest :).trans (taken_outs ..),
      (congrArg State.frames hrest :).trans (taken_frames ..), (congrArg State.fence hrest :).trans (taken_fence ..), fun c hne => ?_⟩
    · rw [ctxOf_updCtx_self hwt, hctxs]
      exact hstate
    · rw [ctxOf_updCtx_self hwt]
    · rw [loadOf_result, checkBundle_taken, ctxOf_taken, hgen]
    · have hprog := (congrArg (fun x : State => x.host.inProg.length) hrest :).trans (congrArg List.length (inProg_taken ..))
      exact hprog.trans (by simp)
    · rw [ctxOf_updCtx_ne hwt hne, hctxs]
  · obtain ⟨hstate, -⟩ := created_of_keyImport hcheck
    have hrun : importBundle h (progOf opCtxKeyImport (cidUnit h) h s) (fit h.bufLen b) (taken opCtxKeyImport (cidUnit h) h s) =
        completeHost (progOf opCtxKeyImport (cidUnit h) h s) .busy [] (taken opCtxKeyImport (cidUnit h) h s) := by
      have hsome : (ctxOf s h.cid).importing.isSome = true := Option.isSome_iff_ne_none.mpr hbusy
      have hpriv : decide (leAt (fit h.bufLen b) 2 1 ≠ 1) = true := by rw [hkind]; decide
      simp only [importBundle, ctxOf_taken, hstate, hpriv, ctxTable, hsome, Bool.true_or, if_true]
    obtain ⟨hdone, hrest, -, -⟩ := refused_taken (u := cidUnit h) (d := []) (st := .busy) hok hc (by decide)
    rw [exec_ctxKeyImport hok hcheck hb, hrun]
    generalize completeHost _ _ _ _ = t at hdone hrest
    exact ⟨t, rfl, hdone, (congrArg State.orng hrest :).trans (taken_orng ..), (congrArg State.frames hrest :).trans (taken_frames ..)⟩

end Sys2Proof.KeyImport
end

section
/-! PROOF. The packets of the contexts' own queues (03_tenant_contexts.md R73, R74, R77, 09_belvedere_attestation.md R218). -/

namespace Sys2Proof.Packets

open Sys2Proof Sys2Proof.Machine Sys2Proof.Laws Sys2Proof.Frames

/-! ## The packet taken -/

theorem canonical_takePriv {c : Nat} {s : State} (hc : canonical s = true) : canonical (takePriv c s) = true := by
  have hput : canonical (putQ (65 + c) (popPacket s.tick (qOf s (65 + c))).2 s) = true := canonical_putQ hc
  exact hput

/-- A packet that meets the conditions of every path is judged by its command. -/
theorem privPacket_judged {mine : Bytes → Bool} {cid : Nat} {k : Bytes → State → State} {s : State} {p : Bytes} (h0 : cid ≠ 0)
    (h255 : cid ≠ 255) (hhead : headPriv s cid = some p) (hmine : mine p = true) (hsupply : s.pav.supply = none)
    (htamper : s.pav.tamper = false) (hhold : s.updt.hold = false) : privPacket mine cid k s = k p (takePriv cid s) := by
  have hpass : ¬ (cid = 0 ∨ cid = 255 ∨ mine p = false ∨ s.pav.supply.isSome = true) := by simp [h0, h255, hmine, hsupply]
  have htamper' : (takePriv cid s).pav.tamper = false := htamper
  have hhold' : (takePriv cid s).updt.hold = false := hhold
  simp only [privPacket, hhead, if_neg hpass, htamper', hhold', Bool.false_eq_true, if_false]

theorem privSem_of_isPriv {op : Nat} {p : Bytes} (h : isPriv op p = true) : privSem p ≤ 511 := by
  simp only [isPriv, privOk, Bool.and_eq_true, decide_eq_true_eq] at h
  exact h.1.1

/-- A command's effect with its status delivered, where the result semaphore is in range. -/
theorem answered_delivered {cid : Nat} {k : Nat → Bytes → State → Status × State} {p : Bytes} {s t : State} {st : Status}
    (hsem : privSem p ≤ 511) (hk : k cid p s = (st, t)) : Machine.answered cid k p s = deliverStatus cid (privSem p) st t := by
  simp only [Machine.answered, hk, answerPriv, if_pos hsem]

/-- A command on groups does not wait for a reseed where the DRBG serves. -/
theorem drawnPriv_ready {join : Bool} {cid : Nat} {k : Nat → Bytes → State → Status × State} {p : Bytes} {s : State}
    (hd : drawReady s = true) : drawnPriv join cid k p s = Machine.answered cid k p s := by
  simp only [drawReady, Bool.and_eq_true, Bool.not_eq_true'] at hd
  simp only [drawnPriv, hd.2, Bool.and_false, Bool.false_and, Bool.false_eq_true, if_false]

theorem prefixState_ok {st : CtxState} (h : st = .keyed ∨ st = .running) : prefixState st = .ok := by
  obtain rfl | rfl := h <;> rfl

/-! ## The derived key -/

/-- A use that is granted changes nothing, and its slot is not EMPTY. -/
theorem useSlot_granted {n cid : Nat} {attr : BitVec 5} {s : State} {k : Bytes} (h : (useSlot n attr cid s).1 = (.ok, k)) :
    useSlot n attr cid s = ((.ok, k), s) ∧ (slotOf s n).state ≠ .empty := by
  have hcheck : slotCheck n attr cid s = .ok := by
    by_contra hne
    simp only [useSlot] at h
    exact hne (congrArg Prod.fst h)
  have hactive : (slotOf s n).state ≠ .empty := by
    intro he
    simp only [slotCheck, he] at hcheck
    split at hcheck <;> cases hcheck
  refine ⟨?_, hactive⟩
  simp only [useSlot, hcheck] at h ⊢
  split at h
  next hhalf =>
    rw [if_pos hhalf]
    exact Prod.ext h rfl
  next => exact absurd (congrArg Prod.fst h) (by simp)

/-- A use depends on the vault alone. -/
theorem useSlot_of_orng {n cid : Nat} {attr : BitVec 5} {s t : State} (h : t.orng = s.orng) :
    (useSlot n attr cid t).1 = (useSlot n attr cid s).1 := by
  have hslot : slotOf t n = slotOf s n := by rw [slotOf, slotOf, h]
  have hcheck : slotCheck n attr cid t = slotCheck n attr cid s := by simp only [slotCheck, hslot, h]
  simp only [useSlot, hcheck, hslot]
  split
  · split <;> rfl
  · rfl

/-- What a derivation of a group's key leaves: the working slots it passed through are EMPTY again. -/
def derived (cid : Nat) (team dg : Bytes) (s : State) : State :=
  throughWorking attrEngine cid [slice (groupKeys team dg) 0 64, slice (groupKeys team dg) 64 32] s

theorem deriveGroup_granted {cid : Nat} {team dg : Bytes} {s : State} (h : (useSlot (ctxSlot cid 5) attrDerive cid s).1 = (.ok, team)) :
    deriveGroup cid dg s = ((.ok, groupKeys team dg), derived cid team dg s) := by
  rw [deriveGroup, (useSlot_granted h).1, derived]

/-! ## PFX_CREATE -/

theorem pfxCreateBody_opened {cid g : Nat} {p team : Bytes} {s : State} (hstate : (ctxOf s cid).state = .keyed ∨ (ctxOf s cid).state = .running)
    (hksel : mapGet none (ctxOf s cid).ksel (privKsel p) = none) (huse : (useSlot (ctxSlot cid 5) attrDerive cid s).1 = (.ok, team))
    (hg : g < 256) (hfree : (groupOf s g).state = .free) (hlow : ∀ x, x < g → (groupOf s x).state ≠ .free)
    (hwork : (freeWorking 2 s).length = 2) (hready : s.orng.ready = true) :
    pfxCreateBody cid p s =
      (.ok, openGroup cid (privKsel p) g (privDigest p) (groupKeys team (privDigest p)) (derived cid team (privDigest p) s)) := by
  have hleast : leastBelow 256 (fun g => decide ((groupOf s g).state = .free)) = some g := by
    rw [leastBelow, List.find?_range_eq_some]
    exact ⟨decide_eq_true hfree, List.mem_range.mpr hg, fun x hx => by simp [hlow x hx]⟩
  simp only [pfxCreateBody, prefixState_ok hstate, hksel, Option.isSome_none, (useSlot_granted huse).2, hleast, hwork, hready,
    deriveGroup_granted huse, Bool.false_eq_true, Nat.lt_irrefl, Bool.not_true, if_false]

section
variable {cid k g : Nat} {dg keys : Bytes} {s : State}

/-- The group's key written to its two slots. -/
def keyed (g : Nat) (keys : Bytes) (s : State) : State :=
  setSlot (groupSlot g + 1) attrEngine 0 (some g) (slice keys 64 32) (setSlot (groupSlot g) attrEngine 0 (some g) (slice keys 0 64) s)

/-- An OPEN group with its creator as its one member. -/
def opened (cid : Nat) (dg keys : Bytes) : Group :=
  { state := .open_, creator := cid, members := 1, digest := dg, kcv := keyCheckValueOf keys }

theorem openGroup_eq : openGroup cid k g dg keys s = measureCmr cid 4 ([1] ++ leNat 1 k ++ keyCheckValueOf keys)
    (bindKsel cid k g (updGroup g (fun _ => opened cid dg keys) (keyed g keys s))) := by
  unfold openGroup
  rfl

theorem vaultOnly_keyed : KeyImport.VaultOnly s (keyed g keys s) :=
  (KeyImport.vaultOnly_setSlot ..).trans (KeyImport.vaultOnly_setSlot ..)

/-- The group's slots after that. -/
theorem slotOf_keyed (hw : mapWf {} s.orng.slots = true) :
    (slotOf (keyed g keys s) (groupSlot g)).state = .active ∧ (slotOf (keyed g keys s) (groupSlot g + 1)).state = .active ∧
    (slotOf (keyed g keys s) (groupSlot g)).attr = attrEngine ∧ (slotOf (keyed g keys s) (groupSlot g)).group = some g ∧
    (∀ n, n ≠ groupSlot g → n ≠ groupSlot g + 1 → slotOf (keyed g keys s) n = slotOf s n) := by
  have hw1 := (KeyImport.vaultOnly_setSlot (groupSlot g) attrEngine 0 (some g) (slice keys 0 64) s).wf hw
  have hfirst : slotOf (keyed g keys s) (groupSlot g) = _ :=
    (KeyImport.slotOf_setSlot_ne hw1 (Nat.ne_of_lt (Nat.lt_succ_self _))).trans (KeyImport.slotOf_setSlot_self hw)
  have hsecond : slotOf (keyed g keys s) (groupSlot g + 1) = _ := KeyImport.slotOf_setSlot_self hw1
  refine ⟨congrArg Slot.state hfirst, congrArg Slot.state hsecond, congrArg Slot.attr hfirst, congrArg Slot.group hfirst, fun n h1 h2 => ?_⟩
  exact (KeyImport.slotOf_setSlot_ne hw1 h2).trans (KeyImport.slotOf_setSlot_ne hw h1)

end

/-- Entries put into a map are read back, whatever its form. -/
theorem mapGet_mapSet_put {α : Type} [DecidableEq α] {d v : α} {m : NMap α} {k : Nat} (h : v ≠ d) : mapGet d (mapSet d m k v) k = v := by
  rw [mapSet, if_neg h]
  exact mapGet_mapPut_same

section
variable {cid k g r : Nat} {m : Bytes} {s : State} (hw : mapWf {} s.ctxs = true)
include hw

theorem ctxOf_measureCmr_self : ∃ x, ctxOf (measureCmr cid r m s) cid = { ctxOf s cid with cmr := x } :=
  ⟨_, by rw [measureCmr, extendCmr, ctxOf_updCtx_self hw]⟩

theorem ctxOf_measureCmr_ne {x : Nat} (hx : x ≠ cid) : ctxOf (measureCmr cid r m s) x = ctxOf s x := by
  rw [measureCmr, extendCmr, ctxOf_updCtx_ne hw hx]

/-- A member's KSEL is bound. -/
theorem bound_bindKsel : mapGet none (ctxOf (bindKsel cid k g s) cid).ksel k = some g ∧
    (ctxOf (bindKsel cid k g s) cid).state = (ctxOf s cid).state ∧ mapWf {} (bindKsel cid k g s).ctxs = true := by
  rw [bindKsel, ctxOf_updCtx_self hw]
  exact ⟨mapGet_mapSet_put (Option.some_ne_none g), rfl, wf_updCtx hw⟩

theorem ctxOf_bindKsel_ne {x : Nat} (hx : x ≠ cid) : ctxOf (bindKsel cid k g s) x = ctxOf s x := ctxOf_updCtx_ne hw hx

end

section
variable {g x : Nat} {f : Group → Group} {s : State} (hw : mapWf {} s.groups = true)
include hw

theorem groupOf_updGroup_self : groupOf (updGroup g f s) g = f (groupOf s g) := mapGet_mapMod_same hw
theorem groupOf_updGroup_ne (hx : x ≠ g) : groupOf (updGroup g f s) x = groupOf s x := mapGet_mapMod_other hw hx

end

/-- What a create leaves, in a state `s` from which its packet has been taken. -/
theorem openGroup_spec {cid k g : Nat} {team dg : Bytes} {s v : State} (hc : canonical s = true) (hl : loadsHeld s = true)
    (hv : openGroup cid k g dg (groupKeys team dg) (derived cid team dg s) = v) :
    groupOf v g = opened cid dg (groupKeys team dg) ∧
      mapGet none (ctxOf v cid).ksel k = some g ∧ (ctxOf v cid).state = (ctxOf s cid).state ∧
      (slotOf v (groupSlot g)).state = .active ∧ (slotOf v (groupSlot g + 1)).state = .active ∧
      (slotOf v (groupSlot g)).attr = attrEngine ∧ (slotOf v (groupSlot g)).group = some g ∧
      (∀ n, n < workingBase → n ≠ groupSlot g → n ≠ groupSlot g + 1 → slotOf v n = slotOf s n) ∧
      (∀ x, x ≠ g → groupOf v x = groupOf s x) ∧ (∀ x, x ≠ cid → ctxOf v x = ctxOf s x) ∧
      v = { s with orng := v.orng, groups := v.groups, ctxs := v.ctxs } := by
  obtain ⟨hthrough, hbelow⟩ := KeyImport.throughWorking_spec (attr := attrEngine) (cid := cid)
    (keys := [slice (groupKeys team dg) 0 64, slice (groupKeys team dg) 64 32]) hl (canonical_orng_slots hc)
  have hbase : workingBase = 3248 := rfl
  have hslots := slotOf_keyed (g := g) (keys := groupKeys team dg) (hthrough.wf (canonical_orng_slots hc))
  have hkeyed := (hthrough.trans (vaultOnly_keyed (g := g) (keys := groupKeys team dg))).rest
  rw [openGroup_eq, derived] at hv
  generalize throughWorking _ _ _ s = d at hbelow hslots hkeyed hv
  generalize keyed g (groupKeys team dg) d = a at hslots hkeyed hv
  generalize groupKeys team dg = keys at hv ⊢
  have hgroups : a.groups = s.groups := (congrArg State.groups hkeyed :)
  have hctxs : a.ctxs = s.ctxs := (congrArg State.ctxs hkeyed :)
  have hwg : mapWf {} a.groups = true := hgroups ▸ canonical_groups hc
  have hwc : mapWf {} (updGroup g (fun _ => opened cid dg keys) a).ctxs = true := (congrArg (mapWf {}) hctxs :).trans (canonical_ctxs hc)
  have hctx : ∀ x, ctxOf (updGroup g (fun _ => opened cid dg keys) a) x = ctxOf s x := fun x => (congrArg (fun m => mapGet {} m x) hctxs :)
  have hgroup : ∀ x, groupOf v x = groupOf (updGroup g (fun _ => opened cid dg keys) a) x := fun x => hv ▸ rfl
  have horng : ∀ n, slotOf v n = slotOf a n := fun n => hv ▸ rfl
  obtain ⟨hk, hst, hwb⟩ := bound_bindKsel (cid := cid) (k := k) (g := g) hwc
  obtain ⟨y, hm⟩ := ctxOf_measureCmr_self (cid := cid) (r := 4) (m := [1] ++ leNat 1 k ++ keyCheckValueOf keys) hwb
  rw [hv] at hm
  obtain ⟨h1, h2, h3, h4, hne⟩ := hslots
  simp only [← horng] at h1 h2 h3 h4 hne
  refine ⟨(hgroup g).trans (groupOf_updGroup_self hwg), ?_, ?_, h1, h2, h3, h4, fun n hlt hn1 hn2 => ?_, fun x hx => ?_, fun x hx => ?_, ?_⟩
  · rw [hm]
    exact hk
  · rw [hm]
    exact hst.trans (congrArg Ctx.state (hctx cid))
  · rw [hne n hn1 hn2, hbelow n hlt]
  · rw [hgroup]
    exact (groupOf_updGroup_ne hwg hx).trans (congrArg (fun m => mapGet {} m x) hgroups :)
  · rw [← hv, ctxOf_measureCmr_ne hwb hx, ctxOf_bindKsel_ne hwc hx, hctx]
  · have hrest : v = { a with orng := v.orng, groups := v.groups, ctxs := v.ctxs } := hv ▸ rfl
    rw [hkeyed] at hrest
    exact hrest

/-! ## PFX_JOIN -/

/-- The contexts and the groups. -/
def tenants : Parts where
  put s t := { s with groups := t.groups, ctxs := t.ctxs }
  put_self _ := rfl
  put_put _ _ _ := rfl

theorem measureCmr_rest (c r : Nat) (m : Bytes) (s : State) : measureCmr c r m s = tenants.put s (measureCmr c r m s) := by
  rw [measureCmr, extendCmr]
  rfl

/-- A search of the groups depends on the groups and the tick alone. -/
theorem matchGroup_of_groups {s t : State} {st : GroupState} {dg : Option Bytes} {kcv : Bytes} (hg : t.groups = s.groups)
    (ht : t.tick = s.tick) : matchGroup t st dg kcv = matchGroup s st dg kcv := by
  have hgroup : ∀ x, groupOf t x = groupOf s x := fun x => by rw [groupOf, groupOf, hg]
  have hat : ∀ x, groupStateAt t x = groupStateAt s x := fun x => by rw [groupStateAt, groupStateAt, hgroup, ht]
  simp only [matchGroup, hgroup, hat]

theorem pfxJoinBody_joined {cid g : Nat} {p team : Bytes} {s : State} (hstate : (ctxOf s cid).state = .keyed ∨ (ctxOf s cid).state = .running)
    (hksel : mapGet none (ctxOf s cid).ksel (privKsel p) = none) (huse : (useSlot (ctxSlot cid 5) attrDerive cid s).1 = (.ok, team))
    (hwork : (freeWorking 2 s).length = 2) (hready : s.orng.ready = true)
    (hopen : matchGroup (derived cid team (privDigest p) s) .open_ none (keyCheckValueOf (groupKeys team (privDigest p))) = none)
    (hsealed : matchGroup (derived cid team (privDigest p) s) .sealed_ (some (privDigest p))
      (keyCheckValueOf (groupKeys team (privDigest p))) = some g) :
    pfxJoinBody cid p s = (.ok, measureCmr cid 4 ([2] ++ leNat 1 (privKsel p) ++ keyCheckValueOf (groupKeys team (privDigest p)))
      (noteOddKey cid (privKsel p) g (groupKeys team (privDigest p)) (bindKsel cid (privKsel p) g
        (updGroup g (fun x => { x with members := x.members + 1 }) (derived cid team (privDigest p) s))))) := by
  simp only [pfxJoinBody, prefixState_ok hstate, hksel, Option.isSome_none, (useSlot_granted huse).2, hwork, hready, hopen, hsealed,
    deriveGroup_granted huse, Bool.false_eq_true, Nat.lt_irrefl, Bool.not_true, if_false]

/-- What a join leaves, where `d` is the state after the derivation. -/
theorem joined_spec {cid k g r : Nat} {keys m : Bytes} {d v : State} (hwg : mapWf {} d.groups = true) (hwc : mapWf {} d.ctxs = true)
    (hv : measureCmr cid r m (noteOddKey cid k g keys (bindKsel cid k g (updGroup g (fun x => { x with members := x.members + 1 }) d))) = v) :
    groupOf v g = { groupOf d g with members := (groupOf d g).members + 1 } ∧
      mapGet none (ctxOf v cid).ksel k = some g ∧ (ctxOf v cid).state = (ctxOf d cid).state ∧
      (∀ x, x ≠ g → groupOf v x = groupOf d x) ∧ (∀ x, x ≠ cid → ctxOf v x = ctxOf d x) ∧
      v = { d with groups := v.groups, ctxs := v.ctxs } := by
  have hwu : mapWf {} (updGroup g (fun x => { x with members := x.members + 1 }) d).ctxs = true := hwc
  obtain ⟨hk, hst, hwb⟩ := bound_bindKsel (cid := cid) (k := k) (g := g) hwu
  have hother := fun x hx => ctxOf_bindKsel_ne (k := k) (g := g) (x := x) (cid := cid) hwu hx
  have hctx : ∀ x, ctxOf (updGroup g (fun x => { x with members := x.members + 1 }) d) x = ctxOf d x := fun _ => rfl
  have hbind : bindKsel cid k g (updGroup g (fun x => { x with members := x.members + 1 }) d) =
      tenants.put d (bindKsel cid k g (updGroup g (fun x => { x with members := x.members + 1 }) d)) := rfl
  have hgroups : (bindKsel cid k g (updGroup g (fun x => { x with members := x.members + 1 }) d)).groups =
      (updGroup g (fun x => { x with members := x.members + 1 }) d).groups := rfl
  generalize bindKsel cid k g _ = b at hv hk hst hwb hother hbind hgroups
  have hwn : mapWf {} (noteOddKey cid k g keys b).ctxs = true := wf_updCtx hwb
  have hodd : noteOddKey cid k g keys b = tenants.put b (noteOddKey cid k g keys b) := rfl
  have hgroup : ∀ x, groupOf v x = groupOf (updGroup g (fun x => { x with members := x.members + 1 }) d) x := by
    intro x
    rw [← hv, measureCmr, extendCmr]
    exact (congrArg (fun m => mapGet {} m x) hgroups :)
  have hrest : v = tenants.put d v := by
    have hmeasured := measureCmr_rest cid r m (noteOddKey cid k g keys b)
    rw [hv] at hmeasured
    exact tenants.trans (tenants.trans hbind hodd) hmeasured
  have hnote := ctxOf_updCtx_self (c := cid) (f := fun c => { c with oddKsel := mapSet false c.oddKsel k (decide (groupKey b g ≠ keys)) }) hwb
  have hnoteNe : ∀ x, x ≠ cid → ctxOf (noteOddKey cid k g keys b) x = ctxOf b x := fun x hx => ctxOf_updCtx_ne hwb hx
  obtain ⟨y, hm⟩ := ctxOf_measureCmr_self (cid := cid) (r := r) (m := m) hwn
  rw [hv, noteOddKey, hnote] at hm
  refine ⟨(hgroup g).trans (groupOf_updGroup_self hwg), ?_, ?_, fun x hx => (hgroup x).trans (groupOf_updGroup_ne hwg hx), fun x hx => ?_, hrest⟩
  · rw [hm]
    exact hk
  · rw [hm]
    exact hst.trans (congrArg Ctx.state (hctx cid))
  · rw [← hv, ctxOf_measureCmr_ne hwn hx, hnoteNe x hx, hother x hx, hctx]

/-! ## PFX_LEAVE -/

theorem pfxLeaveBody_left {cid g : Nat} {p : Bytes} {s : State} (hstate : (ctxOf s cid).state = .keyed ∨ (ctxOf s cid).state = .running)
    (hksel : mapGet none (ctxOf s cid).ksel (privKsel p) = some g) :
    pfxLeaveBody cid p s = (.ok, leaveGroup cid (privKsel p) (issueLock (.pairs cid (1#4 <<< privKsel p)) .orangery s)) := by
  simp only [pfxLeaveBody, prefixState_ok hstate, hksel, Option.isNone_some, Bool.false_eq_true, if_false]

/-- A member's KSEL unbound. -/
def unbindKsel (k : Nat) (c : Ctx) : Ctx := { c with ksel := mapSet none c.ksel k none, oddKsel := mapSet false c.oddKsel k false }

/-- A group with one member fewer. -/
def lessOne (x : Group) : Group := { x with members := x.members - 1 }

theorem leaveGroup_bound {cid k g : Nat} {s : State} (hk : mapGet none (ctxOf s cid).ksel k = some g) (hw : mapWf {} s.groups = true) :
    leaveGroup cid k s = if (groupOf s g).members - 1 = 0 then retireGroup g (updGroup g lessOne (updCtx cid (unbindKsel k) s))
      else updGroup g lessOne (updCtx cid (unbindKsel k) s) := by
  have hmembers : (groupOf (updGroup g lessOne (updCtx cid (unbindKsel k) s)) g).members = (groupOf s g).members - 1 :=
    congrArg Group.members (groupOf_updGroup_self (s := updCtx cid (unbindKsel k) s) hw)
  rw [← hmembers, leaveGroup, hk]
  rfl

/-- What a leave writes to its context and its group. -/
theorem left_spec {cid k g : Nat} {t : State} (hwg : mapWf {} t.groups = true) (hwc : mapWf {} t.ctxs = true) :
    let v := updGroup g lessOne (updCtx cid (unbindKsel k) t)
    groupOf v g = lessOne (groupOf t g) ∧ ctxOf v cid = unbindKsel k (ctxOf t cid) ∧ (∀ x, x ≠ g → groupOf v x = groupOf t x) ∧
      (∀ x, x ≠ cid → ctxOf v x = ctxOf t x) ∧ v = tenants.put t v :=
  ⟨groupOf_updGroup_self (s := updCtx cid (unbindKsel k) t) hwg, ctxOf_updCtx_self hwc,
    fun _ hx => groupOf_updGroup_ne (s := updCtx cid (unbindKsel k) t) hwg hx, fun _ hx => ctxOf_updCtx_ne hwc hx, rfl⟩

/-- A locked change, and the end of scrubs, give no slot a key. -/
theorem gainsNoKey_issueLock (op : LockOp) (o : LockOwner) (s : State) : Zeroising.GainsNoKey s (issueLock op o s) := by
  refine .of_slots ?_
  rw [Tenancy.issueLock_rest]

theorem gainsNoKey_finish (w : Waiter) (st : Status) (d : Bytes) (s : State) : Zeroising.GainsNoKey s (finish w st d s) :=
  .of_slots (by rw [Zeroising.finish_orng])

theorem gainsNoKey_abortScrub (f : ScrubFrame → Bool) (s : State) : Zeroising.GainsNoKey s (abortScrub f s) := by
  have hfence : ∀ x : Fence, Zeroising.GainsNoKey s { s with fence := x } := fun _ => .of_slots rfl
  simp only [abortScrub, stopScrub]
  split
  · exact .refl s
  · exact (hfence _).trans (.foldl (fun t j => gainsNoKey_finish ..) _ _)

theorem gainsNoKey_dropKeys (ns : List Nat) (s : State) : Zeroising.GainsNoKey s (dropKeys ns s) :=
  .foldl (fun t n => (Zeroising.gainsNoKey_zeroiseSlot n t).trans (Zeroising.gainsNoKey_dropKey n t)) ns s

/-- A group that has begun to retire. -/
def retiring (x : Group) : Group := { x with state := .retiring, invDone := false }

theorem retireGroup_eq (g : Nat) (s : State) : retireGroup g s = issueLock (.ofGroup g) (.retire g)
    (abortScrub (fun x => decide (x.ident = .group g)) (dropKeys [groupSlot g, groupSlot g + 1] (updGroup g retiring s))) := by
  unfold retireGroup
  rfl

theorem kept_retireGroup (g : Nat) (s : State) : Kept units (updGroup g retiring s) (retireGroup g s) := by
  rw [retireGroup_eq]
  exact (((kept_dropKeys ..).mono vault_le_units).trans ((kept_abortScrub ..).mono scrubs_le_units)).trans (kept_issueLock ..)

theorem mem_retireGroup (g : Nat) (s : State) :
    ∃ l ∈ (retireGroup g s).fence.locks ++ (retireGroup g s).fence.lockWait, l.op = .ofGroup g ∧ l.owner = .retire g := by
  rw [retireGroup_eq]
  exact ⟨_, Tenancy.mem_issueLock .., rfl, rfl⟩

/-- The key slots of a group that retires are EMPTY (R77). -/
theorem slotState_retireGroup {g n : Nat} {s : State} (hw : mapWf {} s.orng.slots = true) (hn : n ∈ [groupSlot g, groupSlot g + 1]) :
    (slotOf (retireGroup g s) n).state = .empty := by
  have hwu : mapWf {} (updGroup g retiring s).orng.slots = true := hw
  rw [retireGroup_eq]
  generalize updGroup g retiring s = a at hwu
  exact ((gainsNoKey_abortScrub ..).trans (gainsNoKey_issueLock ..)).empty ((gainsNoKey_dropKeys ..).wf hwu) n
    (Zeroising.slotState_dropKeys hwu hn)

theorem groupOf_retireGroup {g : Nat} {s : State} (hw : mapWf {} s.groups = true) :
    groupOf (retireGroup g s) g = retiring (groupOf s g) ∧ (∀ x, x ≠ g → groupOf (retireGroup g s) x = groupOf s x) := by
  have hk := kept_retireGroup g s
  generalize retireGroup g s = u at hk ⊢
  have hgroups : ∀ x, groupOf u x = groupOf (updGroup g retiring s) x := fun x => (congrArg (fun t => groupOf t x) hk.rest :)
  exact ⟨(hgroups g).trans (groupOf_updGroup_self hw), fun x hx => (hgroups x).trans (groupOf_updGroup_ne hw hx)⟩

/-! ## The statement -/

/-- What stays as it was when a packet is taken. -/
structure Unchanged (s t : State) : Prop where
  ctxs : t.ctxs = s.ctxs
  groups : t.groups = s.groups
  orng : t.orng = s.orng
  frames : t.frames = s.frames
  dies : t.dies = s.dies
  fence : t.fence = s.fence
  tick : t.tick = s.tick
  form : canonical s = true → canonical t = true

theorem unchanged_takePriv (c : Nat) (s : State) : Unchanged s (takePriv c s) where
  ctxs := rfl
  groups := rfl
  orng := rfl
  frames := rfl
  dies := rfl
  fence := rfl
  tick := rfl
  form := canonical_takePriv

namespace Unchanged

variable {s t : State} (h : Unchanged s t)
include h

theorem ctxOf (c : Nat) : Machine.ctxOf t c = Machine.ctxOf s c := by rw [Machine.ctxOf, Machine.ctxOf, h.ctxs]
theorem groupOf (g : Nat) : Machine.groupOf t g = Machine.groupOf s g := by rw [Machine.groupOf, Machine.groupOf, h.groups]
theorem slotOf (n : Nat) : Machine.slotOf t n = Machine.slotOf s n := by rw [Machine.slotOf, Machine.slotOf, h.orng]
theorem freeWorking (k : Nat) : Machine.freeWorking k t = Machine.freeWorking k s := by simp only [Machine.freeWorking, h.slotOf]
theorem loadsHeld : Machine.loadsHeld t = Machine.loadsHeld s := by simp only [Machine.loadsHeld, h.slotOf, h.orng]
theorem drawReady : Machine.drawReady t = Machine.drawReady s := by simp only [Machine.drawReady, genWaits, reseedDue, h.orng, h.tick]

end Unchanged

theorem ready_of_drawReady {s : State} (h : drawReady s = true) : s.orng.ready = true := by
  simp only [drawReady, Bool.and_eq_true] at h
  exact h.1

section
variable {c : Fin 256} {s : State} {p team : Bytes} {g : Nat} (hc : canonical s = true)
include hc

/-- A create in the state `t` from which its packet has been taken. -/
theorem created_served {t : State} (hu : Unchanged s t) (hsem : privSem p ≤ 511)
    (hstate : (ctxOf s c).state = .keyed ∨ (ctxOf s c).state = .running) (hksel : mapGet none (ctxOf s c).ksel (privKsel p) = none)
    (huse : (useSlot (ctxSlot c 5) attrDerive c s).1 = (.ok, team)) (hg : g < 256) (hfree : (groupOf s g).state = .free)
    (hlow : ∀ x, x < g → (groupOf s x).state ≠ .free) (hwork : (freeWorking 2 s).length = 2) (hd : drawReady s = true)
    (hl : loadsHeld s = true) :
    ∃ v, drawnPriv false c pfxCreateBody p t = deliverStatus c (privSem p) .ok v ∧
      groupOf v g = { state := .open_, creator := c.val, members := 1, digest := privDigest p, kcv := keyCheckValueOf (groupKeys team (privDigest p)) } ∧
      mapGet none (ctxOf v c).ksel (privKsel p) = some g ∧ (ctxOf v c).state = (ctxOf s c).state ∧
      (slotOf v (groupSlot g)).state = .active ∧ (slotOf v (groupSlot g + 1)).state = .active ∧
      (slotOf v (groupSlot g)).attr = attrEngine ∧ (slotOf v (groupSlot g)).group = some g ∧
      (∀ n, n < workingBase → n ≠ groupSlot g → n ≠ groupSlot g + 1 → slotOf v n = slotOf s n) ∧
      (∀ x, x ≠ g → groupOf v x = groupOf s x) ∧ (∀ x, x ≠ c.val → ctxOf v x = ctxOf s x) ∧
      v.splq = t.splq ∧ v.frames = s.frames ∧ v.dies = s.dies ∧ v.fence = s.fence := by
  have hdt : drawReady t = true := hu.drawReady.trans hd
  have hbody := pfxCreateBody_opened (cid := c) (p := p) (s := t) (by rw [hu.ctxOf]; exact hstate) (by rw [hu.ctxOf]; exact hksel)
    ((useSlot_of_orng hu.orng).trans huse) hg (by rw [hu.groupOf]; exact hfree) (by simpa only [hu.groupOf] using hlow) (by rw [hu.freeWorking]; exact hwork)
    (ready_of_drawReady hdt)
  obtain ⟨h1, h2, h3, h4, h5, h6, h7, h8, h9, h10, hrest⟩ := openGroup_spec (cid := c) (k := privKsel p) (g := g) (team := team)
    (dg := privDigest p) (hu.form hc) (hu.loadsHeld.trans hl) rfl
  rw [drawnPriv_ready hdt, answered_delivered hsem hbody]
  generalize openGroup _ _ _ _ _ _ = v at h1 h2 h3 h4 h5 h6 h7 h8 h9 h10 hrest
  simp only [hu.ctxOf, hu.groupOf, hu.slotOf] at h3 h8 h9 h10
  exact ⟨v, rfl, h1, h2, h3, h4, h5, h6, h7, h8, h9, h10, (congrArg State.splq hrest :), (congrArg State.frames hrest :).trans hu.frames,
    (congrArg State.dies hrest :).trans hu.dies, (congrArg State.fence hrest :).trans hu.fence⟩

/-- A join in the state `t` from which its packet has been taken. -/
theorem joined_served {t : State} (hu : Unchanged s t) (hsem : privSem p ≤ 511)
    (hstate : (ctxOf s c).state = .keyed ∨ (ctxOf s c).state = .running) (hksel : mapGet none (ctxOf s c).ksel (privKsel p) = none)
    (huse : (useSlot (ctxSlot c 5) attrDerive c s).1 = (.ok, team)) (hwork : (freeWorking 2 s).length = 2) (hd : drawReady s = true)
    (hl : loadsHeld s = true) (hopen : matchGroup s .open_ none (keyCheckValueOf (groupKeys team (privDigest p))) = none)
    (hsealed : matchGroup s .sealed_ (some (privDigest p)) (keyCheckValueOf (groupKeys team (privDigest p))) = some g) :
    ∃ v, drawnPriv true c pfxJoinBody p t = deliverStatus c (privSem p) .ok v ∧
      groupOf v g = { groupOf s g with members := (groupOf s g).members + 1 } ∧
      mapGet none (ctxOf v c).ksel (privKsel p) = some g ∧ (ctxOf v c).state = (ctxOf s c).state ∧
      (∀ x, x ≠ g → groupOf v x = groupOf s x) ∧ (∀ x, x ≠ c.val → ctxOf v x = ctxOf s x) ∧
      v.splq = t.splq ∧ v.frames = s.frames ∧ v.dies = s.dies ∧ v.fence = s.fence ∧
      (∀ n, n < workingBase → slotOf v n = slotOf s n) := by
  have hdt : drawReady t = true := hu.drawReady.trans hd
  have hct := hu.form hc
  obtain ⟨hv, hbelow⟩ := KeyImport.throughWorking_spec (attr := attrEngine) (cid := c)
    (keys := [slice (groupKeys team (privDigest p)) 0 64, slice (groupKeys team (privDigest p)) 64 32]) (hu.loadsHeld.trans hl)
    (canonical_orng_slots hct)
  change KeyImport.VaultOnly t (derived c team (privDigest p) t) at hv
  change ∀ n, n < workingBase → slotOf (derived c team (privDigest p) t) n = slotOf t n at hbelow
  have hgroups : (derived c team (privDigest p) t).groups = t.groups := (congrArg State.groups hv.rest :)
  have hctxs : (derived c team (privDigest p) t).ctxs = t.ctxs := (congrArg State.ctxs hv.rest :)
  have htick : (derived c team (privDigest p) t).tick = t.tick := (congrArg State.tick hv.rest :)
  have hbody := pfxJoinBody_joined (cid := c) (p := p) (g := g) (s := t) (by rw [hu.ctxOf]; exact hstate) (by rw [hu.ctxOf]; exact hksel)
    ((useSlot_of_orng hu.orng).trans huse) (by rw [hu.freeWorking]; exact hwork) (ready_of_drawReady hdt)
    ((matchGroup_of_groups (hgroups.trans hu.groups) (htick.trans hu.tick)).trans hopen)
    ((matchGroup_of_groups (hgroups.trans hu.groups) (htick.trans hu.tick)).trans hsealed)
  rw [drawnPriv_ready hdt, answered_delivered hsem hbody]
  generalize derived c team (privDigest p) t = d at hv hbelow hgroups hctxs
  obtain ⟨h1, h2, h3, h4, h5, hrest⟩ := joined_spec (cid := c) (k := privKsel p) (g := g) (r := 4)
    (keys := groupKeys team (privDigest p)) (m := [2] ++ leNat 1 (privKsel p) ++ keyCheckValueOf (groupKeys team (privDigest p)))
    (by rw [hgroups]; exact canonical_groups hct) (by rw [hctxs]; exact canonical_ctxs hct) rfl
  generalize measureCmr _ _ _ _ = v at h1 h2 h3 h4 h5 hrest
  have hg : ∀ x, groupOf d x = groupOf s x := fun x => by rw [groupOf, groupOf, hgroups, hu.groups]
  have hx : ∀ x, ctxOf d x = ctxOf s x := fun x => by rw [ctxOf, ctxOf, hctxs, hu.ctxs]
  simp only [hg, hx] at h1 h3 h4 h5
  refine ⟨v, rfl, h1, h2, h3, h4, h5, (congrArg State.splq hrest :).trans (congrArg State.splq hv.rest :),
    ((congrArg State.frames hrest :).trans (congrArg State.frames hv.rest :)).trans hu.frames,
    ((congrArg State.dies hrest :).trans (congrArg State.dies hv.rest :)).trans hu.dies,
    ((congrArg State.fence hrest :).trans (congrArg State.fence hv.rest :)).trans hu.fence, fun n hn => ?_⟩
  exact ((congrArg (fun t => slotOf t n) hrest :).trans (hbelow n hn)).trans (hu.slotOf n)

/-- A leave of a group that keeps members, in the state `t` from which its packet has been taken. -/
theorem left_served {t : State} (hu : Unchanged s t) (hsem : privSem p ≤ 511)
    (hstate : (ctxOf s c).state = .keyed ∨ (ctxOf s c).state = .running) (hksel : mapGet none (ctxOf s c).ksel (privKsel p) = some g)
    (hmany : 1 < (groupOf s g).members) :
    ∃ v, Machine.answered c pfxLeaveBody p t = deliverStatus c (privSem p) .ok v ∧
      groupOf v g = { groupOf s g with members := (groupOf s g).members - 1 } ∧
      ctxOf v c = { ctxOf s c with ksel := mapSet none (ctxOf s c).ksel (privKsel p) none, oddKsel := mapSet false (ctxOf s c).oddKsel (privKsel p) false } ∧
      (∃ l ∈ v.fence.locks ++ v.fence.lockWait, l.op = .pairs c.val (1#4 <<< privKsel p)) ∧
      (∀ x, x ≠ g → groupOf v x = groupOf s x) ∧ (∀ x, x ≠ c.val → ctxOf v x = ctxOf s x) ∧
      v.splq = t.splq ∧ v.frames = s.frames ∧ v.dies = s.dies ∧ v.orng = s.orng := by
  have hct := hu.form hc
  have hmem := Tenancy.mem_issueLock (.pairs c.val (1#4 <<< privKsel p)) .orangery t
  have hlock := Tenancy.issueLock_rest (.pairs c.val (1#4 <<< privKsel p)) .orangery t
  rw [answered_delivered hsem (pfxLeaveBody_left (by rw [hu.ctxOf]; exact hstate) (by rw [hu.ctxOf]; exact hksel))]
  generalize issueLock _ _ t = d at hmem hlock
  have hgroups : d.groups = s.groups := (congrArg State.groups hlock :).trans hu.groups
  have hctxs : d.ctxs = s.ctxs := (congrArg State.ctxs hlock :).trans hu.ctxs
  have hg : ∀ x, groupOf d x = groupOf s x := fun x => by rw [groupOf, groupOf, hgroups]
  have hx : ∀ x, ctxOf d x = ctxOf s x := fun x => by rw [ctxOf, ctxOf, hctxs]
  have hwg : mapWf {} d.groups = true := by rw [hgroups]; exact canonical_groups hc
  obtain ⟨h1, h2, h3, h4, hrest⟩ := left_spec (cid := c) (k := privKsel p) (g := g) (t := d) hwg (by rw [hctxs]; exact canonical_ctxs hc)
  have hstays : ¬ (groupOf d g).members - 1 = 0 := by rw [hg]; omega
  rw [leaveGroup_bound (by rw [hx]; exact hksel) hwg, if_neg hstays]
  generalize updGroup _ _ _ = v at h1 h2 h3 h4 hrest
  simp only [hg, hx] at h1 h2 h3 h4
  have hfence : v.fence = d.fence := (congrArg State.fence hrest :)
  exact ⟨v, rfl, h1, h2, ⟨_, hfence ▸ hmem, rfl⟩, h3, h4, (congrArg State.splq hrest :).trans (congrArg State.splq hlock :),
    ((congrArg State.frames hrest :).trans (congrArg State.frames hlock :)).trans hu.frames,
    ((congrArg State.dies hrest :).trans (congrArg State.dies hlock :)).trans hu.dies,
    ((congrArg State.orng hrest :).trans (congrArg State.orng hlock :)).trans hu.orng⟩

/-- The leave of the last member. -/
theorem retired_served {t : State} (hu : Unchanged s t) (hsem : privSem p ≤ 511)
    (hstate : (ctxOf s c).state = .keyed ∨ (ctxOf s c).state = .running) (hksel : mapGet none (ctxOf s c).ksel (privKsel p) = some g)
    (hlast : (groupOf s g).members = 1) :
    ∃ v, Machine.answered c pfxLeaveBody p t = deliverStatus c (privSem p) .ok v ∧ (groupOf v g).state = .retiring ∧
      (slotOf v (groupSlot g)).state = .empty ∧ (slotOf v (groupSlot g + 1)).state = .empty ∧
      (∃ l ∈ v.fence.locks ++ v.fence.lockWait, l.op = .ofGroup g ∧ l.owner = .retire g) ∧
      (∀ x, x ≠ g → groupOf v x = groupOf s x) ∧ v.frames = s.frames ∧ v.dies = s.dies := by
  have hct := hu.form hc
  have hlock := Tenancy.issueLock_rest (.pairs c.val (1#4 <<< privKsel p)) .orangery t
  rw [answered_delivered hsem (pfxLeaveBody_left (by rw [hu.ctxOf]; exact hstate) (by rw [hu.ctxOf]; exact hksel))]
  generalize issueLock _ _ t = d at hlock
  have hgroups : d.groups = s.groups := (congrArg State.groups hlock :).trans hu.groups
  have hctxs : d.ctxs = s.ctxs := (congrArg State.ctxs hlock :).trans hu.ctxs
  have hslots : d.orng = s.orng := (congrArg State.orng hlock :).trans hu.orng
  have hg : ∀ x, groupOf d x = groupOf s x := fun x => by rw [groupOf, groupOf, hgroups]
  have hx : ∀ x, ctxOf d x = ctxOf s x := fun x => by rw [ctxOf, ctxOf, hctxs]
  have hwg : mapWf {} d.groups = true := by rw [hgroups]; exact canonical_groups hc
  obtain ⟨-, -, hother, -, hrest⟩ := left_spec (cid := c) (k := privKsel p) (g := g) (t := d) hwg (by rw [hctxs]; exact canonical_ctxs hc)
  have hgone : (groupOf d g).members - 1 = 0 := by rw [hg, hlast]
  have hwu : mapWf {} (updGroup g lessOne (updCtx c (unbindKsel (privKsel p)) d)).groups = true := mapWf_mapMod hwg
  have hws : mapWf {} (updGroup g lessOne (updCtx c (unbindKsel (privKsel p)) d)).orng.slots = true :=
    (congrArg (fun o => mapWf {} o.slots) hslots :).trans (canonical_orng_slots hc)
  rw [leaveGroup_bound (by rw [hx]; exact hksel) hwg, if_pos hgone]
  generalize updGroup g lessOne _ = a at hother hrest hwu hws
  have hkept := (kept_retireGroup g a).rest
  have hmem := mem_retireGroup g a
  have h1 := slotState_retireGroup hws (List.mem_cons_self : groupSlot g ∈ [groupSlot g, groupSlot g + 1])
  have h2 := slotState_retireGroup hws (List.mem_cons_of_mem _ List.mem_cons_self : groupSlot g + 1 ∈ [groupSlot g, groupSlot g + 1])
  obtain ⟨hself, hne⟩ := groupOf_retireGroup (g := g) hwu
  generalize retireGroup g a = v at hkept hmem h1 h2 hself hne
  refine ⟨v, rfl, congrArg Group.state hself, h1, h2, hmem, fun x hxg => ?_,
    (((congrArg State.frames hkept :).trans (congrArg State.frames hrest :)).trans (congrArg State.frames hlock :)).trans hu.frames,
    (((congrArg State.dies hkept :).trans (congrArg State.dies hrest :)).trans (congrArg State.dies hlock :)).trans hu.dies⟩
  rw [hne x hxg, hother x hxg, hg]

/-- An extension of CMR6 or CMR7 in the state `t` from which its packet has been taken (R218). -/
theorem extended_served {t : State} (hu : Unchanged s t) (hsem : privSem p ≤ 511) (hcmr : cmrsOk s c = true)
    (hreg : leAt p 1 1 = 6 ∨ leAt p 1 1 = 7) (hstate : (ctxOf s c).state = .keyed ∨ (ctxOf s c).state = .running) :
    ∃ v, Machine.answered c cmrExtendBody p t = deliverStatus c (privSem p) .ok v ∧
      mapGet (zeros 48) (ctxOf v c).cmr (leAt p 1 1) = sha384 (mapGet (zeros 48) (ctxOf s c).cmr (leAt p 1 1) ++ privDigest p) ∧
      (∀ x, x ≠ c.val → ctxOf v x = ctxOf s x) ∧ v = { t with ctxs := v.ctxs } := by
  have hrange : ¬ (leAt p 1 1 ≠ 6 ∧ leAt p 1 1 ≠ 7) := fun hn => hreg.elim hn.1 hn.2
  have hserved : ¬ ((ctxOf t c).state ≠ .keyed ∧ (ctxOf t c).state ≠ .running) := by
    rw [hu.ctxOf]
    exact fun hn => hstate.elim hn.1 hn.2
  have hbody : cmrExtendBody c p t = (.ok, extendCmr c (leAt p 1 1) (privDigest p) t) := by
    simp only [cmrExtendBody, if_neg hrange, if_neg hserved]
  have hwt : mapWf {} t.ctxs = true := canonical_ctxs (hu.form hc)
  refine ⟨_, answered_delivered hsem hbody, ?_, fun x hx => ?_, rfl⟩
  · rw [extendCmr, ctxOf_updCtx_self hwt, hu.ctxOf]
    exact mapGet_mapSet_same hcmr
  · rw [extendCmr, ctxOf_updCtx_ne hwt hx, hu.ctxOf]

end

/-- Settles O27: every packet is judged in the state from which it has been taken, and its status is added to its semaphore. -/
theorem privatePacketsAreServed : Obligations.PrivatePacketsAreServed := by
  unfold Obligations.PrivatePacketsAreServed
  refine ⟨fun c s p team g hc h0 h255 hhead hmine hsup htam hhold hstate hksel huse hg hfree hlow hwork hd hl => ?_,
    fun c s p team g hc h0 h255 hhead hmine hsup htam hhold hstate hksel huse hwork hd hl hopen hsealed => ?_,
    fun c s p g hc h0 h255 hhead hmine hsup htam hhold hstate hksel hmany => ?_,
    fun c s p g hc h0 h255 hhead hmine hsup htam hhold hstate hksel hlast => ?_,
    fun c s p hc h0 h255 hhead hmine hsup htam hhold hcmr hreg hstate => ?_,
    fun c s p h0 h255 hhead hbad hsem hsup htam hhold => ?_⟩
  · obtain ⟨v, hv, hall⟩ := created_served hc (unchanged_takePriv c s) (privSem_of_isPriv hmine) hstate hksel huse hg hfree hlow hwork hd hl
    exact ⟨v, congrArg Host.Outcome.next ((privPacket_judged h0 h255 hhead hmine hsup htam hhold).trans hv), hall⟩
  · obtain ⟨v, hv, hall⟩ := joined_served hc (unchanged_takePriv c s) (privSem_of_isPriv hmine) hstate hksel huse hwork hd hl hopen hsealed
    exact ⟨v, congrArg Host.Outcome.next ((privPacket_judged h0 h255 hhead hmine hsup htam hhold).trans hv), hall⟩
  · obtain ⟨v, hv, hall⟩ := left_served hc (unchanged_takePriv c s) (privSem_of_isPriv hmine) hstate hksel hmany
    exact ⟨v, congrArg Host.Outcome.next ((privPacket_judged h0 h255 hhead hmine hsup htam hhold).trans hv), hall⟩
  · obtain ⟨v, hv, hall⟩ := retired_served hc (unchanged_takePriv c s) (privSem_of_isPriv hmine) hstate hksel hlast
    exact ⟨v, congrArg Host.Outcome.next ((privPacket_judged h0 h255 hhead hmine hsup htam hhold).trans hv), hall⟩
  · obtain ⟨v, hv, hall⟩ := extended_served hc (unchanged_takePriv c s) (privSem_of_isPriv hmine) hcmr hreg hstate
    exact ⟨v, congrArg Host.Outcome.next ((privPacket_judged h0 h255 hhead hmine hsup htam hhold).trans hv), hall⟩
  · have hmine : (fun p => !privOk p) p = true := by simp [hbad]
    refine congrArg Host.Outcome.next ((privPacket_judged (k := badPacket c) h0 h255 hhead hmine hsup htam hhold).trans ?_)
    simp only [badPacket, answerPriv, if_pos hsem]

end Sys2Proof.Packets
end

section
/-! PROOF. The ends of drains and destroys (03_tenant_contexts.md R79, R80, R102, Tables CTX-9, CTX-10). -/

namespace Sys2Proof.DrainEnd

open Sys2Proof Sys2Proof.Machine Sys2Proof.Laws Sys2Proof.Frames

/-! ## Jobs on their way to FREE -/

/-- A job that is ending or has ended. -/
def ending (b : Job) : Prop := b.state = .closing ∨ b.state = .free

/-- From `s` to `t` no job that is FREE or ending comes back. -/
structure JobsEnd (s t : State) : Prop where
  wf : mapWf {} s.link.jobs = true → mapWf {} t.link.jobs = true
  free : mapWf {} s.link.jobs = true → ∀ j, (jobOf s j).state = .free → (jobOf t j).state = .free
  ending : mapWf {} s.link.jobs = true → ∀ j, ending (jobOf s j) → ending (jobOf t j)

namespace JobsEnd

variable {s t u : State}

theorem refl (s : State) : JobsEnd s s := ⟨id, fun _ _ => id, fun _ _ => id⟩

theorem trans (h1 : JobsEnd s t) (h2 : JobsEnd t u) : JobsEnd s u :=
  ⟨h2.wf ∘ h1.wf, fun h j => h2.free (h1.wf h) j ∘ h1.free h j, fun h j => h2.ending (h1.wf h) j ∘ h1.ending h j⟩

theorem ite {c : Prop} [Decidable c] (h1 : JobsEnd s t) (h2 : JobsEnd s u) : JobsEnd s (if c then t else u) := by
  split
  · exact h1
  · exact h2

theorem foldl {α : Type} {f : State → α → State} (hf : ∀ s a, JobsEnd s (f s a)) (as : List α) (s : State) : JobsEnd s (as.foldl f s) := by
  induction as generalizing s with
  | nil => exact refl s
  | cons a as ih => exact (hf s a).trans (ih _)

/-- What leaves the jobs. -/
theorem of_jobs (h : t.link.jobs = s.link.jobs) : JobsEnd s t := by
  have hjob : ∀ j, jobOf t j = jobOf s j := fun j => by rw [jobOf, jobOf, h]
  refine ⟨fun hw => h ▸ hw, fun _ j => ?_, fun _ j => ?_⟩
  · rw [hjob]
    exact id
  · rw [hjob]
    exact id

theorem of_hops (h : Kept hops s t) : JobsEnd s t := of_jobs (congrArg (·.link.jobs) h.rest :)

end JobsEnd

section
variable {j k : Nat} {f : Job → Job} {s : State} (hw : mapWf {} s.link.jobs = true)
include hw

theorem jobOf_updJob_self : jobOf (updJob j f s) j = f (jobOf s j) := mapGet_mapMod_same hw
theorem jobOf_updJob_ne (hk : k ≠ j) : jobOf (updJob j f s) k = jobOf s k := mapGet_mapMod_other hw hk

end

/-- A job changed that ends, or keeps its state. -/
theorem jobsEnd_updJob {j : Nat} {f : Job → Job} {s : State} (hfree : (jobOf s j).state = .free → (f (jobOf s j)).state = .free)
    (hend : ending (jobOf s j) → ending (f (jobOf s j))) : JobsEnd s (updJob j f s) := by
  refine ⟨mapWf_mapMod, fun hw k hk => ?_, fun hw k hk => ?_⟩
  · by_cases h : k = j
    · subst h
      rw [jobOf_updJob_self hw]
      exact hfree hk
    · rwa [jobOf_updJob_ne hw h]
  · by_cases h : k = j
    · subst h
      rw [jobOf_updJob_self hw]
      exact hend hk
    · rwa [jobOf_updJob_ne hw h]

theorem jobsEnd_updEng (e : Nat) (f : Engine → Engine) (s : State) : JobsEnd s (updEng e f s) := .of_jobs rfl
theorem jobsEnd_countUp (i c n : Nat) (s : State) : JobsEnd s (countUp i c n s) := .of_jobs rfl

/-- A job changed that keeps its state. -/
theorem jobsEnd_updJob_of_state {j : Nat} {f : Job → Job} {s : State} (hf : ∀ b, (f b).state = b.state) : JobsEnd s (updJob j f s) :=
  jobsEnd_updJob (hf _).trans (Or.imp (hf _).trans (hf _).trans)

theorem jobsEnd_addLink (e j : Nat) (s : State) : JobsEnd s (addLink e j s) := jobsEnd_updJob_of_state fun _ => rfl
theorem jobsEnd_touchJobKey (e j : Nat) (key : Bytes) (s : State) : JobsEnd s (touchJobKey e j key s) := jobsEnd_updEng ..
theorem jobsEnd_sendHop (e type : Nat) (body : Bytes) (s : State) : JobsEnd s (sendHop e type body s) := .of_hops (kept_sendHop ..)

theorem jobsEnd_sealFrame (e j dir : Nat) (b key : Bytes) (s : State) : JobsEnd s (sealFrame e j dir b key s) := by
  have hseq : ∀ n, JobsEnd s (updJob j (fun b => { b with jseq := mapSet 0 b.jseq e (n + 1) }) s) :=
    fun _ => jobsEnd_updJob_of_state fun _ => rfl
  simp only [sealFrame]
  split
  · exact (jobsEnd_updEng ..).trans (jobsEnd_updEng ..)
  · exact ((((hseq _).trans (jobsEnd_addLink ..)).trans (jobsEnd_touchJobKey ..)).trans (jobsEnd_countUp ..)).trans (jobsEnd_sendHop ..)

theorem jobsEnd_submitFrame (e j dir : Nat) (b : Bytes) (s : State) : JobsEnd s (submitFrame e j dir b s) := by
  simp only [submitFrame]
  split
  · exact jobsEnd_sealFrame ..
  · exact (jobsEnd_updEng ..).trans (jobsEnd_updEng ..)

theorem jobsEnd_sendClose (e : Nat) (s : State) (j : Nat) : JobsEnd s (sendClose e s j) := by
  have hegress : JobsEnd s (closeEgress e s) := by
    simp only [closeEgress]
    split
    · exact .refl s
    · exact (jobsEnd_updEng ..).trans (jobsEnd_submitFrame ..)
  exact .ite ((JobsEnd.ite hegress (.refl s)).trans (jobsEnd_submitFrame ..)) (jobsEnd_updEng ..)

/-- A job freed is FREE. -/
theorem jobsEnd_freeJob (j : Nat) (s : State) : JobsEnd s (freeJob j s) ∧
    (mapWf {} s.link.jobs = true → (jobOf (freeJob j s) j).state = .free) := by
  have hfinish : ∀ w st d t, JobsEnd t (finish w st d t) := fun w st d t => .of_hops (kept_finish answers_le_hops w st d t)
  have hkeys : JobsEnd s (dropKeys ([jobSlot j] ++ (jobOf s j).ecdhSlot.toList ++ (jobOf s j).kemSlot.toList) s) :=
    .of_hops ((kept_dropKeys ..).mono vault_le_hops)
  have hforget : ∀ t, JobsEnd t (forgetJob j t) := fun _ => .of_jobs rfl
  have hgone : ∀ t, JobsEnd t (updJob j (fun b => { gen := genNext b.gen }) t) := fun _ => jobsEnd_updJob (fun _ => rfl) (fun _ => .inr rfl)
  have hbefore := hkeys.trans (hforget _)
  have hafter : ∀ t, JobsEnd t (finish (jobOf s j).openW ((jobOf s j).failWith.getD .ctxState) []
      (finish (jobOf s j).closeW (if (jobOf s j).timedOut then .lnkfCloseTimeout else .ok) [] t)) := fun t => (hfinish ..).trans (hfinish ..)
  refine ⟨(hbefore.trans (hgone _)).trans (hafter _), fun hw => ?_⟩
  refine (hafter _).free ((hgone _).wf (hbefore.wf hw)) j ?_
  rw [jobOf_updJob_self (hbefore.wf hw)]

theorem jobsEnd_closeOnLink (j : Nat) (s : State) (e : Nat) : JobsEnd s (closeOnLink j s e) :=
  (jobsEnd_sendClose ..).trans (jobsEnd_updJob_of_state fun _ => rfl)

theorem jobsEnd_settleClose (j : Nat) (s : State) : JobsEnd s (settleClose j s) := .ite (jobsEnd_freeJob j s).1 (.refl s)

/-- A job that begins to close ends. -/
theorem jobsEnd_beginClose (j : Nat) (s : State) : JobsEnd s (beginClose j s) ∧
    (mapWf {} s.link.jobs = true → ending (jobOf (beginClose j s) j)) := by
  have hclose : JobsEnd s (updJob j (fun b => { b with state := .closing }) s) ∨ (jobOf s j).state = .free := by
    by_cases hfree : (jobOf s j).state = .free
    · exact .inr hfree
    · exact .inl (jobsEnd_updJob (fun h => absurd h hfree) (fun _ => .inl rfl))
  simp only [beginClose]
  split
  next h => exact ⟨.refl s, fun _ => h.symm⟩
  next h =>
    have hclose := hclose.resolve_right (fun hfree => h (.inl hfree))
    have hafter : ∀ (es : List Nat) t, JobsEnd t (settleClose j (es.foldl (closeOnLink j) t)) :=
      fun _ _ => (JobsEnd.foldl (jobsEnd_closeOnLink j) _ _).trans (jobsEnd_settleClose ..)
    refine ⟨hclose.trans (hafter _ _), fun hw => (hafter _ _).ending (hclose.wf hw) j (.inl ?_)⟩
    rw [jobOf_updJob_self hw]

/-- A job closed by force is FREE. -/
theorem jobsEnd_forceClose (j : Nat) (s : State) : JobsEnd s (forceClose j s) ∧
    (mapWf {} s.link.jobs = true → (jobOf (forceClose j s) j).state = .free) := by
  have hlate : JobsEnd s (updJob j (fun b => { b with timedOut := b.timedOut || !b.awaiting.isEmpty }) s) := jobsEnd_updJob_of_state fun _ => rfl
  unfold forceClose
  split
  next h => exact ⟨.refl s, fun _ => h⟩
  next => exact ⟨hlate.trans (jobsEnd_freeJob ..).1, fun hw => (jobsEnd_freeJob ..).2 (hlate.wf hw)⟩

/-- What a step makes of the job it takes, and no step undoes, holds of every job taken at the end. -/
theorem foldl_jobs {f : State → Nat → State} {P : Job → Prop} (hf : ∀ s j, JobsEnd s (f s j))
    (hkeep : ∀ s i j, mapWf {} s.link.jobs = true → P (jobOf s j) → P (jobOf (f s i) j))
    (hat : ∀ s j, mapWf {} s.link.jobs = true → P (jobOf (f s j) j)) (js : List Nat) {s : State} (hw : mapWf {} s.link.jobs = true) (j : Nat)
    (hj : j ∈ js ∨ P (jobOf s j)) : P (jobOf (js.foldl f s) j) := by
  induction js generalizing s with
  | nil => exact hj.resolve_left List.not_mem_nil
  | cons i is ih =>
    refine ih ((hf s i).wf hw) ?_
    obtain hmem | hp := hj
    · obtain rfl | hmem := List.mem_cons.mp hmem
      · exact .inr (hat s j hw)
      · exact .inl hmem
    · exact .inr (hkeep s i j hw hp)

/-- An entry that is not the default is listed. -/
theorem mem_of_mapGet_ne {α : Type} {d : α} {m : NMap α} {k : Nat} (h : mapGet d m k ≠ d) : (k, mapGet d m k) ∈ m := by
  induction m with
  | nil => exact absurd rfl h
  | cons e m ih =>
    simp only [mapGet] at h ⊢
    split at h
    next hk => simp [hk]
    next hk =>
      split at h
      next => exact absurd rfl h
      next hlt =>
        simp only [if_neg hk, if_neg hlt]
        exact List.mem_cons_of_mem _ (ih h)

/-- A job of a context that is not FREE is listed as one of its jobs. -/
theorem mem_jobsOf {s : State} {c j : Nat} (hcid : (jobOf s j).cid = c) (hstate : (jobOf s j).state ≠ .free) : j ∈ jobsOf s c := by
  have hmem : (j, jobOf s j) ∈ s.link.jobs := mem_of_mapGet_ne (fun h => hstate (congrArg Job.state h))
  refine List.mem_map.mpr ⟨_, List.mem_filter.mpr ⟨hmem, ?_⟩, rfl⟩
  simp only [hcid, hstate, decide_true, ne_eq, not_false_eq_true, Bool.and_self]

theorem mem_jobsOf_or_free {s : State} {c j : Nat} (hcid : (jobOf s j).cid = c) : j ∈ jobsOf s c ∨ (jobOf s j).state = .free :=
  or_iff_not_imp_right.mpr (mem_jobsOf hcid)

/-! ## The end of a wait -/

/-- From `s` to `t` the context `c` alone changes, by `f`. -/
structure Changes (c : Nat) (f : Ctx → Ctx) (s t : State) : Prop where
  self : ctxOf t c = f (ctxOf s c)
  other : ∀ x, x ≠ c → ctxOf t x = ctxOf s x
  rest : t = { s with ctxs := t.ctxs }
  wf : mapWf {} t.ctxs = true

theorem changes_updCtx {c : Nat} {f : Ctx → Ctx} {s : State} (hw : mapWf {} s.ctxs = true) : Changes c f s (updCtx c f s) :=
  ⟨ctxOf_updCtx_self hw, fun _ => ctxOf_updCtx_ne hw, rfl, wf_updCtx hw⟩

theorem Changes.answers {c : Nat} {f : Ctx → Ctx} {s t : State} (h : Changes c f s t) : t = Frames.answers.put s t := by
  rw [h.rest]
  rfl

theorem Changes.units {c : Nat} {f : Ctx → Ctx} {s t : State} (h : Changes c f s t) : t = Frames.units.put s t := by
  rw [h.rest]
  rfl

/-- The destroy of a context that has drained, from tick `n`. -/
def destroying (n : Nat) (c : Ctx) : Ctx := { c with state := .destroying, drain := none, destroy := some ⟨n, false, none, none, n⟩ }

/-- A context that has drained. -/
def drained (c : Ctx) : Ctx := { c with state := .drained, drain := none }

/-- A context without a pending destroy. -/
def unpended (c : Ctx) : Ctx := { c with destroyPending := false }

/-- A context whose wait ends at tick `n`: DRAINED, or DESTROYING where a destroy waits. -/
def waitOver (n : Nat) (c : Ctx) : Ctx :=
  if c.state = .draining then if c.destroyPending then unpended (destroying n (drained c)) else drained c else destroying n c

theorem waitOver_draining {n : Nat} {c : Ctx} (h : c.state = .draining) :
    (waitOver n c).state = (if c.destroyPending then .destroying else .drained) ∧ (waitOver n c).forced = c.forced ∧
      (waitOver n c).drain = none := by
  rw [waitOver, if_pos h]
  split <;> exact ⟨rfl, rfl, rfl⟩

theorem waitOver_destroying {n : Nat} {c : Ctx} (h : c.state = .destroying) : waitOver n c = destroying n c :=
  if_neg (by simp [h])

theorem life_waitOver (n : Nat) (c : Ctx) : life (waitOver n c) = waitOver n (life c) := by
  simp only [waitOver, apply_ite life]
  rfl

/-- Those that wait for a drain. -/
def drainWaiters (c : Ctx) : List Waiter := match c.drain with | some k => k.waiters | none => []

theorem endDrain_eq (c : Nat) (st : Status) (s : State) : endDrain c st s = finishAll (drainWaiters (ctxOf s c)) st []
    (if (ctxOf s c).destroyPending then updCtx c unpended (updCtx c (destroying s.tick) (updCtx c drained s)) else updCtx c drained s) := by
  unfold endDrain
  rfl

/-- The end of a wait changes its context and answers those that wait for it. -/
theorem endWait_spec {c : Nat} {st : Status} {s : State} (hw : mapWf {} s.ctxs = true)
    (hst : (ctxOf s c).state = .draining ∨ (ctxOf s c).state = .destroying) :
    ∃ b, Changes c (waitOver s.tick) s b ∧ Kept answers b (endWait c st s) := by
  obtain hst | hst := hst
  · rw [endWait, if_pos hst, endDrain_eq]
    refine ⟨_, ?_, kept_finishAll (fun _ _ => rfl) ..⟩
    have hdrained := changes_updCtx (c := c) (f := drained) hw
    split
    next hpend =>
      have hbegun := changes_updCtx (c := c) (f := destroying s.tick) hdrained.wf
      have hall := changes_updCtx (c := c) (f := unpended) hbegun.wf
      refine ⟨?_, fun x hx => ?_, rfl, hall.wf⟩
      · rw [hall.self, hbegun.self, hdrained.self, waitOver, if_pos hst, if_pos hpend]
      · rw [hall.other x hx, hbegun.other x hx, hdrained.other x hx]
    next hpend =>
      refine ⟨?_, hdrained.other, rfl, hdrained.wf⟩
      rw [hdrained.self, waitOver, if_pos hst, if_neg hpend]
  · have hne : ¬ (ctxOf s c).state = .draining := by simp [hst]
    have hbegun := changes_updCtx (c := c) (f := destroying s.tick) hw
    rw [endWait, if_neg hne, if_pos hst]
    refine ⟨updCtx c (destroying s.tick) s, ⟨?_, hbegun.other, rfl, hbegun.wf⟩, .refl _⟩
    rw [hbegun.self, waitOver, if_neg hne]

/-- A context forced at the limit of its wait, or not. -/
def forcedBy (b : Bool) (c : Ctx) : Ctx := { c with forced := b || c.forced }

/-- The limit of a wait ends it, and no job of the context is left. -/
theorem limitWait_spec {c : Nat} {s : State} (hw : mapWf {} s.ctxs = true) (hwj : mapWf {} s.link.jobs = true)
    (hst : (ctxOf s c).state = .draining ∨ (ctxOf s c).state = .destroying) {u : State} (hu : limitWait c s = u) :
    life (ctxOf u c) = waitOver s.tick (forcedBy (!drainOver s c) (life (ctxOf s c))) ∧
      (∀ x, x ≠ c → life (ctxOf u x) = life (ctxOf s x)) ∧ (∀ j, (jobOf s j).cid = c → (jobOf u j).state = .free) ∧
      u = units.put s u := by
  cases hover : drainOver s c with
  | true =>
    obtain ⟨b, hb, hk⟩ := endWait_spec (st := .ok) hw hst
    rw [limitWait, if_pos hover] at hu
    rw [hu] at hk
    have hjobs : (jobsOf s c).isEmpty = true := by
      simp only [drainOver, Bool.and_eq_true] at hover
      exact hover.1.2
    refine ⟨?_, fun x hx => ?_, fun j hj => ?_, ?_⟩
    · rw [hk.life hb.wf, hb.self, life_waitOver]
      rfl
    · rw [hk.life hb.wf, hb.other x hx]
    · have hfree := (mem_jobsOf_or_free hj).resolve_left (by simp [List.isEmpty_iff.mp hjobs])
      have hlink : u.link = s.link := (congrArg State.link hk.rest :).trans (congrArg State.link hb.rest :)
      rw [jobOf, hlink]
      exact hfree
    · exact units.trans hb.units (hk.mono answers_le_units).rest
  | false =>
    have hjobs : JobsEnd s ((jobsOf s c).foldl (fun s j => forceClose j s) s) := .foldl (fun t j => (jobsEnd_forceClose j t).1) _ s
    have hfree := foldl_jobs (f := fun s j => forceClose j s) (P := fun b => b.state = .free) (fun t j => (jobsEnd_forceClose j t).1)
      (fun t i j hwt => (jobsEnd_forceClose i t).1.free hwt j) (fun t j => (jobsEnd_forceClose j t).2) (jobsOf s c) hwj
    have hkept : Kept units s ((jobsOf s c).foldl (fun s j => forceClose j s) s) := .foldl (fun t j => kept_forceClose j t) _ s
    rw [limitWait, if_neg (by simp [hover]), forceWait] at hu
    generalize (jobsOf s c).foldl (fun s j => forceClose j s) s = a at hu hjobs hfree hkept
    have hforced := changes_updCtx (c := c) (f := forcedBy true) (hkept.wf hw)
    change endWait c .ctxDrainForced (updCtx c (forcedBy true) a) = u at hu
    have htick : (updCtx c (forcedBy true) a).tick = s.tick := (congrArg State.tick hkept.rest :)
    have hlink : (updCtx c (forcedBy true) a).link = a.link := rfl
    have hunits : updCtx c (forcedBy true) a = units.put s (updCtx c (forcedBy true) a) :=
      units.trans hkept.rest rfl
    generalize updCtx c (forcedBy true) a = a' at hu hforced htick hlink hunits
    have hlife : life (ctxOf a' c) = forcedBy true (life (ctxOf s c)) := by
      rw [hforced.self, ← hkept.life hw]
      rfl
    have hstate : (ctxOf a' c).state = (ctxOf s c).state := (congrArg Ctx.state hlife :)
    obtain ⟨b, hb, hk⟩ := endWait_spec (c := c) (st := .ctxDrainForced) hforced.wf (by rw [hstate]; exact hst)
    rw [hu] at hk
    refine ⟨?_, fun x hx => ?_, fun j hj => ?_, ?_⟩
    · rw [hk.life hb.wf, hb.self, life_waitOver, htick, hlife]
      rfl
    · rw [hk.life hb.wf, hb.other x hx, hforced.other x hx, hkept.life hw]
    · have hlink : u.link = a.link := ((congrArg State.link hk.rest :).trans (congrArg State.link hb.rest :)).trans hlink
      rw [jobOf, hlink]
      exact hfree j (mem_jobsOf_or_free hj)
    · exact units.trans (units.trans hunits hb.units) (hk.mono answers_le_units).rest

/-! ## The zeroising of a destroy -/

/-- From `s` to `t` no slot gains a key, no locked change is lost, and no context changes but for its counters and bindings. -/
structure Clears (s t : State) : Prop where
  kept : Kept tenancy s t
  slots : Zeroising.GainsNoKey s t
  locks : ∀ l ∈ s.fence.locks ++ s.fence.lockWait, l ∈ t.fence.locks ++ t.fence.lockWait

namespace Clears

variable {s t u : State}

theorem refl (s : State) : Clears s s := ⟨.refl s, .refl s, fun _ => id⟩

theorem trans (h1 : Clears s t) (h2 : Clears t u) : Clears s u :=
  ⟨h1.kept.trans h2.kept, h1.slots.trans h2.slots, fun l => h2.locks l ∘ h1.locks l⟩

theorem of_locks (h : Kept tenancy s t) (hs : Zeroising.GainsNoKey s t) (h1 : t.fence.locks = s.fence.locks)
    (h2 : t.fence.lockWait = s.fence.lockWait) : Clears s t := ⟨h, hs, fun l hl => by rw [h1, h2]; exact hl⟩

theorem of_answers (h : Kept answers s t) : Clears s t :=
  .of_locks (h.mono answers_le_tenancy) (.of_slots (congrArg (·.orng.slots) h.rest :)) (congrArg (·.fence.locks) h.rest :)
    (congrArg (·.fence.lockWait) h.rest :)

theorem of_notices (h : Kept notices s t) : Clears s t :=
  .of_locks (h.mono notices_le_tenancy) (.of_slots (congrArg (·.orng.slots) h.rest :)) (congrArg (·.fence.locks) h.rest :)
    (congrArg (·.fence.lockWait) h.rest :)

theorem of_checks (h : Kept checks s t) : Clears s t :=
  .of_locks (h.mono (checks_le_units.trans units_le_tenancy)) (.of_slots (congrArg (·.orng.slots) h.rest :))
    (congrArg (·.fence.locks) h.rest :) (congrArg (·.fence.lockWait) h.rest :)

end Clears

theorem clears_dropKeys (ns : List Nat) (s : State) : Clears s (dropKeys ns s) :=
  .of_locks ((kept_dropKeys ..).mono (vault_le_units.trans units_le_tenancy)) (Packets.gainsNoKey_dropKeys ..)
    (congrArg (·.fence.locks) (kept_dropKeys ns s).rest :) (congrArg (·.fence.lockWait) (kept_dropKeys ns s).rest :)

theorem clears_abortScrub (f : ScrubFrame → Bool) (s : State) : Clears s (abortScrub f s) :=
  .of_locks ((kept_abortScrub ..).mono (scrubs_le_units.trans units_le_tenancy)) (Packets.gainsNoKey_abortScrub ..)
    (congrArg (·.fence.locks) (kept_abortScrub f s).rest :) (congrArg (·.fence.lockWait) (kept_abortScrub f s).rest :)

theorem clears_issueLock (op : LockOp) (o : LockOwner) (s : State) : Clears s (issueLock op o s) := by
  refine ⟨(kept_issueLock ..).mono units_le_tenancy, Packets.gainsNoKey_issueLock .., fun l hl => ?_⟩
  rw [List.mem_append] at hl
  simp only [issueLock]
  split <;> simp only [List.mem_append]
  · exact hl.imp_left .inl
  · exact hl.imp_right .inl

theorem clears_retireGroup (g : Nat) (s : State) : Clears s (retireGroup g s) := by
  have hretire : Clears s (updGroup g Packets.retiring s) := .of_locks (.silent rfl rfl rfl rfl) (.of_slots rfl) rfl rfl
  rw [Packets.retireGroup_eq]
  exact ((hretire.trans (clears_dropKeys ..)).trans (clears_abortScrub ..)).trans (clears_issueLock ..)

theorem clears_leaveGroup (c k : Nat) (s : State) : Clears s (leaveGroup c k s) := by
  have hunbind : Clears s (updCtx c (Packets.unbindKsel k) s) := .of_locks (.updCtx rfl rfl) (.of_slots rfl) rfl rfl
  have hless : ∀ g t, Clears t (updGroup g Packets.lessOne t) := fun _ _ => .of_locks (.silent rfl rfl rfl rfl) (.of_slots rfl) rfl rfl
  have hleft : ∀ g, Clears s (updGroup g Packets.lessOne (updCtx c (Packets.unbindKsel k) s)) := fun g => hunbind.trans (hless g _)
  unfold leaveGroup
  split
  · exact .refl s
  next g _ =>
    specialize hleft g
    change Clears s (if (groupOf (updGroup g Packets.lessOne (updCtx c (Packets.unbindKsel k) s)) g).members = 0
      then retireGroup g (updGroup g Packets.lessOne (updCtx c (Packets.unbindKsel k) s))
      else updGroup g Packets.lessOne (updCtx c (Packets.unbindKsel k) s))
    generalize updGroup g Packets.lessOne _ = t at hleft ⊢
    split
    · exact hleft.trans (clears_retireGroup ..)
    · exact hleft

theorem clears_leaveGroups (c : Nat) (ks : List Nat) (s : State) : Clears s (ks.foldl (fun t k => leaveGroup c k t) s) := by
  induction ks generalizing s with
  | nil => exact .refl s
  | cons k ks ih => exact (clears_leaveGroup c k s).trans (ih _)

theorem clears_endImport (c : Nat) (s : State) : Clears s (endImport c s) := by
  have himport : Kept answers s (updCtx c (fun x => { x with importing := none }) s) := .updCtx rfl rfl
  refine .of_answers ?_
  simp only [endImport]
  split
  · exact .refl s
  · exact .ite (himport.trans (kept_finish (fun _ _ => rfl) ..)) himport

theorem clears_destroyWaits (c : Nat) (s : State) : Clears s (destroyWaits c s) :=
  .of_notices ((((kept_releaseWaits ..).mono wakes_le_notices).trans ((kept_dropSet ..).mono semaphores_le_notices)).trans
    (kept_askDies requests_le_notices ..))

theorem items_settle_nil {b : Bool} {q : SpillQ} (h : q.items = []) : (settle b q).items = [] := by
  have hmap := payloads_settle b q
  rw [h] at hmap
  exact List.map_eq_nil_iff.mp hmap

/-- A context whose keys, consent and own key set are gone. -/
def zeroised (c : Ctx) : Ctx := { c with
  destroy := c.destroy.map (fun d => { d with zeroised := true }), consent := none, privSet := false, ecdsaPub := [], mldsaPub := [] }

/-- The slots of a context zeroised, after its import has ended. -/
def slotsZeroised (c : Nat) (s : State) : State := dropKeys ((List.range 8).map (ctxSlot c)) (endImport c (updCtx c zeroised s))

/-- Then its checks and scrubs. -/
def unitsForget (c : Nat) (s : State) : State := abortScrub (fun x => decide (x.ident = .ctx c)) (grnhForget c s)

/-- Its waits, and its groups. -/
def tiesEnd (c : Nat) (s : State) : State := [1, 2, 3].foldl (fun s k => leaveGroup c k s) (destroyWaits c s)

theorem zeroiseContext_eq (c : Nat) (s : State) : zeroiseContext c s =
    let s5 := tiesEnd c (issueLock (.pairs c 0xf) (.destroy c) (unitsForget c (slotsZeroised c s)))
    putQ (65 + c) (discardQueue (qOf s5 (65 + c))) s5 := by
  unfold zeroiseContext
  rfl

theorem clears_tiesEnd (c : Nat) (s : State) : Clears s (tiesEnd c s) := (clears_destroyWaits ..).trans (clears_leaveGroups ..)
theorem clears_unitsForget (c : Nat) (s : State) : Clears s (unitsForget c s) :=
  (Clears.of_checks (kept_grnhForget ..)).trans (clears_abortScrub ..)

theorem zeroiseContext_spec {c : Nat} {s : State} (hwo : mapWf {} s.orng.slots = true)
    (hwq : mapWf {} s.splq = true) {u : State} (hu : zeroiseContext c s = u) :
    Kept tenancy (updCtx c zeroised s) u ∧ (∀ i, i < 8 → (slotOf u (ctxSlot c i)).state = .empty) ∧ (qOf u (65 + c)).items = [] ∧
      ∃ l ∈ u.fence.locks ++ u.fence.lockWait, l.op = .pairs c 0xf ∧ l.owner = .destroy c := by
  have hslots : Clears (updCtx c zeroised s) (slotsZeroised c s) ∧ (∀ i, i < 8 → (slotOf (slotsZeroised c s) (ctxSlot c i)).state = .empty) ∧
      mapWf {} (slotsZeroised c s).orng.slots = true := by
    have himport := clears_endImport c (updCtx c zeroised s)
    have hwi : mapWf {} (endImport c (updCtx c zeroised s)).orng.slots = true := himport.slots.wf hwo
    unfold slotsZeroised
    generalize endImport c _ = a at himport hwi
    refine ⟨himport.trans (clears_dropKeys ..), fun i hi => Zeroising.slotState_dropKeys hwi ?_, (clears_dropKeys ..).slots.wf hwi⟩
    exact List.mem_map.mpr ⟨i, List.mem_range.mpr hi, rfl⟩
  have hwq1 : mapWf {} (updCtx c zeroised s).splq = true := hwq
  rw [zeroiseContext_eq] at hu
  obtain ⟨hclear, hempty, hwo2⟩ := hslots
  generalize updCtx c zeroised s = a at hclear hwq1 ⊢
  generalize slotsZeroised c s = b at hu hclear hempty hwo2
  have hforget := clears_unitsForget c b
  generalize unitsForget c b = d at hu hforget
  have hlock := Tenancy.mem_issueLock (.pairs c 0xf) (.destroy c) d
  have hissue := clears_issueLock (.pairs c 0xf) (.destroy c) d
  generalize hl : (⟨.pairs c 0xf, 0xffff, .destroy c, d.tick⟩ : Lock) = l at hlock
  generalize issueLock (.pairs c 0xf) (.destroy c) d = e at hu hlock hissue
  have hties := clears_tiesEnd c e
  generalize tiesEnd c e = f at hu hties
  have hq : ∀ q, Kept tenancy f (putQ (65 + c) q f) := fun _ => kept_putQ (records_le_answers.trans answers_le_tenancy) ..
  have hput : ∀ q, Clears f (putQ (65 + c) q f) := fun q => .of_locks (hq q) (.of_slots rfl) rfl rfl
  have hafter : Clears b u := ((hforget.trans hissue).trans hties).trans (hu ▸ hput _)
  refine ⟨(hclear.trans hafter).kept, fun i hi => hafter.slots.empty hwo2 _ (hempty i hi), ?_, l, ?_, ?_⟩
  · have hwf : mapWf {} f.splq = true := (hclear.trans ((hforget.trans hissue).trans hties)).kept.queues hwq1
    rw [← hu, qOf, putQ, mapGet_mapSet_same hwf]
    exact items_settle_nil rfl
  · exact (hties.trans (hu ▸ hput _)).locks l hlock
  · rw [← hl]
    exact ⟨rfl, rfl⟩

/-! ## The statement -/

theorem drainOver_of {c : Nat} {s : State} {k : Drain} (hk : (ctxOf s c).drain = some k) (hphase : k.phase = .closes)
    (hjobs : jobsOf s c = []) (hquiet : quiet c s = true) : drainOver s c = true := by
  simp [drainOver, waitsIn, hk, hphase, hjobs, hquiet]

/-- The job closes of a drain begin. -/
def closing (n : Nat) (c : Ctx) : Ctx := { c with drain := c.drain.map (fun k => { k with phase := .closes, since := n }) }

/-- Settles O29: the closes, forced or not, end every listed job, and the end of a wait changes one context. -/
theorem drainsAndDestroysEnd : Obligations.DrainsAndDestroysEnd := by
  unfold Obligations.DrainsAndDestroysEnd
  refine ⟨fun c s k hc hk hphase hquiet hwas => ?_, fun c s k hk hphase hjobs hquiet hst hpend => ?_,
    fun c s k hc hk hphase hjobs hquiet hst => ?_, fun c s k hc hk hlate hst => ?_, fun c s k hc hk hlate hst => ?_,
    fun c s d hc h1 h2 hd hz hlt => ?_, fun c s d uc hd hcommit hus hscrub => ?_⟩
  · have hrun : countsZeroEffect c s = (jobsOf s c).foldl (fun s j => beginClose j s) (updCtx c (closing s.tick) s) := by
      simp only [countsZeroEffect, waitsIn, hk, hphase, hquiet, hwas, decide_true, Bool.and_self, if_true]
      rfl
    have hchange := changes_updCtx (c := c.val) (f := closing s.tick) (canonical_ctxs hc)
    have hwj : mapWf {} (updCtx c (closing s.tick) s).link.jobs = true :=
      canonical_link_jobs (s := s) hc
    have hjob : ∀ j, jobOf (updCtx c (closing s.tick) s) j = jobOf s j := fun _ => rfl
    generalize updCtx c.val (closing s.tick) s = a at hrun hchange hwj hjob
    have hkept : Kept units a ((jobsOf s c).foldl (fun s j => beginClose j s) a) := .foldl (fun t j => kept_beginClose j t) _ a
    have hends := foldl_jobs (f := fun s j => beginClose j s) (P := ending) (fun t j => (jobsEnd_beginClose j t).1)
      (fun t i j hwt => (jobsEnd_beginClose i t).1.ending hwt j) (fun t j => (jobsEnd_beginClose j t).2) (jobsOf s c) hwj
    rw [← hrun] at hkept hends
    have hself := (hkept.life hchange.wf c).trans (congrArg life hchange.self)
    have hrest := units.trans hchange.units hkept.rest
    refine ⟨_, rfl, (congrArg Ctx.state hself :), ?_, fun j hj => hends j ?_, fun x hx => ?_, (congrArg State.frames hrest :),
      (congrArg State.groups hrest :), (congrArg State.dies hrest :)⟩
    · have hdrain : (ctxOf (countsZeroEffect c s) c).drain = (ctxOf s c).drain.map (fun k => { k with phase := .closes, since := s.tick }) :=
        (congrArg Ctx.drain hself :)
      rw [hdrain, hk]
      rfl
    · rw [hjob]
      exact (mem_jobsOf_or_free hj).imp_right .inr
    · exact (congrArg Ctx.state ((hkept.life hchange.wf x).trans (congrArg life (hchange.other x hx))) :)
  · refine congrArg Host.Outcome.next (?_ : drainFinishEffect c s = _)
    rw [drainFinishEffect, if_pos (drainOver_of hk hphase hjobs hquiet), endWait, if_pos hst, endDrain_eq, drainWaiters, hk, hpend]
    rfl
  · have hrun : drainFinishEffect c s = endWait c .ok s := if_pos (drainOver_of hk hphase hjobs hquiet)
    obtain ⟨b, hb, hkept⟩ := endWait_spec (c := c) (st := .ok) (canonical_ctxs hc) (hst.imp And.left id)
    have hover : waitOver s.tick (ctxOf s c) = unpended (destroying s.tick (drained (ctxOf s c))) ∨
        waitOver s.tick (ctxOf s c) = destroying s.tick (ctxOf s c) := by
      obtain ⟨h1, h2⟩ | h1 := hst
      · exact .inl (by rw [waitOver, if_pos h1, if_pos h2])
      · exact .inr (by rw [waitOver, if_neg (by simp [h1])])
    rw [← hrun] at hkept
    have hself : life (ctxOf (drainFinishEffect c s) c) = life (waitOver s.tick (ctxOf s c)) := by rw [hkept.life hb.wf, hb.self]
    have hrest := answers.trans hb.answers hkept.rest
    refine ⟨_, rfl, (congrArg Ctx.state hself :).trans ?_, (congrArg Ctx.drain hself :).trans ?_, (congrArg Ctx.destroy hself :).trans ?_,
      fun x hx => ?_, (congrArg State.frames hrest :), (congrArg State.orng hrest :), (congrArg State.fence hrest :)⟩
    · obtain h | h := hover <;> rw [h] <;> rfl
    · obtain h | h := hover <;> rw [h] <;> rfl
    · obtain h | h := hover <;> rw [h] <;> rfl
    · exact (congrArg Ctx.state ((hkept.life hb.wf x).trans (congrArg life (hb.other x hx))) :)
  · have hwait : waitLate s c = true := by simp [waitLate, hk, hlate]
    have hrun : drainTimeoutEffect c s = limitWait c (grantTimer s) := if_pos ⟨hst, hwait⟩
    obtain ⟨hself, hother, hfree, hrest⟩ := limitWait_spec (c := c) (s := grantTimer s) (canonical_ctxs (s := s) hc)
      (canonical_link_jobs (s := s) hc) (.inl hst) hrun.symm
    obtain ⟨hstate, hforced, hdrain⟩ := waitOver_draining (n := s.tick) (c := forcedBy (!drainOver s c) (life (ctxOf s c))) hst
    exact ⟨_, rfl, (congrArg Ctx.state hself :).trans hstate, (congrArg Ctx.forced hself :).trans hforced,
      (congrArg Ctx.drain hself :).trans hdrain, hfree, fun x hx => (congrArg Ctx.state (hother x hx) :), (congrArg State.frames hrest :),
      (congrArg State.groups hrest :), (congrArg State.dies hrest :)⟩
  · have hwait : waitLate s c = true := by simp [waitLate, hk, hlate]
    have hrun : destroyTimeoutEffect c s = limitWait c s := if_pos ⟨hst, hwait⟩
    obtain ⟨hself, hother, hfree, hrest⟩ := limitWait_spec (c := c) (canonical_ctxs hc) (canonical_link_jobs hc) (.inr hst) hrun.symm
    rw [waitOver_destroying (c := forcedBy (!drainOver s c) (life (ctxOf s c))) hst] at hself
    exact ⟨_, rfl, (congrArg Ctx.state hself :), (congrArg Ctx.forced hself :), (congrArg Ctx.destroy hself :), hfree,
      fun x hx => (congrArg Ctx.state (hother x hx) :), (congrArg State.frames hrest :), (congrArg State.groups hrest :),
      (congrArg State.dies hrest :)⟩
  · have hrun : destroyZeroiseEffect c s = zeroiseContext c s := by simp only [destroyZeroiseEffect, hd, hz, hlt, and_self, if_true]
    obtain ⟨hkept, hslots, hq, hlock⟩ := zeroiseContext_spec (c := c.val) (canonical_orng_slots hc) (canonical_splq hc) hrun.symm
    have hchange := changes_updCtx (c := c.val) (f := zeroised) (canonical_ctxs hc)
    generalize updCtx c.val zeroised s = a at hkept hchange
    have hself := (hkept.life hchange.wf c).trans (congrArg life hchange.self)
    have hdestroy : (ctxOf (destroyZeroiseEffect c s) c).destroy = (ctxOf s c).destroy.map (fun d => { d with zeroised := true }) :=
      (congrArg Ctx.destroy hself :)
    rw [hd] at hdestroy
    refine ⟨_, rfl, hdestroy, hslots, (congrArg Ctx.consent hself :), (congrArg Ctx.privSet hself :), hq, hlock,
      (congrArg Ctx.state hself :), fun x hx => ?_, ?_⟩
    · exact (congrArg Ctx.state ((hkept.life hchange.wf x).trans (congrArg life (hchange.other x hx))) :)
    · exact (congrArg State.frames hkept.rest :).trans (congrArg State.frames hchange.rest :)
  · refine congrArg Host.Outcome.next (?_ : destroyDoneEffect c s = _)
    simp only [destroyDoneEffect, hd, hcommit, hus, hscrub, and_self, if_true]
    rfl

end Sys2Proof.DrainEnd
end

section
/-! PROOF. The lines of a transfer at the fence (04_memory_fence.md R96, R102 to R105, R87, R88): what they change when they pass, and when
one is refused. -/

namespace Sys2Proof.Transfers

open Sys2Proof Sys2Proof.Machine Sys2Proof.Laws Sys2Proof.Frames

/-! ## Parts -/

/-- What a line that passes changes. -/
def passing : Parts where
  put s t := { s with
    ctxs := t.ctxs, outs := t.outs, host := { s.host with devCnt := t.host.devCnt }
    fence := { s.fence with chans := t.fence.chans, zeroAt := t.fence.zeroAt } }
  put_self _ := rfl
  put_put _ _ _ := rfl

/-- With the record of a line that is refused. -/
def refusing : Parts where
  put s t := { s with
    ctxs := t.ctxs, splq := t.splq, outs := t.outs, host := { s.host with devCnt := t.host.devCnt }
    fence := { s.fence with chans := t.fence.chans, zeroAt := t.fence.zeroAt } }
  put_self _ := rfl
  put_put _ _ _ := rfl

theorem passing_le_refusing : passing.le refusing := fun _ _ => rfl
theorem records_le_refusing : records.le refusing := fun _ _ => rfl

/-! ## Lines -/

/-- The requests that a channel holds. -/
def traffic (c : Chan) : List ChanReq × List Fill × List ReadFlight × List ChanReq := (c.parked, c.fills, c.reads, c.writes)

/-- From `s` to `t` lines of the context `c` have been served: only the parts `p` change, of the contexts `c` alone, and the channels
hold what they held. -/
structure Lines (p : Parts) (c : Nat) (s t : State) : Prop where
  kept : Kept p s t
  wf : mapWf {} s.fence.chans = true → mapWf {} t.fence.chans = true
  traffic : mapWf {} s.fence.chans = true → ∀ ch, traffic (chanOf t ch) = traffic (chanOf s ch)
  others : mapWf {} s.ctxs = true → ∀ x, x ≠ c → ctxOf t x = ctxOf s x

namespace Lines

variable {p q : Parts} {c : Nat} {s t u : State}

theorem refl (s : State) : Lines p c s s := ⟨.refl s, id, fun _ _ => rfl, fun _ _ _ => rfl⟩

theorem trans (h1 : Lines p c s t) (h2 : Lines p c t u) : Lines p c s u where
  kept := h1.kept.trans h2.kept
  wf := h2.wf ∘ h1.wf
  traffic hw ch := (h2.traffic (h1.wf hw) ch).trans (h1.traffic hw ch)
  others hw x hx := (h2.others (h1.kept.wf hw) x hx).trans (h1.others hw x hx)

theorem mono (h : Lines p c s t) (hle : p.le q) : Lines q c s t := ⟨h.kept.mono hle, h.wf, h.traffic, h.others⟩

theorem ite {b : Prop} [Decidable b] (h1 : Lines p c s t) (h2 : Lines p c s u) : Lines p c s (if b then t else u) := by
  split
  · exact h1
  · exact h2

theorem foldl {α : Type} {f : State → α → State} (as : List α) (hf : ∀ a ∈ as, ∀ s, Lines p c s (f s a)) (s : State) :
    Lines p c s (as.foldl f s) := by
  induction as generalizing s with
  | nil => exact refl s
  | cons a as ih => exact (hf a List.mem_cons_self s).trans (ih (fun b hb => hf b (List.mem_cons_of_mem _ hb)) _)

/-- What leaves the channels and the contexts. -/
theorem of_kept (h : Kept p s t) (hf : t.fence.chans = s.fence.chans) (hc : t.ctxs = s.ctxs) : Lines p c s t where
  kept := h
  wf hw := hf ▸ hw
  traffic _ ch := by rw [chanOf, chanOf, hf]
  others _ x _ := by rw [ctxOf, ctxOf, hc]

end Lines

section
variable {p : Parts} (hp : passing.le p)
include hp

theorem lines_updChan {ch c : Nat} {f : Chan → Chan} {s : State} (hf : ∀ x, traffic (f x) = traffic x) : Lines p c s (updChan ch f s) where
  kept := Kept.mono (p := passing) (.silent rfl rfl rfl rfl) hp
  wf := mapWf_mapMod
  traffic hw k := by
    by_cases hk : k = ch
    · subst hk
      exact (congrArg traffic (mapGet_mapMod_same hw)).trans (hf _)
    · exact congrArg traffic (mapGet_mapMod_other hw hk)
  others _ _ _ := rfl

theorem lines_emit (o : Out) (c : Nat) (s : State) : Lines p c s (emit o s) :=
  .of_kept (Kept.mono (p := passing) (.of_ctxs rfl (List.prefix_append ..) rfl id) hp) rfl rfl

theorem lines_countUp (i c k : Nat) (s : State) : Lines p c s (countUp i c k s) where
  kept := by
    have hdev : Kept passing s { s with host := { s.host with devCnt := mapMod 0 s.host.devCnt i (· + k) } } := .silent rfl rfl rfl rfl
    exact (hdev.trans (.updCtx rfl rfl)).mono hp
  wf := id
  traffic _ _ := rfl
  others hw _ hx := ctxOf_updCtx_ne (s := { s with host := { s.host with devCnt := mapMod 0 s.host.devCnt i (· + k) } }) hw hx

theorem lines_countRise (ch k c : Nat) (s : State) : Lines p c s (countRise ch k s) := lines_updChan hp fun _ => rfl

theorem lines_countDown (ch k c : Nat) (s : State) : Lines p c s (countDown ch k s) := by
  have hfall : Lines p c s (updChan ch (fun x => { x with counts := mapMod 0 x.counts k (· - 1) }) s) := lines_updChan hp fun _ => rfl
  have hzero : ∀ z t, Lines p c t { t with fence := { t.fence with zeroAt := z } } := fun _ _ =>
    .of_kept (Kept.mono (p := passing) (.silent rfl rfl rfl rfl) hp) rfl rfl
  exact .ite (hfall.trans (hzero _ _)) hfall

/-- A line that no row refuses. -/
theorem lines_passLine (r : ChanReq) (s : State) : Lines p r.cid s (passLine r s) := by
  have hcount := ((lines_countRise hp (lineChan r.line) r.cid r.cid s).trans (lines_countDown hp (lineChan r.line) r.cid _ _)).trans
    (lines_countUp hp (bit (isWrite r)) r.cid 1 _)
  have hhit : ∀ f o t, (∀ x, traffic (f x) = traffic x) → Lines p r.cid t (emit o (updChan (lineChan r.line) f t)) :=
    fun _ _ _ hf => (lines_updChan hp hf).trans (lines_emit hp ..)
  simp only [passLine]
  generalize countUp _ _ _ _ = a at hcount
  split
  · exact hcount.trans (lines_updChan hp fun _ => rfl)
  · exact hcount.trans (hhit _ _ _ fun _ => rfl)
  · exact hcount.trans (hhit _ _ _ fun _ => rfl)

end

theorem lines_postRecord {n k c : Nat} {b : Bytes} {s : State} : Lines refusing c s (postRecord n k b s) := by
  have h : Kept records s (postRecord n k b s) := kept_postRecord (fun _ _ => rfl) ..
  exact .of_kept (h.mono records_le_refusing) (congrArg (·.fence.chans) h.rest :) (congrArg State.ctxs h.rest :)

theorem lines_postFaultRaw (st : Status) (k c : Nat) (b : Bytes) (s : State) : Lines refusing c s (postFaultRaw st k b s) := lines_postRecord

theorem lines_fenceRecord (ch : Nat) (r : ChanReq) (g : Option Nat) (st : Status) (uerr : Bool) (c : Nat) (s : State) :
    Lines refusing c s (fenceRecord ch r g st uerr s) := by
  simp only [fenceRecord]
  split
  · exact .refl s
  · refine .trans ?_ (lines_postFaultRaw ..)
    exact lines_updChan passing_le_refusing fun _ => rfl

/-- A line refused by one of the rows 1 to 4. -/
theorem lines_transferFault {st : FetchStatus} (r : ChanReq) (c : Nat) (s : State) (h1 : st ≠ .tagFail) (h2 : st ≠ .uerr) :
    Lines refusing c s (transferFault st r s) := by
  have hreserved : Lines refusing c s (countReserved (lineChan r.line) s) := lines_updChan passing_le_refusing fun _ => rfl
  have hroute : Lines refusing c s (countRoute (lineChan r.line) s) := lines_updChan passing_le_refusing fun _ => rfl
  have hfenced : Lines refusing c s (countFenced (lineChan r.line) s) := lines_updChan passing_le_refusing fun _ => rfl
  have hnokey : Lines refusing c s (countNoKey (lineChan r.line) s) := lines_updChan passing_le_refusing fun _ => rfl
  cases st with
  | ok => exact .refl s
  | reserved => exact hreserved.trans (lines_fenceRecord ..)
  | refused => exact hroute.trans (lines_fenceRecord ..)
  | fenced => exact hfenced
  | noKey => exact hnokey.trans (lines_fenceRecord ..)
  | tagFail => exact absurd rfl h1
  | uerr => exact absurd rfl h2

theorem lines_counted (r : ChanReq) (s : State) :
    Lines passing r.cid s (countDown (lineChan r.line) r.cid (countRise (lineChan r.line) r.cid s)) :=
  (lines_countRise (fun _ _ => rfl) ..).trans (lines_countDown (fun _ _ => rfl) ..)

theorem selectRow_ne (s : State) (ch : Nat) (r : ChanReq) : selectRow s ch r ≠ .tagFail ∧ selectRow s ch r ≠ .uerr := by
  simp only [selectRow]
  split_ifs <;> simp

theorem lines_wholeLine (r : ChanReq) (s : State) : Lines refusing r.cid s (wholeLine r s) := by
  obtain ⟨h1, h2⟩ := selectRow_ne s (lineChan r.line) r
  simp only [wholeLine]
  split
  · exact lines_passLine passing_le_refusing r s
  · exact ((lines_counted r s).mono passing_le_refusing).trans (lines_transferFault r _ _ h1 h2)

theorem lines_wholeLines {c : Nat} {rs : List ChanReq} (h : ∀ r ∈ rs, r.cid = c) (s : State) :
    Lines refusing c s (rs.foldl (fun s r => wholeLine r s) s) :=
  .foldl rs (fun r hr t => h r hr ▸ lines_wholeLine r t) s

theorem lines_passLines {c : Nat} {rs : List ChanReq} (h : ∀ r ∈ rs, r.cid = c) (s : State) :
    Lines passing c s (rs.foldl (fun s r => passLine r s) s) :=
  .foldl rs (fun r hr t => h r hr ▸ lines_passLine (fun _ _ => rfl) r t) s

/-! ## Reads -/

/-- A transfer that fails does so at one of its lines. -/
theorem exists_failed {s : State} {rs : List ChanReq} {x : LineReads} (h : (readsOutcome s rs x).status ≠ .ok) :
    ∃ r ∈ rs, rs[(readsOutcome s rs x).served]? = some r := by
  have hlt : (readsOutcome s rs x).served < rs.length := by
    revert h
    unfold readsOutcome
    split
    next =>
      split
      next hlt => exact fun _ => hlt
      next => exact fun h => absurd rfl h
    next i hi =>
      have hi' : i < rs.length := (List.findIdx?_eq_some_iff_findIdx_eq.mp hi).1
      split
      next hx => exact fun _ => hx.2.trans hi'
      next => exact fun _ => hi'
  exact ⟨_, List.getElem_mem hlt, List.getElem?_eq_getElem hlt⟩

theorem readLines_ok {rs : List ChanReq} {o : LineReads} {s : State} (h : o.status = .ok) :
    readLines rs o s = rs.foldl (fun s r => passLine r s) s := if_pos h

/-- The lines before the one that fails pass; it has its row's effect. -/
theorem readLines_failed {c : Nat} {rs : List ChanReq} {x : LineReads} {s : State} (hc : ∀ r ∈ rs, r.cid = c)
    (h : (readsOutcome s rs x).status ≠ .ok) :
    ∃ r t, r.cid = c ∧ Lines passing c s t ∧ readLines rs (readsOutcome s rs x) s = transferFault (readsOutcome s rs x).status r t := by
  obtain ⟨r, hr, hat⟩ := exists_failed h
  have hpass := lines_passLines (rs := rs.take (readsOutcome s rs x).served) (fun y hy => hc y (List.mem_of_mem_take hy)) s
  have hcounted := lines_counted r ((rs.take (readsOutcome s rs x).served).foldl (fun s r => passLine r s) s)
  rw [hc r hr] at hcounted
  refine ⟨r, _, hc r hr, hpass.trans hcounted, ?_⟩
  simp only [readLines, if_neg h, hat, hc r hr]

end Sys2Proof.Transfers
end

section
/-! PROOF. The context switch, step by step (03_tenant_contexts.md R71, R72, R425, Table CTX-6, 15_pergola_semaphores.md R350). -/

namespace Sys2Proof.Switches

open Sys2Proof Sys2Proof.Machine Sys2Proof.Laws Sys2Proof.Frames Sys2Proof.Transfers

/-! ## Dies and slices -/

section
variable {d k : Nat} {s : State}

theorem dieOf_updDie_self {f : Die → Die} (hw : mapWf {} s.dies = true) : dieOf (updDie d f s) d = f (dieOf s d) := mapGet_mapMod_same hw
theorem dieOf_updDie_ne {f : Die → Die} (hw : mapWf {} s.dies = true) (hk : k ≠ d) : dieOf (updDie d f s) k = dieOf s k :=
  mapGet_mapMod_other hw hk
theorem wf_updDie {f : Die → Die} (hw : mapWf {} s.dies = true) : mapWf {} (updDie d f s).dies = true := mapWf_mapMod hw

/-- What the change of a die leaves. -/
theorem updDie_spec {f : Die → Die} {u : State} (hw : mapWf {} s.dies = true) (hu : updDie d f s = u) :
    dieOf u d = f (dieOf s d) ∧ (∀ k, k ≠ d → dieOf u k = dieOf s k) ∧ u = { s with dies := u.dies } := by
  subst hu
  exact ⟨dieOf_updDie_self hw, fun _ hk => dieOf_updDie_ne hw hk, rfl⟩

theorem sliceOf_updSlice_self {f : Slice → Slice} (hw : mapWf {} s.perg.slices = true) : sliceOf (updSlice d f s) d = f (sliceOf s d) :=
  mapGet_mapMod_same hw
theorem sliceOf_updSlice_ne {f : Slice → Slice} (hw : mapWf {} s.perg.slices = true) (hk : k ≠ d) :
    sliceOf (updSlice d f s) k = sliceOf s k := mapGet_mapMod_other hw hk
theorem wf_updSlice {f : Slice → Slice} (hw : mapWf {} s.perg.slices = true) : mapWf {} (updSlice d f s).perg.slices = true := mapWf_mapMod hw

end

theorem sliceOf_forUpTo {f : Slice → Slice} {s : State} (hw : mapWf {} s.perg.slices = true) (n : Nat) :
    mapWf {} (forUpTo n (fun d => updSlice d f) s).perg.slices = true ∧
      ∀ k, sliceOf (forUpTo n (fun d => updSlice d f) s) k = if k < n then f (sliceOf s k) else sliceOf s k := by
  induction n with
  | zero => exact ⟨hw, fun k => by simp [forUpTo]⟩
  | succ n ih =>
    obtain ⟨hwn, hk⟩ := ih
    refine ⟨wf_updSlice hwn, fun k => ?_⟩
    rw [forUpTo]
    by_cases h : k = n
    · subst h
      rw [sliceOf_updSlice_self hwn, hk, if_neg (Nat.lt_irrefl k), if_pos (Nat.lt_succ_self k)]
    · have hlt : k < n + 1 ↔ k < n := by omega
      simp only [sliceOf_updSlice_ne hwn h, hk, hlt]

/-! ## Waits -/

theorem wakeWait_perg (c : Nat) (w : Issuer) (st : Status) (s : State) : (wakeWait c w st s).perg = s.perg := by
  cases w <;> rfl

theorem foldl_perg {α : Type} {f : State → α → State} (hf : ∀ s a, (f s a).perg = s.perg) (as : List α) (s : State) :
    (as.foldl f s).perg = s.perg := by
  induction as generalizing s with
  | nil => rfl
  | cons a as ih => exact (ih _).trans (hf s a)

/-- A slice without the waits that `p` names. -/
def withoutWaits (p : Nat → Issuer → Bool) (x : Slice) : Slice := { x with waits := x.waits.filter (fun w => !p w.cid w.from_) }

theorem sliceOf_releaseWaits {p : Nat → Issuer → Bool} {st : Status} {s : State} (hw : mapWf {} s.perg.slices = true) (k : Nat) :
    sliceOf (releaseWaits p st s) k = if k < Config.dies then withoutWaits p (sliceOf s k) else sliceOf s k := by
  rw [← (sliceOf_forUpTo (f := withoutWaits p) hw Config.dies).2 k]
  have hperg : (releaseWaits p st s).perg.slices = (forUpTo Config.dies (fun d => updSlice d (withoutWaits p)) s).perg.slices := by
    unfold releaseWaits
    generalize Config.dies = n
    rw [foldl_perg (fun t _ => wakeWait_perg ..), foldl_perg (fun t _ => wakeWait_perg ..)]
    rfl
  rw [sliceOf, hperg, sliceOf]

/-! ## Semaphores that stay -/

/-- From `s` to `t` every slice holds its semaphores. -/
structure SemsStay (s t : State) : Prop where
  wf : mapWf {} s.perg.slices = true → mapWf {} t.perg.slices = true
  sems : mapWf {} s.perg.slices = true → ∀ k, (sliceOf t k).sems = (sliceOf s k).sems

theorem SemsStay.refl (s : State) : SemsStay s s := ⟨id, fun _ _ => rfl⟩

theorem SemsStay.trans {s t u : State} (h1 : SemsStay s t) (h2 : SemsStay t u) : SemsStay s u :=
  ⟨h2.wf ∘ h1.wf, fun hw k => (h2.sems (h1.wf hw) k).trans (h1.sems hw k)⟩

theorem SemsStay.forUpTo {f : Nat → State → State} (hf : ∀ k s, SemsStay s (f k s)) (n : Nat) (s : State) :
    SemsStay s (forUpTo n f s) := by
  induction n with
  | zero => exact .refl s
  | succ n ih => exact ih.trans (hf n _)

theorem SemsStay.of_perg {s t : State} (h : t.perg = s.perg) : SemsStay s t :=
  ⟨fun hw => h ▸ hw, fun _ k => by rw [sliceOf, sliceOf, h]⟩

theorem semsStay_updSlice {d : Nat} {f : Slice → Slice} {s : State} (hf : ∀ x, (f x).sems = x.sems) : SemsStay s (updSlice d f s) := by
  refine ⟨wf_updSlice, fun hw k => ?_⟩
  by_cases hk : k = d
  · subst hk
    rw [sliceOf_updSlice_self hw, hf]
  · rw [sliceOf_updSlice_ne hw hk]

theorem sems_noteFault (n : Nat) (st : Status) (x : Slice) : (noteFault n st x).sems = x.sems := by
  unfold noteFault
  split <;> rfl

theorem semsStay_pergFault (d : Nat) (st : Status) (c : Nat) (w : Issuer) (i v : Nat) (s : State) :
    SemsStay s (pergFault d st c w i v s) := by
  have hnote : SemsStay s (updSlice d (fun x => { noteFault s.tick st x with
      lastFault := word (i % 16384 + 2 ^ 16 * faultNibble st + 2 ^ 20 * c) }) s) := semsStay_updSlice (fun x => sems_noteFault s.tick st x)
  have hlimit : ∀ (r : Slice → NMap Nat) t, SemsStay t (updSlice d (fun x => { x with recs := r x }) t) :=
    fun _ _ => semsStay_updSlice fun _ => rfl
  have hrec : ∀ b t, SemsStay t (postFaultRaw st 14 b t) := fun b t =>
    .of_perg (congrArg State.perg (kept_postRecord (p := records) (fun _ _ => rfl) 0 14 _ t).rest :)
  simp only [pergFault]
  split
  · exact hnote
  · exact (hnote.trans (hlimit (fun x => mapSet 0 x.recs (statusCode st).toNat (s.tick + 250000)) _)).trans (hrec _ _)

theorem semsStay_judgeLeftovers (d c : Nat) (s : State) : SemsStay s (judgeLeftovers d c s) := by
  unfold judgeLeftovers
  split
  · refine .forUpTo (fun k t => ?_) 320 s
    split
    · exact semsStay_pergFault ..
    · exact .refl t
  · exact .refl s

/-! ## Parts of a switch -/

/-- What a switch changes of a die's stamps. -/
def stamps : Parts where
  put s t := { s with dies := t.dies, outs := t.outs }
  put_self _ := rfl
  put_put _ _ _ := rfl

/-- What a restore changes. -/
def restored : Parts where
  put s t := { s with
    dies := t.dies, perg := t.perg, ctxs := t.ctxs, outs := t.outs, host := { s.host with devCnt := t.host.devCnt }
    fence := { s.fence with chans := t.fence.chans, zeroAt := t.fence.zeroAt } }
  put_self _ := rfl
  put_put _ _ _ := rfl

/-- What a save changes. -/
def saved : Parts where
  put s t := { s with
    dies := t.dies, perg := t.perg, ctxs := t.ctxs, splq := t.splq, outs := t.outs, host := { s.host with devCnt := t.host.devCnt }
    fence := { s.fence with chans := t.fence.chans, zeroAt := t.fence.zeroAt } }
  put_self _ := rfl
  put_put _ _ _ := rfl

theorem passing_le_restored : passing.le restored := fun _ _ => rfl
theorem wakes_le_restored : wakes.le restored := fun _ _ => rfl
theorem stamps_le_saved : stamps.le saved := fun _ _ => rfl
theorem refusing_le_saved : refusing.le saved := fun _ _ => rfl
theorem semaphores_le_saved : semaphores.le saved := fun _ _ => rfl

theorem kept_updDie (d : Nat) (f : Die → Die) (s : State) : Kept stamps s (updDie d f s) := .silent rfl rfl rfl rfl

/-! What stays, by name. -/

section
variable {p : Parts} {s t : State}

theorem schedWait_of_kept (h : Kept p s t) (hw : mapWf {} s.ctxs = true) (c : Nat) : (ctxOf t c).schedWait = (ctxOf s c).schedWait :=
  (congrArg Ctx.schedWait (h.life hw c) :)
theorem state_of_kept (h : Kept p s t) (hw : mapWf {} s.ctxs = true) (c : Nat) : (ctxOf t c).state = (ctxOf s c).state :=
  (congrArg Ctx.state (h.life hw c) :)
theorem tick_of_saved (h : t = saved.put s t) : t.tick = s.tick := (congrArg State.tick h :)
theorem frames_of_saved (h : t = saved.put s t) : t.frames = s.frames := (congrArg State.frames h :)
theorem orng_of_saved (h : t = saved.put s t) : t.orng = s.orng := (congrArg State.orng h :)
theorem scrub_of_saved (h : t = saved.put s t) : t.fence.scrub = s.fence.scrub := (congrArg (·.fence.scrub) h :)
theorem locks_of_saved (h : t = saved.put s t) : t.fence.locks = s.fence.locks := (congrArg (·.fence.locks) h :)

end

theorem chanOf_updDie (d : Nat) (f : Die → Die) (s : State) (ch : Nat) : chanOf (updDie d f s) ch = chanOf s ch := rfl

/-- What the ports have been sent after `s` is among the new outputs. -/
theorem mem_newOuts {o : Out} {ts os : List Out} {s u : State} (hs : s.outs <+: ts) (hu : ts ++ os <+: u.outs) (ho : o ∈ os) :
    o ∈ newOuts s u := by
  obtain ⟨xs, hxs⟩ := hs
  obtain ⟨ys, hys⟩ := hu
  simp [newOuts, ← hys, ← hxs, ho]

/-! ## The save area -/

theorem slotPlace_of {s t : State} (hd : t.dies = s.dies) (hf : t.frames = s.frames) (d c v k : Nat) :
    slotPlace t d c v k = slotPlace s d c v k := by
  have hkib : slotKib t d = slotKib s d := by rw [slotKib, slotKib, dieOf, dieOf, hd]
  have hsave : saveFrames t c = saveFrames s c := by rw [saveFrames, saveFrames, hf]
  simp only [slotPlace, hkib, hsave]

/-- The headers written at the end of a slice, as outputs. -/
def headerOuts (d : Nat) (r : Resident) (s : State) : List Out :=
  (List.range 320).filterMap (fun k =>
    (slotPlace s d r.cid r.vdie k).map (fun p => Out.slotHeader d r.cid r.vdie k p (slotHeaderBytes s d k)))

/-- The same, as lines of the fence. -/
def headerWrites (d : Nat) (r : Resident) (s : State) : List ChanReq :=
  (List.range 320).flatMap (fun k =>
    ((slotPlace s d r.cid r.vdie k).map (headerLines d r.cid (some (slotHeaderBytes s d k)))).getD [])

/-- Outputs sent. -/
def send (os : List Out) (s : State) : State := { s with outs := s.outs ++ os }

/-- SAVE_SHORT at tick `n`. -/
def short (n : Nat) (x : Die) : Die := { x with saveShort := some n }

/-- The lines of the headers, after their outputs. -/
def headersWritten (d : Nat) (r : Resident) (s : State) : State :=
  (headerWrites d r s).foldl (fun s l => wholeLine l s) (send (headerOuts d r s) s)

theorem writeHeaders_eq (d : Nat) (r : Resident) (s : State) : writeHeaders d r s =
    if (headerOuts d r s).length < 320 then updDie d (short s.tick) (headersWritten d r s) else headersWritten d r s := by
  unfold writeHeaders
  rfl

theorem writeHeaders_short {d : Nat} {r : Resident} {s : State} (h : (headerOuts d r s).length < 320) :
    writeHeaders d r s = updDie d (short s.tick) (headersWritten d r s) := by rw [writeHeaders_eq, if_pos h]

theorem writeHeaders_whole {d : Nat} {r : Resident} {s : State} (h : ¬ (headerOuts d r s).length < 320) :
    writeHeaders d r s = headersWritten d r s := by rw [writeHeaders_eq, if_neg h]

theorem cid_headerLines {d c : Nat} {h : Option Bytes} {p : Nat × Nat} {l : ChanReq} (hl : l ∈ headerLines d c h p) : l.cid = c := by
  obtain ⟨i, -, rfl⟩ := List.mem_map.mp hl
  rfl

/-- The lines of headers are lines of the resident's context. -/
theorem cid_placed {d c : Nat} {h : Option Bytes} {p : Option (Nat × Nat)} {l : ChanReq} (hl : l ∈ (p.map (headerLines d c h)).getD []) :
    l.cid = c := by
  cases p with
  | none => exact absurd hl List.not_mem_nil
  | some p => exact cid_headerLines hl

theorem cid_headerWrites {d : Nat} {r : Resident} {s : State} : ∀ l ∈ headerWrites d r s, l.cid = r.cid := by
  intro l hl
  obtain ⟨k, -, hk⟩ := List.mem_flatMap.mp hl
  exact cid_placed hk

theorem cid_headerReads {d : Nat} {r : Resident} {s : State} : ∀ l ∈ headerReads s d r, l.cid = r.cid := by
  intro l hl
  obtain ⟨k, -, hk⟩ := List.mem_flatMap.mp hl
  exact cid_placed hk

theorem mem_headerOuts {d : Nat} {r : Resident} {s : State} {k : Nat} {p : Nat × Nat} (hk : k < 320)
    (hp : slotPlace s d r.cid r.vdie k = some p) : .slotHeader d r.cid r.vdie k p (slotHeaderBytes s d k) ∈ headerOuts d r s :=
  List.mem_filterMap.mpr ⟨k, List.mem_range.mpr hk, by rw [hp]; rfl⟩

/-- Every slot has a place where no header is missing. -/
theorem placed_of_headerOuts {d : Nat} {r : Resident} {s : State} (h : ¬ (headerOuts d r s).length < 320) (k : Nat) (hk : k < 320) :
    slotPlace s d r.cid r.vdie k ≠ none := by
  intro hnone
  have hlen : (headerOuts d r s).length ≠ (List.range 320).length := by
    intro he
    have hall := List.filterMap_length_eq_length.mp he k (List.mem_range.mpr hk)
    simp [hnone] at hall
  have hle : (headerOuts d r s).length ≤ (List.range 320).length := List.length_filterMap_le ..
  rw [List.length_range] at hlen hle
  omega

theorem slotHeaderBytes_of {s t : State} {d : Nat} (ht : t.tick = s.tick) (hs : (sliceOf t d).sems = (sliceOf s d).sems) (k : Nat) :
    slotHeaderBytes t d k = slotHeaderBytes s d k := by
  simp only [slotHeaderBytes, semValue, ht, hs]

/-! ## The end of a slice -/

theorem kept_settleHome (c d : Nat) (s : State) : Kept semaphores s (settleHome c d s) := by
  have hrelease : Kept semaphores s (releaseWaits (fun _ w => ofDie d w) .busy s) := (kept_releaseWaits ..).mono wakes_le_semaphores
  exact .ite hrelease (hrelease.trans (kept_unbindSet ..))

/-- A context without a saved virtual die. -/
def leftBy (v : Nat) (l : List Nat) (c : Ctx) : Ctx := { c with saved := l.filter (· != v) }

theorem savedOut_eq {c v : Nat} {s : State} (h : (ctxOf s c).schedWait = none) : savedOut c v s = updCtx c (leftBy v (ctxOf s c).saved) s := by
  simp only [savedOut, h]
  rfl

/-- A die whose ctx_clear has risen at tick `n`. -/
def clearing (n : Nat) (x : Die) : Die := { x with step := .clearing (n + 500) true, ctxClear := true, stampGap := true, coresRun := false }

theorem raiseClear_eq (d : Nat) (s : State) : raiseClear d true s = updDie d (clearing s.tick) s := by
  unfold raiseClear clearing
  rfl

/-- What a save leaves before ctx_clear rises, where `a` is the state in which the headers are written. -/
theorem writeHeaders_spec {d : Nat} {r : Resident} {a b : State} (hwd : mapWf {} a.dies = true) (hb : writeHeaders d r a = b) :
    Kept saved (send (headerOuts d r a) a) b ∧
      ((dieOf b d = short a.tick (dieOf a d)) ∨ (dieOf b d = dieOf a d ∧ ∀ k, k < 320 → slotPlace a d r.cid r.vdie k ≠ none)) ∧
      (∀ k, k ≠ d → dieOf b k = dieOf a k) ∧ mapWf {} b.dies = true ∧
      (mapWf {} a.fence.chans = true → ∀ ch, traffic (chanOf b ch) = traffic (chanOf a ch)) := by
  have hlines := lines_wholeLines (cid_headerWrites (d := d) (r := r) (s := a)) (send (headerOuts d r a) a)
  rw [← headersWritten] at hlines
  have hcases : (b = updDie d (short a.tick) (headersWritten d r a)) ∨
      (b = headersWritten d r a ∧ ∀ k, k < 320 → slotPlace a d r.cid r.vdie k ≠ none) := by
    rw [← hb]
    exact (em _).imp writeHeaders_short (fun h => ⟨writeHeaders_whole h, placed_of_headerOuts h⟩)
  have hsend : ∀ ch, chanOf (send (headerOuts d r a) a) ch = chanOf a ch := fun _ => rfl
  have hdies : (send (headerOuts d r a) a).dies = a.dies := rfl
  have htraffic : mapWf {} a.fence.chans = true → _ := hlines.traffic
  simp only [hsend] at htraffic
  generalize send (headerOuts d r a) a = a' at hlines hdies ⊢
  generalize headersWritten d r a = t at hcases hlines htraffic
  have htdies : t.dies = a.dies := (congrArg State.dies hlines.kept.rest :).trans hdies
  have hdie : ∀ k, dieOf t k = dieOf a k := fun k => by rw [dieOf, dieOf, htdies]
  have hwt : mapWf {} t.dies = true := by rw [htdies]; exact hwd
  have hkept := hlines.kept.mono refusing_le_saved
  obtain rfl | ⟨rfl, hplaced⟩ := hcases
  · refine ⟨hkept.trans ((kept_updDie ..).mono stamps_le_saved), .inl ?_, fun k hk => ?_, wf_updDie hwt, fun hw ch => ?_⟩
    · rw [dieOf_updDie_self hwt, hdie]
    · rw [dieOf_updDie_ne hwt hk, hdie]
    · rw [chanOf_updDie, htraffic hw]
  · exact ⟨hkept, .inr ⟨hdie d, hplaced⟩, fun k _ => hdie k, hwt, htraffic⟩

/-- The leaving of a resident whose context has no empty map pending. -/
theorem leaveIdle_spec {d : Nat} {r : Resident} {b u : State} (hwx : mapWf {} b.ctxs = true) (hwd : mapWf {} b.dies = true)
    (hwait : (ctxOf b r.cid).schedWait = none) (hu : leaveIdle d r b = u) :
    dieOf u d = clearing b.tick (dieOf b d) ∧ (∀ k, k ≠ d → dieOf u k = dieOf b k) ∧ (∀ c, (ctxOf u c).state = (ctxOf b c).state) ∧
      u = saved.put b u ∧ u.fence = b.fence ∧ b.outs <+: u.outs := by
  have hkh : Kept semaphores b (settleHome r.cid d b) := kept_settleHome ..
  rw [leaveIdle] at hu
  generalize settleHome r.cid d b = e at hu hkh
  rw [savedOut_eq ((congrArg Ctx.schedWait (hkh.life hwx r.cid) :).trans hwait)] at hu
  have hgone := DrainEnd.changes_updCtx (c := r.cid) (f := leftBy r.vdie (ctxOf e r.cid).saved) (hkh.wf hwx)
  generalize updCtx r.cid (leftBy r.vdie (ctxOf e r.cid).saved) e = g at hu hgone
  have htick : g.tick = b.tick := (congrArg State.tick hgone.rest :).trans (congrArg State.tick hkh.rest :)
  have hdies : g.dies = b.dies := (congrArg State.dies hgone.rest :).trans (congrArg State.dies hkh.rest :)
  have hdie : ∀ k, dieOf g k = dieOf b k := fun k => by rw [dieOf, dieOf, hdies]
  rw [raiseClear_eq, htick] at hu
  obtain ⟨hself, hother, hrest⟩ := updDie_spec (by rw [hdies]; exact hwd) hu
  refine ⟨hself.trans (by rw [hdie]), fun k hk => (hother k hk).trans (hdie k), fun c => ?_, ?_, ?_, ?_⟩
  · have hctx : ctxOf u c = ctxOf g c := (congrArg (fun t => ctxOf t c) hrest :)
    have hstate : (ctxOf g c).state = (ctxOf e c).state := by
      by_cases hc : c = r.cid
      · subst hc
        exact (congrArg Ctx.state hgone.self :)
      · rw [hgone.other c hc]
    rw [hctx, hstate]
    exact (congrArg Ctx.state (hkh.life hwx c) :)
  · have hge : g = saved.put e g := by rw [hgone.rest]; rfl
    have hug : u = saved.put g u := by rw [hrest]; rfl
    exact saved.trans (saved.trans (hkh.mono semaphores_le_saved).rest hge) hug
  · exact ((congrArg State.fence hrest :).trans (congrArg State.fence hgone.rest :)).trans (congrArg State.fence hkh.rest :)
  · rw [(congrArg State.outs hrest :), (congrArg State.outs hgone.rest :)]
    exact hkh.outs

/-- The leftovers of cores judged where the context leaves them. -/
def judged (d : Nat) (r : Resident) (s : State) : State :=
  if (!isResident s d r || (ctxOf s r.cid).schedWait.isSome) && decide ((ctxOf s r.cid).state = .running) then judgeLeftovers d r.cid s else s

theorem kept_judged (d : Nat) (r : Resident) (s : State) : Kept semaphores s (judged d r s) := .ite (kept_judgeLeftovers ..) (.refl s)

theorem semsStay_judged (d : Nat) (r : Resident) (s : State) : SemsStay s (judged d r s) := by
  unfold judged
  split
  · exact semsStay_judgeLeftovers ..
  · exact .refl s

theorem saveCores_eq (d : Nat) (r : Resident) (s : State) : saveCores d r s = leaveIdle d r (writeHeaders d r (judged d r s)) := by
  unfold saveCores judged
  rfl

/-- The headers written: each that has a place is sent, and the channels hold what they held. -/
theorem written_spec {d : Nat} {r : Resident} {s b : State} (hwd : mapWf {} s.dies = true) (hws : mapWf {} s.perg.slices = true)
    (hwc : mapWf {} s.fence.chans = true) (hb : writeHeaders d r (judged d r s) = b) :
    Kept saved s b ∧
      (dieOf b d = short s.tick (dieOf s d) ∨ dieOf b d = dieOf s d ∧ ∀ k, k < 320 → slotPlace s d r.cid r.vdie k ≠ none) ∧
      (∀ k, k ≠ d → dieOf b k = dieOf s k) ∧ mapWf {} b.dies = true ∧ (∀ ch, traffic (chanOf b ch) = traffic (chanOf s ch)) ∧
      (∀ k p, k < 320 → slotPlace s d r.cid r.vdie k = some p → ∃ t, s.outs <+: t ∧ ∃ os, t ++ os <+: b.outs ∧
        .slotHeader d r.cid r.vdie k p (slotHeaderBytes s d k) ∈ os) := by
  have hka := kept_judged d r s
  have hsa := semsStay_judged d r s
  generalize judged d r s = a at hka hsa hb
  have hdies : a.dies = s.dies := (congrArg State.dies hka.rest :)
  have hframes : a.frames = s.frames := (congrArg State.frames hka.rest :)
  have htick : a.tick = s.tick := (congrArg State.tick hka.rest :)
  have hfence : a.fence = s.fence := (congrArg State.fence hka.rest :)
  have hdie : ∀ k, dieOf a k = dieOf s k := fun k => by rw [dieOf, dieOf, hdies]
  have hplace := fun k => slotPlace_of hdies hframes d r.cid r.vdie k
  obtain ⟨hkb, hself, hother, hwb, hchans⟩ := writeHeaders_spec (by rw [hdies]; exact hwd) hb
  have hks : ∀ os, Kept saved a (send os a) := fun _ => .of_ctxs rfl (List.prefix_append ..) rfl id
  have hsent : ∀ os, (send os a).outs = a.outs ++ os := fun _ => rfl
  refine ⟨((hka.mono semaphores_le_saved).trans (hks _)).trans hkb, ?_, fun k hk => ?_, hwb, fun ch => ?_, fun k p hk hp => ?_⟩
  · rw [← hdie, ← htick]
    simpa only [hplace] using hself
  · rw [hother k hk, hdie]
  · rw [hchans (by rw [hfence]; exact hwc), chanOf, chanOf, hfence]
  · refine ⟨a.outs, hka.outs, _, hsent _ ▸ hkb.outs, ?_⟩
    rw [← slotHeaderBytes_of htick (hsa.sems hws d)]
    exact mem_headerOuts hk ((hplace k).trans hp)

/-- A slice that has been saved: the headers are written, ctx_clear is high. -/
theorem saveCores_spec {d : Nat} {r : Resident} {s u : State} (hwx : mapWf {} s.ctxs = true) (hwd : mapWf {} s.dies = true)
    (hws : mapWf {} s.perg.slices = true) (hwc : mapWf {} s.fence.chans = true) (hwait : (ctxOf s r.cid).schedWait = none)
    (hu : saveCores d r s = u) :
    (dieOf u d = clearing s.tick (short s.tick (dieOf s d)) ∨
      dieOf u d = clearing s.tick (dieOf s d) ∧ ∀ k, k < 320 → slotPlace s d r.cid r.vdie k ≠ none) ∧
    (∀ k p, k < 320 → slotPlace s d r.cid r.vdie k = some p → .slotHeader d r.cid r.vdie k p (slotHeaderBytes s d k) ∈ newOuts s u) ∧
    (∀ c, (ctxOf u c).state = (ctxOf s c).state) ∧ (∀ k, k ≠ d → dieOf u k = dieOf s k) ∧ u = saved.put s u ∧
    (∀ ch, traffic (chanOf u ch) = traffic (chanOf s ch)) := by
  rw [saveCores_eq] at hu
  generalize hb : writeHeaders d r (judged d r s) = b at hu
  obtain ⟨hkb, hself, hother, hwb, hchans, hheader⟩ := written_spec hwd hws hwc hb
  obtain ⟨huself, huother, hustate, hurest, hufence, huouts⟩ :=
    leaveIdle_spec (hkb.wf hwx) hwb ((schedWait_of_kept hkb hwx r.cid).trans hwait) hu
  refine ⟨?_, fun k p hk hp => ?_, fun c => (hustate c).trans (state_of_kept hkb hwx c),
    fun k hk => (huother k hk).trans (hother k hk), saved.trans hkb.rest hurest, fun ch => ?_⟩
  · rw [huself, tick_of_saved hkb.rest]
    exact hself.imp (fun h => by rw [h]) (fun h => ⟨by rw [h.1], h.2⟩)
  · obtain ⟨t, ht, os, hos, hmem⟩ := hheader k p hk hp
    exact mem_newOuts ht (hos.trans huouts) hmem
  · rw [chanOf, hufence]
    exact hchans ch

end Sys2Proof.Switches
end

section
/-! PROOF. The acknowledgements of a switch, its restore and its bounds (03_tenant_contexts.md R38, R39, R72, Table CTX-6,
15_pergola_semaphores.md R341), and the statement about its steps. -/

namespace Sys2Proof.SwitchSteps

open Sys2Proof Sys2Proof.Machine Sys2Proof.Laws Sys2Proof.Frames Sys2Proof.Transfers Sys2Proof.Switches

/-! ## Pre-emption -/

/-- A die that is asked for its cores at tick `n`. -/
def preempted (n : Nat) (x : Die) : Die := { x with step := .preempting (n + preemptTicks x) }

theorem requestPreempt_eq (d : Nat) (s : State) :
    requestPreempt d s = releaseWaits (fun _ w => ofDie d w) .busy (updDie d (preempted s.tick) s) := by
  unfold requestPreempt preempted
  rfl

/-- The waits of a die's cores that are left after their release. -/
theorem waits_released {d : Nat} {x : Slice} : ∀ w ∈ (withoutWaits (fun _ w => ofDie d w) x).waits, ofDie d w.from_ = false := by
  intro w hw
  simpa using (List.mem_filter.mp hw).2

theorem requestPreempt_spec {d : Nat} {s u : State} (hwd : mapWf {} s.dies = true) (hws : mapWf {} s.perg.slices = true)
    (hu : requestPreempt d s = u) :
    dieOf u d = preempted s.tick (dieOf s d) ∧ (∀ k, ∀ w ∈ (sliceOf u k).waits, ofDie d w.from_ = false ∨ 32 ≤ k) ∧
      (∀ k i, semValue u k i = semValue s k i) ∧ (∀ k, k ≠ d → dieOf u k = dieOf s k) ∧
      u = { s with dies := u.dies, perg := u.perg, outs := u.outs } := by
  rw [requestPreempt_eq] at hu
  obtain ⟨hself, hother, hrest⟩ := updDie_spec hwd (Eq.refl (updDie d (preempted s.tick) s))
  have hperg : (updDie d (preempted s.tick) s).perg = s.perg := (congrArg State.perg hrest :)
  generalize updDie d (preempted s.tick) s = a at hu hself hother hrest hperg
  have hk : Kept wakes a u := hu ▸ kept_releaseWaits ..
  have hslice : ∀ k, sliceOf u k = if k < Config.dies then withoutWaits (fun _ w => ofDie d w) (sliceOf a k) else sliceOf a k := by
    intro k
    rw [← hu]
    exact sliceOf_releaseWaits (by rw [hperg]; exact hws) k
  have hdies : u.dies = a.dies := (congrArg State.dies hk.rest :)
  have hdie : ∀ k, dieOf u k = dieOf a k := fun k => by rw [dieOf, dieOf, hdies]
  refine ⟨(hdie d).trans hself, fun k w hw => ?_, fun k i => ?_, fun k hne => (hdie k).trans (hother k hne), ?_⟩
  · rw [hslice] at hw
    by_cases hlt : k < Config.dies
    · rw [if_pos hlt] at hw
      exact .inl (waits_released w hw)
    · exact .inr (Nat.not_lt.mp hlt)
  · have hsems : (sliceOf u k).sems = (sliceOf a k).sems := by
      rw [hslice]
      split <;> rfl
    rw [semValue, hsems, semValue, sliceOf, hperg, sliceOf]
  · have hwake := hk.rest
    rw [hrest, ← hdies] at hwake
    exact hwake

/-! ## The acknowledgement of a clear -/

/-- From `s` to `t` idle dies have brought in residents; a die that is not idle stays. -/
structure Brings (d : Nat) (s t : State) : Prop where
  kept : Kept stamps s t
  wf : mapWf {} s.dies = true → mapWf {} t.dies = true
  held : mapWf {} s.dies = true → (dieOf s d).step ≠ .idle → dieOf t d = dieOf s d

theorem Brings.refl (d : Nat) (s : State) : Brings d s s := ⟨.refl s, id, fun _ _ => rfl⟩

theorem Brings.trans {d : Nat} {s t u : State} (h1 : Brings d s t) (h2 : Brings d t u) : Brings d s u where
  kept := h1.kept.trans h2.kept
  wf := h2.wf ∘ h1.wf
  held hw hs := by
    have hd := h1.held hw hs
    exact (h2.held (h1.wf hw) (by rw [hd]; exact hs)).trans hd

theorem Brings.forUpTo {d : Nat} {f : Nat → State → State} (hf : ∀ k s, Brings d s (f k s)) (n : Nat) (s : State) :
    Brings d s (forUpTo n f s) := by
  induction n with
  | zero => exact .refl d s
  | succ n ih => exact ih.trans (hf n _)

/-- A die that is stamped for a resident. -/
def stamped (r : Resident) (k : BitVec 4) (x : Die) : Die := { x with
  current := some r, step := .stamping, coresRun := false, stampCid := r.cid, stampKsel := k, stampVdie := r.vdie }

/-- The stamps of a die, as outputs. -/
def stampOuts (d cid k : Nat) : List Out := (List.range 320).map (fun i => Out.stamp d i cid k)

theorem writeStamps_eq (d : Nat) (r : Resident) (s : State) : writeStamps d r s =
    send (stampOuts d r.cid (kselEn s r.cid).toNat) (updDie d (stamped r (kselEn s r.cid)) s) := by
  unfold writeStamps
  rfl

theorem kept_send {p : Parts} (hp : stamps.le p) (os : List Out) (s : State) : Kept p s (send os s) :=
  Kept.mono (p := stamps) (.of_ctxs rfl (List.prefix_append ..) rfl id) hp

theorem brings_startNext (d k : Nat) (s : State) : Brings d s (startNext k s) := by
  have hstamped : ∀ f os, k ≠ d → Brings d s (send os (updDie k f s)) := fun f os hne =>
    ⟨(kept_updDie k f s).trans (kept_send (fun _ _ => rfl) ..), wf_updDie, fun hw _ => dieOf_updDie_ne hw (Ne.symm hne)⟩
  have hidle : ∀ f os, (dieOf s k).step = .idle → Brings d s (send os (updDie k f s)) := fun f os hs => by
    by_cases h : k = d
    · exact ⟨(kept_updDie k f s).trans (kept_send (fun _ _ => rfl) ..), wf_updDie, fun _ hne => absurd (h ▸ hs) hne⟩
    · exact hstamped f os h
  simp only [startNext]
  split
  next h =>
    split
    · rw [writeStamps_eq]
      exact hidle _ _ h.2.1
    · exact .refl d s
  next => exact .refl d s

theorem brings_kickDies (d : Nat) (s : State) : Brings d s (kickDies s) := .forUpTo (brings_startNext d) Config.dies s

/-- A die whose ctx_clear has fallen after its resident `cid`. -/
def emptied (cid : Nat) (x : Die) : Die := { x with
  ctxClear := false, step := .idle, current := none, coresRun := false
  last := match x.current with | some r => some (r.cid, r.vdie) | none => x.last
  cidOut := BitVec.ofNat 8 cid }

theorem endClear_eq (d c : Nat) (s : State) : endClear d c s = updDie d (emptied c) s := by
  unfold endClear
  rfl

/-- An empty die that may bring in a resident stamps it. -/
theorem startNext_next {d : Nat} {n : Resident} {s : State} (hst : (dieOf s d).state = .running) (hidle : (dieOf s d).step = .idle)
    (hnone : (dieOf s d).current = none) (hnext : nextResident s d = some n) : startNext d s = writeStamps d n s := by
  simp only [startNext, hst, hidle, hnone, hnext, Option.isNone_none, and_self, if_true]

/-- The acknowledgement of a clear, in time, with a resident to bring in. -/
theorem clearAck_next {d b : Nat} {s : State} {r n : Resident} (hwd : mapWf {} s.dies = true) (hst : (dieOf s d).state = .running)
    (hcur : (dieOf s d).current = some r) (hstep : (dieOf s d).step = .clearing b true) (hle : s.tick ≤ b)
    (hcause : (d, DieCause.clearLate) ∉ s.pav.dieCauses) (hnext : nextResident (endClear d r.cid s) d = some n) :
    clearAckEffect d s = kickDies (writeStamps d n (updDie d (emptied r.cid) s)) := by
  rw [endClear_eq] at hnext
  have hself := dieOf_updDie_self (d := d) (f := emptied r.cid) hwd
  have hstart : startNext d (updDie d (emptied r.cid) s) = writeStamps d n (updDie d (emptied r.cid) s) :=
    startNext_next (by rw [hself]; exact hst) (by rw [hself]; rfl) (by rw [hself]; rfl) hnext
  have hstays : emptySwitch d (writeStamps d n (updDie d (emptied r.cid) s)) = writeStamps d n (updDie d (emptied r.cid) s) := by
    have hsome : (dieOf (writeStamps d n (updDie d (emptied r.cid) s)) d).current = some n := by
      rw [writeStamps_eq]
      exact congrArg Die.current (dieOf_updDie_self (f := stamped n _) (wf_updDie hwd))
    simp only [emptySwitch, hsome, Option.isNone_some, Bool.false_eq_true, if_false]
  have hlate : ¬ (b < s.tick ∨ causePending s d .clearLate = true) := by
    simp only [causePending, List.contains_iff_mem, not_or, Nat.not_lt]
    exact ⟨hle, hcause⟩
  simp only [clearAckEffect, clearsFor, stepDeadline, hstep, if_neg hlate, hcur, endClear_eq, hstart, hstays, if_true]

theorem clearAck_spec {d : Nat} {s u : State} {r n : Resident} (hwd : mapWf {} s.dies = true)
    (hu : kickDies (writeStamps d n (updDie d (emptied r.cid) s)) = u) :
    dieOf u d = stamped n (kselEn s n.cid) (emptied r.cid (dieOf s d)) ∧
      (∀ k, k < 320 → .stamp d k n.cid (kselEn s n.cid).toNat ∈ newOuts s u) ∧ u = { s with dies := u.dies, outs := u.outs } := by
  have hksel : kselEn (updDie d (emptied r.cid) s) n.cid = kselEn s n.cid := rfl
  rw [writeStamps_eq, hksel] at hu
  obtain ⟨hself, hother, hrest⟩ := updDie_spec hwd (Eq.refl (updDie d (emptied r.cid) s))
  have hwa : mapWf {} (updDie d (emptied r.cid) s).dies = true := wf_updDie hwd
  have houts : (updDie d (emptied r.cid) s).outs = s.outs := (congrArg State.outs hrest :)
  generalize updDie d (emptied r.cid) s = a at hu hself hrest hwa houts
  have hstamped := dieOf_updDie_self (d := d) (f := stamped n (kselEn s n.cid)) hwa
  have hwb : mapWf {} (updDie d (stamped n (kselEn s n.cid)) a).dies = true := wf_updDie hwa
  have hkb := kept_updDie d (stamped n (kselEn s n.cid)) a
  have houtb : (updDie d (stamped n (kselEn s n.cid)) a).outs = a.outs := rfl
  have hstep : (dieOf (updDie d (stamped n (kselEn s n.cid)) a) d).step ≠ .idle := by
    rw [hstamped]
    exact LodgeStep.noConfusion
  generalize updDie d (stamped n (kselEn s n.cid)) a = b at hu hstamped hwb hkb houtb hstep
  have hbrings := brings_kickDies d (send (stampOuts d n.cid (kselEn s n.cid).toNat) b)
  rw [hu] at hbrings
  refine ⟨?_, fun k hk => ?_, ?_⟩
  · rw [hbrings.held hwb hstep, ← hself, ← hstamped]
    rfl
  · refine Switches.mem_newOuts (ts := b.outs) ?_ hbrings.kept.outs (List.mem_map.mpr ⟨k, List.mem_range.mpr hk, rfl⟩)
    rw [houtb, houts]
  · have hall := (hkb.trans (kept_send (fun _ _ => rfl) _ b)).trans hbrings.kept
    have hlast := hall.rest
    rw [hrest] at hlast
    exact hlast

/-! ## The slice that follows -/

/-- A slice of a resident from tick `n`. -/
def sliceFrom (n : Nat) (r : Resident) (x : Die) : Die := { x with sliceEnd := n + 250 * r.slice }

theorem startSlice_eq (d : Nat) (r : Resident) (s : State) : startSlice d r s = updDie d (sliceFrom s.tick r) s := by
  unfold startSlice
  rfl

/-- A die that has settled on a resident of its set keeps it for the slice. -/
theorem resumed_spec {d : Nat} {r : Resident} {f : Die → Die} {s u : State} (hwd : mapWf {} s.dies = true)
    (hidle : (f (dieOf s d)).step = .idle) (hcur : (f (dieOf s d)).current = some r)
    (hset : (f (dieOf s d)).residents = (dieOf s d).residents) (hin : isResident s d r = true)
    (hu : followSet d (startSlice d r (updDie d f s)) = u) :
    dieOf u d = sliceFrom s.tick r (f (dieOf s d)) ∧ (∀ k, k ≠ d → dieOf u k = dieOf s k) ∧ u = { s with dies := u.dies } := by
  obtain ⟨hself, hother, hrest⟩ := updDie_spec hwd (Eq.refl (updDie d f s))
  have hwa : mapWf {} (updDie d f s).dies = true := wf_updDie hwd
  generalize updDie d f s = a at hu hself hother hrest hwa
  have htick : a.tick = s.tick := (congrArg State.tick hrest :)
  rw [startSlice_eq, htick] at hu
  obtain ⟨hself', hother', hrest'⟩ := updDie_spec hwa (Eq.refl (updDie d (sliceFrom s.tick r) a))
  generalize updDie d (sliceFrom s.tick r) a = b at hu hself' hother' hrest'
  have hdie : dieOf b d = sliceFrom s.tick r (f (dieOf s d)) := hself'.trans (by rw [hself])
  have hin' : isResident b d r = true := by
    rw [isResident, hdie]
    exact (congrArg (fun rs => rs.any (sameResident r)) hset :).trans hin
  have hstay : followSet d b = b := by
    have h1 : (dieOf b d).step = .idle := by rw [hdie]; exact hidle
    have h2 : (dieOf b d).current = some r := by rw [hdie]; exact hcur
    simp only [followSet, h1, h2, hin', ne_eq, not_true_eq_false, if_false, if_true]
  rw [hstay] at hu
  subst hu
  refine ⟨hdie, fun k hk => (hother' k hk).trans (hother k hk), ?_⟩
  rw [hrest] at hrest'
  exact hrest'

/-! ## The restored semaphores -/

section
variable {α : Type} {d : α}

theorem mapGet_of_above {m : NMap α} {k : Nat} (h : ∀ e ∈ m, k < e.1) : mapGet d m k = d := by
  cases m with
  | nil => rfl
  | cons e m =>
    have hlt := h e List.mem_cons_self
    simp only [mapGet, if_neg (Nat.ne_of_lt hlt), if_pos hlt]

theorem mapGet_append_of_below {m n : NMap α} {k : Nat} (h : ∀ e ∈ m, e.1 < k) : mapGet d (m ++ n) k = mapGet d n k := by
  induction m with
  | nil => rfl
  | cons e m ih =>
    have hlt := h e List.mem_cons_self
    simp only [List.cons_append, mapGet, if_neg (Nat.ne_of_gt hlt), if_neg (Nat.lt_asymm hlt)]
    exact ih (fun x hx => h x (List.mem_cons_of_mem _ hx))

theorem mapGet_append_of_above {m n : NMap α} {k : Nat} (h : ∀ e ∈ n, k < e.1) : mapGet d (m ++ n) k = mapGet d m k := by
  induction m with
  | nil => exact mapGet_of_above h
  | cons e m ih => simp only [List.cons_append, mapGet, ih]

/-- A map made of blocks of `w` keys from `b` on: a key is read in its block. -/
theorem mapGet_blocks {f : Nat → NMap α} {b w n k i : Nat} {rest : NMap α}
    (hf : ∀ k, ∀ e ∈ f k, b + w * k ≤ e.1 ∧ e.1 < b + w * (k + 1))
    (hk : k < n) (hi : i < w) (hrest : ∀ e ∈ rest, b + w * n ≤ e.1) :
    mapGet d ((List.range n).flatMap f ++ rest) (b + w * k + i) = mapGet d (f k) (b + w * k + i) := by
  induction n generalizing rest with
  | zero => exact absurd hk (Nat.not_lt_zero k)
  | succ n ih =>
    rw [List.range_succ, List.flatMap_append, List.append_assoc, List.flatMap_singleton]
    have hmul : w * (n + 1) = w * n + w := Nat.mul_succ w n
    by_cases hkn : k = n
    · subst hkn
      rw [mapGet_append_of_below, mapGet_append_of_above]
      · intro e he
        have := hrest e he
        omega
      · intro e he
        obtain ⟨j, hj, hej⟩ := List.mem_flatMap.mp he
        have hle : w * (j + 1) ≤ w * k := Nat.mul_le_mul_left w (List.mem_range.mp hj)
        have := (hf j e hej).2
        omega
    · refine ih (by omega) (fun e he => ?_)
      obtain he | he := List.mem_append.mp he
      · exact (hf n e he).1
      · have := hrest e he
        omega

end

/-- The entry of a semaphore with a value, none for 0. -/
def semEntry (k : Nat) (h : SlotHeader) (i : Nat) : Option (Nat × Nat) :=
  let v := ((h.sems[i]?).getD 0).toNat
  if v = 0 then none else some (48 * k + i, v)

/-- The entries that a header restores, where its slot has a place. -/
def placedEntries (p : Option (Nat × Nat)) (h : Option SlotHeader) (k : Nat) : NMap Nat :=
  match p, h with
  | some _, some h => if h.valid then (List.range 48).filterMap (semEntry k h) else []
  | _, _ => []

/-- The entries that the header of slot `k` restores. -/
def slotEntries (s : State) (d : Nat) (r : Resident) (hs : List SlotHeader) (k : Nat) : NMap Nat :=
  placedEntries (slotPlace s d r.cid r.vdie k) hs[k]? k

theorem restoredSems_eq {s : State} {d : Nat} {r : Resident} {hs : List SlotHeader} (h : (sliceOf s d).service = true) :
    restoredSems s d r hs = (List.range 320).flatMap (slotEntries s d r hs) := by
  unfold restoredSems
  rw [if_pos h]
  refine congrArg (fun f => (List.range 320).flatMap f) (funext fun k => ?_)
  rw [slotEntries]
  cases hp : slotPlace s d r.cid r.vdie k with
  | none => rfl
  | some p =>
    cases hh : hs[k]? with
    | none => rfl
    | some h => rfl

theorem key_semEntry {k i : Nat} {h : SlotHeader} {e : Nat × Nat} (he : semEntry k h i = some e) : e.1 = 48 * k + i := by
  simp only [semEntry] at he
  split at he
  · exact absurd he (by simp)
  · rw [← Option.some.inj he]

theorem key_placedEntries {p : Option (Nat × Nat)} {h : Option SlotHeader} (k : Nat) :
    ∀ e ∈ placedEntries p h k, 0 + 48 * k ≤ e.1 ∧ e.1 < 0 + 48 * (k + 1) := by
  intro e he
  unfold placedEntries at he
  split at he
  · split at he
    · obtain ⟨i, hi, hsome⟩ := List.mem_filterMap.mp he
      have hlt := List.mem_range.mp hi
      have hkey := key_semEntry hsome
      omega
    · exact absurd he List.not_mem_nil
  · exact absurd he List.not_mem_nil

/-- A value read back in a slot's entries. -/
theorem mapGet_placedEntries {p : Option (Nat × Nat)} {k i : Nat} {h : SlotHeader} {v : BitVec 20} (hi : i < 48) (hp : p ≠ none)
    (hvalid : h.valid = true) (hv : h.sems[i]? = some v) : mapGet 0 (placedEntries p (some h) k) (48 * k + i) = v.toNat := by
  obtain ⟨q, rfl⟩ := Option.ne_none_iff_exists'.mp hp
  have hblock := mapGet_blocks (d := 0) (f := fun i => (semEntry k h i).toList) (b := 48 * k) (w := 1) (n := 48) (k := i) (i := 0) (rest := [])
    (fun j e he => by
      have := key_semEntry (Option.mem_toList.mp he)
      omega)
    hi Nat.one_pos (by simp)
  rw [List.append_nil, ← List.filterMap_eq_flatMap_toList, Nat.one_mul, Nat.add_zero] at hblock
  simp only [placedEntries, hvalid, if_true, hblock, semEntry, hv, Option.getD_some]
  split
  next hzero => exact hzero.symm
  next => simp [mapGet]

theorem semValue_setCoreSems {d i : Nat} {vals : NMap Nat} {s : State} (hw : mapWf {} s.perg.slices = true)
    (hwaits : ∀ w ∈ (sliceOf s d).waits, virtBase ≤ w.sem) :
    semValue (setCoreSems d vals s) d i = mapGet 0 (vals ++ (sliceOf s d).sems.filter (fun e => decide (virtBase ≤ e.1))) i := by
  have hnone : (((sliceOf s d).waits.map (·.sem)).filter (fun i => decide (i < virtBase))) = [] := by
    rw [List.filter_eq_nil_iff]
    intro j hj
    obtain ⟨w, hmem, rfl⟩ := List.mem_map.mp hj
    simpa using hwaits w hmem
  simp only [setCoreSems, hnone, List.eraseDups_nil, List.foldl_nil]
  rw [semValue, sliceOf_updSlice_self hw]

/-- The value of a restored header is in force after the restore. -/
theorem semValue_restored {s t : State} {d : Nat} {r : Resident} {hs : List SlotHeader} {k i : Nat} {h : SlotHeader} {v : BitVec 20}
    (hw : mapWf {} t.perg.slices = true) (hwaits : ∀ w ∈ (sliceOf t d).waits, virtBase ≤ w.sem) (hservice : (sliceOf s d).service = true)
    (hk : k < 320) (hi : i < 48) (hplace : slotPlace s d r.cid r.vdie k ≠ none) (hh : hs[k]? = some h) (hvalid : h.valid = true)
    (hv : h.sems[i]? = some v) : semValue (setCoreSems d (restoredSems s d r hs) t) d (48 * k + i) = v.toNat := by
  have hblock := mapGet_blocks (d := 0) (f := slotEntries s d r hs) (b := 0) (w := 48) (n := 320) (k := k) (i := i)
    (rest := (sliceOf t d).sems.filter (fun e => decide (virtBase ≤ e.1))) (fun _ => key_placedEntries _) hk hi
    (fun e he => of_decide_eq_true (List.mem_filter.mp he).2)
  rw [slotEntries, hh, Nat.zero_add, mapGet_placedEntries hi hplace hvalid hv] at hblock
  rw [semValue_setCoreSems hw hwaits, restoredSems_eq hservice, hblock]

/-! ## Restore -/

/-- A slice that holds the set `b` of the context `c`. -/
def holding (c : Nat) (b : NMap Nat) (x : Slice) : Slice := { loadPriv b x with home := some c }

/-- A context whose set is on a slice. -/
def homeAt (d : Nat) (c : Ctx) : Ctx := { c with home := some d }

theorem bindSet_cases (c d : Nat) (s : State) : bindSet c d s = s ∨
    ∃ e, bindSet c d s = updCtx c (homeAt e) (updSlice e (holding c (ctxOf s c).backing) s) := by
  simp only [bindSet]
  split
  · exact .inl rfl
  · split
    · exact .inl rfl
    · exact .inr ⟨_, rfl⟩

theorem sliceOf_updCtx (c : Nat) (f : Ctx → Ctx) (s : State) (k : Nat) : sliceOf (updCtx c f s) k = sliceOf s k := rfl

/-- A set bound changes its context and a slice's set alone; the waits stay. -/
theorem bindSet_spec {c d : Nat} {s u : State} (hu : bindSet c d s = u) : Kept restored s u ∧
    (mapWf {} s.perg.slices = true → mapWf {} u.perg.slices = true ∧ ∀ k, (sliceOf u k).waits = (sliceOf s k).waits) ∧
    (mapWf {} s.ctxs = true → ∀ x, x ≠ c → ctxOf u x = ctxOf s x) := by
  obtain h | ⟨e, h⟩ := bindSet_cases c d s
  · rw [h] at hu
    subst hu
    exact ⟨.refl s, fun hw => ⟨hw, fun _ => rfl⟩, fun _ _ _ => rfl⟩
  · rw [h] at hu
    have hslice := (kept_updSlice e (holding c (ctxOf s c).backing) s).mono wakes_le_restored
    have hwx := fun hw => wf_updSlice (d := e) (f := holding c (ctxOf s c).backing) (s := s) hw
    have hself := fun hw => sliceOf_updSlice_self (d := e) (f := holding c (ctxOf s c).backing) (s := s) hw
    have hother := fun hw k hk => sliceOf_updSlice_ne (d := e) (k := k) (f := holding c (ctxOf s c).backing) (s := s) hw hk
    have hctxs : (updSlice e (holding c (ctxOf s c).backing) s).ctxs = s.ctxs := rfl
    generalize updSlice e (holding c (ctxOf s c).backing) s = a at hu hslice hwx hself hother hctxs
    subst hu
    refine ⟨hslice.trans (.updCtx rfl rfl), fun hw => ⟨hwx hw, fun k => ?_⟩, fun hw x hx => ?_⟩
    · rw [sliceOf_updCtx]
      by_cases hk : k = e
      · subst hk
        rw [hself hw]
        rfl
      · rw [hother hw k hk]
    · rw [ctxOf_updCtx_ne (by rw [hctxs]; exact hw) hx, ctxOf, hctxs, ctxOf]

/-- The semaphores and the set of a resident brought in. -/
theorem setsRestored_spec {d : Nat} {r : Resident} {hs : List SlotHeader} {t c : State} (hwx : mapWf {} t.ctxs = true)
    (hws : mapWf {} t.perg.slices = true) (hc : setCoreSems d (restoredSems t d r hs) (bindSet r.cid d t) = c) :
    Kept restored t c ∧ c.dies = t.dies ∧ c.tick = t.tick ∧ (∀ x, x ≠ r.cid → ctxOf c x = ctxOf t x) ∧
      (∀ k h i v, k < 320 → i < 48 → (sliceOf t d).service = true → slotPlace t d r.cid r.vdie k ≠ none → hs[k]? = some h →
        h.valid = true → h.sems[i]? = some v → (∀ w ∈ (sliceOf t d).waits, virtBase ≤ w.sem) → semValue c d (48 * k + i) = v.toNat) := by
  generalize hb : bindSet r.cid d t = b at hc
  obtain ⟨hkb, hslices, hothers⟩ := bindSet_spec hb
  obtain ⟨hwb, hwaits⟩ := hslices hws
  have hset : Kept wakes b c := hc ▸ kept_setCoreSems ..
  have hctxs : c.ctxs = b.ctxs := (congrArg State.ctxs hset.rest :)
  have hk := hkb.trans (hset.mono wakes_le_restored)
  have hdies : b.dies = t.dies := by
    obtain h | ⟨e, h⟩ := bindSet_cases r.cid d t
    · rw [← hb, h]
    · rw [← hb, h]
      rfl
  refine ⟨hk, (congrArg State.dies hset.rest :).trans hdies, (congrArg State.tick hk.rest :), fun x hx => ?_,
    fun k h i v hk hi hservice hplace hh hvalid hv hw => ?_⟩
  · rw [ctxOf, hctxs]
    exact hothers hwx x hx
  · rw [← hc]
    exact semValue_restored hwb (by rw [hwaits]; exact hw) hservice hk hi hplace hh hvalid hv

/-- A die whose resident `r` has been restored at tick `n`. -/
def released (r : Resident) (n : Nat) (miss : Bool) (x : Die) : Die := { x with
  step := .idle, stampGap := false, coresRun := true, cidIn := BitVec.ofNat 8 r.cid, switches := x.switches + 1
  saveShort := if miss then raise n x.saveShort else x.saveShort }

theorem restoreCores_eq (d : Nat) (r : Resident) (hs : List SlotHeader) (s : State) : restoreCores d r hs s =
    followSet d (startSlice d r (updDie d (released r s.tick (slotMissing s d r))
      (setCoreSems d (restoredSems s d r hs) (bindSet r.cid d s)))) := by
  unfold restoreCores
  rfl

theorem isResident_of {s t : State} (h : t.dies = s.dies) (d : Nat) (r : Resident) : isResident t d r = isResident s d r := by
  rw [isResident, isResident, dieOf, dieOf, h]

theorem restored_of_dies {s u : State} (h : u = { s with dies := u.dies }) : u = restored.put s u := by
  rw [h]
  rfl

/-- A restore whose reads have come. -/
theorem restoreCores_spec {d : Nat} {r : Resident} {hs : List SlotHeader} {t u : State} (hwx : mapWf {} t.ctxs = true)
    (hwd : mapWf {} t.dies = true) (hws : mapWf {} t.perg.slices = true) (hcur : (dieOf t d).current = some r)
    (hin : isResident t d r = true) (hu : restoreCores d r hs t = u) :
    (∃ miss, dieOf u d = sliceFrom t.tick r (released r t.tick miss (dieOf t d))) ∧ (∀ k, k ≠ d → dieOf u k = dieOf t k) ∧
      (∀ x, x ≠ r.cid → ctxOf u x = ctxOf t x) ∧ u = restored.put t u ∧
      (∀ k h i v, k < 320 → i < 48 → (sliceOf t d).service = true → slotPlace t d r.cid r.vdie k ≠ none → hs[k]? = some h →
        h.valid = true → h.sems[i]? = some v → (∀ w ∈ (sliceOf t d).waits, virtBase ≤ w.sem) → semValue u d (48 * k + i) = v.toNat) := by
  rw [restoreCores_eq] at hu
  generalize slotMissing t d r = miss at hu
  generalize hc : setCoreSems d (restoredSems t d r hs) (bindSet r.cid d t) = c at hu
  obtain ⟨hk, hdies, htick, hothers, hsems⟩ := setsRestored_spec hwx hws hc
  have hdie : ∀ k, dieOf c k = dieOf t k := fun k => by rw [dieOf, dieOf, hdies]
  obtain ⟨hself, hother, hrest⟩ := resumed_spec (f := released r t.tick miss) (by rw [hdies]; exact hwd) rfl
    (by rw [hdie]; exact hcur) rfl ((isResident_of hdies d r).trans hin) hu
  have hctx : ∀ x, ctxOf u x = ctxOf c x := fun x => by rw [hrest]; rfl
  have hsem : ∀ i, semValue u d i = semValue c d i := fun i => by rw [hrest]; rfl
  refine ⟨⟨miss, by rw [hself, hdie, htick]⟩, fun k hk => (hother k hk).trans (hdie k), fun x hx => (hctx x).trans (hothers x hx),
    restored.trans hk.rest (restored_of_dies hrest), fun k h i v h1 h2 h3 h4 h5 h6 h7 h8 => ?_⟩
  exact (hsem _).trans (hsems k h i v h1 h2 h3 h4 h5 h6 h7 h8)

/-- A die whose restore was refused. -/
def unreleased (x : Die) : Die := { x with step := .idle, stampGap := false, coresRun := false }

theorem restoreRefused_eq (d : Nat) (r : Resident) (s : State) :
    restoreRefused d r s = followSet d (startSlice d r (updDie d unreleased s)) := by
  unfold restoreRefused
  rfl

theorem restoreRefused_spec {d : Nat} {r : Resident} {t u : State} (hwd : mapWf {} t.dies = true) (hcur : (dieOf t d).current = some r)
    (hin : isResident t d r = true) (hu : restoreRefused d r t = u) :
    dieOf u d = sliceFrom t.tick r (unreleased (dieOf t d)) ∧ (∀ k, k ≠ d → dieOf u k = dieOf t k) ∧ u = { t with dies := u.dies } := by
  rw [restoreRefused_eq] at hu
  exact resumed_spec hwd rfl hcur rfl hin hu

/-- RESTORE_FAIL at tick `n`. -/
def failed (n : Nat) (x : Die) : Die := { x with restoreFail := some n }

theorem restoreFailed_eq (d : Nat) (r : Resident) (s : State) :
    restoreFailed d r s = restoreRefused d r (updDie d (failed s.tick) s) := by
  unfold restoreFailed
  rfl

theorem restoreFailed_spec {d : Nat} {r : Resident} {t u : State} (hwd : mapWf {} t.dies = true) (hcur : (dieOf t d).current = some r)
    (hin : isResident t d r = true) (hu : restoreFailed d r t = u) :
    dieOf u d = sliceFrom t.tick r (unreleased (failed t.tick (dieOf t d))) ∧ u = { t with dies := u.dies } := by
  rw [restoreFailed_eq] at hu
  obtain ⟨hself, hother, hrest⟩ := updDie_spec hwd (Eq.refl (updDie d (failed t.tick) t))
  have hwa : mapWf {} (updDie d (failed t.tick) t).dies = true := wf_updDie hwd
  generalize updDie d (failed t.tick) t = a at hu hself hrest hwa
  have hin' : isResident a d r = true := by
    rw [isResident, hself]
    exact hin
  have htick : a.tick = t.tick := (congrArg State.tick hrest :)
  obtain ⟨huself, huother, hurest⟩ := restoreRefused_spec hwa (by rw [hself]; exact hcur) hin' hu
  refine ⟨by rw [huself, hself, htick], ?_⟩
  rw [hrest] at hurest
  exact hurest

/-! ## A read that fails -/

/-- A channel that has seen a failed tag at tick `n`. -/
def tagSeen (n : Nat) (x : Chan) : Chan := { x with
  tagFail := if false then x.tagFail else raise n x.tagFail, uerr := if false then raise n x.uerr else x.uerr, cntTag := satAdd x.cntTag 1 }

/-- The channel's notes and the record of a failed tag. -/
def tagNoted (ch : Nat) (q : ChanReq) (g : Option Nat) (s : State) : State :=
  fenceRecord ch q g .fencTagFail false (updChan ch (tagSeen (captureFail ch q g false s).tick) (captureFail ch q g false s))

theorem lines_tagNoted (ch c : Nat) (q : ChanReq) (g : Option Nat) (s : State) : Lines refusing c s (tagNoted ch q g s) := by
  have hcapture : Lines refusing c s (captureFail ch q g false s) := by
    refine lines_updChan passing_le_refusing (fun x => ?_)
    split <;> rfl
  have htag : ∀ n t, Lines refusing c t (updChan ch (tagSeen n) t) := fun _ _ => lines_updChan passing_le_refusing fun _ => rfl
  exact (hcapture.trans (htag ..)).trans (lines_fenceRecord ..)

/-- A failed tag of a tenant's line is sampled as a fault of its context (R108). -/
theorem tagFault_eq {ch : Nat} {q : ChanReq} {g : Option Nat} {s : State} (h0 : 1 ≤ q.cid) (h254 : q.cid ≤ 254) :
    tagFault ch q g false s = sampleFault ch q.cid 1 (tagNoted ch q g s) := by
  have hne : ¬ q.cid = 0 := by omega
  unfold tagFault
  simp only [if_neg hne, if_pos h254]
  rfl

/-- What the fault adds. -/
theorem sampleFault_spec (unit c cause : Nat) (s : State) :
    (∃ f ∈ (sampleFault unit c cause s).pav.integ, f.cid = c ∧ f.cause = cause ∧ f.tick = s.tick) ∧
      (sampleFault unit c cause s).dies = s.dies ∧ (sampleFault unit c cause s).ctxs = s.ctxs ∧
      sampleFault unit c cause s = { s with pav := { s.pav with integ := (sampleFault unit c cause s).pav.integ } } :=
  ⟨⟨⟨unit, c, cause, s.tick⟩, List.mem_append_right _ List.mem_cons_self, rfl, rfl, rfl⟩, rfl, rfl, rfl⟩

end Sys2Proof.SwitchSteps
end

section
/-! PROOF. The statement about the steps of a switch (03_tenant_contexts.md Table CTX-6). -/

namespace Sys2Proof.SwitchTable

open Sys2Proof Sys2Proof.Machine Sys2Proof.Laws Sys2Proof.Frames Sys2Proof.Transfers Sys2Proof.Switches Sys2Proof.SwitchSteps

/-! ## The end of the stamps -/

section
variable {d : Nat} {r : Resident} {rd : LineReads} {hs : List SlotHeader} {s : State}

theorem stampDone_stamping (hcur : (dieOf s d).current = some r) (hstep : (dieOf s d).step = .stamping) :
    stampDoneEffect d rd hs s = restoreBy d r rd hs s := by
  simp only [stampDoneEffect, hstep, hcur]

end

/-- Step 6 of Table CTX-6 by the outcome `st` of its reads, in the state after them. -/
def restoreWith (d : Nat) (r : Resident) (st : FetchStatus) (hs : List SlotHeader) (t : State) : State :=
  match st with
  | .ok => restoreCores d r hs t
  | .reserved => restoreRefused d r t
  | .refused => restoreRefused d r t
  | .fenced => restoreRefused d r t
  | .noKey => restoreRefused d r t
  | .tagFail => restoreFailed d r t
  | .uerr => restoreFailed d r t

/-- Stated of the functions, not of their values: the kernel would evaluate the reads of a concrete match. -/
theorem restoreBy_fun : restoreBy = fun d r x hs s => restoreWith d r (readsOutcome s (headerReads s d r) x).status hs
    (readLines (headerReads s d r) (readsOutcome s (headerReads s d r) x) s) := by
  delta restoreBy
  funext d r x hs s
  dsimp only
  generalize readLines _ _ s = t
  generalize (readsOutcome s (headerReads s d r) x).status = st
  cases st <;> simp only [restoreWith]

section
variable {d : Nat} {r : Resident} {rd : LineReads} {hs : List SlotHeader} {s : State}

theorem restoreBy_eq : restoreBy d r rd hs s = restoreWith d r (readsOutcome s (headerReads s d r) rd).status hs
    (readLines (headerReads s d r) (readsOutcome s (headerReads s d r) rd) s) :=
  congrFun (congrFun (congrFun (congrFun (congrFun restoreBy_fun d) r) rd) hs) s

theorem restoreBy_ok (h : (readsOutcome s (headerReads s d r) rd).status = .ok) :
    restoreBy d r rd hs s = restoreCores d r hs ((headerReads s d r).foldl (fun s r => passLine r s) s) := by
  rw [restoreBy_eq, h, restoreWith, readLines_ok h]

theorem restoreBy_tagFail (h : (readsOutcome s (headerReads s d r) rd).status = .tagFail) :
    restoreBy d r rd hs s = restoreFailed d r (readLines (headerReads s d r) (readsOutcome s (headerReads s d r) rd) s) := by
  rw [restoreBy_eq, h, restoreWith]

theorem restoreBy_fenced (h : (readsOutcome s (headerReads s d r) rd).status = .fenced) :
    restoreBy d r rd hs s = restoreRefused d r (readLines (headerReads s d r) (readsOutcome s (headerReads s d r) rd) s) := by
  rw [restoreBy_eq, h, restoreWith]

end

/-- What lines that pass leave to the restore. -/
structure SameDies (s t : State) : Prop where
  dies : t.dies = s.dies
  tick : t.tick = s.tick
  frames : t.frames = s.frames
  perg : t.perg = s.perg

theorem sameDies_of_refusing {s t : State} (h : t = refusing.put s t) : SameDies s t :=
  ⟨(congrArg State.dies h :), (congrArg State.tick h :), (congrArg State.frames h :), (congrArg State.perg h :)⟩

theorem SameDies.dieOf {s t : State} (h : SameDies s t) (k : Nat) : Machine.dieOf t k = Machine.dieOf s k := by
  rw [Machine.dieOf, Machine.dieOf, h.dies]

theorem SameDies.sliceOf {s t : State} (h : SameDies s t) (k : Nat) : Machine.sliceOf t k = Machine.sliceOf s k := by
  rw [Machine.sliceOf, Machine.sliceOf, h.perg]

/-- The restore of a resident whose header reads have all come. -/
theorem restored_served {d : Nat} {r : Resident} {hs : List SlotHeader} {s t u : State} (hwx : mapWf {} s.ctxs = true)
    (hwd : mapWf {} s.dies = true) (hws : mapWf {} s.perg.slices = true) (hcur : (dieOf s d).current = some r)
    (hin : isResident s d r = true) (hlines : Lines passing r.cid s t) (hu : restoreCores d r hs t = u) :
    (∃ miss, dieOf u d = sliceFrom s.tick r (released r s.tick miss (dieOf s d))) ∧
      (∀ k h i v, k < 320 → i < 48 → (sliceOf s d).service = true → slotPlace s d r.cid r.vdie k ≠ none → hs[k]? = some h →
        h.valid = true → h.sems[i]? = some v → (∀ w ∈ (sliceOf s d).waits, virtBase ≤ w.sem) → semValue u d (48 * k + i) = v.toNat) ∧
      (∀ k, k ≠ d → dieOf u k = dieOf s k) ∧ u = restored.put s u ∧ (∀ c, c ≠ r.cid → ctxOf u c = ctxOf s c) := by
  have hsame := sameDies_of_refusing (hlines.kept.mono passing_le_refusing).rest
  obtain ⟨⟨miss, hself⟩, hother, hctx, hrest, hsems⟩ := restoreCores_spec (hlines.kept.wf hwx) (by rw [hsame.dies]; exact hwd)
    (by rw [hsame.perg]; exact hws) (by rw [hsame.dieOf]; exact hcur) ((isResident_of hsame.dies d r).trans hin) hu
  rw [hsame.dieOf, hsame.tick] at hself
  simp only [hsame.sliceOf, slotPlace_of hsame.dies hsame.frames] at hsems
  exact ⟨⟨miss, hself⟩, hsems, fun k hk => (hother k hk).trans (hsame.dieOf k),
    restored.trans (hlines.kept.mono passing_le_restored).rest hrest, fun c hc => (hctx c hc).trans (hlines.others hwx c hc)⟩

/-- What a failed restore changes. -/
def faulted : Parts where
  put s t := { s with
    dies := t.dies, pav := { s.pav with integ := t.pav.integ }, ctxs := t.ctxs, splq := t.splq, outs := t.outs
    host := { s.host with devCnt := t.host.devCnt }, fence := { s.fence with chans := t.fence.chans, zeroAt := t.fence.zeroAt } }
  put_self _ := rfl
  put_put _ _ _ := rfl

theorem refusing_le_faulted : refusing.le faulted := fun _ _ => rfl

theorem faulted_of_dies {s u : State} (h : u = { s with dies := u.dies }) : u = faulted.put s u := by
  rw [h]
  rfl

theorem ctxOf_of_dies {s u : State} (h : u = { s with dies := u.dies }) (c : Nat) : ctxOf u c = ctxOf s c := (congrArg (ctxOf · c) h :)
theorem pav_of_dies {s u : State} (h : u = { s with dies := u.dies }) : u.pav = s.pav := (congrArg State.pav h :)

/-- The restore of a resident one of whose header reads failed its tag. -/
theorem tagFail_served {d ch : Nat} {r : Resident} {s a t u : State} (hwx : mapWf {} s.ctxs = true) (hwd : mapWf {} s.dies = true)
    (hcur : (dieOf s d).current = some r) (hin : isResident s d r = true) (hlines : Lines refusing r.cid s a)
    (ht : sampleFault ch r.cid 1 a = t) (hu : restoreFailed d r t = u) :
    dieOf u d = sliceFrom s.tick r (unreleased (failed s.tick (dieOf s d))) ∧
      (∃ f ∈ u.pav.integ, f.cid = r.cid ∧ f.cause = 1 ∧ f.tick = s.tick) ∧ (∀ c, (ctxOf u c).state = (ctxOf s c).state) ∧
      u = faulted.put s u := by
  have hsame := sameDies_of_refusing hlines.kept.rest
  obtain ⟨hfault, hdies, hctxs, hrest⟩ := sampleFault_spec ch r.cid 1 a
  rw [ht, hsame.tick] at hfault
  rw [ht] at hdies hctxs hrest
  have htick : t.tick = a.tick := (congrArg State.tick hrest :)
  have hat : t.dies = s.dies := hdies.trans hsame.dies
  have hdie : ∀ k, dieOf t k = dieOf s k := fun k => by rw [dieOf, dieOf, hat]
  obtain ⟨hself, hurest⟩ := restoreFailed_spec (by rw [hat]; exact hwd) (by rw [hdie]; exact hcur) ((isResident_of hat d r).trans hin) hu
  have hta : t = faulted.put a t := by
    rw [hrest]
    rfl
  refine ⟨by rw [hself, hdie, htick, hsame.tick], by rw [pav_of_dies hurest]; exact hfault, fun c => ?_,
    faulted.trans (faulted.trans (hlines.kept.mono refusing_le_faulted).rest hta) (faulted_of_dies hurest)⟩
  rw [ctxOf_of_dies hurest, ctxOf, hctxs]
  exact state_of_kept hlines.kept hwx c

/-- The restore of a resident whose header reads were refused. -/
theorem refused_served {d : Nat} {r : Resident} {s t u : State} (hwd : mapWf {} s.dies = true) (hcur : (dieOf s d).current = some r)
    (hin : isResident s d r = true) (hlines : Lines refusing r.cid s t) (hu : restoreRefused d r t = u) :
    dieOf u d = sliceFrom s.tick r (unreleased (dieOf s d)) ∧ (∀ k, k ≠ d → dieOf u k = dieOf s k) ∧ u.pav = s.pav ∧ u.perg = s.perg ∧
      u.frames = s.frames ∧ u.orng = s.orng := by
  have hsame := sameDies_of_refusing hlines.kept.rest
  obtain ⟨hself, hother, hrest⟩ := restoreRefused_spec (by rw [hsame.dies]; exact hwd) (by rw [hsame.dieOf]; exact hcur)
    ((isResident_of hsame.dies d r).trans hin) hu
  have hpav : t.pav = s.pav := (congrArg State.pav hlines.kept.rest :)
  have horng : t.orng = s.orng := (congrArg State.orng hlines.kept.rest :)
  exact ⟨by rw [hself, hsame.dieOf, hsame.tick], fun k hk => (hother k hk).trans (hsame.dieOf k), (congrArg State.pav hrest :).trans hpav,
    (congrArg State.perg hrest :).trans hsame.perg, (congrArg State.frames hrest :).trans hsame.frames,
    (congrArg State.orng hrest :).trans horng⟩

/-! ## The switch point -/

theorem not_causePending {d : Nat} {c : DieCause} {s : State} (h : (d, c) ∉ s.pav.dieCauses) : causePending s d c = false := by
  simpa [causePending] using h

/-- Cores that reach their switch point in time. -/
theorem saveEffect_reached {d b : Nat} {r : Resident} {s : State} (hcur : (dieOf s d).current = some r)
    (hstep : (dieOf s d).step = .preempting b) (hle : s.tick ≤ b) (hcause : (d, DieCause.preemptLate) ∉ s.pav.dieCauses) :
    saveEffect d s = reachSwitch d r s := by
  simp only [saveEffect, hcur, not_causePending hcause, hstep, if_neg (Nat.not_lt.mpr hle), Bool.false_eq_true, if_false]

/-- A die that waits for the answers to its receipts. -/
def awaiting (x : Die) : Die := { x with step := .awaiting }

theorem reachSwitch_owed {d : Nat} {r : Resident} {s : State} (h : answersOwed s d r.cid = true) :
    reachSwitch d r s = updDie d awaiting s := if_pos h

theorem reachSwitch_answered {d : Nat} {r : Resident} {s : State} (h : answersOwed s d r.cid = false) :
    reachSwitch d r s = saveCores d r s := if_neg (by simp [h])

theorem preemptBounded_awaiting {d : Nat} {s : State} (h : (dieOf s d).step = .awaiting) : preemptBounded s d = false := by
  simp only [preemptBounded, h]

/-- A channel that holds what it held. -/
theorem fields_of_traffic {x y : Chan} (h : traffic x = traffic y) :
    x.parked = y.parked ∧ x.fills = y.fills ∧ x.reads = y.reads ∧ x.writes = y.writes :=
  ⟨(congrArg (·.1) h :), (congrArg (·.2.1) h :), (congrArg (·.2.2.1) h :), (congrArg (·.2.2.2) h :)⟩

/-! ## Late steps -/

/-- PREEMPT_LATE at tick `n`. -/
def lateFrom (n : Nat) (x : Die) : Die := { x with preemptLate := some n }

/-- CLEAR_LATE at tick `n`. -/
def clearFrom (n : Nat) (x : Die) : Die := { x with clearLate := some n }

theorem preemptTimeout_late {d b : Nat} {s : State} (hstep : (dieOf s d).step = .preempting b) (hle : b ≤ s.tick)
    (hcause : (d, DieCause.preemptLate) ∉ s.pav.dieCauses) :
    preemptTimeoutEffect d s = lateStep d .preemptLate (updDie d (lateFrom s.tick) s) := by
  simp only [preemptTimeoutEffect, preemptBounded, stepDeadline, hstep, hle, not_causePending hcause, decide_true, Bool.not_false,
    Bool.and_self, if_true]
  rfl

theorem clearTimeout_late {d b : Nat} {sw : Bool} {s : State} (hstep : (dieOf s d).step = .clearing b sw) (hle : b ≤ s.tick)
    (hcause : (d, DieCause.clearLate) ∉ s.pav.dieCauses) :
    clearTimeoutEffect d s = lateStep d .clearLate (updDie d (clearFrom s.tick) s) := by
  simp only [clearTimeoutEffect, clearsFor, stepDeadline, hstep, hle, not_causePending hcause, decide_true, Option.isSome_some, Bool.not_false,
    Bool.and_self, if_true]
  rfl

/-- A late step posts TIMEOUT and requests the reset of its die. -/
theorem lateStep_spec {d : Nat} {f : Die → Die} {c : DieCause} {s u : State} (hc : canonical s = true) (hroom : roomAt s 0 = true)
    (hu : lateStep d c (updDie d f s) = u) :
    dieOf u d = f (dieOf s d) ∧ u.pav = { s.pav with dieCauses := s.pav.dieCauses ++ [(d, c)] } ∧ recorded u 0 .timeout = true ∧
      (∀ k, k ≠ d → dieOf u k = dieOf s k) ∧ u = { s with dies := u.dies, pav := u.pav, splq := u.splq, outs := u.outs } := by
  obtain ⟨hself, hother, hrest⟩ := updDie_spec (canonical_dies hc) (Eq.refl (updDie d f s))
  have hca : canonical (updDie d f s) = true := canonical_updDie hc
  have hra : roomAt (updDie d f s) 0 = true := hroom
  generalize updDie d f s = a at hu hself hother hrest hca hra
  have hrec : recorded (postFault .timeout 1 d (leNat 1 d) a) 0 .timeout = true := recorded_postRecord hca hra (leAt_status ..)
  have hk : Kept records a (postFault .timeout 1 d (leNat 1 d) a) := kept_postRecord (fun _ _ => rfl) ..
  rw [lateStep] at hu
  generalize postFault .timeout 1 d (leNat 1 d) a = b at hu hrec hk
  subst hu
  have hdies : b.dies = a.dies := (congrArg State.dies hk.rest :)
  have hpav : b.pav = s.pav := (congrArg State.pav hk.rest :).trans (congrArg State.pav hrest :)
  have hdie : ∀ k, dieOf (causeDie d c b) k = dieOf a k := fun k => (congrArg (fun m => mapGet {} m k) hdies :)
  refine ⟨(hdie d).trans hself, (congrArg (fun p : Pav => { p with dieCauses := p.dieCauses ++ [(d, c)] }) hpav :), hrec,
    fun k hk => (hdie k).trans (hother k hk), ?_⟩
  have hlast := hk.rest
  rw [hrest, ← hdies] at hlast
  rw [hlast]
  rfl

/-- Settles O30: each step changes its die as Table CTX-6 says, and the parts named with it. -/
theorem switchStepsFollowTheTable : Obligations.SwitchStepsFollowTheTable := by
  unfold Obligations.SwitchStepsFollowTheTable
  refine ⟨fun d s r n hc hcur hstep hend hrun hnext hsame => ?_, fun d s r n hc hcur hstep hend hrun hnext hsame => ?_,
    fun d s r b hc hcur hstep hle howed hwait hcause => ?_, fun d s r b hc hcur hstep hle howed hcause => ?_,
    fun d s r n b hc hst hcur hstep hle hcause hnext => ?_, fun d rd hs s r hc hcur hstep hin hsem hok => ?_,
    fun d rd hs s r hc hcur hstep hin h1 h254 htag => ?_, fun d rd hs s r hc hcur hstep hin hfenced => ?_,
    fun d s b hc hroom hstep hle hbound hcause => ?_, fun d s b sw hc hroom hstep hle hcause => ?_⟩
  · have hlate : ¬ ((dieOf s d).step ≠ .idle ∨ s.tick < (dieOf s d).sliceEnd) := by simp [hstep, hend]
    have heff : sliceEffect d s = requestPreempt d s := by
      simp only [sliceEffect, hcur, if_neg hlate, hnext, hsame, Bool.false_and, Bool.false_eq_true, if_false, giveUp, hrun, if_true]
    obtain ⟨hself, hwaits, hsems, hother, hrest⟩ := requestPreempt_spec (canonical_dies hc) (canonical_perg_slices hc) heff.symm
    exact ⟨_, rfl, hself, hwaits, hsems, hother, hrest⟩
  · have hlate : ¬ ((dieOf s d).step ≠ .idle ∨ s.tick < (dieOf s d).sliceEnd) := by simp [hstep, hend]
    have heff : sliceEffect d s = updDie d (sliceFrom s.tick r) s := by
      simp only [sliceEffect, hcur, if_neg hlate, hnext, hsame, hrun, Bool.and_self, if_true, startSlice_eq]
    obtain ⟨hself, hother, hrest⟩ := updDie_spec (canonical_dies hc) heff.symm
    exact ⟨_, rfl, hself, hother, hrest⟩
  · have heff := (saveEffect_reached hcur hstep hle hcause).trans (reachSwitch_answered howed)
    obtain ⟨hself, houts, hstate, hother, hrest, htraffic⟩ := saveCores_spec (canonical_ctxs hc) (canonical_dies hc)
      (canonical_perg_slices hc) (canonical_fence_chans hc) hwait heff.symm
    have hcleared : ∃ x, dieOf (saveEffect d s) d = clearing s.tick x ∧ x.current = some r := by
      obtain h | ⟨h, -⟩ := hself
      · exact ⟨_, h, hcur⟩
      · exact ⟨_, h, hcur⟩
    obtain ⟨x, hx, hxcur⟩ := hcleared
    exact ⟨_, rfl, (congrArg Die.step hx :), (congrArg Die.ctxClear hx :), (congrArg Die.coresRun hx :),
      (congrArg Die.current hx :).trans hxcur, houts, hself.imp (fun h => (congrArg Die.saveShort h :)) And.right, hstate, hother,
      frames_of_saved hrest, orng_of_saved hrest, scrub_of_saved hrest, locks_of_saved hrest, fun ch => fields_of_traffic (htraffic ch)⟩
  · have heff := (saveEffect_reached hcur hstep hle hcause).trans (reachSwitch_owed howed)
    obtain ⟨hself, hother, hrest⟩ := updDie_spec (canonical_dies hc) heff.symm
    exact ⟨_, rfl, hself, preemptBounded_awaiting (congrArg Die.step hself :), hother, hrest⟩
  · obtain ⟨hself, hstamps, hrest⟩ := clearAck_spec (canonical_dies hc) (clearAck_next (canonical_dies hc) hst hcur hstep hle hcause hnext).symm
    exact ⟨_, rfl, (congrArg Die.ctxClear hself :), (congrArg Die.current hself :), (congrArg Die.step hself :),
      (congrArg Die.stampCid hself :), (congrArg Die.stampVdie hself :), (congrArg Die.cidOut hself :), hstamps, hrest⟩
  · have heff := (stampDone_stamping (rd := rd) (hs := hs) hcur hstep).trans (restoreBy_ok hok)
    obtain ⟨⟨miss, hself⟩, hsems, hother, hrest, hctx⟩ := restored_served (canonical_ctxs hc) (canonical_dies hc) (canonical_perg_slices hc)
      hcur hin (lines_passLines cid_headerReads s) heff.symm
    exact ⟨_, rfl, (congrArg Die.coresRun hself :), (congrArg Die.step hself :), (congrArg Die.cidIn hself :),
      (congrArg Die.switches hself :), (congrArg Die.sliceEnd hself :), hsems, hother, hrest, hctx⟩
  · have heff := (stampDone_stamping (rd := rd) (hs := hs) hcur hstep).trans (restoreBy_tagFail htag)
    obtain ⟨q, t, hq, hlines, hread⟩ := readLines_failed (x := rd) (s := s) (cid_headerReads (d := d) (r := r) (s := s)) (by rw [htag]; decide)
    rw [hread, htag, transferFault, tagFault_eq (by omega) (by omega), hq] at heff
    have hnoted := (hlines.mono passing_le_refusing).trans (lines_tagNoted (lineChan q.line) r.cid q (readGroup (lineChan q.line) q t) t)
    obtain ⟨hself, hfault, hstate, hrest⟩ := tagFail_served (canonical_ctxs hc) (canonical_dies hc) hcur hin hnoted rfl heff.symm
    exact ⟨_, rfl, (congrArg Die.coresRun hself :), (congrArg Die.step hself :), (congrArg Die.restoreFail hself :), hfault,
      (congrArg Die.switches hself :), hstate, hrest⟩
  · have heff := (stampDone_stamping (rd := rd) (hs := hs) hcur hstep).trans (restoreBy_fenced hfenced)
    obtain ⟨q, t, hq, hlines, hread⟩ := readLines_failed (x := rd) (s := s) (cid_headerReads (d := d) (r := r) (s := s)) (by rw [hfenced]; decide)
    rw [hread, hfenced] at heff
    have hrefused := (hlines.mono passing_le_refusing).trans (lines_transferFault (st := .fenced) q r.cid t (by simp) (by simp))
    obtain ⟨hself, hother, hpav, hperg, hframes, horng⟩ := refused_served (canonical_dies hc) hcur hin hrefused heff.symm
    exact ⟨_, rfl, (congrArg Die.coresRun hself :), (congrArg Die.step hself :), (congrArg Die.restoreFail hself :),
      (congrArg Die.switches hself :), hpav, hother, hperg, hframes, horng⟩
  · obtain ⟨hself, hpav, hrec, hother, hrest⟩ := lateStep_spec hc hroom (preemptTimeout_late hstep hle hcause).symm
    exact ⟨_, rfl, hself, hpav, hrec, hother, hrest⟩
  · obtain ⟨hself, hpav, hrec, hother, hrest⟩ := lateStep_spec hc hroom (clearTimeout_late hstep hle hcause).symm
    exact ⟨_, rfl, hself, hpav, hrec, hother, hrest⟩

end Sys2Proof.SwitchTable
end

section
/-! PROOF. The state after reset (04_memory_fence.md R113, 19_faults_and_recovery.md R407): what each array reads as, and the invariants. -/

namespace Sys2Proof.ResetState

open Sys2Proof Sys2Proof.Machine

/-- Settles O3: no array lists an element after reset, so each reads as its default, which holds the manual's value. -/
theorem resetHoldsWhatTheManualGives : Obligations.ResetHoldsWhatTheManualGives := by
  unfold Obligations.ResetHoldsWhatTheManualGives
  exact ⟨rfl, rfl, rfl, fun _ => rfl, fun _ => rfl, fun _ => ⟨rfl, rfl⟩, fun _ => rfl, fun _ => rfl, fun _ => rfl, fun _ => rfl,
    fun _ => ⟨rfl, rfl⟩, rfl, rfl, rfl⟩

/-- Settles O4: every map, store and list of the reset state that the invariants speak of is empty. -/
theorem resetMeetsTheInvariants : Obligations.ResetMeetsTheInvariants := by
  unfold Obligations.ResetMeetsTheInvariants
  exact ⟨rfl, rfl, rfl, rfl⟩

end Sys2Proof.ResetState
end

section
/-! PROOF. What follows a response at a fence port (04_memory_fence.md R87, R103, R111, R267, R319): the digest request, the memory
read and the scrub job that a refused line ends. None of it sends at a fence or memory port, and of the channels it changes what waits
at their internal ports. -/

namespace Sys2Proof.FencePorts

open Sys2Proof Sys2Proof.Machine Sys2Proof.Laws Sys2Proof.Frames

/-! ## Outputs that leave the fence's ports alone -/

/-- The output is neither a response at a fence port nor a request to memory. -/
def offFence : Out → Bool
  | .fenceRsp .. => false
  | .mcReq .. => false
  | _ => true

/-- Between two states outputs that all satisfy `P` have been sent. -/
def Sent (P : Out → Prop) (s t : State) : Prop := ∃ os, t.outs = s.outs ++ os ∧ ∀ o ∈ os, P o

/-- Nothing has been sent at a fence or memory port. -/
abbrev Quiet (s t : State) : Prop := Sent (fun o => offFence o = true) s t

namespace Sent

variable {P Q : Out → Prop} {s t u : State}

theorem of_outs (h : t.outs = s.outs) : Sent P s t := ⟨[], by simp [h], by simp⟩

theorem refl (s : State) : Sent P s s := of_outs rfl

theorem trans (h1 : Sent P s t) (h2 : Sent P t u) : Sent P s u := by
  obtain ⟨os, hos, ho⟩ := h1
  obtain ⟨ps, hps, hp⟩ := h2
  refine ⟨os ++ ps, by rw [hps, hos, List.append_assoc], fun o hmem => ?_⟩
  exact (List.mem_append.mp hmem).elim (ho o) (hp o)

theorem mono (h : Sent P s t) (hPQ : ∀ o, P o → Q o) : Sent Q s t := by
  obtain ⟨os, hos, ho⟩ := h
  exact ⟨os, hos, fun o hmem => hPQ o (ho o hmem)⟩

theorem ite {c : Prop} [Decidable c] (h1 : Sent P s t) (h2 : Sent P s u) : Sent P s (if c then t else u) := by
  split
  · exact h1
  · exact h2

theorem foldl {α : Type} {f : State → α → State} (hf : ∀ s a, Sent P s (f s a)) (as : List α) (s : State) : Sent P s (as.foldl f s) := by
  induction as generalizing s with
  | nil => exact refl s
  | cons a as ih => exact (hf s a).trans (ih _)

theorem emit {o : Out} (h : P o) : Sent P s (Machine.emit o s) := ⟨[o], rfl, by simpa using h⟩

/-- The outputs of a command are those it has sent. -/
theorem newOuts (h : Sent P s t) : ∀ o ∈ Machine.newOuts s t, P o := by
  obtain ⟨os, hos, ho⟩ := h
  simpa [Machine.newOuts, hos] using ho

theorem isPrefix (h : Sent P s t) : s.outs <+: t.outs := by
  obtain ⟨os, hos, -⟩ := h
  exact ⟨os, hos.symm⟩

end Sent

/-! ## Records and answers -/

theorem quiet_putQ (n : Nat) (q : SpillQ) (s : State) : Quiet s (putQ n q s) := by
  refine ⟨_, rfl, fun o ho => ?_⟩
  rcases List.mem_append.mp ho with h | h <;>
    · split at h
      · rw [List.mem_singleton.mp h]
        rfl
      · cases h

theorem quiet_postRecord (q k : Nat) (p : Bytes) (s : State) : Quiet s (postRecord q k p s) := by
  have hone : Quiet s (postEntry q k p s).1 := quiet_putQ ..
  have hlost : Quiet (postEntry q k p s).1 (postEntry 0 10 (genericRecord s .splqOverrun 10 q []) (postEntry q k p s).1).1 := quiet_putQ ..
  have houts : (postRecord q k p s).outs = if (decide (q ≠ 0) && isOverrun (postEntry q k p s).2) = true
      then (postEntry 0 10 (genericRecord s .splqOverrun 10 q []) (postEntry q k p s).1).1.outs else (postEntry q k p s).1.outs := rfl
  split at houts
  · exact (hone.trans hlost).trans (.of_outs houts)
  · exact hone.trans (.of_outs houts)

theorem quiet_irqAfter (noIrq : Bool) (r : Nat) (s : State) : Quiet s (irqAfter noIrq r s) :=
  .ite (.refl s) (.ite (.emit rfl) (.of_outs rfl))

theorem quiet_writeCpl (r : Nat) (noIrq : Bool) (b : Bytes) (s : State) : Quiet s (writeCpl r noIrq b s) := by
  have hcpl : ∀ f (o : Out), offFence o = true → Quiet s (emit o (updCpl r f s)) := fun _ _ h => .emit h
  exact (hcpl _ _ rfl).trans (quiet_irqAfter ..)

theorem quiet_noteBad (ip : InProg) (s : State) : Quiet s (noteBad ip s) := by
  have hring : ∀ f t, Quiet t (updRing ip.ring f t) := fun _ _ => .of_outs rfl
  exact .ite (hring ..) (((hring ..).trans (hring ..)).trans (quiet_postRecord ..))

theorem quiet_completeHost (ip : InProg) (st : Status) (d : Bytes) (s : State) : Quiet s (completeHost ip st d s) := by
  have hprog : ∀ h, Quiet s { s with host := h } := fun _ => .of_outs rfl
  have hbad : ∀ t, Quiet t (if st = .badDescriptor then noteBad ip t else t) := fun t => .ite (quiet_noteBad ..) (.refl t)
  have hcpl : ∀ f t, Quiet t (updCpl ip.cpl f t) := fun _ _ => .of_outs rfl
  have hcount : ∀ t, Quiet t (countUp 5 ip.cid 1 t) := fun _ => .of_outs rfl
  exact .ite (hprog _) ((((hprog _).trans (hbad _)).trans (hcpl ..)).trans (.ite ((quiet_writeCpl ..).trans (hcount _)) (.refl _)))

/-- A completion or a management reply. -/
theorem quiet_finish (w : Waiter) (st : Status) (d : Bytes) (s : State) : Quiet s (finish w st d s) := by
  cases w with
  | none => exact .refl s
  | host id =>
    simp only [finish]
    split
    · exact quiet_completeHost ..
    · exact .refl s
  | mgmt tag =>
    simp only [finish]
    split
    · exact .emit (s := { s with mgmt := _ }) rfl
    · exact .refl s

/-! ## Key slots and digest requests -/

theorem quiet_slotFail (n : Nat) (s : State) : Quiet s (slotFail n false s) := by
  have hbad : ∀ f o, Quiet s { updSlot n f s with orng := o } := fun _ _ => .of_outs rfl
  have hone f o b := (hbad f o).trans (quiet_postRecord 0 15 b _)
  exact .ite ((hone ..).trans (quiet_postRecord ..)) (hone ..)

theorem quiet_checkSlot (n : Nat) (s : State) : Quiet s (checkSlot n s) := .ite (quiet_slotFail ..) (.refl s)

theorem quiet_useSlot (n : Nat) (attr : BitVec 5) (c : Nat) (s : State) : Quiet s (useSlot n attr c s).2 := by
  unfold useSlot
  split
  · simp only []
    split
    · exact .refl s
    · exact quiet_slotFail ..
  · exact .refl s

theorem quiet_answerDg (r : DgReq) (st : Status) (b : Bytes) (s : State) : Quiet s (answerDg r st b s) := .emit rfl

theorem quiet_failDg (e : Nat) (run : DgRun) (st : Status) (s : State) : Quiet s (failDg e run st s) := by
  have hclear : Quiet s (clearDg e s) := .of_outs rfl
  exact hclear.trans (quiet_answerDg ..)

theorem quiet_setQueueDg (q : List DgReq) (s : State) : Quiet s (setQueueDg q s) := by
  refine ⟨_, rfl, fun o ho => ?_⟩
  obtain ⟨x, -, hx⟩ := List.mem_filterMap.mp ho
  dsimp only at hx
  split at hx
  · cases hx
  · cases hx
    rfl

theorem quiet_runDg (e : Nat) (r : DgReq) (chain outer : Bytes) (done : Nat) (s : State) : Quiet s (runDg e r chain outer done s) := by
  have hrun : ∀ d p, Quiet s (emit (.digestPos r.requester r.desc p) { s with dgst := d }) := fun _ _ => .emit (s := { s with dgst := _ }) rfl
  exact .ite (hrun ..) ((hrun ..).trans (quiet_failDg ..))

theorem quiet_startDg (e : Nat) (r : DgReq) (s0 : State) : Quiet s0 (startDg e r s0) := by
  have hunmark : Quiet s0 (unmarkDg r s0) := .of_outs rfl
  refine hunmark.trans ?_
  unfold startDg
  generalize unmarkDg r s0 = s
  have huse := quiet_useSlot r.slot (dgAttr r) r.cid s
  have hcache : ∀ n a k t, Quiet t (cachedStates n a k t).2 := by
    intro n a k t
    simp only [cachedStates]
    split <;> exact .of_outs rfl
  simp only []
  split
  · exact quiet_answerDg ..
  split
  · split
    · split
      · exact quiet_runDg ..
      · exact quiet_answerDg ..
    · exact quiet_runDg ..
  · split
    next key s1 hs =>
      rw [hs] at huse
      split
      · split
        · exact (huse.trans (hcache ..)).trans (quiet_runDg ..)
        · exact ((huse.trans (hcache ..)).trans (.foldl (fun t n => quiet_checkSlot n t) _ _)).trans (quiet_answerDg ..)
      · exact (huse.trans (hcache ..)).trans (quiet_runDg ..)
    next hs =>
      rw [hs] at huse
      exact huse.trans (quiet_answerDg ..)

theorem quiet_pumpDg (n : Nat) (s : State) : Quiet s (pumpDg n s) := by
  induction n generalizing s with
  | zero => exact .refl s
  | succ n ih =>
    unfold pumpDg
    split
    · exact ((quiet_setQueueDg ..).trans (quiet_startDg ..)).trans (ih _)
    · exact .refl s

theorem quiet_leaveDg (e : Nat) (run : DgRun) (s : State) : Quiet s (leaveDg e run s) := by
  unfold leaveDg
  refine Sent.trans ?_ (quiet_pumpDg 16 _)
  split
  · exact .ite ((quiet_setQueueDg ..).trans (quiet_startDg ..)) (.refl s)
  · exact .refl s

end Sys2Proof.FencePorts
end

section
/-! PROOF. A response at a fence port with all that follows it, and its record (04_memory_fence.md R87, R102, R103, R109, Table FENCE-7). -/

namespace Sys2Proof.FencePorts

open Sys2Proof Sys2Proof.Machine Sys2Proof.Laws Sys2Proof.Frames

/-! ## One channel changed -/

/-- From `s` to `t` the channel `ch` alone changes, to `c`, and `os` is sent. -/
structure Changed (ch : Nat) (c : Chan) (os : List Out) (s t : State) : Prop where
  wf : mapWf {} t.fence.chans = true
  self : chanOf t ch = c
  others : ∀ n, n ≠ ch → chanOf t n = chanOf s n
  outs : t.outs = s.outs ++ os
  rest : t = { s with fence := { s.fence with chans := t.fence.chans }, outs := t.outs }

namespace Changed

variable {ch : Nat} {c : Chan} {os : List Out} {s t : State}

theorem refl (hw : mapWf {} s.fence.chans = true) : Changed ch (chanOf s ch) [] s s :=
  ⟨hw, rfl, fun _ _ => rfl, (List.append_nil _).symm, rfl⟩

theorem updChan (h : Changed ch c os s t) (g : Chan → Chan) : Changed ch (g c) os s (updChan ch g t) where
  wf := mapWf_mapMod h.wf
  self := (mapGet_mapMod_same h.wf).trans (congrArg g h.self)
  others n hn := (mapGet_mapMod_other h.wf hn).trans (h.others n hn)
  outs := h.outs
  rest := by
    have hg : ∀ cs, ({ t with fence := { t.fence with chans := cs } } : State) =
        { s with fence := { s.fence with chans := cs }, outs := t.outs } := fun cs => by rw [h.rest]
    exact hg _

theorem emit (h : Changed ch c os s t) (o : Out) : Changed ch c (os ++ [o]) s (emit o t) where
  wf := h.wf
  self := h.self
  others := h.others
  outs := by rw [← List.append_assoc, ← h.outs]; rfl
  rest := by
    have ho : ∀ os, ({ t with outs := os } : State) =
        { s with fence := { s.fence with chans := t.fence.chans }, outs := os } := fun os => by rw [h.rest]
    exact ho _

/-- Where nothing is sent, the channels alone change. -/
theorem silent (h : Changed ch c [] s t) : t = { s with fence := { s.fence with chans := t.fence.chans } } := by
  have hrest := h.rest
  rwa [h.outs, List.append_nil] at hrest

end Changed

/-! ## What a response changes -/

/-- A channel without its counts, its record limits and what waits at its internal port: what no response changes. -/
def bare (c : Chan) : Chan := { c with intQ := [], counts := [], recs := [], permNext := 0, keyNext := 0 }

/-- From `s` to `t` the channel `ch` responds to the request `q` with `x` at most: nothing else is sent at a fence or memory port, and
of the other channels at most the waiting lines of a stopped scrub job go. -/
structure Responds (x : Out) (ch : Nat) (q : ChanReq) (s t : State) : Prop where
  kept : Kept units s t
  sent : Sent (fun o => offFence o = true ∨ o = x) s t
  wf : mapWf {} s.fence.chans = true → mapWf {} t.fence.chans = true
  self : mapWf {} s.fence.chans = true → bare (chanOf t ch) = bare (chanOf s ch)
  others : mapWf {} s.fence.chans = true → ∀ n, n ≠ ch → chanOf t n = { chanOf s n with intQ := (chanOf t n).intQ }
  still : mapWf {} s.fence.chans = true → q.port ≠ .internal .scrub → ∀ n, n ≠ ch → chanOf t n = chanOf s n

namespace Responds

variable {x : Out} {ch : Nat} {q : ChanReq} {s t u : State}

theorem refl (s : State) : Responds x ch q s s := ⟨.refl s, .refl s, id, fun _ => rfl, fun _ _ _ => rfl, fun _ _ _ _ => rfl⟩

theorem trans (h1 : Responds x ch q s t) (h2 : Responds x ch q t u) : Responds x ch q s u where
  kept := h1.kept.trans h2.kept
  sent := h1.sent.trans h2.sent
  wf := h2.wf ∘ h1.wf
  self hw := (h2.self (h1.wf hw)).trans (h1.self hw)
  others hw n hn := by
    have h := h2.others (h1.wf hw) n hn
    rw [h1.others hw n hn] at h
    exact h
  still hw hq n hn := (h2.still (h1.wf hw) hq n hn).trans (h1.still hw hq n hn)

theorem ite {c : Prop} [Decidable c] (h1 : Responds x ch q s t) (h2 : Responds x ch q s u) : Responds x ch q s (if c then t else u) := by
  split
  · exact h1
  · exact h2

/-- What leaves the channels and the fence's ports. -/
theorem of_kept (hk : Kept units s t) (hq : Quiet s t) (hf : t.fence.chans = s.fence.chans) : Responds x ch q s t where
  kept := hk
  sent := hq.mono fun _ => .inl
  wf hw := hf ▸ hw
  self _ := by rw [chanOf, chanOf, hf]
  others _ n _ := by rw [chanOf, chanOf, hf]
  still _ _ n _ := by rw [chanOf, chanOf, hf]

/-- The channel changed in what a response may change. -/
theorem updChan {f : Chan → Chan} (hf : ∀ c, bare (f c) = bare c) : Responds x ch q s (updChan ch f s) where
  kept := .silent rfl rfl rfl rfl
  sent := .of_outs rfl
  wf := mapWf_mapMod
  self hw := (congrArg bare (mapGet_mapMod_same hw)).trans (hf _)
  others hw n hn := by
    have h : chanOf (Machine.updChan ch f s) n = chanOf s n := mapGet_mapMod_other hw hn
    rw [h]
  still hw _ _ hn := mapGet_mapMod_other hw hn

theorem emitSelf : Responds x ch q s (emit x s) :=
  ⟨kept_emit answers_le_units x s, .emit (.inr rfl), id, fun _ => rfl, fun _ _ _ => rfl, fun _ _ _ _ => rfl⟩

end Responds

section
variable {x : Out} {ch : Nat} {q : ChanReq}

theorem responds_finish (w : Waiter) (st : Status) (d : Bytes) (s : State) : Responds x ch q s (finish w st d s) :=
  .of_kept (kept_finish answers_le_units ..) (quiet_finish ..)
    (congrArg (·.fence.chans) (kept_finish (p := answers) (fun _ _ => rfl) w st d s).rest :)

theorem responds_postRecord (n k : Nat) (b : Bytes) (s : State) : Responds x ch q s (postRecord n k b s) :=
  .of_kept (kept_postRecord (records_le_answers.trans answers_le_units) ..) (quiet_postRecord ..) rfl

/-- A digest request that a refused line ends (R267). -/
theorem responds_digestBusError (r : ChanReq) (row : Nat) (s : State) : Responds x ch q s (digestBusError r row s) := by
  have hleave : ∀ e run st, Responds x ch q s (leaveDg e run (failDg e run st s)) := fun e run st => by
    have hk : Kept vault s (leaveDg e run (failDg e run st s)) := (kept_failDg ..).trans (kept_leaveDg ..)
    exact .of_kept (hk.mono vault_le_units) ((quiet_failDg ..).trans (quiet_leaveDg ..)) (congrArg (·.fence.chans) hk.rest :)
  simp only [digestBusError]
  split
  · split
    · exact .ite (hleave ..) (.refl s)
    · exact .refl s
  · exact .refl s

/-- A memory read that a line's answer ends or carries on (R319). -/
theorem responds_memReadAnswer (r : ChanReq) (kind row : Nat) (d : BitVec 512) (s : State) :
    Responds x ch q s (memReadAnswer r kind row d s) := by
  have hreads : ∀ m, Responds x ch q s { s with fence := { s.fence with memReads := m } } := fun _ =>
    .of_kept (.silent rfl rfl rfl rfl) (.of_outs rfl) rfl
  simp only [memReadAnswer]
  split
  · exact .ite ((hreads _).trans (responds_finish ..)) (.ite ((hreads _).trans (responds_finish ..)) (hreads _))
  · exact .refl s

end

/-! ## Scrub jobs -/

/-- A request that no scrub line is stops no scrub job. -/
theorem scrubRefused_other {q : ChanReq} {row : Nat} {s : State} (h : q.port ≠ .internal .scrub) : scrubRefused q row s = s := by
  have hnone : s.fence.scrub.filter (fun x => x.started && scrubLine x.frame q) = [] := by simp [scrubLine, h]
  simp only [scrubRefused, stopScrub, hnone]
  rfl

/-- The waiting lines that fail `f` gone from every channel. -/
def dropLines (f : ChanReq → Bool) (s : State) : State :=
  { s with fence := { s.fence with chans := mapAll {} (fun _ c => { c with intQ := c.intQ.filter f }) s.fence.chans } }

theorem chanOf_dropLines {f : ChanReq → Bool} {s : State} (hw : mapWf {} s.fence.chans = true) (n : Nat) :
    chanOf (dropLines f s) n = { chanOf s n with intQ := (chanOf s n).intQ.filter f } :=
  LockedChanges.mapGet_mapAll (f := fun _ (c : Chan) => { c with intQ := c.intQ.filter f }) hw rfl

theorem responds_dropLines {x : Out} {ch : Nat} {q : ChanReq} (hq : q.port = .internal .scrub) (f : ChanReq → Bool) (s : State) :
    Responds x ch q s (dropLines f s) where
  kept := .silent rfl rfl rfl rfl
  sent := .of_outs rfl
  wf hw := mapWf_mapAll (f := fun _ (c : Chan) => { c with intQ := c.intQ.filter f }) hw
  self hw := by rw [chanOf_dropLines hw]; rfl
  others hw n _ := by rw [chanOf_dropLines hw]
  still _ hp := absurd hq hp

/-- A scrub job that a refused line stops loses its waiting lines at every channel (R111). -/
theorem responds_scrubRefused {x : Out} {ch : Nat} (q : ChanReq) (row : Nat) (s : State) : Responds x ch q s (scrubRefused q row s) := by
  by_cases hport : q.port = .internal .scrub
  · have hqueue : ∀ scrub jobs aborted t, Responds x ch q t
        { t with fence := { t.fence with scrub := scrub, jobs := jobs, aborted := aborted } } := fun _ _ _ _ =>
      .of_kept (.silent rfl rfl rfl rfl) (.of_outs rfl) rfl
    have hfinish : ∀ (js : List ScrubJob) st t, Responds x ch q t (js.foldl (fun s j => finish j.waiter st [] s) t) := by
      intro js st t
      induction js generalizing t with
      | nil => exact .refl t
      | cons j js ih => exact (responds_finish ..).trans (ih _)
    simp only [scrubRefused, stopScrub]
    exact .ite (.refl s) (((responds_dropLines hport _ s).trans (hqueue ..)).trans (hfinish ..))
  · rw [scrubRefused_other hport]
    exact .refl s

/-! ## Counts -/

theorem countDown_rest (ch c : Nat) (s : State) : countDown ch c s =
    { s with fence := { s.fence with chans := (countDown ch c s).fence.chans, zeroAt := (countDown ch c s).fence.zeroAt } } := by
  simp only [countDown]
  split <;> rfl

theorem countDown_chans (ch c : Nat) (s : State) :
    (countDown ch c s).fence.chans = mapMod {} s.fence.chans ch (fun x => { x with counts := mapMod 0 x.counts c (· - 1) }) := by
  simp only [countDown]
  split <;> rfl

theorem countDown_outs (ch c : Nat) (s : State) : (countDown ch c s).outs = s.outs := by rw [countDown_rest]

theorem chanOf_countDown_self {ch c : Nat} {s : State} (hw : mapWf {} s.fence.chans = true) :
    chanOf (countDown ch c s) ch = { chanOf s ch with counts := mapMod 0 (chanOf s ch).counts c (· - 1) } := by
  rw [chanOf, countDown_chans]
  exact mapGet_mapMod_same hw

theorem responds_countDown {x : Out} {ch : Nat} {q : ChanReq} (c : Nat) (s : State) : Responds x ch q s (countDown ch c s) := by
  have hfall : Responds x ch q s (updChan ch (fun x => { x with counts := mapMod 0 x.counts c (· - 1) }) s) := .updChan fun _ => rfl
  have hzero : ∀ z t, Responds x ch q t { t with fence := { t.fence with zeroAt := z } } := fun _ _ =>
    .of_kept (.silent rfl rfl rfl rfl) (.of_outs rfl) rfl
  exact .ite (hfall.trans (hzero ..)) hfall

/-! ## The response and its record -/

/-- The response to a request (Table PORT-2): the row goes to the internal port alone. -/
def response (ch : Nat) (q : ChanReq) (kind row : Nat) (d : BitVec 512) : Out :=
  .fenceRsp ch q.port q.tag kind (if isInternal q then row else 0) d

section
variable {ch : Nat} {q : ChanReq} {kind row : Nat} {d : BitVec 512} {s : State}

/-- What follows the response itself and the fall of the count. -/
theorem responds_afterwards {x : Out} : Responds x ch q (countDown ch q.cid (emit (response ch q kind row d) s)) (respond ch q kind row d s) :=
  (Responds.ite ((responds_digestBusError ..).trans (responds_scrubRefused ..)) (.refl _)).trans (responds_memReadAnswer ..)

theorem responds_respond : Responds (response ch q kind row d) ch q s (respond ch q kind row d s) :=
  (Responds.emitSelf.trans (responds_countDown ..)).trans responds_afterwards

theorem response_prefix : s.outs ++ [response ch q kind row d] <+: (respond ch q kind row d s).outs := by
  have h := (responds_afterwards (x := response ch q kind row d) (ch := ch) (q := q) (kind := kind) (row := row) (d := d) (s := s)).kept.outs
  rwa [countDown_outs] at h

/-- Nothing but the fall of the count follows an acknowledgement or data, other than for a memory read. -/
theorem respond_served (hkind : kind ≠ 2) (hport : q.port ≠ .internal .memoryRead) :
    respond ch q kind row d s = countDown ch q.cid (emit (response ch q kind row d) s) := by
  simp only [respond, if_neg hkind, memReadAnswer]
  split
  next h _ => exact absurd h hport
  next => rfl

/-- Nothing but the fall of the count follows a refusal at the fabric port or to a Lodge. -/
theorem respond_refused (hport : q.port = .fabric ∨ ∃ die, q.port = .internal (.lodge die)) :
    respond ch q 2 row d s = countDown ch q.cid (emit (response ch q 2 row d) s) := by
  have hscrub : ∀ t, scrubRefused q row t = t := fun t =>
    scrubRefused_other (by rcases hport with h | ⟨die, h⟩ <;> simp [h])
  have hdigest : ∀ t, digestBusError q row t = t := fun t => by
    rcases hport with h | ⟨die, h⟩ <;> simp only [digestBusError, h]
  have hread : ∀ t, memReadAnswer q 2 row d t = t := fun t => by
    rcases hport with h | ⟨die, h⟩ <;> simp only [memReadAnswer, h]
  simp only [respond, if_true, hscrub, hdigest, hread, response]

theorem responds_fenceRecord {x : Out} (r : ChanReq) (g : Option Nat) (st : Status) (uerr : Bool) :
    Responds x ch q s (fenceRecord ch r g st uerr s) := by
  simp only [fenceRecord]
  split
  · exact .refl s
  · refine .trans ?_ (responds_postRecord ..)
    exact .updChan fun _ => rfl

end

end Sys2Proof.FencePorts
end

section
/-! PROOF. Requests at a fence channel (04_memory_fence.md R86 to R96, R103, Table FENCE-7): issue, park and refusal. -/

namespace Sys2Proof.FenceRequests

open Sys2Proof Sys2Proof.Machine Sys2Proof.Laws Sys2Proof.Frames Sys2Proof.FencePorts

/-! ## A channel that notes and responds -/

/-- From `s` to `t` the channel `ch` has come to `c`, but for what a response changes, and has responded to `q` with `x` at most; contexts
keep their states and frames their records. -/
structure Noted (x : Out) (ch : Nat) (q : ChanReq) (c : Chan) (s t : State) : Prop where
  sent : Sent (fun o => offFence o = true ∨ o = x) s t
  wf : mapWf {} t.fence.chans = true
  ctxs : mapWf {} t.ctxs = true
  self : bare (chanOf t ch) = bare c
  others : ∀ n, n ≠ ch → chanOf t n = { chanOf s n with intQ := (chanOf t n).intQ }
  still : q.port ≠ .internal .scrub → ∀ n, n ≠ ch → chanOf t n = chanOf s n
  life : ∀ k, life (ctxOf t k) = life (ctxOf s k)
  frames : t.frames = s.frames
  tick : t.tick = s.tick

namespace Noted

variable {x : Out} {ch : Nat} {q : ChanReq} {c : Chan} {s t u : State}

theorem refl (hc : canonical s = true) : Noted x ch q (chanOf s ch) s s :=
  ⟨.refl s, canonical_fence_chans hc, canonical_ctxs hc, rfl, fun _ _ => rfl, fun _ _ _ => rfl, fun _ => rfl, rfl, rfl⟩

theorem responds (h : Noted x ch q c s t) (hr : Responds x ch q t u) : Noted x ch q c s u where
  sent := h.sent.trans hr.sent
  wf := hr.wf h.wf
  ctxs := hr.kept.wf h.ctxs
  self := (hr.self h.wf).trans h.self
  others n hn := by
    have hu := hr.others h.wf n hn
    rw [h.others n hn] at hu
    exact hu
  still hq n hn := (hr.still h.wf hq n hn).trans (h.still hq n hn)
  life k := (hr.kept.life h.ctxs k).trans (h.life k)
  frames := (congrArg State.frames hr.kept.rest).trans h.frames
  tick := (congrArg State.tick hr.kept.rest).trans h.tick

/-- The channel notes `g`, which neither reads nor changes what responses change. -/
theorem updChan {g : Chan → Chan} (h : Noted x ch q c s t) (hg : ∀ c, bare (g c) = g (bare c)) :
    Noted x ch q (g c) s (updChan ch g t) where
  sent := h.sent.trans (.of_outs rfl)
  wf := mapWf_mapMod h.wf
  ctxs := h.ctxs
  self := calc
    bare (chanOf (Machine.updChan ch g t) ch) = g (bare (chanOf t ch)) := (congrArg bare (mapGet_mapMod_same h.wf)).trans (hg _)
    _ = bare (g c) := by rw [h.self, ← hg]
  others n hn := by
    have hu : chanOf (Machine.updChan ch g t) n = chanOf t n := mapGet_mapMod_other h.wf hn
    rw [hu]
    exact h.others n hn
  still hq n hn := (mapGet_mapMod_other h.wf hn).trans (h.still hq n hn)
  life := h.life
  frames := h.frames
  tick := h.tick

/-- Something sent away from the fence's ports. -/
theorem emit (h : Noted x ch q c s t) {o : Out} (ho : offFence o = true) : Noted x ch q c s (emit o t) :=
  ⟨h.sent.trans (.emit (.inl ho)), h.wf, h.ctxs, h.self, h.others, h.still, h.life, h.frames, h.tick⟩

/-- A change of the alarms alone. -/
theorem alarms (h : Noted x ch q c s t) (p : Pav) : Noted x ch q c s { t with pav := p } :=
  ⟨h.sent.trans (.of_outs rfl), h.wf, h.ctxs, h.self, h.others, h.still, h.life, h.frames, h.tick⟩

theorem state (h : Noted x ch q c s t) (k : Nat) : (ctxOf t k).state = (ctxOf s k).state := (congrArg Ctx.state (h.life k) :)

end Noted

/-! ## Acceptance -/

theorem exec_fenceReadRequest (r : FenceReq) (s : State) :
    exec (.fenceReadRequest r) s = .next (acceptReq r.ch (asReq s r none) s) := rfl

theorem exec_fenceWriteRequest (r : FenceReq) (d : BitVec 512) (s : State) :
    exec (.fenceWriteRequest r d) s = .next (acceptReq r.ch (asReq s r (some d)) s) := rfl

section
variable {ch : Nat} {q : ChanReq} {s : State}

/-- A request that passes rows 1 to 3. -/
theorem passes_rows (h : passesRows ch q s = true) : (isInternal q = true ∨ gateOpen s 1 = true) ∧ reservedReq q = false ∧
    routeOk s ch q.line = true ∧ cidRefused s ch q.cid = false ∧ s.pav.tamper = false := by
  simp only [passesRows, Bool.and_eq_true, Bool.or_eq_true, Bool.not_eq_true', decide_eq_true_eq] at h
  obtain ⟨⟨⟨⟨hport, hread⟩, hroute⟩, hcid⟩, htamper⟩ := h
  refine ⟨hport.imp id fun h => h.1.1, ?_, hroute, hcid, htamper⟩
  rcases hport with hin | ⟨⟨-, h0⟩, h255⟩
  · rcases hread with hw | h255
    · simp [reservedReq, hin, hw]
    · simp [reservedReq, hin, h255]
  · simp [reservedReq, h0, h255]

/-- A request whose pair has its entry finds its place. -/
theorem reqHeld_hit {e : KcEntry} (hpark : (chanOf s ch).parked = []) (he : findEntry s.tick q.cid q.ksel (chanOf s ch).entries = some e) :
    reqHeld s ch q = false := by simp [reqHeld, hpark, he]

/-- A request that misses finds its place while a fill can be raised for it. -/
theorem reqHeld_miss (hpark : (chanOf s ch).parked = []) (hfills : liveFills (chanOf s ch) < 4) : reqHeld s ch q = false := by
  simp [reqHeld, hpark, Nat.not_le.mpr hfills]

/-- A request that is refused at key select needs room in the park buffer alone. -/
theorem reqHeld_refused (hlen : (chanOf s ch).parked.length < 64) (hr : refusedAtSelect s ch q = true) : reqHeld s ch q = false := by
  simp [reqHeld, Nat.not_le.mpr hlen, hr]

theorem acceptReq_selected (h : passesRows ch q s = true) (hheld : reqHeld s ch q = false) :
    acceptReq ch q s = selectReq ch q (countRise ch q.cid s) := by
  obtain ⟨hport, hres, hroute, hcid, htamper⟩ := passes_rows h
  have hgate : (!isInternal q && !gateOpen s 1) = false := by rcases hport with h | h <;> simp [h]
  simp only [acceptReq, hgate, hheld, hres, hroute, hcid, htamper, Bool.false_and, Bool.not_true, Bool.false_eq_true, if_false]

end

/-! ## Issue -/

section
variable {ch : Nat} {q : ChanReq} {e : KcEntry} {s : State}

/-- The channel with a request counted (R102). -/
def counted (q : ChanReq) (c : Chan) : Chan := { c with counts := mapMod 0 c.counts q.cid (· + 1) }

theorem changed_countRise (hc : canonical s = true) : Changed ch (counted q (chanOf s ch)) [] s (countRise ch q.cid s) :=
  (Changed.refl (canonical_fence_chans hc)).updChan (counted q)

/-- A request whose entry is there, and behind which nothing is parked, is issued. -/
theorem selectReq_hit (hpark : (chanOf s ch).parked = []) (he : findEntry s.tick q.cid q.ksel (chanOf s ch).entries = some e) :
    selectReq ch q s = issueReq ch q e s := by simp [selectReq, he, hpark]

/-- An accepted request whose key is cached is issued. -/
theorem acceptReq_hit (hc : canonical s = true) (h : passesRows ch q s = true) (hpark : (chanOf s ch).parked = [])
    (he : findEntry s.tick q.cid q.ksel (chanOf s ch).entries = some e) : acceptReq ch q s = issueReq ch q e (countRise ch q.cid s) := by
  have hself := (changed_countRise (ch := ch) (q := q) hc).self
  rw [acceptReq_selected h (reqHeld_hit hpark he)]
  refine selectReq_hit ?_ ?_
  · rw [hself]; exact hpark
  · rw [hself]; exact he

/-- The entry moved to the front, and the hit counted. -/
def touched (e : KcEntry) (c : Chan) : Chan := { c with entries := touchEntry e c.entries, hit := satAdd c.hit 1 }

theorem issueReq_read (hd : q.data = none) : issueReq ch q e s =
    emit (.mcReq ch false q.line 0 0) (updChan ch (fun c => { c with reads := c.reads ++ [⟨q, e, false⟩] }) (updChan ch (touched e) s)) := by
  simp only [issueReq, hd]
  rfl

theorem issueReq_write {d : BitVec 512} (hd : q.data = some d) (hs : entrySealed s.tick e = false) : issueReq ch q e s =
    emit (.mcReq ch true q.line (encryptLine e q.line d).1 (encryptLine e q.line d).2)
      (updChan ch (fun c => { c with writes := c.writes ++ [q] }) (updChan ch (touched e) s)) := by
  simp only [issueReq, hd, hs]
  rfl

theorem issueReq_sealed {d : BitVec 512} (hd : q.data = some d) (hs : entrySealed s.tick e = true) :
    issueReq ch q e s = refuseSealed ch q e (updChan ch (touched e) s) := by
  simp only [issueReq, hd, hs]
  rfl

theorem changed_issueRead (hc : canonical s = true) (hd : q.data = none) :
    Changed ch { hitChan (chanOf s ch) q e with reads := (chanOf s ch).reads ++ [⟨q, e, false⟩] } [.mcReq ch false q.line 0 0] s
      (issueReq ch q e (countRise ch q.cid s)) :=
  issueReq_read hd ▸ (((changed_countRise hc).updChan (touched e)).updChan (fun c => { c with reads := c.reads ++ [⟨q, e, false⟩] })).emit _

theorem changed_issueWrite {d : BitVec 512} (hc : canonical s = true) (hd : q.data = some d) (hs : entrySealed s.tick e = false) :
    Changed ch { hitChan (chanOf s ch) q e with writes := (chanOf s ch).writes ++ [q] }
      [.mcReq ch true q.line (encryptLine e q.line d).1 (encryptLine e q.line d).2] s (issueReq ch q e (countRise ch q.cid s)) :=
  issueReq_write (s := countRise ch q.cid s) hd hs ▸
    (((changed_countRise hc).updChan (touched e)).updChan (fun c => { c with writes := c.writes ++ [q] })).emit _

end

/-! ## Park (R96) -/

section
variable {ch : Nat} {q : ChanReq} {s : State}

/-- The channel whose first parked request is `q`, with a fill raised for its pair. -/
def missed (q : ChanReq) (t : Nat) (c : Chan) : Chan := { counted q c with
  parked := [q], fills := c.fills ++ [⟨q.cid, q.ksel, true, false, false, t⟩], miss := satAdd c.miss 1 }

theorem changed_miss (hc : canonical s = true) (h : passesRows ch q s = true) (hpark : (chanOf s ch).parked = [])
    (he : findEntry s.tick q.cid q.ksel (chanOf s ch).entries = none) (hout : fillOutstanding (chanOf s ch) q.cid q.ksel = false)
    (hfills : liveFills (chanOf s ch) < 4) : Changed ch (missed q s.tick (chanOf s ch)) [] s (acceptReq ch q s) := by
  have hrise := changed_countRise (ch := ch) (q := q) hc
  have hmiss : acceptReq ch q s = raiseFill ch q.cid q.ksel (park ch q (countRise ch q.cid s)) := by
    have he' : findEntry (countRise ch q.cid s).tick q.cid q.ksel (chanOf (countRise ch q.cid s) ch).entries = none := by
      rw [hrise.self]; exact he
    have hout' : fillOutstanding (chanOf (countRise ch q.cid s) ch) q.cid q.ksel = false := by
      rw [hrise.self]; exact hout
    rw [acceptReq_selected h (reqHeld_miss hpark hfills)]
    simp only [selectReq, missReq, he', hout', Bool.false_eq_true, if_false]
  have hroom : (if (counted q (chanOf s ch)).parked.length + 1 ≥ 64 then raise s.tick (counted q (chanOf s ch)).parkFull
      else (counted q (chanOf s ch)).parkFull) = (chanOf s ch).parkFull := by simp [counted, hpark]
  have hparked : Changed ch { counted q (chanOf s ch) with parked := [q] } [] s (park ch q (countRise ch q.cid s)) := by
    have h := hrise.updChan (fun c => { c with
      parked := c.parked ++ [q], parkFull := if c.parked.length + 1 ≥ 64 then raise s.tick c.parkFull else c.parkFull })
    rwa [hroom, show (counted q (chanOf s ch)).parked ++ [q] = [q] by simp [counted, hpark]] at h
  exact hmiss ▸ hparked.updChan (fun c => { c with
    fills := c.fills ++ [⟨q.cid, q.ksel, true, false, false, s.tick⟩], miss := satAdd c.miss 1 })

end

/-! ## Refusal (rows 1 to 5) -/

section
variable {ch : Nat} {q : ChanReq} {c : Chan} {row : Nat} {s t u : State}

/-- From `s` to `u` the channel `ch`, which has come to `c`, has refused `q` by a row of Table FENCE-7. -/
structure Refused (ch : Nat) (q : ChanReq) (row : Nat) (c : Chan) (s u : State) : Prop where
  noted : Noted (response ch q 2 row 0) ch q c s u
  answered : response ch q 2 row 0 ∈ newOuts s u

/-- A refused request is answered, and then recorded. -/
theorem Noted.refuse (h : Noted (response ch q 2 row 0) ch q c s t) (hr : Responds (response ch q 2 row 0) ch q (respond ch q 2 row 0 t) u) :
    Refused ch q row c s u :=
  ⟨(h.responds responds_respond).responds hr, HostPath.mem_newOuts h.sent.isPrefix (response_prefix.trans hr.kept.outs)⟩

/-- No request to memory is among what a refusal sends. -/
theorem Refused.no_mcReq (h : Refused ch q row c s u) (k ln : Nat) (w : Bool) (y : BitVec 512) (z : Word) :
    Out.mcReq k w ln y z ∉ newOuts s u := by
  intro hmem
  rcases h.noted.sent.newOuts _ hmem with hoff | heq
  · exact Bool.false_ne_true hoff
  · cases heq

/-- An accepted request is counted, which a response undoes. -/
theorem noted_countRise {x : Out} (hc : canonical s = true) : Noted x ch q (chanOf s ch) s (countRise ch q.cid s) :=
  (Noted.refl hc).responds (.updChan fun _ => rfl)

/-- What row 1 notes at the channel in tick `n`. -/
def noteReserved (n : Nat) (c : Chan) : Chan := { c with resCid := raise n c.resCid, cntRefuse := satAdd c.cntRefuse 1 }
/-- What row 2 notes. -/
def noteRoute (n : Nat) (c : Chan) : Chan := { c with routeErr := raise n c.routeErr, cntRefuse := satAdd c.cntRefuse 1 }
/-- What row 3 notes. -/
def noteFenced (c : Chan) : Chan := { c with cntRefuse := satAdd c.cntRefuse 1 }
/-- What row 4 notes. -/
def noteNoKey (n : Nat) (c : Chan) : Chan := { c with noKey := raise n c.noKey, cntNoKey := satAdd c.cntNoKey 1 }
/-- What row 5 notes. -/
def noteSealed (n : Nat) (c : Chan) : Chan := { c with sealedWrite := raise n c.sealedWrite, cntRefuse := satAdd c.cntRefuse 1 }

theorem refused_reserved (h : Noted (response ch q 2 1 0) ch q c s t) :
    Refused ch q 1 (noteReserved t.tick c) s (refuseReserved ch q t) :=
  (h.updChan (g := noteReserved t.tick) fun _ => rfl).refuse (responds_fenceRecord q (pairGroup t q.cid q.ksel) .notPermitted false)

theorem refused_route (h : Noted (response ch q 2 2 0) ch q c s t) : Refused ch q 2 (noteRoute t.tick c) s (refuseRoute ch q t) :=
  (h.updChan (g := noteRoute t.tick) fun _ => rfl).refuse (responds_fenceRecord q (pairGroup t q.cid q.ksel) .notPermitted false)

theorem refused_fenced (h : Noted (response ch q 2 3 0) ch q c s t) : Refused ch q 3 (noteFenced c) s (refuseFenced ch q t) :=
  (h.updChan (g := noteFenced) fun _ => rfl).refuse (.refl _)

theorem refused_noKey (h : Noted (response ch q 2 4 0) ch q c s t) : Refused ch q 4 (noteNoKey t.tick c) s (refuseNoKey ch q t) :=
  (h.updChan (g := noteNoKey t.tick) fun _ => rfl).refuse (responds_fenceRecord q (pairGroup t q.cid q.ksel) .fencNoKey false)

/-- The state after row 5 but for the fault that it samples. -/
def sealedRefused (ch : Nat) (q : ChanReq) (e : KcEntry) (t : State) : State :=
  fenceRecord ch q (entryGroup e) .fencWriteSealed false (respond ch q 2 5 0 (updChan ch (noteSealed t.tick) t))

theorem refused_sealed (h : Noted (response ch q 2 5 0) ch q c s t) (e : KcEntry) :
    Refused ch q 5 (noteSealed t.tick c) s (refuseSealed ch q e t) := by
  have hrefuse : Refused ch q 5 (noteSealed t.tick c) s (sealedRefused ch q e t) :=
    (h.updChan (g := noteSealed t.tick) fun _ => rfl).refuse (responds_fenceRecord q (entryGroup e) .fencWriteSealed false)
  exact ⟨hrefuse.noted.alarms _, hrefuse.answered⟩

/-- A refusal and its record leave the alarms. -/
theorem pav_refused {g : Option Nat} {st : Status} {uerr : Bool} {f : Chan → Chan} :
    (fenceRecord ch q g st uerr (respond ch q 2 row 0 (updChan ch f t))).pav = t.pav := by
  have h : Responds (response ch q 2 row 0) ch q (updChan ch f t) (fenceRecord ch q g st uerr (respond ch q 2 row 0 (updChan ch f t))) :=
    responds_respond.trans (responds_fenceRecord ..)
  exact (congrArg State.pav h.kept.rest :)

theorem pav_refuseFenced : (refuseFenced ch q t).pav = t.pav := by
  have h : Responds (response ch q 2 3 0) ch q (updChan ch noteFenced t) (refuseFenced ch q t) := responds_respond
  exact (congrArg State.pav h.kept.rest :)

/-- A request that rows 1 to 3 refuse is refused without a record of a fault. -/
theorem acceptReq_refused (hc : canonical s = true) (hlen : (chanOf s ch).parked.length < 64)
    (h : reservedReq q = true ∨
      ((isInternal q = true ∨ gateOpen s 1 = true) ∧ (routeOk s ch q.line = false ∨ cidRefused s ch q.cid = true))) :
    ∃ row c, row ≤ 3 ∧ c.reads = (chanOf s ch).reads ∧ Refused ch q row c s (acceptReq ch q s) ∧ (acceptReq ch q s).pav = s.pav := by
  have hheld : reqHeld s ch q = false := reqHeld_refused hlen (by
    rcases h with h | ⟨-, h | h⟩ <;> simp [refusedAtSelect, h])
  have hgate : (!isInternal q && !gateOpen s 1 && !reservedReq q) = false := by
    rcases h with h | ⟨h | h, -⟩ <;> simp [h]
  have haccept : acceptReq ch q s = if reservedReq q then refuseReserved ch q (countRise ch q.cid s)
      else if !routeOk s ch q.line then refuseRoute ch q (countRise ch q.cid s)
      else refuseFenced ch q (countRise ch q.cid s) := by
    simp only [acceptReq, hgate, hheld, Bool.false_eq_true, if_false]
    rcases h with h | ⟨-, h | h⟩ <;> simp [h]
  rw [haccept]
  split
  · exact ⟨1, _, by decide, by rfl, refused_reserved (noted_countRise hc), pav_refused⟩
  split
  · exact ⟨2, _, by decide, by rfl, refused_route (noted_countRise hc), pav_refused⟩
  · exact ⟨3, _, by decide, by rfl, refused_fenced (noted_countRise hc), pav_refuseFenced⟩

/-- The row goes to the internal port alone. -/
theorem shownRow_le (h : row ≤ 3) : (if isInternal q then row else 0) ≤ 3 := by
  split
  · exact h
  · exact Nat.zero_le 3

end

/-! ## The statement -/

/-- Settles O33: a request that hits is issued, or refused under row 5; one that misses parks; one of rows 1 to 3 is refused. -/
theorem fenceAcceptsAndRefuses : Obligations.FenceAcceptsAndRefuses := by
  unfold Obligations.FenceAcceptsAndRefuses
  refine ⟨fun r s e hc hpass hpark he => ?_, fun r d s e hc hpass hpark he hs => ?_, fun r d s e hc hpass hpark he hs => ?_,
    fun r d s hc hpass hpark he hout hfills => ?_, fun r s hc hlen h => ?_⟩
  · have hread := changed_issueRead (ch := r.ch) (q := asReq s r none) (e := e) hc rfl
    rw [← acceptReq_hit hc hpass hpark he] at hread
    exact ⟨_, exec_fenceReadRequest r s, hread.self, hread.outs, hread.others, hread.rest⟩
  · have hwrite := changed_issueWrite (ch := r.ch) (q := asReq s r (some d)) hc rfl hs
    rw [← acceptReq_hit hc hpass hpark he] at hwrite
    exact ⟨_, exec_fenceWriteRequest r d s, hwrite.self, hwrite.outs, hwrite.others, hwrite.rest⟩
  · have haccept := (acceptReq_hit hc hpass hpark he).trans (issueReq_sealed (d := d) rfl hs)
    have hhit := (noted_countRise (x := response r.ch (asReq s r (some d)) 2 5 0) (ch := r.ch) (q := asReq s r (some d)) hc).updChan
      (g := touched e) fun _ => rfl
    have hrefused := refused_sealed hhit e
    rw [← haccept] at hrefused
    refine ⟨_, exec_fenceWriteRequest r d s, ⟨_, hrefused.answered⟩, fun ln => hrefused.no_mcReq _ ln _,
      (congrArg Chan.writes hrefused.noted.self :), ?_, (congrArg Chan.sealedWrite hrefused.noted.self :), hrefused.noted.others,
      hrefused.noted.still, hrefused.noted.state, hrefused.noted.frames⟩
    have htick := hrefused.noted.tick
    rw [haccept] at htick ⊢
    exact ⟨_, List.mem_append_right _ List.mem_cons_self, rfl, rfl, htick⟩
  · have hmiss := changed_miss hc hpass hpark he hout hfills
    exact ⟨acceptReq r.ch (asReq s r d) s, by cases d <;> rfl, (congrArg Chan.parked hmiss.self :), (congrArg Chan.fills hmiss.self :),
      (congrArg Chan.entries hmiss.self :),
      hmiss.outs.trans (List.append_nil _), hmiss.others, hmiss.silent⟩
  · obtain ⟨row, c, hrow, hreads, hrefused, hpav⟩ := acceptReq_refused (q := asReq s r none) hc hlen h
    exact ⟨_, _, exec_fenceReadRequest r s, hrefused.answered, shownRow_le hrow, fun ln _ _ w => hrefused.no_mcReq _ ln w _ _,
      (congrArg Chan.reads hrefused.noted.self).trans hreads, hrefused.noted.others, hrefused.noted.still, hrefused.noted.state,
      hrefused.noted.frames, congrArg Pav.integ hpav⟩

end Sys2Proof.FenceRequests
end

section
/-! PROOF. Lines and acknowledgements from memory (04_memory_fence.md R92, R102 to R107, R319, Table FENCE-7 rows 3 to 8). -/

namespace Sys2Proof.MemoryAnswers

open Sys2Proof Sys2Proof.Machine Sys2Proof.Laws Sys2Proof.Frames Sys2Proof.FencePorts Sys2Proof.FenceRequests

/-! ## The commands -/

theorem exec_mcResponse (ch : Fin 512) (d : BitVec 512) (tag : Word) (uerr : Bool) (s : State) :
    exec (.mcResponse ch d tag uerr) s = .next (mcResponseEffect ch d tag uerr s) := rfl

theorem exec_mcWack (ch : Fin 512) (pos : Nat) (s : State) : exec (.mcWack ch pos) s = .next (mcWackEffect ch pos s) := rfl

/-- The channel with the reads that remain in flight. -/
def withReads (fs : List ReadFlight) (c : Chan) : Chan := { c with reads := fs }

/-- The channel with the writes that remain in flight. -/
def withWrites (ws : List ChanReq) (c : Chan) : Chan := { c with writes := ws }

section
variable {ch : Nat} {d p : BitVec 512} {tag : Word} {uerr : Bool} {s : State} {f : ReadFlight} {fs : List ReadFlight}

theorem mcResponse_none (h : (chanOf s ch).reads = []) : mcResponseEffect ch d tag uerr s = s := by simp only [mcResponseEffect, h]

/-- A response answers the oldest read in flight. -/
theorem mcResponse_oldest (h : (chanOf s ch).reads = f :: fs) :
    mcResponseEffect ch d tag uerr s = readOutcome ch f d tag uerr (updChan ch (withReads fs) s) := by
  simp only [mcResponseEffect, h]
  rfl

theorem cidRefused_withReads (hc : canonical s = true) (c : Nat) :
    cidRefused (updChan ch (withReads fs) s) ch c = cidRefused s ch c := by
  simp only [cidRefused, chanOf_updChan_same hc]
  rfl

/-- A line of a CID that is refused meanwhile (R107). -/
theorem mcResponse_fenced (hc : canonical s = true) (h : (chanOf s ch).reads = f :: fs)
    (hr : f.refused = true ∨ cidRefused s ch f.req.cid = true) :
    mcResponseEffect ch d tag uerr s = refuseFenced ch f.req (updChan ch (withReads fs) s) := by
  have hrow : (f.refused || cidRefused (updChan ch (withReads fs) s) ch f.req.cid) = true := by
    rw [cidRefused_withReads hc, Bool.or_eq_true]
    exact hr
  rw [mcResponse_oldest h, readOutcome, if_pos hrow]

section
variable (hc : canonical s = true) (h : (chanOf s ch).reads = f :: fs) (hr : f.refused = false) (ht : s.pav.tamper = false)
  (hcid : cidRefused s ch f.req.cid = false)
include hc h hr ht hcid

/-- A line that no row refuses is decrypted. -/
theorem mcResponse_served (hp : decryptLine f.key f.req.line d tag = some p) :
    mcResponseEffect ch d tag false s = countUp 0 f.req.cid 1 (respond ch f.req 0 8 p (updChan ch (withReads fs) s)) := by
  have htamper : (updChan ch (withReads fs) s).pav.tamper = false := ht
  simp only [mcResponse_oldest h, readOutcome, cidRefused_withReads hc, hr, hcid, htamper, hp, Bool.or_self, Bool.false_eq_true, if_false]

/-- A line that is flagged or whose tag fails is refused under row 6 or 7. -/
theorem mcResponse_failed (hfail : uerr = true ∨ decryptLine f.key f.req.line d tag = none) :
    mcResponseEffect ch d tag uerr s = refuseTag ch f.req f.key uerr (updChan ch (withReads fs) s) := by
  have htamper : (updChan ch (withReads fs) s).pav.tamper = false := ht
  simp only [mcResponse_oldest h, readOutcome, cidRefused_withReads hc, hr, hcid, htamper, Bool.or_self, Bool.false_eq_true, if_false]
  cases uerr with
  | true => rfl
  | false =>
    obtain hfail | hfail := hfail
    · cases hfail
    · simp only [hfail, Bool.false_eq_true, if_false]

end

end

/-! ## Lines and acknowledgements that are served -/

section
variable {ch i kind row : Nat} {q : ChanReq} {d : BitVec 512} {g : Chan → Chan} {s : State}

theorem chanOf_emit (o : Out) (n : Nat) : chanOf (emit o s) n = chanOf s n := rfl

/-- Data or an acknowledgement other than a memory read's: the response, the fall of the count, and the counter of R403. -/
theorem served_spec (hc : canonical s = true) (hkind : kind ≠ 2) (hport : q.port ≠ .internal .memoryRead) {u : State}
    (hu : u = countUp i q.cid 1 (respond ch q kind row d (updChan ch g s))) :
    u.outs = s.outs ++ [response ch q kind row d] ∧
    chanOf u ch = { g (chanOf s ch) with counts := mapMod 0 (g (chanOf s ch)).counts q.cid (· - 1) } ∧
    u.ctxs = (countUp i q.cid 1 s).ctxs ∧ u.host = (countUp i q.cid 1 s).host ∧
    u = { s with ctxs := u.ctxs, host := u.host, fence := { s.fence with chans := u.fence.chans, zeroAt := u.fence.zeroAt }, outs := u.outs } := by
  rw [respond_served hkind hport] at hu
  have hself := chanOf_countDown_self (ch := ch) (c := q.cid) (s := emit (response ch q kind row d) (updChan ch g s))
    (canonical_fence_chans (canonical_emit (canonical_updChan hc)))
  rw [chanOf_emit, chanOf_updChan_same hc] at hself
  have hrest := countDown_rest ch q.cid (emit (response ch q kind row d) (updChan ch g s))
  generalize countDown ch q.cid (emit (response ch q kind row d) (updChan ch g s)) = t at hu hself hrest
  subst hu
  refine ⟨?_, hself, ?_, ?_, ?_⟩
  · rw [countUp_outs, hrest]; rfl
  · rw [hrest]; rfl
  · rw [hrest]; rfl
  · rw [hrest]; rfl

end

/-! ## Memory reads of the operator (R319) -/

section
variable {ch : Nat} {q : ChanReq} {p : BitVec 512} {s : State} {m : MemRead}

/-- A memory read taken from the list. -/
def dropRead (m : MemRead) (s : State) : State :=
  { s with fence := { s.fence with memReads := s.fence.memReads.filter (fun x => x != m) } }

/-- The data of a memory read whose line `ln` has come with `p`. -/
def readData (m : MemRead) (ln : Nat) (p : BitVec 512) : Bytes :=
  slice (m.lines.flatMap (fun l => leBv 64 (if l.1 = ln then p else l.2.getD 0))) m.off m.len

/-- The last line of a memory read completes it. -/
theorem memReadAnswer_last {row : Nat} (hport : q.port = .internal .memoryRead)
    (hm : s.fence.memReads.find? (fun m => m.cid == q.cid && m.lines.any (fun l => l.1 == q.line && l.2.isNone)) = some m)
    (hlast : ∀ l ∈ m.lines, l.1 ≠ q.line → l.2.isSome = true) :
    memReadAnswer q 0 row p s = finish m.waiter .ok (readData m q.line p) (dropRead m s) := by
  have hall : (m.lines.map (fun l => if l.1 = q.line then (l.1, some p) else l)).all (fun l => l.2.isSome) = true := by
    simp only [List.all_map, List.all_eq_true, Function.comp_apply]
    intro l hl
    by_cases h : l.1 = q.line
    · simp [h]
    · simpa [h] using hlast l hl h
  have hdata : (m.lines.map (fun l => if l.1 = q.line then (l.1, some p) else l)).flatMap (fun l => leBv 64 (l.2.getD 0)) =
      m.lines.flatMap (fun l => leBv 64 (if l.1 = q.line then p else l.2.getD 0)) := by
    rw [List.flatMap_map]
    refine List.flatMap_congr fun l _ => ?_
    by_cases h : l.1 = q.line <;> simp [h]
  simp only [memReadAnswer, hport, hm, hall, hdata, if_true]
  rfl

/-- The state in which the last line of a memory read has been answered. -/
def lastLine (ch : Nat) (q : ChanReq) (p : BitVec 512) (m : MemRead) (s : State) : State :=
  dropRead m (countDown ch q.cid (emit (response ch q 0 8 p) s))

theorem respond_lastLine (hport : q.port = .internal .memoryRead)
    (hm : s.fence.memReads.find? (fun m => m.cid == q.cid && m.lines.any (fun l => l.1 == q.line && l.2.isNone)) = some m)
    (hlast : ∀ l ∈ m.lines, l.1 ≠ q.line → l.2.isSome = true) :
    respond ch q 0 8 p s = finish m.waiter .ok (readData m q.line p) (lastLine ch q p m s) := by
  have hreads : (countDown ch q.cid (emit (response ch q 0 8 p) s)).fence.memReads = s.fence.memReads := by rw [countDown_rest]; rfl
  exact memReadAnswer_last hport (hreads ▸ hm) hlast

theorem lastLine_spec (hw : mapWf {} s.fence.chans = true) :
    (lastLine ch q p m s).fence.memReads = s.fence.memReads.filter (fun x => x != m) ∧
    (chanOf (lastLine ch q p m s) ch).reads = (chanOf s ch).reads ∧
    (lastLine ch q p m s).outs = s.outs ++ [response ch q 0 8 p] ∧ (lastLine ch q p m s).ctxs = s.ctxs := by
  have hself := chanOf_countDown_self (ch := ch) (c := q.cid) (s := emit (response ch q 0 8 p) s) hw
  have hrest := countDown_rest ch q.cid (emit (response ch q 0 8 p) s)
  refine ⟨?_, (congrArg Chan.reads hself :), ?_, ?_⟩
  · rw [lastLine, hrest]; rfl
  · rw [lastLine, hrest]; rfl
  · rw [lastLine, hrest]; rfl

end

/-! ## Failed tags and flagged reads (R104 to R106) -/

/-- The FAIL registers' capture (R114). -/
def captured (q : ChanReq) (g : Option Nat) (uerr : Bool) (n : Nat) (c : Chan) : Chan :=
  if c.tagFail.isNone && c.uerr.isNone then { c with
    failAddr := BitVec.ofNat 52 q.line
    failInfo := word (q.cid + 256 * q.ksel + 2 ^ 10 * bit uerr + 2 ^ 11 * bit g.isSome + 2 ^ 12 * bit (isInternal q) + 2 ^ 16 * g.getD 0)
    failTick := BitVec.ofNat 64 n }
  else c

/-- The sticky bits and the counter of rows 6 and 7. -/
def noteTag (uerr : Bool) (n : Nat) (c : Chan) : Chan := { c with
  tagFail := if uerr then c.tagFail else raise n c.tagFail
  uerr := if uerr then raise n c.uerr else c.uerr
  cntTag := satAdd c.cntTag 1 }

/-- The channel that refuses CID 0 from the tick after `n` on (R106). -/
def noteCid0 (n : Nat) (c : Chan) : Chan := { c with cid0From := some (c.cid0From.getD (n + 1)) }

section
variable {x : Out} {ch : Nat} {q : ChanReq} {c : Chan} {g : Option Nat} {uerr : Bool} {n : Nat} {s t : State}

theorem captured_reads : (captured q g uerr n c).reads = c.reads := by
  unfold captured
  split <;> rfl

theorem captured_cid0From : (captured q g uerr n c).cid0From = c.cid0From := by
  unfold captured
  split <;> rfl

theorem bare_captured : bare (captured q g uerr n c) = captured q g uerr n (bare c) := by
  by_cases h : (c.tagFail.isNone && c.uerr.isNone) = true
  · rw [captured, captured, if_pos h, if_pos (c := ((bare c).tagFail.isNone && (bare c).uerr.isNone) = true) h]
    rfl
  · rw [captured, captured, if_neg h, if_neg (c := ((bare c).tagFail.isNone && (bare c).uerr.isNone) = true) h]

/-- The channel's notes and the record of a failed or flagged read. -/
def tagRecorded (ch : Nat) (q : ChanReq) (g : Option Nat) (uerr : Bool) (t : State) : State :=
  fenceRecord ch q g .fencTagFail uerr (updChan ch (noteTag uerr t.tick) (updChan ch (captured q g uerr t.tick) t))

theorem tagFault_eq : tagFault ch q g uerr t =
    if q.cid = 0 then cid0Fault ch q g .fencTagFail uerr (tagRecorded ch q g uerr t)
    else if q.cid ≤ 254 then sampleFault ch q.cid 1 (tagRecorded ch q g uerr t) else tagRecorded ch q g uerr t := rfl

theorem pav_tagRecorded : (tagRecorded ch q g uerr t).pav = t.pav := by
  have h := (responds_fenceRecord (x := response ch q 2 7 0) (ch := ch) (q := q)
    (s := updChan ch (noteTag uerr t.tick) (updChan ch (captured q g uerr t.tick) t)) q g .fencTagFail uerr).kept.rest
  exact (congrArg State.pav h :)

theorem noted_tagRecorded (h : Noted x ch q c s t) :
    Noted x ch q (noteTag uerr t.tick (captured q g uerr t.tick c)) s (tagRecorded ch q g uerr t) :=
  ((h.updChan (g := captured q g uerr t.tick) fun _ => bare_captured).updChan (g := noteTag uerr t.tick) fun _ => rfl).responds
    (responds_fenceRecord q g .fencTagFail uerr)

/-- The state with the block reset of R106 on its way, where the fault under CID 0 is the first. -/
def cid0Reset (t : State) : State :=
  raiseReset 2500 .cid0Integrity { t with pav := { t.pav with cid0Failed := true } }

/-- A fault under CID 0 closes the channel to CID 0, records the first, and raises a block reset once. -/
theorem cid0Fault_cases {st : Status} (h : Noted x ch q c s t) : ∃ v, Noted x ch q (noteCid0 t.tick c) s v ∧ v.pav = t.pav ∧
    cid0Fault ch q g st uerr t = if t.pav.cid0Failed then v else cid0Reset v := by
  refine ⟨if (chanOf t ch).cid0From.isNone then postRecord 1 11 (leBv 2 (statusCode st) ++ leNat 8 t.tick ++ fit 53 (fenceRecordBody ch q g uerr))
      (updChan ch (noteCid0 t.tick) t) else updChan ch (noteCid0 t.tick) t, ?_, ?_, rfl⟩
  · exact (h.updChan (g := noteCid0 t.tick) fun _ => rfl).responds (.ite (responds_postRecord ..) (.refl _))
  · split <;> rfl

theorem noted_cid0Fault {st : Status} (h : Noted x ch q c s t) :
    Noted x ch q (noteCid0 t.tick c) s (cid0Fault ch q g st uerr t) := by
  obtain ⟨v, hv, -, heq⟩ := cid0Fault_cases (g := g) (uerr := uerr) (st := st) h
  rw [heq]
  split
  · exact hv
  · exact hv.alarms _

/-- The channel once rows 6 or 7 have been noted. -/
theorem noted_tagFault (h : Noted x ch q c s t) : ∃ c', Noted x ch q c' s (tagFault ch q g uerr t) ∧ c'.reads = c.reads := by
  have hrec := noted_tagRecorded (g := g) (uerr := uerr) h
  have hreads : (noteTag uerr t.tick (captured q g uerr t.tick c)).reads = c.reads := captured_reads
  rw [tagFault_eq]
  split
  · exact ⟨_, noted_cid0Fault hrec, hreads⟩
  split
  · exact ⟨_, hrec.alarms _, hreads⟩
  · exact ⟨_, hrec, hreads⟩

/-- A refusal under row 6 or 7 leaves the alarms as its fault has set them. -/
theorem pav_refuseTag (e : KcEntry) : (refuseTag ch q e uerr t).pav = (tagFault ch q (entryGroup e) uerr t).pav := by
  have h : Responds (response ch q 2 (if uerr then 6 else 7) 0) ch q (tagFault ch q (entryGroup e) uerr t) (refuseTag ch q e uerr t) :=
    responds_respond
  exact (congrArg State.pav h.kept.rest :)

theorem refused_refuseTag {e : KcEntry} (h : Noted (response ch q 2 (if uerr then 6 else 7) 0) ch q c s (tagFault ch q (entryGroup e) uerr t)) :
    Refused ch q (if uerr then 6 else 7) c s (refuseTag ch q e uerr t) := h.refuse (.refl _)

/-- A failed or flagged line of a tenant: the fault of its context is sampled (R105, R108). -/
theorem refuseTag_tenant {e : KcEntry} (h : Noted (response ch q 2 (if uerr then 6 else 7) 0) ch q c s t) (h1 : 1 ≤ q.cid) (h254 : q.cid ≤ 254) :
    Refused ch q (if uerr then 6 else 7) (noteTag uerr t.tick (captured q (entryGroup e) uerr t.tick c)) s (refuseTag ch q e uerr t) ∧
    (refuseTag ch q e uerr t).pav.integ = t.pav.integ ++ [⟨ch, q.cid, 1, s.tick⟩] := by
  have hfault : tagFault ch q (entryGroup e) uerr t = sampleFault ch q.cid 1 (tagRecorded ch q (entryGroup e) uerr t) := by
    rw [tagFault_eq, if_neg (by omega), if_pos h254]
  have hrec := noted_tagRecorded (g := entryGroup e) (uerr := uerr) h
  refine ⟨refused_refuseTag (hfault ▸ hrec.alarms _), ?_⟩
  rw [pav_refuseTag, hfault]
  simp only [sampleFault, pav_tagRecorded, hrec.tick]

/-- A failed or flagged line under CID 0: the channel closes to CID 0, and the first such fault brings a block reset (R106). -/
theorem refuseTag_cid0 {e : KcEntry} (h : Noted (response ch q 2 (if uerr then 6 else 7) 0) ch q c s t) (h0 : q.cid = 0)
    (hfirst : t.pav.cid0Failed = false) :
    Refused ch q (if uerr then 6 else 7) (noteCid0 s.tick (noteTag uerr t.tick (captured q (entryGroup e) uerr t.tick c))) s
      (refuseTag ch q e uerr t) ∧
    (refuseTag ch q e uerr t).pav = { t.pav with cid0Failed := true, delayed := t.pav.delayed ++ [(s.tick + 2500, .cid0Integrity)] } := by
  have hrec := noted_tagRecorded (g := entryGroup e) (uerr := uerr) h
  obtain ⟨v, hv, hpav, heq⟩ := cid0Fault_cases (g := entryGroup e) (uerr := uerr) (st := .fencTagFail) hrec
  rw [hrec.tick] at hv
  rw [pav_tagRecorded] at hpav heq
  have hfault : tagFault ch q (entryGroup e) uerr t = cid0Reset v := by
    rw [tagFault_eq, if_pos h0, heq, hfirst]
    rfl
  refine ⟨refused_refuseTag (hfault ▸ hv.alarms _), ?_⟩
  rw [pav_refuseTag, hfault]
  simp only [cid0Reset, raiseReset, hpav, hv.tick]

end

/-! ## Every answer -/

section
variable {ch i kind row : Nat} {q : ChanReq} {c : Chan} {d : BitVec 512} {s t : State}

/-- A line or an acknowledgement that is served, its channel having come to `c`. -/
theorem noted_served (h : Noted (response ch q kind row d) ch q c s t) :
    Noted (response ch q kind row d) ch q c s (countUp i q.cid 1 (respond ch q kind row d t)) ∧
    response ch q kind row d ∈ newOuts s (countUp i q.cid 1 (respond ch q kind row d t)) :=
  ⟨(h.responds responds_respond).responds (.of_kept (kept_countUp answers_le_units ..) (.of_outs rfl) rfl),
    HostPath.mem_newOuts h.sent.isPrefix response_prefix⟩

/-- Whatever becomes of a returned line, its read is answered. -/
theorem readOutcome_answers {f : ReadFlight} {tag : Word} {uerr : Bool} (h : ∀ x, Noted x ch f.req c s t) :
    (∃ kind row x, response ch f.req kind row x ∈ newOuts s (readOutcome ch f d tag uerr t)) ∧
    (chanOf (readOutcome ch f d tag uerr t) ch).reads = c.reads := by
  have hrefused : ∀ {row c' u}, Refused ch f.req row c' s u → c'.reads = c.reads →
      (∃ kind row x, response ch f.req kind row x ∈ newOuts s u) ∧ (chanOf u ch).reads = c.reads := fun hr hreads =>
    ⟨⟨_, _, _, hr.answered⟩, (congrArg Chan.reads hr.noted.self).trans hreads⟩
  have htag : ∀ uerr, (∃ kind row x, response ch f.req kind row x ∈ newOuts s (refuseTag ch f.req f.key uerr t)) ∧
      (chanOf (refuseTag ch f.req f.key uerr t) ch).reads = c.reads := fun uerr => by
    obtain ⟨c', hfault, hreads⟩ := noted_tagFault (g := entryGroup f.key) (uerr := uerr) (h (response ch f.req 2 (if uerr then 6 else 7) 0))
    exact hrefused (refused_refuseTag hfault) hreads
  simp only [readOutcome]
  split
  · exact hrefused (refused_fenced (h _)) (by rfl)
  split
  · exact hrefused (refused_noKey (h _)) (by rfl)
  split
  · exact htag true
  split
  · exact htag false
  · obtain ⟨hserved, hmem⟩ := noted_served (i := 0) (h (response ch f.req 0 8 _))
    exact ⟨⟨_, _, _, hmem⟩, (congrArg Chan.reads hserved.self :)⟩

end

/-! ## The statement -/

section
variable {ch : Nat} {s : State} {f : ReadFlight} {fs : List ReadFlight}

/-- The oldest read has left the channel. -/
theorem noted_withReads (hc : canonical s = true) (x : Out) :
    Noted x ch f.req (withReads fs (chanOf s ch)) s (updChan ch (withReads fs) s) := (Noted.refl hc).updChan fun _ => rfl

theorem mcWack_none {pos : Nat} (h : (chanOf s ch).writes[pos]? = none) : mcWackEffect ch pos s = s := by
  simp only [mcWackEffect, h]

theorem mcWack_served {pos : Nat} {r : ChanReq} (h : (chanOf s ch).writes[pos]? = some r) :
    mcWackEffect ch pos s = countUp 1 r.cid 1 (respond ch r 1 8 0 (updChan ch (fun c => withWrites (c.writes.eraseIdx pos) c) s)) := by
  simp only [mcWackEffect, h]
  rfl

/-- An answer without data is the only one that the port receives. -/
theorem data_zero_of_refused {q : ChanReq} {row k r : Nat} {c : Chan} {u : State} {x : BitVec 512} (h : Refused ch q row c s u)
    (hmem : Out.fenceRsp ch q.port q.tag k r x ∈ newOuts s u) : x = 0 := by
  rcases h.noted.sent.newOuts _ hmem with hoff | heq
  · exact absurd hoff Bool.false_ne_true
  · simp only [response, Out.fenceRsp.injEq] at heq
    exact heq.2.2.2.2.2

/-- A refusal at the fabric port or to a Lodge sends its response alone. -/
theorem refuseFenced_alone {q : ChanReq} {t : State} (hport : q.port = .fabric ∨ ∃ die, q.port = .internal (.lodge die)) :
    (refuseFenced ch q t).outs = t.outs ++ [response ch q 2 3 0] ∧ (refuseFenced ch q t).pav = t.pav ∧ (refuseFenced ch q t).ctxs = t.ctxs := by
  have h : refuseFenced ch q t = countDown ch q.cid (emit (response ch q 2 3 0) (updChan ch noteFenced t)) := respond_refused hport
  rw [h, countDown_rest]
  exact ⟨rfl, rfl, rfl⟩

end

/-- Settles O34: the row of each returned line, and what its refusal notes beside its response. -/
theorem memoryAnswersAreChecked : Obligations.MemoryAnswersAreChecked := by
  unfold Obligations.MemoryAnswersAreChecked
  refine ⟨fun ch d tag uerr s hc => ?_, fun ch pos s hc => ?_, fun ch d p tag s f fs hc h hr ht hcid hp hport => ?_,
    fun ch d p tag s f fs m hc h hr ht hcid hp hport hm hlast => ?_, fun ch d tag uerr s f fs hc h hr ht hcid hfail h1 h254 => ?_,
    fun ch d tag uerr s f fs hc h hr ht hcid hfail h0 hfirst => ?_, fun ch d tag uerr s f fs hc h hr => ?_,
    fun ch pos s r hc h hport => ?_⟩
  · refine ⟨_, exec_mcResponse .., ?_⟩
    cases h : (chanOf s ch).reads with
    | nil =>
      rw [mcResponse_none h]
      exact ⟨h, by simp, fun _ => rfl⟩
    | cons f fs =>
      rw [mcResponse_oldest h]
      obtain ⟨⟨kind, row, x, hmem⟩, hreads⟩ := readOutcome_answers (f := f) (d := d) (tag := tag) (uerr := uerr)
        (noted_withReads (ch := ch) (f := f) (fs := fs) hc)
      refine ⟨hreads, fun f' hf => ?_, by simp⟩
      obtain rfl : f = f' := Option.some.inj hf
      exact ⟨_, _, _, hmem⟩
  · refine ⟨_, exec_mcWack .., ?_⟩
    cases h : (chanOf s ch).writes[pos]? with
    | none =>
      rw [mcWack_none h]
      exact ⟨(List.eraseIdx_of_length_le (List.getElem?_eq_none_iff.mp h)).symm, by simp, fun _ => rfl⟩
    | some r =>
      rw [mcWack_served h]
      obtain ⟨hserved, hmem⟩ := noted_served (i := 1) (c := withWrites ((chanOf s ch).writes.eraseIdx pos) (chanOf s ch))
        ((Noted.refl (x := response ch r 1 8 0) (ch := ch) (q := r) hc).updChan
          (g := fun c => withWrites (c.writes.eraseIdx pos) c) fun _ => rfl)
      refine ⟨(congrArg Chan.writes hserved.self :), fun r' hr => ?_, by simp⟩
      obtain rfl : r = r' := Option.some.inj hr
      exact hmem
  · exact ⟨_, exec_mcResponse .., served_spec hc (by decide) hport (mcResponse_served hc h hr ht hcid hp)⟩
  · obtain ⟨hmems, hreads, houts, hctxs⟩ := lastLine_spec (ch := ch) (q := f.req) (p := p) (m := m)
      (canonical_fence_chans (canonical_updChan (k := ch) (f := withReads fs) hc))
    have hlines := mcResponse_served hc h hr ht hcid hp
    rw [respond_lastLine (s := updChan ch (withReads fs) s) hport hm hlast] at hlines
    rw [chanOf_updChan_same hc] at hreads
    have hresponse : response ch f.req 0 8 p = .fenceRsp ch (.internal .memoryRead) f.req.tag 0 8 p := by
      simp [response, isInternal, hport]
    exact ⟨_, (exec_mcResponse ..).trans (congrArg _ hlines), hmems, hreads, hresponse ▸ houts, hctxs⟩
  · have hrefused := refuseTag_tenant (e := f.key) (uerr := uerr) (noted_withReads (ch := ch) (f := f) (fs := fs) hc _) h1 h254
    rw [← mcResponse_failed hc h hr ht hcid hfail] at hrefused
    obtain ⟨hrefused, hinteg⟩ := hrefused
    refine ⟨_, exec_mcResponse .., ⟨_, hrefused.answered⟩, fun x k row hmem => data_zero_of_refused hrefused hmem,
      (congrArg Chan.reads hrefused.noted.self).trans captured_reads, ?_, ?_, hinteg, hrefused.noted.others, hrefused.noted.still,
      hrefused.noted.state, hrefused.noted.frames⟩
    · cases uerr with
      | true => exact .inl (congrArg Chan.uerr hrefused.noted.self :)
      | false => exact .inr rfl
    · cases uerr with
      | true => exact .inr rfl
      | false => exact .inl (congrArg Chan.tagFail hrefused.noted.self :)
  · rw [← h0] at hcid
    have hrefused := refuseTag_cid0 (e := f.key) (uerr := uerr) (noted_withReads (ch := ch) (f := f) (fs := fs) hc _) h0 hfirst
    rw [← mcResponse_failed hc h hr ht hcid hfail] at hrefused
    obtain ⟨hrefused, hpav⟩ := hrefused
    refine ⟨_, exec_mcResponse .., (congrArg Chan.cid0From hrefused.noted.self).trans ?_, (congrArg Pav.delayed hpav :),
      (congrArg Pav.integ hpav :), (congrArg Chan.reads hrefused.noted.self).trans captured_reads⟩
    exact congrArg (fun o => some (Option.getD o (s.tick + 1))) captured_cid0From
  · have hfenced := mcResponse_fenced (d := d) (tag := tag) (uerr := uerr) hc h hr
    have hrefused := refused_fenced (noted_withReads (ch := ch) (f := f) (fs := fs) hc _)
    have hpav : (mcResponseEffect ch d tag uerr s).pav = s.pav := by rw [hfenced]; exact pav_refuseFenced
    rw [← hfenced] at hrefused
    refine ⟨_, exec_mcResponse .., hrefused.answered, fun hport => ?_, (congrArg Chan.reads hrefused.noted.self :),
      (congrArg Chan.cntRefuse hrefused.noted.self :), congrArg Pav.integ hpav⟩
    obtain ⟨houts, -, hctxs⟩ := refuseFenced_alone (ch := ch) (t := updChan ch (withReads fs) s) hport
    rw [← hfenced] at houts hctxs
    exact ⟨by simp [newOuts, houts, response], hpav, hctxs⟩
  · exact ⟨_, exec_mcWack .., served_spec hc (by decide) hport (mcWack_served h)⟩

end Sys2Proof.MemoryAnswers
end

section
/-! PROOF. Fence fills (04_memory_fence.md R96 to R99, 10_orangery_keys.md R236, R247, R248): their messages, what a message that opens
installs, and the retry and the record of one that does not. -/

namespace Sys2Proof.FenceFills

open Sys2Proof Sys2Proof.Machine Sys2Proof.Laws Sys2Proof.Frames Sys2Proof.FencePorts Sys2Proof.FenceRequests

/-! ## Messages to a drop (R247) -/

section
variable {d n : Nat} {hdr plain bk k : Bytes} {s : State}

/-- A drop with the COUNTER of the last message sent to it. -/
def sentTo (c : Nat) (x : Drop) : Drop := { x with sent := c }

/-- A message to a drop under its bus key. -/
def kbusSent (d : Nat) (bk hdr plain : Bytes) (s : State) : State :=
  emit (.kbus d (kbusSeal bk hdr ((dropOf s d).sent + 1) plain)) (updDrop d (sentTo ((dropOf s d).sent + 1)) s)

theorem sendKbus_sent (h : deviceKey (busSlot d) s = some bk) : sendKbus d hdr plain s = kbusSent d bk hdr plain s := by
  simp only [sendKbus, h]
  rfl

theorem dropOf_kbusSent (hw : mapWf {} s.orng.drops = true) :
    dropOf (kbusSent d bk hdr plain s) d = sentTo ((dropOf s d).sent + 1) (dropOf s d) := mapGet_mapMod_same hw

/-- A key that an engine reads leaves the vault as it was. -/
theorem engineKey_some (h : (engineKey n s).1 = some k) : engineKey n s = (some k, s) := by
  simp only [engineKey] at h ⊢
  split_ifs at h ⊢ with h1 h2
  simp_all

theorem engineKey_fst (n : Nat) (s : State) : (engineKey n s).1 =
    if (slotOf s n).state = .active ∧ (slotOf s n).attr = attrEngine then
      if halfOk n 0 (slotOf s n).active then some (halfKey (slotOf s n).active (slotOf s n).len) else none
    else none := by
  simp only [engineKey]
  split_ifs <;> rfl

/-- The key an engine reads depends on the slots alone. -/
theorem engineKey_slots {t : State} (h : t.orng.slots = s.orng.slots) : (engineKey n t).1 = (engineKey n s).1 := by
  have hslot : slotOf t n = slotOf s n := by rw [slotOf, slotOf, h]
  rw [engineKey_fst, engineKey_fst, hslot]

end

/-! ## Fills served (R248) -/

section
variable {ch cid k : Nat} {s : State}

/-- The channel whose due fills of a pair are no longer asked for. -/
def unask (s : State) (cid k : Nat) (c : Chan) : Chan :=
  { c with fills := c.fills.map (fun x => if fillDue s cid k x then { x with asked := false } else x) }

/-- One fill more counted. -/
def fillCounted (s : State) : State := { s with orng := { s.orng with fillCnt := satAdd s.orng.fillCnt 1 } }

/-- The state in which a fence fill is served: granted, no longer asked for. -/
def fillServed (ch cid k : Nat) (s : State) : State := updChan ch (unask s cid k) (grantEngine s)

theorem fillDue_any (h : ∃ f ∈ (chanOf s ch).fills, f.cid = cid ∧ f.ksel = k ∧ f.asked = true ∧ f.from_ ≤ s.tick) :
    (chanOf s ch).fills.any (fillDue s cid k) = true := by
  obtain ⟨f, hmem, hcid, hksel, hasked, hfrom⟩ := h
  exact List.any_eq_true.mpr ⟨f, hmem, by simp [fillDue, hcid, hksel, hasked, hfrom]⟩

/-- A pair without a binding is answered without keys. -/
theorem answerFenceFill_none {t : State} (hp : resolvePair t cid k = none) : answerFenceFill ch cid k t =
    sendKbus (ch / 16) (kbusHeader 0 cid k 2 0 0 (ch % 16)) [] (fillCounted t) := by
  simp only [answerFenceFill, chanUnit, hp]
  rfl

/-- A pair whose two slots hold keys is answered with them, or with the joiner's own (R76). -/
theorem answerFenceFill_some {t : State} {n1 n2 id sel : Nat} {ka kb : Bytes} (hp : resolvePair t cid k = some (n1, n2, id, sel))
    (ha : (engineKey n1 t).1 = some ka) (hb : (engineKey n2 t).1 = some kb) : answerFenceFill ch cid k t =
    sendKbus (ch / 16) (kbusHeader 0 cid k (bit (fillSealed t sel id)) id sel (ch % 16)) ((oddKey t cid k).getD (fit 64 ka ++ fit 32 kb))
      (fillCounted t) := by
  have hslots : (fillCounted t).orng.slots = t.orng.slots := rfl
  have hka := engineKey_some ((engineKey_slots hslots).trans ha)
  have hkb := engineKey_some ((engineKey_slots hslots).trans hb)
  have hkeys : pairKeys cid k n1 n2 (fillCounted t) = (some ((oddKey t cid k).getD (fit 64 ka ++ fit 32 kb)), fillCounted t) := by
    simp only [pairKeys, hka, hkb]
    rfl
  unfold fillCounted at hkeys ⊢
  simp only [answerFenceFill, chanUnit, hp, hkeys]

/-- A raised fill that is due is served once the key-distribution gate is open (R256). -/
theorem fillRequest_due {x : Fin 512} {y : Fin 256} {z : Fin 4} (hg : gateOpen s 1 = true) (hz : s.orng.zeroized = false)
    (hdue : (chanOf s x).fills.any (fillDue s y z) = true) :
    fillRequestEffect (.fence x y z) s = answerFenceFill x y z (fillServed x y z s) := by
  simp only [fillRequestEffect, hg, hz, hdue, Bool.not_true, Bool.false_eq_true, if_false, if_true]
  rfl

section
variable {ch : Fin 512} {cid : Fin 256} {k : Fin 4} {bk : Bytes} (hg : gateOpen s 1 = true) (hz : s.orng.zeroized = false)
  (hf : ∃ f ∈ (chanOf s ch).fills, f.cid = cid.val ∧ f.ksel = k.val ∧ f.asked = true ∧ f.from_ ≤ s.tick)
  (hbk : deviceKey (busSlot (ch.val / 16)) s = some bk)
include hg hz hf hbk

theorem fillRequest_unbound (hp : resolvePair s cid k = none) : fillRequestEffect (.fence ch cid k) s =
    kbusSent (ch.val / 16) bk (kbusHeader 0 cid k 2 0 0 (ch.val % 16)) [] (fillCounted (fillServed ch cid k s)) := by
  rw [fillRequest_due hg hz (fillDue_any hf), answerFenceFill_none (t := fillServed ch cid k s) hp,
    sendKbus_sent (s := fillCounted (fillServed ch cid k s)) hbk]

theorem fillRequest_bound {n1 n2 id sel : Nat} {ka kb : Bytes} (hp : resolvePair s cid k = some (n1, n2, id, sel))
    (ha : (engineKey n1 s).1 = some ka) (hb : (engineKey n2 s).1 = some kb) : fillRequestEffect (.fence ch cid k) s =
    kbusSent (ch.val / 16) bk (kbusHeader 0 cid k (bit (fillSealed s sel id)) id sel (ch.val % 16))
      ((oddKey s cid k).getD (fit 64 ka ++ fit 32 kb)) (fillCounted (fillServed ch cid k s)) := by
  have hslots : (fillServed ch cid k s).orng.slots = s.orng.slots := rfl
  rw [fillRequest_due hg hz (fillDue_any hf), answerFenceFill_some (t := fillServed ch cid k s) hp ((engineKey_slots hslots).trans ha)
    ((engineKey_slots hslots).trans hb), sendKbus_sent (s := fillCounted (fillServed ch cid k s)) hbk]
  rfl

end

/-- What the answer to a fill leaves. -/
theorem fillServed_sent {bk hdr plain : Bytes} (hc : canonical s = true) {u : State}
    (hu : u = kbusSent (ch / 16) bk hdr plain (fillCounted (fillServed ch cid k s))) :
    newOuts s u = [.kbus (ch / 16) (kbusSeal bk hdr ((dropOf s (ch / 16)).sent + 1) plain)] ∧
    u.orng.fillCnt = satAdd s.orng.fillCnt 1 ∧ (dropOf u (ch / 16)).sent = (dropOf s (ch / 16)).sent + 1 ∧
    (∀ f ∈ (chanOf u ch).fills, f.cid = cid → f.ksel = k → f.from_ ≤ s.tick → f.asked = false) ∧
    u.orng.slots = s.orng.slots ∧ u = { s with orng := u.orng, fence := u.fence, outs := u.outs, sund := granted8 s } := by
  have houts : u.outs = s.outs ++ [.kbus (ch / 16) (kbusSeal bk hdr ((dropOf s (ch / 16)).sent + 1) plain)] := by rw [hu]; rfl
  have hdrop : dropOf u (ch / 16) = sentTo ((dropOf s (ch / 16)).sent + 1) (dropOf s (ch / 16)) := by
    rw [hu]
    exact dropOf_kbusSent (s := fillCounted (fillServed ch cid k s)) (canonical_orng_drops hc :)
  have hchan : chanOf u ch = unask s cid k (chanOf s ch) := by
    rw [hu]
    exact mapGet_mapMod_same (canonical_fence_chans hc)
  refine ⟨by simp [newOuts, houts], by rw [hu]; rfl, by rw [hdrop]; rfl, fun f hf hcid hksel hfrom => ?_, by rw [hu]; rfl, by rw [hu]; rfl⟩
  rw [hchan] at hf
  obtain ⟨x, -, rfl⟩ := List.mem_map.mp hf
  by_cases hx : fillDue s cid k x = true
  · simp [hx]
  · simp only [hx, Bool.false_eq_true, if_false] at hcid hksel hfrom ⊢
    simpa [fillDue, hcid, hksel, hfrom] using hx

end

/-! ## The park buffer served again (R96) -/

section
variable {ch cid k : Nat} {c : Chan} {os : List Out} {s t : State}

/-- Where nothing is parked, nothing is served. -/
theorem changed_unpark (h : Changed ch c os s t) (hp : c.parked = []) : Changed ch c os s (unpark ch t) := by
  have hpark : (chanOf t ch).parked = [] := by rw [h.self, hp]
  have hempty : { c with parked := [] } = c := by
    cases c
    cases hp
    rfl
  have hunpark : unpark ch t = updChan ch (fun c => { c with parked := [] }) t := by simp only [unpark, hpark, unparkLoop]
  have hchan := h.updChan (fun c => { c with parked := [] })
  rwa [hempty, ← hunpark] at hchan

/-- Where nothing is parked, nothing is refused. -/
theorem changed_refuseParked (h : Changed ch c os s t) (hp : c.parked = []) : Changed ch c os s (refuseParked ch cid k t) := by
  have hpark : (chanOf t ch).parked = [] := by rw [h.self, hp]
  have hempty : { c with parked := c.parked.filter (fun r => !(r.cid == cid && r.ksel == k)) } = c := by
    cases c
    cases hp
    rfl
  have hchan := h.updChan (fun c => { c with parked := c.parked.filter (fun r => !(r.cid == cid && r.ksel == k)) })
  rw [hempty] at hchan
  simp only [refuseParked, hpark, List.filter_nil, List.foldl_nil]
  exact changed_unpark hchan hp

end

/-! ## Fill messages (R98, R247) -/

section
variable {d : Fin 32} {msg plain : Bytes} {s : State} {ch : Nat} {f : Fill} {rest : List Fill}

theorem exec_fenceFillMessage (d : Fin 32) (msg : Bytes) (s : State) :
    exec (.fenceFillMessage d msg) s = .next (fenceFillMessageEffect d msg s) := rfl

/-- A drop with the COUNTER of the last message accepted at it. -/
def accepted (msg : Bytes) (x : Drop) : Drop := { x with last := leAt msg 8 8 }

/-- The channel with the fills that remain. -/
def withFills (rest : List Fill) (c : Chan) : Chan := { c with fills := rest }

/-- The channel with an entry installed. -/
def withEntry (n : Nat) (e : KcEntry) (c : Chan) : Chan := { c with entries := installEntry n e c.entries }

/-- The entry that a fill message carries (Table ORNG-9). -/
def filledEntry (msg plain : Bytes) (s : State) : KcEntry where
  cid := leAt msg 1 1
  ksel := leAt msg 2 1
  k1 := slice plain 0 32
  k2 := slice plain 32 32
  kt := slice plain 64 32
  id := leAt msg 4 1
  sel := leAt msg 5 1
  pinned := decide (leAt msg 1 1 = 0 ∨ leAt msg 1 1 = 255)
  sealedAt := if testBit (leAt msg 3 1) 0 then some ((groupOf s (leAt msg 4 1)).fillSealed.getD 0) else none
  dead := none

section
variable (hch : localChan d (leAt msg 6 2) = some ch) (hkind : leAt msg 0 1 = 0)
include hch hkind

/-- After a tamper no message is taken (R98). -/
theorem fillMessage_tampered (ht : s.pav.tamper = true) : fenceFillMessageEffect d msg s = s := by
  simp only [fenceFillMessageEffect, hch, hkind, ht, ne_eq, not_true_eq_false, if_false, if_true]

variable (ht : s.pav.tamper = false) (hf : takeFill (leAt msg 1 1) (leAt msg 2 1) (chanOf s ch).fills = some (f, rest))
include ht hf

/-- A message that does not open fails its fill. -/
theorem fillMessage_unopened (ho : kbusOpen (dropOf s d) msg = none) :
    fenceFillMessageEffect d msg s = fillFailed ch (leAt msg 1 1) (leAt msg 2 1) f rest s := by
  simp only [fenceFillMessageEffect, hch, hkind, ht, hf, ho, ne_eq, not_true_eq_false, if_false, Bool.false_eq_true]

/-- A message that opens and carries keys installs its entry. -/
theorem fillMessage_opened (ho : kbusOpen (dropOf s d) msg = some plain) (hcancel : f.cancelled = false)
    (h1 : testBit (leAt msg 3 1) 1 = false) (h2 : testBit (leAt msg 3 1) 2 = false) :
    fenceFillMessageEffect d msg s = unpark ch (updChan ch (withEntry s.tick (filledEntry msg plain s))
      (updChan ch (withFills rest) (updDrop d (accepted msg) s))) := by
  simp only [fenceFillMessageEffect, hch, hkind, ht, hf, ho, hcancel, h1, h2, ne_eq, not_true_eq_false, if_false, Bool.false_eq_true, Bool.or_self]
  rfl

end

/-- The first failure of a fill's message asks for it once more. -/
theorem fillFailed_first {cid k : Nat} (hcancel : f.cancelled = false) (hretry : f.retried = false) :
    fillFailed ch cid k f rest s = updChan ch (withFills (rest ++ [{ f with asked := true, retried := true, from_ := s.tick }])) s := by
  simp only [fillFailed, hcancel, hretry, Bool.false_eq_true, if_false, Bool.not_false, if_true]
  rfl

/-- The channel whose fill has failed twice. -/
def failedTwice (rest : List Fill) (n : Nat) (c : Chan) : Chan := { c with fills := rest, kbusErr := raise n c.kbusErr }

/-- The request under whose pair a failed fill is recorded. -/
def fillReq (cid k : Nat) : ChanReq := ⟨.fabric, 0, cid, k, 0, none, 0⟩

theorem fillFailed_second {cid k : Nat} (hcancel : f.cancelled = false) (hretry : f.retried = true) :
    fillFailed ch cid k f rest s = refuseParked ch cid k
      (fenceRecord ch (fillReq cid k) (pairGroup s cid k) .keyBlobInvalid false (updChan ch (failedTwice rest s.tick) s)) := by
  simp only [fillFailed, hcancel, hretry, Bool.false_eq_true, if_false, Bool.not_true]
  rfl

end

/-! ## Records within their limits (R109) -/

section
variable {ch : Nat} {q : ChanReq} {g : Option Nat} {st : Status} {uerr : Bool} {s : State}

/-- The channel with a record noted, where records of its status are limited by state alone. -/
def withRecord (q : ChanReq) (st : Status) (n : Nat) (c : Chan) : Chan := { c with
  recs := (q.cid, (statusCode st).toNat, n) :: c.recs.filter (fun k => !(k.1 == q.cid && k.2.1 == (statusCode st).toNat)) }

/-- A first record of a status other than the two that are limited by time is posted. -/
theorem fenceRecord_posted (h1 : st ≠ .notPermitted) (h2 : st ≠ .fencNoKey)
    (hnew : (q.cid, (statusCode st).toNat, recordState s q.cid) ∉ (chanOf s ch).recs) : fenceRecord ch q g st uerr s =
    postFaultRaw st 11 (fenceRecordBody ch q g uerr) (updChan ch (withRecord q st (recordState s q.cid)) s) := by
  have honce : (decide (1 ≤ q.cid ∧ q.cid ≤ 254) || decide (st ≠ .notPermitted ∧ st ≠ .fencNoKey)) = true := by simp [h1, h2]
  have hseen : (chanOf s ch).recs.contains (q.cid, (statusCode st).toNat, recordState s q.cid) = false := by simpa using hnew
  simp only [fenceRecord, honce, hseen, h1, h2, decide_false, Bool.false_and, Bool.and_false, Bool.or_self, Bool.false_eq_true, if_false, if_true]
  rfl

/-- The record is the queue's newest. -/
theorem recorded_postFaultRaw {f : Chan → Chan} (hc : canonical s = true) (hr : roomAt s 0 = true) :
    recorded (postFaultRaw st 11 (fenceRecordBody ch q g uerr) (updChan ch f s)) 0 st = true := by
  refine recorded_postRecord (s := updChan ch f s) (canonical_updChan hc) hr ?_
  rw [List.append_assoc]
  exact leAt_status _ _

theorem recorded_splq {t : State} {n : Nat} (h : t.splq = s.splq) : recorded t n st = recorded s n st := by simp only [recorded, qOf, h]

end

section
variable {ch cid k : Nat} {f : Fill} {rest : List Fill} {s : State}

/-- The state once a fill that has failed twice is recorded. -/
def failRecorded (ch cid k : Nat) (rest : List Fill) (s : State) : State :=
  fenceRecord ch (fillReq cid k) (pairGroup s cid k) .keyBlobInvalid false (updChan ch (failedTwice rest s.tick) s)

theorem failRecorded_spec (hc : canonical s = true) (hr : roomAt s 0 = true)
    (hnew : (cid, (statusCode .keyBlobInvalid).toNat, recordState s cid) ∉ (chanOf s ch).recs) :
    mapWf {} (failRecorded ch cid k rest s).fence.chans = true ∧
    chanOf (failRecorded ch cid k rest s) ch =
      withRecord (fillReq cid k) .keyBlobInvalid (recordState s cid) (failedTwice rest s.tick (chanOf s ch)) ∧
    recorded (failRecorded ch cid k rest s) 0 .keyBlobInvalid = true := by
  have hfail := (Changed.refl (ch := ch) (canonical_fence_chans hc)).updChan (failedTwice rest s.tick)
  have hnote := hfail.updChan (withRecord (fillReq cid k) .keyBlobInvalid (recordState s cid))
  have hpost : failRecorded ch cid k rest s = postFaultRaw .keyBlobInvalid 11 (fenceRecordBody ch (fillReq cid k) (pairGroup s cid k) false)
      (updChan ch (withRecord (fillReq cid k) .keyBlobInvalid (recordState s cid)) (updChan ch (failedTwice rest s.tick) s)) :=
    fenceRecord_posted (by decide) (by decide) (by rw [hfail.self]; exact hnew)
  rw [hpost]
  exact ⟨hnote.wf, hnote.self, recorded_postFaultRaw (canonical_updChan hc) hr⟩

/-- The second failure of a fill ends it, with its sticky bit and its record (R98). -/
theorem fillFailed_second_spec {u : State} (hc : canonical s = true) (hr : roomAt s 0 = true) (hpark : (chanOf s ch).parked = [])
    (hnew : (cid, (statusCode .keyBlobInvalid).toNat, recordState s cid) ∉ (chanOf s ch).recs) (hcancel : f.cancelled = false)
    (hretry : f.retried = true) (hu : u = fillFailed ch cid k f rest s) :
    (chanOf u ch).fills = rest ∧ (chanOf u ch).kbusErr = some s.tick ∧ (chanOf u ch).entries = (chanOf s ch).entries ∧
    recorded u 0 .keyBlobInvalid = true := by
  obtain ⟨hw, hchan, hrecorded⟩ := failRecorded_spec (k := k) (rest := rest) hc hr hnew
  have hend : Changed ch (chanOf (failRecorded ch cid k rest s) ch) [] (failRecorded ch cid k rest s) u := by
    rw [hu, fillFailed_second hcancel hretry]
    exact changed_refuseParked (Changed.refl hw) (by rw [hchan]; exact hpark)
  have hself := hend.self.trans hchan
  exact ⟨(congrArg Chan.fills hself :), (congrArg Chan.kbusErr hself :), (congrArg Chan.entries hself :),
    (recorded_splq (congrArg State.splq hend.rest :)).trans hrecorded⟩

end

/-! ## After a tamper (R98) -/

section
variable {ch : Nat} {q : ChanReq} {s : State}

theorem acceptReq_tampered (ht : s.pav.tamper = true) (hport : isInternal q = true ∨ gateOpen s 1 = true) (hres : reservedReq q = false)
    (hroute : routeOk s ch q.line = true) (hcid : cidRefused s ch q.cid = false) (hlen : (chanOf s ch).parked.length < 64) :
    acceptReq ch q s = refuseZeroized ch q (countRise ch q.cid s) := by
  have hheld : reqHeld s ch q = false := reqHeld_refused hlen (by simp [refusedAtSelect, ht])
  have hgate : (!isInternal q && !gateOpen s 1) = false := by rcases hport with h | h <;> simp [h]
  simp only [acceptReq, hgate, hheld, hres, hroute, hcid, ht, Bool.false_and, Bool.not_true, Bool.false_eq_true, if_false, if_true]

/-- The drop's own answer to a fill that meets zeroised keys (Table FENCE-9). -/
def zeroizedReply (ch : Nat) (q : ChanReq) : Out := .kbusReply (ch / 16) (kbusHeader 0 q.cid q.ksel 4 0 0 (ch % 16))

/-- A miss counted. -/
def missCounted (c : Chan) : Chan := { c with miss := satAdd c.miss 1 }

theorem refuseZeroized_eq (t : State) :
    refuseZeroized ch q t = refuseNoKey ch q (emit (zeroizedReply ch q) (updChan ch missCounted t)) := rfl

theorem refuseNoKey_outs (t : State) : t.outs <+: (refuseNoKey ch q t).outs := by
  have h : Responds (response ch q 2 4 0) ch q (updChan ch (noteNoKey t.tick) t) (refuseNoKey ch q t) :=
    responds_respond.trans (responds_fenceRecord ..)
  exact h.kept.outs

/-- A request that misses after a tamper: its fill reports KEY_ZEROIZED, and row 4 refuses it. -/
theorem refused_zeroized (hc : canonical s = true) :
    Refused ch q 4 (noteNoKey s.tick (missCounted (chanOf s ch))) s (refuseZeroized ch q (countRise ch q.cid s)) ∧
    zeroizedReply ch q ∈ newOuts s (refuseZeroized ch q (countRise ch q.cid s)) := by
  have hmiss := (noted_countRise (x := response ch q 2 4 0) (ch := ch) (q := q) hc).updChan (g := missCounted) fun _ => rfl
  have hreply := hmiss.emit (o := zeroizedReply ch q) rfl
  have hrefused := refused_noKey hreply
  rw [hreply.tick, ← refuseZeroized_eq] at hrefused
  have houts := refuseNoKey_outs (ch := ch) (q := q) (emit (zeroizedReply ch q) (updChan ch missCounted (countRise ch q.cid s)))
  rw [← refuseZeroized_eq] at houts
  exact ⟨hrefused, HostPath.mem_newOuts hmiss.sent.isPrefix houts⟩

end

end Sys2Proof.FenceFills
end

section
/-! PROOF. Job-key and sampling-key fills, pushes and their acknowledgement (05_link_fence.md R121, 08_greenhouse_verification.md R188,
10_orangery_keys.md R247 to R249). -/

namespace Sys2Proof.KeyMessages

open Sys2Proof Sys2Proof.Machine Sys2Proof.Laws Sys2Proof.Frames Sys2Proof.FencePorts Sys2Proof.FenceRequests Sys2Proof.FenceFills

/-! ## One link engine changed -/

/-- From `s` to `t` the link engine `e` alone changes, to `x`. -/
structure EngChanged (e : Nat) (x : Engine) (s t : State) : Prop where
  wf : mapWf {} t.link.engines = true
  self : engOf t e = x
  others : ∀ n, n ≠ e → engOf t n = engOf s n
  rest : t = { s with link := { s.link with engines := t.link.engines } }

namespace EngChanged

variable {e : Nat} {x : Engine} {s t : State}

theorem refl (hw : mapWf {} s.link.engines = true) : EngChanged e (engOf s e) s s := ⟨hw, rfl, fun _ _ => rfl, rfl⟩

theorem updEng (h : EngChanged e x s t) (g : Engine → Engine) : EngChanged e (g x) s (updEng e g t) where
  wf := mapWf_mapMod h.wf
  self := (mapGet_mapMod_same h.wf).trans (congrArg g h.self)
  others n hn := (mapGet_mapMod_other h.wf hn).trans (h.others n hn)
  rest := by
    have hg : ∀ es, ({ t with link := { t.link with engines := es } } : State) =
        { s with link := { s.link with engines := es } } := fun es => by rw [h.rest]
    exact hg _

/-- No parked frame, none sent. -/
theorem sendParked (h : EngChanged e x s t) (hp : x.txPark = []) (j : Nat) (key : Bytes) : EngChanged e x s (sendParked e j key t) := by
  have htx : (engOf t e).txPark = [] := by rw [h.self, hp]
  have hempty : { x with txPark := x.txPark.filter (fun p => p.1 != j) } = x := by
    cases x
    cases hp
    rfl
  have hchan := h.updEng (fun x => { x with txPark := x.txPark.filter (fun p => p.1 != j) })
  rw [hempty] at hchan
  simp only [Machine.sendParked, htx, List.filter_nil, List.foldl_nil]
  split
  · exact hchan
  · exact h

/-- No JOB_CLOSE due, none sent. -/
theorem sendDueCloses (h : EngChanged e x s t) (hd : x.closeDue = []) : EngChanged e x s (sendDueCloses e t) := by
  have hdue : (engOf t e).closeDue = [] := by rw [h.self, hd]
  have hempty : { x with closeDue := [] } = x := by
    cases x
    cases hd
    rfl
  have hchan := h.updEng (fun x => { x with closeDue := [] })
  rw [hempty] at hchan
  simpa only [Machine.sendDueCloses, hdue, List.foldl_nil] using hchan

/-- No parked frame of either direction and no JOB_CLOSE due: nothing goes on. -/
theorem serveParked (h : EngChanged e x s t) (ht : x.txPark = []) (hr : x.rxPark = []) (hd : x.closeDue = []) (j : Nat) (key : Bytes) :
    EngChanged e x s (serveParked e j key t) := by
  have hrx : (engOf t e).rxPark = [] := by rw [h.self, hr]
  have hempty : { x with rxPark := x.rxPark.filter (fun p => p.1 != j) } = x := by
    cases x
    cases hr
    rfl
  have hchan := h.updEng (fun x => { x with rxPark := x.rxPark.filter (fun p => p.1 != j) })
  rw [hempty] at hchan
  simp only [Machine.serveParked, hrx, List.filter_nil, List.foldl_nil]
  exact (hchan.sendParked ht j key).sendDueCloses hd

theorem resumeLink (h : EngChanged e x s t) (ht : x.txPark = []) (hd : x.closeDue = []) : EngChanged e x s (resumeLink e t) := by
  have htx : (engOf t e).txPark = [] := by rw [h.self, ht]
  simp only [Machine.resumeLink, htx, List.map_nil, List.eraseDups_nil, List.foldl_nil]
  exact h.sendDueCloses hd

end EngChanged

/-! ## Job-key fills (R121) -/

section
variable {d : Fin 32} {msg plain : Bytes} {s : State} {e : Nat}

theorem exec_jobFillMessage (d : Fin 32) (msg : Bytes) (s : State) : exec (.jobFillMessage d msg) s = .next (jobFillEffect d msg s) := rfl

/-- The engine whose fill of a job is over. -/
def withoutFill (j : Nat) (x : Engine) : Engine := { x with jobFills := x.jobFills.filter (fun f => f.1 != j) }

/-- The engine with a job key first in its cache. -/
def withJobKey (j : Nat) (key : Bytes) (x : Engine) : Engine := { x with jobKeys := ((j, key) :: x.jobKeys.filter (fun k => k.1 != j)).take 32 }

theorem jobFill_opened {f : Nat × Bool × Bool} (he : localEngine d (leAt msg 6 2) = some e) (hkind : leAt msg 0 1 = 1) (ht : s.pav.tamper = false)
    (hf : (engOf s e).jobFills.find? (fun f => f.1 == leAt msg 4 1 && !f.2.1) = some f) (ho : kbusOpen (dropOf s d) msg = some plain)
    (h1 : testBit (leAt msg 3 1) 1 = false) (h2 : testBit (leAt msg 3 1) 2 = false) : jobFillEffect d msg s =
    serveParked e (leAt msg 4 1) (fit 32 plain) (updEng e (withJobKey (leAt msg 4 1) (fit 32 plain))
      (updEng e (withoutFill (leAt msg 4 1)) (updDrop d (accepted msg) s))) := by
  simp only [jobFillEffect, he, hkind, ht, hf, ho, h1, h2, ne_eq, not_true_eq_false, Bool.false_eq_true, or_self, if_false]
  rfl

theorem engChanged_jobFill (hc : canonical s = true) (htx : (engOf s e).txPark = []) (hrx : (engOf s e).rxPark = [])
    (hdue : (engOf s e).closeDue = []) (j : Nat) (key : Bytes) :
    EngChanged e (withJobKey j key (withoutFill j (engOf s e))) (updDrop d (accepted msg) s)
      (serveParked e j key (updEng e (withJobKey j key) (updEng e (withoutFill j) (updDrop d (accepted msg) s)))) :=
  (((EngChanged.refl (s := updDrop d (accepted msg) s) (e := e) (canonical_link_engines (s := s) hc)).updEng (withoutFill j)).updEng
    (withJobKey j key)).serveParked htx hrx hdue j key

/-- A key first in the cache is the cached one. -/
theorem cachedJobKey_withJobKey {j : Nat} {key : Bytes} {x : Engine} (h : engOf s e = withJobKey j key x) : cachedJobKey s e j = some key := by
  simp [cachedJobKey, h, withJobKey]

/-- An engine changed after a message has been accepted at the drop. -/
theorem engChanged_rest_accepted {x : Engine} {u : State} (h : EngChanged e x (updDrop d (accepted msg) s) u) :
    u = { s with orng := { s.orng with drops := u.orng.drops }, link := { s.link with engines := u.link.engines } } := by
  rw [h.rest]
  rfl

/-- What the drop holds after a message it has accepted. -/
theorem last_accepted {u : State} (hc : canonical s = true) (h : u.orng.drops = (updDrop d (accepted msg) s).orng.drops) :
    (dropOf u d).last = leAt msg 8 8 := by
  have hdrop : dropOf u d = accepted msg (dropOf s d) := by
    rw [dropOf, h]
    exact dropOf_updDrop_same hc
  rw [hdrop]
  rfl

/-- A channel changed after a message has been accepted at the drop. -/
theorem changed_rest_accepted {ch : Nat} {c : Chan} {u : State} (h : Changed ch c [] (updDrop d (accepted msg) s) u) :
    u = { s with orng := { s.orng with drops := u.orng.drops }, fence := { s.fence with chans := u.fence.chans } } := by
  rw [h.silent]
  rfl

end

/-! ## Sampling-key fills (R188) -/

section
variable {d : Fin 32} {msg plain : Bytes} {s : State}

theorem exec_samplingKeyFillMessage (d : Fin 32) (msg : Bytes) (s : State) :
    exec (.samplingKeyFillMessage d msg) s = .next (samplingFillEffect d msg s) := rfl

/-- A verification engine with a sampling key in its cache, first, and its fill over. -/
def withSamplingKey (cid : Nat) (k : Option Bytes) (x : GrEng) : GrEng := { x with
  fills := x.fills.filter (fun f => f.1 != cid), keys := ((cid, k) :: x.keys.filter (fun k => k.1 != cid)).take 8 }

theorem samplingFill_opened {f : Nat × Bool} (hf : (grEngOf s d).fills.find? (fun f => f.1 == leAt msg 1 1) = some f) (hkind : leAt msg 0 1 = 2)
    (hunit : leAt msg 6 2 = 19) (hasked : (d.val, leAt msg 1 1) ∉ s.grnhFills) (ho : kbusOpen (dropOf s d) msg = some plain)
    (h1 : testBit (leAt msg 3 1) 1 = false) (h2 : testBit (leAt msg 3 1) 2 = false) :
    samplingFillEffect d msg s = updGrEng d (withSamplingKey (leAt msg 1 1) (some (fit 32 plain))) (updDrop d (accepted msg) s) := by
  have hask : s.grnhFills.contains (d.val, leAt msg 1 1) = false := by simpa using hasked
  simp only [samplingFillEffect, hf, hkind, hunit, hask, ho, h1, h2, ne_eq, not_true_eq_false, Bool.false_eq_true, or_self, if_false]
  rfl

end

/-! ## Pushes (R249) -/

section
variable {d : Fin 32} {msg plain : Bytes} {s : State} {ch e : Nat}

theorem exec_pushMessage (d : Fin 32) (msg : Bytes) (s : State) : exec (.pushMessage d msg) s = .next (pushMessageEffect d msg s) := rfl

/-- The acknowledgement of a push, by its COUNTER. -/
def pushReply (d : Nat) (msg : Bytes) : Out := .kbusReply d (leNat 8 (leAt msg 8 8))

/-- The state once a push is accepted and acknowledged. -/
def pushAcked (d : Nat) (msg : Bytes) (s : State) : State := emit (pushReply d msg) (ackPush d (leAt msg 8 8) (updDrop d (accepted msg) s))

/-- An acknowledged push is waited for no longer. -/
theorem not_waiting_of_acked {p : Push} (h : p ∈ (pushAcked d msg s).orng.pushes) : p.drop ≠ d.val ∨ p.counter ≠ leAt msg 8 8 := by
  have hne := (List.mem_filter.mp h).2
  simp only [Bool.not_eq_true', Bool.and_eq_false_iff, beq_eq_false_iff_ne] at hne
  exact hne

/-- The pinned entry that a push carries. -/
def pushedEntry (msg plain : Bytes) : KcEntry where
  cid := leAt msg 1 1
  ksel := leAt msg 2 1
  k1 := slice plain 0 32
  k2 := slice plain 32 32
  kt := slice plain 64 32
  id := leAt msg 4 1
  sel := leAt msg 5 1
  pinned := true
  sealedAt := none
  dead := none

/-- The channel with a pushed entry installed, and no fill of its pair outstanding. -/
def withPush (n : Nat) (x : KcEntry) (c : Chan) : Chan :=
  { c with entries := installEntry n x c.entries, fills := c.fills.filter (fun f => !(f.cid == x.cid && f.ksel == x.ksel)) }

/-- The engine with a hop key (Table LINK-7). -/
def withHopKey (msg plain : Bytes) (x : Engine) : Engine := { x with keys := mapSet [] x.keys (leAt msg 2 1 % 4) (fit 32 plain) }

section
variable (hkind : leAt msg 0 1 = 3) (ht : s.pav.tamper = false) (ho : kbusOpen (dropOf s d) msg = some plain)
include hkind ht ho

theorem pushMessage_chan (hch : localChan d (leAt msg 6 2) = some ch) : pushMessageEffect d msg s =
    unpark ch (updChan ch (withPush s.tick (pushedEntry msg plain)) (pushAcked d msg s)) := by
  simp only [pushMessageEffect, hkind, ht, ho, hch, ne_eq, not_true_eq_false, Bool.false_eq_true, or_self, if_false]
  rfl

/-- A link engine's local index is none of a channel's. -/
theorem pushMessage_engine (he : localEngine d (leAt msg 6 2) = some e) : pushMessageEffect d msg s =
    resumeLink e (updEng e (withHopKey msg plain) (pushAcked d msg s)) := by
  have hunit : 16 ≤ leAt msg 6 2 := by
    by_contra hlt
    simp [localEngine, hlt] at he
  have hch : localChan d (leAt msg 6 2) = none := if_neg (by omega)
  simp only [pushMessageEffect, hkind, ht, ho, hch, he, ne_eq, not_true_eq_false, Bool.false_eq_true, or_self, if_false]
  rfl

end

end

/-! ## Pushes without an acknowledgement (R249) -/

section
variable {d : Nat} {s : State} {p : Push} {bk : Bytes}

theorem exec_pushAckTimeout (d : Fin 32) (s : State) : exec (.pushAckTimeout d) s = .next (pushAckTimeoutEffect d s) := rfl

/-- A push taken from those that await their acknowledgement. -/
def dropPush (p : Push) (s : State) : State := { s with orng := { s.orng with pushes := s.orng.pushes.filter (fun q => q != p) } }

/-- A push sent again, and awaited once more. -/
def pushResent (d : Nat) (bk : Bytes) (p : Push) (s : State) : State :=
  { kbusSent d bk p.plain.1 p.plain.2 (dropPush p s) with orng := { (kbusSent d bk p.plain.1 p.plain.2 (dropPush p s)).orng with
      pushes := (dropPush p s).orng.pushes ++ [{ p with
        counter := (dropOf (kbusSent d bk p.plain.1 p.plain.2 (dropPush p s)) d).sent, tick := s.tick, resent := true }] } }

theorem pushResent_outs : ∃ m, (pushResent d bk p s).outs = s.outs ++ [.kbus d m] := ⟨_, rfl⟩

theorem pushAckTimeout_first (hp : s.orng.pushes.find? (fun p => p.drop == d && decide (p.tick + 250 ≤ s.tick)) = some p)
    (hr : p.resent = false) (hk : deviceKey (busSlot d) s = some bk) : pushAckTimeoutEffect d s = pushResent d bk p s := by
  have hsend : sendKbus d p.plain.1 p.plain.2 (dropPush p s) = kbusSent d bk p.plain.1 p.plain.2 (dropPush p s) := sendKbus_sent hk
  unfold dropPush at hsend
  simp only [pushAckTimeoutEffect, hp, hr, Bool.false_eq_true, if_false, hsend]
  rfl

/-- The state with a push given up. -/
def pushFailed (p : Push) (s : State) : State :=
  { dropPush p s with orng := { (dropPush p s).orng with kbusFail := some s.tick } }

theorem pushAckTimeout_second (hp : s.orng.pushes.find? (fun p => p.drop == d && decide (p.tick + 250 ≤ s.tick)) = some p)
    (hr : p.resent = true) : pushAckTimeoutEffect d s = postFaultEvent .timeout 16 d [] (pushFailed p s) := by
  simp only [pushAckTimeoutEffect, hp, hr, if_true]
  rfl

theorem recorded_postFaultEvent {st : Status} {kind unit : Nat} {b : Bytes} (hc : canonical s = true) (hr : roomAt s 1 = true) :
    recorded (postFaultEvent st kind unit b s) 1 st = true := by
  refine recorded_postRecord hc hr ?_
  simp only [genericRecord, List.append_assoc]
  exact leAt_status _ _

end

/-! ## The statement -/

/-- Settles O35: the fills that the Orangery serves, what their messages leave at a channel, at a link engine and at a verification
engine, and the two lives of a push. -/
theorem fillsAndPushesAreChecked : Obligations.FillsAndPushesAreChecked := by
  unfold Obligations.FillsAndPushesAreChecked
  refine ⟨fun ch cid k s hc hg hz hf hp ⟨bk, hk⟩ => ?_, fun ch cid k s n1 n2 id sel ka kb bk hc hg hz hf hp ha hb hk => ?_,
    fun d msg plain s ch f rest hc hch hkind ht hpark hf ho hcancel h1 h2 => ?_, fun d msg s ch f rest hc hch hkind ht hf ho hcancel hretry => ?_,
    fun d msg s ch f rest hc hroom hch hkind ht hpark hf ho hcancel hretry hnew => ?_,
    fun d msg s ch _ hch hkind ht => (exec_fenceFillMessage d msg s).trans (congrArg _ (fillMessage_tampered hch hkind ht)),
    fun r s hc ht hport hres hroute hcid hlen => ?_, fun d msg plain s e f hc he hkind ht hf ho h1 h2 htx hrx hdue => ?_,
    fun d msg plain s f hc hf hkind hunit hasked ho h1 h2 => ?_, fun d msg plain s ch hc hkind ht ho hch hpark => ?_,
    fun d msg plain s e hc hkind ht ho he htx hdue => ?_, fun d s p hc hroom hp hkey => ?_⟩
  · obtain ⟨houts, hcnt, -, hfills, hslots, hrest⟩ := fillServed_sent hc (fillRequest_unbound hg hz hf hk hp)
    exact ⟨_, _, rfl, houts, hcnt, hfills, hslots, hrest⟩
  · obtain ⟨houts, hcnt, hsent, -, hslots, hrest⟩ := fillServed_sent hc (fillRequest_bound hg hz hf hk hp ha hb)
    exact ⟨_, rfl, houts, hcnt, hsent, hslots, hrest⟩
  · have hfilled := changed_unpark (((Changed.refl (s := updDrop d (accepted msg) s) (ch := ch)
      (canonical_fence_chans (s := s) hc)).updChan (withFills rest)).updChan (withEntry s.tick (filledEntry msg plain s))) hpark
    rw [← fillMessage_opened hch hkind ht hf ho hcancel h1 h2] at hfilled
    exact ⟨_, filledEntry msg plain s, exec_fenceFillMessage .., (congrArg Chan.entries hfilled.self :), rfl, rfl, rfl, rfl, rfl, rfl,
      (congrArg Chan.fills hfilled.self :), last_accepted hc (congrArg (·.orng.drops) hfilled.rest :), hfilled.others,
      changed_rest_accepted hfilled⟩
  · have hretried := (Changed.refl (ch := ch) (canonical_fence_chans hc)).updChan
      (withFills (rest ++ [{ f with asked := true, retried := true, from_ := s.tick }]))
    rw [← fillFailed_first (cid := leAt msg 1 1) (k := leAt msg 2 1) hcancel hretry, ← fillMessage_unopened hch hkind ht hf ho] at hretried
    exact ⟨_, exec_fenceFillMessage .., (congrArg Chan.fills hretried.self :), (congrArg Chan.entries hretried.self :), hretried.silent⟩
  · obtain ⟨hfills, herr, hentries, hrec⟩ := fillFailed_second_spec hc hroom hpark hnew hcancel hretry (fillMessage_unopened hch hkind ht hf ho)
    exact ⟨_, rfl, hfills, herr, hentries, hrec⟩
  · obtain ⟨hrefused, hreply⟩ := refused_zeroized (ch := r.ch) (q := asReq s r none) hc
    rw [← acceptReq_tampered ht hport hres hroute hcid hlen] at hrefused hreply
    exact ⟨_, exec_fenceReadRequest r s, hreply, hrefused.answered, (congrArg Chan.noKey hrefused.noted.self :),
      (congrArg Chan.fills hrefused.noted.self :), (congrArg Chan.reads hrefused.noted.self :)⟩
  · have hkeyed := engChanged_jobFill (d := d) (msg := msg) hc htx hrx hdue (leAt msg 4 1) (fit 32 plain)
    rw [← jobFill_opened he hkind ht hf ho h1 h2] at hkeyed
    refine ⟨_, exec_jobFillMessage .., cachedJobKey_withJobKey hkeyed.self, fun f hmem => ?_,
      last_accepted hc (congrArg (·.orng.drops) hkeyed.rest :), hkeyed.others, engChanged_rest_accepted hkeyed⟩
    rw [hkeyed.self] at hmem
    simpa using (List.mem_filter.mp hmem).2
  · have hkeyed := samplingFill_opened hf hkind hunit hasked ho h1 h2
    have hself : grEngOf (samplingFillEffect d msg s) d = withSamplingKey (leAt msg 1 1) (some (fit 32 plain)) (grEngOf s d) := by
      rw [hkeyed]
      exact grEngOf_updGrEng_same (canonical_updDrop hc)
    refine ⟨_, exec_samplingKeyFillMessage .., by rw [hself]; rfl, fun f hmem => ?_, ?_, fun n hn => ?_, ?_⟩
    · rw [hself] at hmem
      simpa using (List.mem_filter.mp hmem).2
    · exact last_accepted hc (congrArg (·.orng.drops) hkeyed :)
    · rw [hkeyed]
      exact grEngOf_updGrEng_other (canonical_updDrop hc) hn
    · rw [hkeyed]
      rfl
  · have hpush := changed_unpark ((Changed.refl (s := pushAcked d msg s) (ch := ch)
      (canonical_fence_chans (s := s) hc)).updChan (withPush s.tick (pushedEntry msg plain))) hpark
    rw [← pushMessage_chan hkind ht ho hch] at hpush
    refine ⟨_, pushedEntry msg plain, exec_pushMessage .., ?_, (congrArg Chan.entries hpush.self :), rfl, rfl, rfl, fun p hmem => ?_,
      last_accepted hc (congrArg (·.orng.drops) hpush.silent :), hpush.others⟩
    · have houts : (pushMessageEffect d msg s).outs = s.outs ++ [pushReply d msg] := hpush.outs.trans (List.append_nil _)
      simp [newOuts, houts, pushReply]
    · rw [hpush.silent] at hmem
      exact not_waiting_of_acked hmem
  · have hpush := ((EngChanged.refl (s := pushAcked d msg s) (e := e)
      (canonical_link_engines (s := s) hc)).updEng (withHopKey msg plain)).resumeLink htx hdue
    rw [← pushMessage_engine hkind ht ho he] at hpush
    refine ⟨_, exec_pushMessage .., ?_, hpush.self, fun p hmem => ?_, last_accepted hc (congrArg (·.orng.drops) hpush.rest :), hpush.others,
      (congrArg State.fence hpush.rest :)⟩
    · have houts : (pushMessageEffect d msg s).outs = s.outs ++ [pushReply d msg] := (congrArg State.outs hpush.rest :)
      simp [newOuts, houts, pushReply]
    · rw [hpush.rest] at hmem
      exact not_waiting_of_acked hmem
  · refine ⟨_, exec_pushAckTimeout .., ?_⟩
    cases hr : p.resent with
    | false =>
      obtain ⟨bk, hk⟩ := hkey.resolve_left (by simp [hr])
      obtain ⟨m, houts⟩ := pushResent_outs (d := d.val) (bk := bk) (p := p) (s := s)
      rw [pushAckTimeout_first hp hr hk]
      exact ⟨fun _ => ⟨⟨m, by simp [newOuts, houts]⟩, rfl, _, List.mem_append_right _ List.mem_cons_self, rfl, rfl, rfl⟩, nofun, rfl⟩
    | true =>
      rw [pushAckTimeout_second hp hr]
      exact ⟨nofun, fun _ => ⟨rfl, recorded_postFaultEvent (s := pushFailed p s) hc hroom, rfl⟩, rfl⟩

end Sys2Proof.KeyMessages
end

section
/-! PROOF. The close of a job without links (05_link_fence.md R132, R134): what answers its command. -/

namespace Sys2Proof.JobClose

open Sys2Proof Sys2Proof.Machine

/-- JOB_LINK_CLOSE of job 255 on ring 5 by context 40. -/
def close255 : HostCmd := { ring := 5, cid := 40, flags := 0, chain := 1, tag := 0x0101, gen := 7, bufAddr := 0, bufLen := 0, ops := [255], buf := .noAnswer }

/-- A load that holds the pending half of job 255's key slot, and whose end answers the next host command. -/
def strayLoad : KeyLoad where
  slots := [jobSlot 255]
  lens := []
  attrs := []
  for_ := .priv 41
  result := .ok
  commitS := none
  waiter := .host 0
  consent := ([], [])

/-- Job 255 of context 40 is OPEN and has carried no frame; the load waits for host command 0, which has not been taken yet. -/
def strayed : State where
  tick := 250000
  gates := 0xff
  host := { rings := [(5, { enable := true, cpl := 5, pi := 1, posted := [0] })], cpls := [(5, { enable := true })] }
  ctxs := [(40, { state := .keyed, gen := 7 })]
  link := { jobs := [(255, { id := 9, cid := 40, state := .open_, gen := 7 })] }
  orng := { slots := [(jobSlot 255, { pending := true })], loads := [strayLoad] }

/-- The state meets what O41 asks of a close without links, and every load holds its pending halves besides. -/
theorem close255_allowed : canonical strayed = true ∧ hostOk opJobLinkClose close255 strayed = true ∧
    jobCloseCheck (opByte close255 20).toNat close255.cid close255.gen strayed = none ∧
    (jobOf strayed (opByte close255 20).toNat).links = [] ∧ (jobOf strayed (opByte close255 20).toNat).openW = .none ∧
    (jobOf strayed (opByte close255 20).toNat).timedOut = false ∧ (jobOf strayed (opByte close255 20).toNat).awaiting = [] ∧
    linksHolding strayed (opByte close255 20).toNat = [] ∧ runningDg strayed = [] ∧ loadsHeld strayed = true := by decide +kernel

/-- The state after the close. -/
def closed255 : State := hostCommand opJobLinkClose (.job 255) close255 (jobCloseBody close255) strayed

theorem exec_close255 : exec (.jobLinkClose close255) strayed = .next closed255 := rfl

/-- The zeroising of the job's slot ends the load, which answers the close with KEY_ZEROIZED; nothing is left to complete with OK. -/
theorem completed_close255 : completed strayed closed255 close255 .keyZeroized = true ∧ completed strayed closed255 close255 .ok = false := by
  decide +kernel

/-- Refutes O41: that a close without links completes with OK is stated of every canonical state, and where a load that holds the job's key
slot waits for the number that the close is given, the zeroising of the slot answers the close with KEY_ZEROIZED. -/
theorem not_jobsOpenAndClose : ¬ Obligations.JobsOpenAndClose := by
  unfold Obligations.JobsOpenAndClose
  intro h
  obtain ⟨-, -, hclose, -⟩ := h
  obtain ⟨hcanonical, hok, hcheck, hlinks, hopenW, hlate, hawaiting, hholding, hdigest, -⟩ := close255_allowed
  obtain ⟨u, hrun, -, -, hcompleted, -⟩ :=
    hclose close255 strayed hcanonical hok hcheck hlinks hopenW hlate hawaiting hholding hdigest
  rw [exec_close255] at hrun
  cases hrun
  exact Bool.false_ne_true (completed_close255.2.symm.trans hcompleted)

end Sys2Proof.JobClose
end

section
/-! PROOF. Rules of the link fence's shared operations (05_link_fence.md): what a change of one engine or one job leaves, what a frame sent
under the hop layer changes, and the end of a link. -/

namespace Sys2Proof.LinkRules

open Sys2Proof Sys2Proof.Machine Sys2Proof.Laws Sys2Proof.Frames Sys2Proof.DrainEnd

/-! ## Parts -/

/-- What a frame sent on a link changes. -/
def sending : Parts where
  put s t := { s with link := { s.link with engines := t.link.engines }, outs := t.outs }
  put_self _ := rfl
  put_put _ _ _ := rfl

/-- With the records of the engine. -/
def recording : Parts where
  put s t := { s with link := { s.link with engines := t.link.engines }, splq := t.splq, outs := t.outs }
  put_self _ := rfl
  put_put _ _ _ := rfl

/-- With the keys of an exchange, and what ends with them. -/
def exchanging : Parts where
  put s t := { s with
    host := t.host, mgmt := t.mgmt, ctxs := t.ctxs, splq := t.splq, outs := t.outs, orng := t.orng, dgst := t.dgst
    link := { s.link with engines := t.link.engines } }
  put_self _ := rfl
  put_put _ _ _ := rfl

/-- With the jobs. -/
def carrying : Parts where
  put s t := { s with
    host := t.host, mgmt := t.mgmt, ctxs := t.ctxs, splq := t.splq, outs := t.outs, orng := t.orng, dgst := t.dgst
    link := { s.link with engines := t.link.engines, jobs := t.link.jobs } }
  put_self _ := rfl
  put_put _ _ _ := rfl

/-- What a frame of a job changes on its way. -/
def framing : Parts where
  put s t := { s with link := { s.link with engines := t.link.engines, jobs := t.link.jobs }, outs := t.outs }
  put_self _ := rfl
  put_put _ _ _ := rfl

theorem sending_le_framing : sending.le framing := fun _ _ => rfl
theorem framing_le_carrying : framing.le carrying := fun _ _ => rfl
theorem sending_le_carrying : sending.le carrying := fun _ _ => rfl
theorem exchanging_le_carrying : exchanging.le carrying := fun _ _ => rfl
theorem answers_le_carrying : answers.le carrying := fun _ _ => rfl
theorem sending_le_recording : sending.le recording := fun _ _ => rfl
theorem sending_le_exchanging : sending.le exchanging := fun _ _ => rfl
theorem recording_le_exchanging : recording.le exchanging := fun _ _ => rfl
theorem records_le_recording : records.le recording := fun _ _ => rfl
theorem records_le_exchanging : records.le exchanging := fun _ _ => rfl
theorem vault_le_exchanging : vault.le exchanging := fun _ _ => rfl

/-! ## One engine changed -/

/-- A change of an engine goes by what it makes of it. -/
theorem updEng_congr {e : Nat} {f g : Engine → Engine} {s : State} (h : f (engOf s e) = g (engOf s e)) : updEng e f s = updEng e g s := by
  have hmod : mapMod {} s.link.engines e f = mapMod {} s.link.engines e g := by
    simp only [mapMod]
    exact congrArg (mapSet {} s.link.engines e) h
  rw [updEng, updEng, hmod]

/-- From `s` to `t` only the parts `p` change, and of the link engines `e` alone, to `x`. -/
structure EngineMoves (p : Parts) (e : Nat) (x : Engine) (s t : State) : Prop where
  wf : mapWf {} t.link.engines = true
  self : engOf t e = x
  others : ∀ n, n ≠ e → engOf t n = engOf s n
  kept : Kept p s t

namespace EngineMoves

variable {p q : Parts} {e : Nat} {x y : Engine} {s t u : State}

theorem refl (hw : mapWf {} s.link.engines = true) : EngineMoves p e (engOf s e) s s := ⟨hw, rfl, fun _ _ => rfl, .refl s⟩

theorem trans (h1 : EngineMoves p e x s t) (h2 : EngineMoves p e y t u) : EngineMoves p e y s u :=
  ⟨h2.wf, h2.self, fun n hn => (h2.others n hn).trans (h1.others n hn), h1.kept.trans h2.kept⟩

theorem mono (h : EngineMoves p e x s t) (hle : p.le q) : EngineMoves q e x s t := ⟨h.wf, h.self, h.others, h.kept.mono hle⟩

/-- A change of the engine. -/
theorem updEng (h : EngineMoves p e x s t) (hp : sending.le p) (g : Engine → Engine) : EngineMoves p e (g x) s (updEng e g t) where
  wf := mapWf_mapMod h.wf
  self := (mapGet_mapMod_same h.wf).trans (congrArg g h.self)
  others n hn := (mapGet_mapMod_other h.wf hn).trans (h.others n hn)
  kept := h.kept.trans (Kept.mono (p := sending) (.silent rfl rfl rfl rfl) hp)

/-- What leaves the engines. -/
theorem off (h : EngineMoves p e x s t) (hk : Kept p t u) (hl : u.link.engines = t.link.engines) : EngineMoves p e x s u where
  wf := by rw [hl]; exact h.wf
  self := by rw [engOf, hl]; exact h.self
  others n hn := by rw [engOf, hl]; exact h.others n hn
  kept := h.kept.trans hk

theorem emit (h : EngineMoves p e x s t) (hp : sending.le p) (o : Out) : EngineMoves p e x s (emit o t) :=
  h.off (Kept.mono (p := sending) (.of_ctxs rfl (List.prefix_append ..) rfl id) hp) rfl

theorem postRecord (h : EngineMoves p e x s t) (hp : records.le p) (n k : Nat) (b : Bytes) : EngineMoves p e x s (postRecord n k b t) :=
  h.off (kept_postRecord hp ..) rfl

theorem updJob (h : EngineMoves p e x s t) (hp : framing.le p) (j : Nat) (f : Job → Job) : EngineMoves p e x s (updJob j f t) :=
  h.off (Kept.mono (p := framing) (.silent rfl rfl rfl rfl) hp) rfl

theorem countUp (h : EngineMoves p e x s t) (hp : answers.le p) (i c k : Nat) : EngineMoves p e x s (countUp i c k t) :=
  h.off (kept_countUp hp ..) rfl

/-- What a counted frame changes, its counters among it. -/
theorem of_counted {i c k : Nat} (h : EngineMoves framing e x (Machine.countUp i c k s) t) : EngineMoves carrying e x s t :=
  ⟨h.wf, h.self, h.others, (kept_countUp answers_le_carrying i c k s).trans (h.kept.mono framing_le_carrying)⟩

end EngineMoves

/-! ## One job changed -/

/-- From `s` to `t` the job `j` alone of the local jobs changes, to `y`. -/
structure JobMoves (j : Nat) (y : Job) (s t : State) : Prop where
  wf : mapWf {} t.link.jobs = true
  self : jobOf t j = y
  others : ∀ n, n ≠ j → jobOf t n = jobOf s n

namespace JobMoves

variable {j : Nat} {y : Job} {s t u : State}

theorem refl (hw : mapWf {} s.link.jobs = true) : JobMoves j (jobOf s j) s s := ⟨hw, rfl, fun _ _ => rfl⟩

theorem updJob (h : JobMoves j y s t) (g : Job → Job) : JobMoves j (g y) s (updJob j g t) where
  wf := mapWf_mapMod h.wf
  self := (mapGet_mapMod_same h.wf).trans (congrArg g h.self)
  others n hn := (mapGet_mapMod_other h.wf hn).trans (h.others n hn)

/-- What leaves the jobs. -/
theorem off (h : JobMoves j y s t) (hl : u.link.jobs = t.link.jobs) : JobMoves j y s u where
  wf := by rw [hl]; exact h.wf
  self := by rw [jobOf, hl]; exact h.self
  others n hn := by rw [jobOf, hl]; exact h.others n hn

end JobMoves

/-- What lets frames pass is the same for an engine of the same class, state and keys. -/
theorem authClass_kept {e : Nat} {s t : State} (h : Kept carrying s t) (hc : (engOf t e).cls = (engOf s e).cls) : authClass t e = authClass s e := by
  have ht : trustedInForce t = trustedInForce s := (congrArg trustedInForce h.rest :)
  rw [authClass, authClass, ht, hc]

theorem linkAllowed_kept {s t : State} (h : Kept carrying s t) : linkAllowed t = linkAllowed s := (congrArg linkAllowed h.rest :)


/-! ## Records (R137, R138) -/

/-- A record posted with room at a queue of canonical form is its newest entry. -/
theorem recorded_posted {q k : Nat} {b : Bytes} {st : Status} {s : State} (hw : mapWf {} s.splq = true) (hr : roomAt s q = true)
    (hb : leAt (fit 63 b) 0 2 = (statusCode st).toNat) : recorded (postRecord q k b s) q st = true := by
  obtain ⟨hpost, hitems⟩ := postRecord_room (k := k) (p := b) hr
  have hlast : (qOf (postEntry q k b s).1 q).items.getLast?.map (·.payload) = some (fit 63 b) := by
    simp only [postEntry, qOf, putQ]
    rw [mapGet_mapSet_same hw, getLast?_payload (payloads_settle _ _)]
    exact (congrArg (fun is : List QItem => is.getLast?.map (·.payload)) hitems).trans (by rw [List.getLast?_concat])
  rw [hpost, recorded]
  cases hi : (qOf (postEntry q k b s).1 q).items.getLast? with
  | none => simp [hi] at hlast
  | some i => simp_all

/-- An engine after a record with a status in tick `t`. -/
def recordNoted (t : Nat) (st : Status) (x : Engine) : Engine :=
  if t < mapGet 0 x.recs (statusCode st).toNat then x
  else { x with recs := mapSet 0 x.recs (statusCode st).toNat (t + 250000) }

/-- A record leaves of its engine all but the ticks of records. -/
theorem recordNoted_eq (t : Nat) (st : Status) (x : Engine) : ∃ rs, recordNoted t st x = { x with recs := rs } := by
  unfold recordNoted
  split
  · exact ⟨_, rfl⟩
  · exact ⟨_, rfl⟩

section
variable {p : Parts} {e : Nat} {x : Engine} {s t : State}

theorem EngineMoves.countLinkDrop (h : EngineMoves p e x s t) (hp : sending.le p) :
    EngineMoves p e { x with cntDrop := satAdd x.cntDrop 1 } s (countLinkDrop e t) :=
  h.updEng hp (fun x => { x with cntDrop := satAdd x.cntDrop 1 })

theorem EngineMoves.linkRecord (h : EngineMoves p e x s t) (hp : recording.le p) (st : Status) (job ep hseq : Nat) :
    EngineMoves p e (recordNoted t.tick st x) s (linkRecord e st job ep hseq t) := by
  simp only [Machine.linkRecord, recordNoted, h.self]
  split
  · exact h
  · exact (h.updEng (sending_le_recording.trans hp)
      (fun x => { x with recs := mapSet 0 x.recs (statusCode st).toNat (t.tick + 250000) })).postRecord (records_le_recording.trans hp) 0 12 _

/-- What a record leaves of its engine and of the jobs. -/
theorem EngineMoves.noted (h : EngineMoves p e x s t) (hp : recording.le p) (st : Status) (job ep hseq : Nat) :
    ∃ rs, EngineMoves p e { x with recs := rs } s (Machine.linkRecord e st job ep hseq t) := by
  obtain ⟨rs, hrs⟩ := recordNoted_eq t.tick st x
  exact ⟨rs, hrs ▸ h.linkRecord hp st job ep hseq⟩

theorem linkRecord_jobs (e : Nat) (st : Status) (job ep hseq : Nat) (s : State) : (linkRecord e st job ep hseq s).link.jobs = s.link.jobs := by
  simp only [linkRecord]
  split
  · rfl
  · rfl

/-- A record that is due stands in the fault log. -/
theorem recorded_linkRecord {st : Status} {job ep hseq : Nat} (hw : mapWf {} t.splq = true) (hr : roomAt t 0 = true)
    (hdue : mapGet 0 (engOf t e).recs (statusCode st).toNat ≤ t.tick) : recorded (linkRecord e st job ep hseq t) 0 st = true := by
  rw [linkRecord, if_neg (Nat.not_lt.mpr hdue)]
  exact recorded_posted (s := updEng e _ t) hw hr (by rw [List.append_assoc]; exact leAt_status st _)

/-! ## The end of a link (R123, R124, R139) -/

/-- An engine whose link has failed in tick `t`. -/
def linkFailed (t : Nat) (x : Engine) : Engine :=
  { stopTraffic x with state := .failed, failedAt := t, exch := none, hopAsm := [], retryAt := none, attempts := 0 }

theorem kept_dropExchange (x : Option Exchange) (s : State) : Kept vault s (dropExchange x s) := by
  unfold dropExchange
  split
  · exact .refl s
  · exact kept_dropKeys ..

theorem EngineMoves.dropExchange (h : EngineMoves p e x s t) (hp : vault.le p) (y : Option Exchange) :
    EngineMoves p e x s (dropExchange y t) :=
  h.off ((kept_dropExchange y t).mono hp) (congrArg (fun u => u.link.engines) (kept_dropExchange y t).rest :)

theorem failLink_eq {st : Status} : failLink e st s = postFaultEventRaw st 12 (linkEventBody e 0 (engOf s e).peerEp.toNat)
    (updEng e (linkFailed s.tick) (dropExchange (engOf s e).exch s)) := rfl

theorem EngineMoves.failLink (h : EngineMoves p e x s t) (hp : exchanging.le p) (st : Status) :
    EngineMoves p e (linkFailed t.tick x) s (failLink e st t) := by
  have hdrop := h.dropExchange (vault_le_exchanging.trans hp) (engOf t e).exch
  have hfail := hdrop.updEng (sending_le_exchanging.trans hp) (linkFailed t.tick)
  rw [failLink_eq]
  exact hfail.postRecord (records_le_exchanging.trans hp) 1 12 _

/-- A link that ends without an exchange ends no key. -/
theorem failLink_idle {st : Status} (hx : (engOf t e).exch = none) :
    failLink e st t = postFaultEventRaw st 12 (linkEventBody e 0 (engOf t e).peerEp.toNat) (Machine.updEng e (linkFailed t.tick) t) := by
  rw [Machine.failLink, hx]
  rfl

theorem EngineMoves.failLink_idle (h : EngineMoves p e x s t) (hp : recording.le p) (hx : x.exch = none) (st : Status) :
    EngineMoves p e (linkFailed t.tick x) s (Machine.failLink e st t) := by
  rw [LinkRules.failLink_idle (by rw [h.self, hx])]
  exact (h.updEng (sending_le_recording.trans hp) _).postRecord (records_le_recording.trans hp) 1 12 _

theorem recorded_failLink {st : Status} (hw : mapWf {} s.splq = true) (hr : roomAt (dropExchange (engOf s e).exch s) 1 = true) :
    recorded (failLink e st s) 1 st = true :=
  recorded_posted (s := updEng e _ (dropExchange (engOf s e).exch s)) ((kept_dropExchange ..).queues hw) hr
    (by rw [List.append_assoc]; exact leAt_status st _)

end

/-! ## Frames under the hop layer (R120, R123, R124) -/

/-- The engine can send one more frame: in the first establishment's sequence space, or before the end of HSEQ. -/
def canSend (x : Engine) : Prop := x.state = .keying ∨ (x.state ≠ .down ∧ x.state ≠ .failed ∧ x.txSeq < 2 ^ 47 - 1)

/-- The engine once it has sent `n` frames. -/
def hopSent (n : Nat) (x : Engine) : Engine := if x.state = .keying then { x with txEst := x.txEst + n } else { x with txSeq := x.txSeq + n }

/-- The bytes of a frame under its hop layer. -/
def hopFrame (auth : Bool) (x : Engine) (type : Nat) (body : Bytes) : Bytes :=
  if x.state = .keying then hopHeader x.txEst false false type ++ body ++ zeros 8
  else hopHeader x.txSeq auth x.kphase type ++ body ++
    (if auth then hopTag (hopKey x x.kphase 0) x.txSeq (hopHeader x.txSeq auth x.kphase type ++ body) else zeros 8)

/-- A frame sent. -/
def hopOut (auth : Bool) (e : Nat) (x : Engine) (type : Nat) (body : Bytes) : Out := .linkFrame e (linkBeats (hopFrame auth x type body))

/-- The engine after a frame in tick `t`: sent, not sent on a link that is DOWN or FAILED, or the last of HSEQ. -/
def afterSend (t : Nat) (x : Engine) : Engine :=
  if x.state = .keying then hopSent 1 x
  else if x.state = .down ∨ x.state = .failed then { x with cntDrop := satAdd x.cntDrop 1 }
  else if 2 ^ 47 - 1 ≤ x.txSeq then linkFailed t (hopSent 1 x)
  else hopSent 1 x

theorem egress_hopSent (n : Nat) (x : Engine) : (hopSent n x).egress = x.egress := by
  unfold hopSent
  split
  · rfl
  · rfl

theorem exch_hopSent (n : Nat) (x : Engine) : (hopSent n x).exch = x.exch := by
  unfold hopSent
  split
  · rfl
  · rfl

theorem egress_afterSend {t : Nat} {x : Engine} (h : x.egress = none) : (afterSend t x).egress = none := by
  unfold afterSend
  split
  · rw [egress_hopSent, h]
  · split
    · exact h
    · split
      · rfl
      · rw [egress_hopSent, h]

section
variable {p : Parts} {e type : Nat} {body : Bytes} {x : Engine} {s t : State}

theorem sendHop_sent (h : canSend (engOf s e)) :
    sendHop e type body s = emit (hopOut (authClass s e) e (engOf s e) type body) (updEng e (hopSent 1) s) := by
  unfold hopOut
  obtain hkeying | ⟨hdown, hfailed, hseq⟩ := h
  · have hsent : updEng e (fun x => { x with txEst := x.txEst + 1 }) s = updEng e (hopSent 1) s := updEng_congr (by simp [hopSent, hkeying])
    simp only [sendHop, hopFrame, hkeying, if_true, hsent]
  · by_cases hkeying : (engOf s e).state = .keying
    · have hsent : updEng e (fun x => { x with txEst := x.txEst + 1 }) s = updEng e (hopSent 1) s := updEng_congr (by simp [hopSent, hkeying])
      simp only [sendHop, hopFrame, hkeying, if_true, hsent]
    · have hsent : updEng e (fun x => { x with txSeq := x.txSeq + 1 }) s = updEng e (hopSent 1) s := updEng_congr (by simp [hopSent, hkeying])
      simp only [sendHop, hopFrame, hkeying, hdown, hfailed, Nat.not_le.mpr hseq, or_self, if_false, hsent]

/-- The frame that ends HSEQ ends its link. -/
theorem sendHop_last (hk : (engOf s e).state ≠ .keying) (hd : (engOf s e).state ≠ .down) (hf : (engOf s e).state ≠ .failed)
    (hseq : 2 ^ 47 - 1 ≤ (engOf s e).txSeq) :
    sendHop e type body s = failLink e .timeout (emit (hopOut (authClass s e) e (engOf s e) type body) (updEng e (hopSent 1) s)) := by
  have hsent : updEng e (fun x => { x with txSeq := x.txSeq + 1 }) s = updEng e (hopSent 1) s := updEng_congr (by simp [hopSent, hk])
  simp only [hopOut, sendHop, hopFrame, hk, hd, hf, hseq, or_self, if_false, if_true, hsent]

/-- A link that is DOWN or FAILED sends nothing. -/
theorem sendHop_stopped (h : (engOf s e).state = .down ∨ (engOf s e).state = .failed) : sendHop e type body s = countLinkDrop e s := by
  have hk : (engOf s e).state ≠ .keying := by
    intro hk
    simp [hk] at h
  rw [sendHop, if_neg hk, if_pos h]

theorem EngineMoves.sendHop (h : EngineMoves p e x s t) (hp : exchanging.le p) (type : Nat) (body : Bytes) :
    EngineMoves p e (afterSend t.tick x) s (sendHop e type body t) := by
  have hle := sending_le_exchanging.trans hp
  have hsent : ∀ o, EngineMoves p e (hopSent 1 x) s (Machine.emit o (Machine.updEng e (hopSent 1) t)) := fun o => (h.updEng hle _).emit hle o
  simp only [afterSend]
  split
  next hk =>
    rw [sendHop_sent (.inl (by rw [h.self, hk]))]
    exact hsent _
  next hk =>
    split
    next hstop =>
      rw [sendHop_stopped (by rwa [h.self])]
      exact h.countLinkDrop hle
    next hstop =>
      obtain ⟨hd, hf⟩ := not_or.mp hstop
      split
      next hseq =>
        rw [sendHop_last (by rwa [h.self]) (by rwa [h.self]) (by rwa [h.self]) (by rwa [h.self])]
        exact (hsent _).failLink hp .timeout
      next hseq =>
        rw [sendHop_sent (.inr ⟨by rwa [h.self], by rwa [h.self], by rw [h.self]; exact Nat.not_le.mp hseq⟩)]
        exact hsent _

end

/-! ## Frames of jobs (R118, R119, R121, R131) -/

/-- A job whose frame `n` has been sent on a link. -/
def frameNumbered (e n : Nat) (b : Job) : Job := { b with jseq := mapSet 0 b.jseq e (n + 1) }

/-- A job that a link has carried a frame of. -/
def linkAdded (e : Nat) (b : Job) : Job := { b with links := if b.links.contains e then b.links else b.links ++ [e] }

/-- The state in which frame `n` of a job goes to the hop layer. -/
def numberedIn (e j n : Nat) (key : Bytes) (s : State) : State := touchJobKey e j key (addLink e j (updJob j (frameNumbered e n) s))

/-- The job layer of a frame. -/
def jobBody (e j dir : Nat) (payload key : Bytes) (s : State) : Bytes :=
  let hdr := jobHeader (jobOf s j).id s.link.endpoint (mapGet 0 (jobOf s j).jseq e) payload.length dir e (jobOf s j).plain
  hdr ++ sealJob key (jobNonce s.link.endpoint dir e (mapGet 0 (jobOf s j).jseq e)) hdr payload (jobOf s j).plain

/-- An engine's cache once a job's key has been used. -/
def keyTouched (j : Nat) (key : Bytes) (x : Engine) : Engine :=
  { x with jobKeys := ((j, key) :: x.jobKeys.filter (fun k => k.1 != j)).take 32 }

section
variable {e j dir : Nat} {payload key : Bytes} {x : Engine} {s t : State}

theorem sealFrame_sealed (h : mapGet 0 (jobOf s j).jseq e < 2 ^ 64 - 1) :
    sealFrame e j dir payload key s = sendHop e 0 (jobBody e j dir payload key s)
      (numberedIn e j (mapGet 0 (jobOf s j).jseq e) key (countUp 2 (jobOf s j).cid payload.length s)) := by
  rw [sealFrame, if_neg (Nat.not_le.mpr h)]
  rfl

theorem sealFrame_ended (h : 2 ^ 64 - 1 ≤ mapGet 0 (jobOf s j).jseq e) :
    sealFrame e j dir payload key s = countLinkDrop e (updEng e (fun x => { x with egressRefused := raise s.tick x.egressRefused }) s) := by
  rw [sealFrame, if_pos h]

theorem numberedIn_outs (n : Nat) : (numberedIn e j n key s).outs = s.outs := rfl
theorem numberedIn_splq (n : Nat) : (numberedIn e j n key s).splq = s.splq := rfl
theorem numberedIn_orng (n : Nat) : (numberedIn e j n key s).orng = s.orng := rfl

theorem JobMoves.numberedIn {y : Job} (h : JobMoves j y s t) (n : Nat) (key : Bytes) :
    JobMoves j (linkAdded e (frameNumbered e n y)) s (numberedIn e j n key t) :=
  ((h.updJob (frameNumbered e n)).updJob (linkAdded e)).off rfl

theorem EngineMoves.numberedIn {p : Parts} (h : EngineMoves p e x s t) (hp : framing.le p) (j n : Nat) (key : Bytes) :
    EngineMoves p e (keyTouched j key x) s (numberedIn e j n key t) :=
  ((h.updJob hp j (frameNumbered e n)).updJob hp j (linkAdded e)).updEng (sending_le_framing.trans hp) (keyTouched j key)

theorem mem_linkAdded (b : Job) : e ∈ (linkAdded e b).links := by
  simp only [linkAdded]
  split
  next h => simpa using h
  next => simp

theorem jseq_frameNumbered (n : Nat) (b : Job) : mapGet 0 (frameNumbered e n b).jseq e = n + 1 := by
  simp [frameNumbered, mapSet, mapGet_mapPut_same]

end

end Sys2Proof.LinkRules
end

section
/-! PROOF. The frames that leave on links (05_link_fence.md R117 to R121, R131). -/

namespace Sys2Proof.EgressFrames

open Sys2Proof Sys2Proof.Machine Sys2Proof.Laws Sys2Proof.Frames Sys2Proof.LinkRules

/-- An engine whose open frame has been taken. -/
def egressTaken (x : Engine) : Engine := { x with egress := none }

section
variable {e j : Nat} {g : Egress} {key : Bytes} {s : State}

theorem exec_linkEgressBeat (e : Fin 96) (cid : Fin 256) (job : BitVec 16) (data : Bytes) (s : State) :
    exec (.linkEgressBeat e cid job data) s = .next (egressBeatEffect e cid job data s) := rfl
theorem exec_egressFrameClose (e : Fin 96) (s : State) : exec (.egressFrameClose e) s = .next (egressCloseEffect e s) := rfl

theorem state_of_carries (h : linkCarries s e = true) : (engOf s e).state = .ready ∨ (engOf s e).state = .rekeying := by
  simp only [linkCarries, linkOpen, Bool.and_eq_true, Bool.or_eq_true, decide_eq_true_eq] at h
  exact h.1

/-- A link that carries job frames is past its first establishment, and not DOWN or FAILED. -/
theorem open_of_carries (h : linkCarries s e = true) :
    (engOf s e).state ≠ .keying ∧ (engOf s e).state ≠ .down ∧ (engOf s e).state ≠ .failed := by
  obtain h | h := state_of_carries h <;> simp [h]

theorem closeEgress_some (hg : (engOf s e).egress = some g) : closeEgress e s = submitFrame e g.job 0 g.data (updEng e egressTaken s) := by
  rw [closeEgress, hg]
  rfl

theorem egressCloseEffect_due (hg : (engOf s e).egress = some g) (hl : g.last + 8 ≤ s.tick) (hcar : linkCarries s e = true)
    (hsub : canSubmit s e g.job = true) : egressCloseEffect e s = submitFrame e g.job 0 g.data (updEng e egressTaken s) := by
  simp only [egressCloseEffect, hg, hl, hcar, hsub, and_self, if_true, closeEgress_some hg]

theorem canSubmit_cached (h : cachedJobKey s e j = some key) : canSubmit s e j = true := by simp [canSubmit, h]
theorem canSubmit_park (h : (engOf s e).txPark.length < 8) : canSubmit s e j = true := by simp [canSubmit, h]

section
variable (hw : mapWf {} s.link.engines = true)
include hw

theorem moves_egressTaken {p : Parts} (hp : sending.le p) : EngineMoves p e (egressTaken (engOf s e)) s (updEng e egressTaken s) :=
  (EngineMoves.refl hw).updEng hp egressTaken

theorem cachedJobKey_egressTaken : cachedJobKey (updEng e egressTaken s) e j = cachedJobKey s e j := by
  rw [cachedJobKey, (moves_egressTaken hw sending_le_carrying).self]
  rfl

theorem submitFrame_cached (hk : cachedJobKey s e j = some key) :
    submitFrame e j 0 g.data (updEng e egressTaken s) = sealFrame e j 0 g.data key (updEng e egressTaken s) := by
  rw [submitFrame, cachedJobKey_egressTaken hw, hk]

theorem submitFrame_keyless (hk : cachedJobKey s e j = none) :
    submitFrame e j 0 g.data (updEng e egressTaken s) =
      raiseJobFill e j (updEng e (fun x => { x with txPark := x.txPark ++ [(j, 0, g.data)] }) (updEng e egressTaken s)) := by
  rw [submitFrame, cachedJobKey_egressTaken hw, hk]

/-- A frame at the hop layer: numbered, its key the most recent one, its link in its job's set. -/
theorem sealed_at_hop (hwj : mapWf {} s.link.jobs = true) (hk : cachedJobKey s e g.job = some key)
    (hj : mapGet 0 (jobOf s g.job).jseq e < 2 ^ 64 - 1) :
    ∃ t, submitFrame e g.job 0 g.data (updEng e egressTaken s) = sendHop e 0 (jobBody e g.job 0 g.data key s) t ∧
      EngineMoves framing e (keyTouched g.job key (egressTaken (engOf s e))) (countUp 2 (jobOf s g.job).cid g.data.length s) t ∧
      JobMoves g.job (linkAdded e (frameNumbered e (mapGet 0 (jobOf s g.job).jseq e) (jobOf s g.job))) s t ∧
      t.outs = s.outs := by
  rw [submitFrame_cached hw hk, sealFrame_sealed (s := updEng e egressTaken s) hj]
  have hm : EngineMoves framing e _ (countUp 2 (jobOf s g.job).cid g.data.length s)
      (updEng e egressTaken (countUp 2 (jobOf s g.job).cid g.data.length s)) :=
    (EngineMoves.refl (s := countUp 2 (jobOf s g.job).cid g.data.length s) hw).updEng sending_le_framing egressTaken
  have hjm : JobMoves g.job (jobOf s g.job) s (updEng e egressTaken (countUp 2 (jobOf s g.job).cid g.data.length s)) :=
    (JobMoves.refl hwj).off rfl
  refine ⟨_, rfl, hm.numberedIn (fun _ _ => rfl) g.job _ key, hjm.numberedIn _ key, ?_⟩
  rw [numberedIn_outs, countUp_outs, updEng_outs]

end

/-! ## The close of the open frame (R118 to R121) -/

section
variable (hc : canonical s = true) (hg : (engOf s e).egress = some g)
include hc hg

/-- What the close of a frame changes beyond its engine and its job. -/
theorem moves_closeEgress : ∃ x, x.egress = none ∧ EngineMoves carrying e x s (closeEgress e s) := by
  have hw := canonical_link_engines hc
  rw [closeEgress_some hg]
  cases hk : cachedJobKey s e g.job with
  | none =>
    rw [submitFrame_keyless hw hk]
    refine ⟨_, ?_, ((moves_egressTaken hw sending_le_carrying).updEng sending_le_carrying _).updEng sending_le_carrying _⟩
    split
    · rfl
    · rfl
  | some key =>
    obtain hn | hn := Nat.lt_or_ge (mapGet 0 (jobOf s g.job).jseq e) (2 ^ 64 - 1)
    · obtain ⟨t, hsub, hm, -⟩ := sealed_at_hop hw (canonical_link_jobs hc) hk hn
      rw [hsub]
      exact ⟨_, egress_afterSend rfl, hm.of_counted.sendHop exchanging_le_carrying ..⟩
    · rw [submitFrame_cached hw hk, sealFrame_ended (s := updEng e egressTaken s) hn]
      exact ⟨_, rfl, ((moves_egressTaken hw sending_le_carrying).updEng sending_le_carrying _).countLinkDrop sending_le_carrying⟩

/-- The open frame goes out in beats. -/
theorem egress_sent (hl : g.last + 8 ≤ s.tick) (hcar : linkCarries s e = true) (hk : cachedJobKey s e g.job = some key)
    (hj : mapGet 0 (jobOf s g.job).jseq e < 2 ^ 64 - 1) (hseq : (engOf s e).txSeq < 2 ^ 47 - 1) :
    ∃ u, egressCloseEffect e s = u ∧ newOuts s u = [hopOut (authClass s e) e (engOf s e) 0 (jobBody e g.job 0 g.data key s)] ∧
      EngineMoves framing e (hopSent 1 (keyTouched g.job key (egressTaken (engOf s e)))) (countUp 2 (jobOf s g.job).cid g.data.length s) u ∧
      JobMoves g.job (linkAdded e (frameNumbered e (mapGet 0 (jobOf s g.job).jseq e) (jobOf s g.job))) s u := by
  obtain ⟨t, hsub, hm, hjm, houts⟩ := sealed_at_hop (canonical_link_engines hc) (canonical_link_jobs hc) hk hj
  obtain ⟨hkeying, hdown, hfailed⟩ := open_of_carries hcar
  have hauth : authClass t e = authClass s e := authClass_kept hm.of_counted.kept (by rw [hm.self]; rfl)
  rw [egressCloseEffect_due hg hl hcar (canSubmit_cached hk), hsub,
    sendHop_sent (.inr ⟨by rwa [hm.self], by rwa [hm.self], by rwa [hm.self]⟩), hm.self, hauth]
  refine ⟨_, rfl, ?_, (hm.updEng sending_le_framing _).emit sending_le_framing _, hjm.off rfl⟩
  rw [newOuts, emit, updEng_outs, houts, List.drop_left]
  rfl

/-- The end of HSEQ. -/
theorem egress_last (hl : g.last + 8 ≤ s.tick) (hcar : linkCarries s e = true)
    (hk : cachedJobKey s e g.job = some key) (hx : (engOf s e).exch = none) (hj : mapGet 0 (jobOf s g.job).jseq e < 2 ^ 64 - 1)
    (hseq : 2 ^ 47 - 1 ≤ (engOf s e).txSeq) :
    ∃ u, egressCloseEffect e s = u ∧ (roomAt s 1 = true → recorded u 1 .timeout = true) ∧
      EngineMoves carrying e (linkFailed s.tick (hopSent 1 (keyTouched g.job key (egressTaken (engOf s e))))) s u ∧
      JobMoves g.job (linkAdded e (frameNumbered e (mapGet 0 (jobOf s g.job).jseq e) (jobOf s g.job))) s u ∧ u.orng = s.orng := by
  obtain ⟨t, hsub, hm, hjm, houts⟩ := sealed_at_hop (canonical_link_engines hc) (canonical_link_jobs hc) hk hj
  obtain ⟨hkeying, hdown, hfailed⟩ := open_of_carries hcar
  rw [egressCloseEffect_due hg hl hcar (canSubmit_cached hk), hsub,
    sendHop_last (by rwa [hm.self]) (by rwa [hm.self]) (by rwa [hm.self]) (by rwa [hm.self]), hm.self]
  generalize hopOut (authClass t e) e (keyTouched g.job key (egressTaken (engOf s e))) 0 (jobBody e g.job 0 g.data key s) = o
  have hexch : (hopSent 1 (keyTouched g.job key (egressTaken (engOf s e)))).exch = none := by rw [exch_hopSent]; exact hx
  have hsent : EngineMoves carrying e _ s (emit o (updEng e (hopSent 1) t)) :=
    (hm.of_counted.updEng sending_le_carrying _).emit sending_le_carrying _
  have hidle : (engOf (emit o (updEng e (hopSent 1) t)) e).exch = none := (congrArg Engine.exch hsent.self).trans hexch
  have hroom : roomAt t 1 = roomAt s 1 := (congrArg (roomAt · 1) hm.kept.rest :)
  have htick : (emit o (updEng e (hopSent 1) t)).tick = s.tick := (congrArg State.tick hsent.kept.rest :)
  have hfail := hsent.failLink exchanging_le_carrying .timeout
  rw [htick] at hfail
  refine ⟨_, rfl, fun hr => ?_, hfail, ?_, ?_⟩
  · refine recorded_failLink (hsent.kept.queues (canonical_splq hc)) ?_
    rw [hidle]
    exact hroom.trans hr
  · rw [failLink_idle hidle]
    exact hjm.off rfl
  · rw [failLink_idle hidle]
    exact (congrArg State.orng hm.kept.rest :)

/-- The end of JSEQ. -/
theorem egress_unnumbered (hl : g.last + 8 ≤ s.tick) (hcar : linkCarries s e = true) (hk : cachedJobKey s e g.job = some key)
    (hj : 2 ^ 64 - 1 ≤ mapGet 0 (jobOf s g.job).jseq e) :
    ∃ u x, egressCloseEffect e s = u ∧ EngineMoves sending e x s u ∧
      x = { egressTaken (engOf s e) with
        egressRefused := raise s.tick (engOf s e).egressRefused, cntDrop := satAdd (engOf s e).cntDrop 1 } ∧
      u = { s with link := { s.link with engines := u.link.engines } } := by
  have hw := canonical_link_engines hc
  rw [egressCloseEffect_due hg hl hcar (canSubmit_cached hk), submitFrame_cached hw hk,
    sealFrame_ended (s := updEng e egressTaken s) hj]
  exact ⟨_, _, rfl, ((moves_egressTaken hw fun _ _ => rfl).updEng (fun _ _ => rfl) _).countLinkDrop fun _ _ => rfl, rfl, rfl⟩

/-- No key: the frame waits for its fill. -/
theorem egress_parked (hl : g.last + 8 ≤ s.tick) (hcar : linkCarries s e = true) (hk : cachedJobKey s e g.job = none)
    (hpark : (engOf s e).txPark.length < 8) :
    ∃ u x, egressCloseEffect e s = u ∧ EngineMoves sending e x s u ∧ x.egress = none ∧
      x.txPark = (engOf s e).txPark ++ [(g.job, 0, g.data)] ∧ (∃ f ∈ x.jobFills, f.1 = g.job) ∧
      u = { s with link := { s.link with engines := u.link.engines } } := by
  have hw := canonical_link_engines hc
  rw [egressCloseEffect_due hg hl hcar (canSubmit_park hpark), submitFrame_keyless hw hk]
  refine ⟨_, _, rfl, ((moves_egressTaken hw fun _ _ => rfl).updEng (fun _ _ => rfl) _).updEng (fun _ _ => rfl) _, ?_, ?_, ?_, rfl⟩
  · split
    · rfl
    · rfl
  · split
    · rfl
    · rfl
  · split
    next h => simpa [List.any_eq_true] using h
    next => exact ⟨_, List.mem_append_right _ List.mem_cons_self, rfl⟩

end

/-! ## Beats -/

section
variable {cid j : Nat} {job : BitVec 16} {data : Bytes}

/-- A beat of the job of the open frame, or of none, where frames may pass. -/
theorem egressBeatEffect_same (hallow : linkAllowed s = true) (hcar : linkCarries s e = true) (hchg : changesJob s e job = none) :
    egressBeatEffect e cid job data s = takeBeat e cid job data s := by
  simp [egressBeatEffect, hallow, hcar, hchg]

theorem changesJob_none (hg : (engOf s e).egress = none) : changesJob s e job = none := by simp [changesJob, hg]

/-- The first beat of a frame. -/
theorem takeBeat_opens (hg : (engOf s e).egress = none) (hjob : jobById s job = some j) (hopen : egressOpen s j cid = true)
    (hclosed : (jobOf s j).closed.contains e = false) :
    takeBeat e cid job data s = updEng e (fun x => { x with egress := some ⟨j, fit 256 data, s.tick⟩ }) s := by
  simp only [takeBeat, hg, hjob, hopen, hclosed, Bool.not_true, Bool.false_eq_true, if_false, appendBeat, List.nil_append, List.length_nil]
  rfl

/-- A beat of a job that is not open here. -/
theorem takeBeat_refuses (h : jobById s job = none ∨ ∃ j, jobById s job = some j ∧ egressOpen s j cid = false) :
    takeBeat e cid job data s = refuseBeat e job s := by
  obtain h | ⟨j, hj, hopen⟩ := h
  · simp [takeBeat, h]
  · simp [takeBeat, hj, hopen]

/-- A beat of another job closes the open frame first. -/
theorem egressBeatEffect_changed (hc : canonical s = true) (hallow : linkAllowed s = true) (hcar : linkCarries s e = true)
    (hchg : changesJob s e job = some j) (hsub : canSubmit s e j = true) :
    egressBeatEffect e cid job data s = egressBeatEffect e cid job data (closeEgress e s) := by
  obtain ⟨g, hg⟩ : ∃ g, (engOf s e).egress = some g := by
    rw [← Option.isSome_iff_exists]
    by_contra hn
    simp [changesJob, Option.not_isSome_iff_eq_none.mp hn] at hchg
  obtain ⟨x, hx, hm⟩ := moves_closeEgress hc hg
  have hallow' := (linkAllowed_kept hm.kept).trans hallow
  have hnone : changesJob (closeEgress e s) e job = none := changesJob_none (by rw [hm.self, hx])
  cases hcar' : linkCarries (closeEgress e s) e with
  | true =>
    rw [egressBeatEffect_same hallow' hcar' hnone]
    simp [egressBeatEffect, hallow, hcar, hchg, hsub, hcar']
  | false => simp [egressBeatEffect, hallow, hcar, hchg, hsub, hcar']

/-- A refused beat: dropped, counted and recorded. -/
theorem refuseBeat_records (hc : canonical s = true) (hr : roomAt s 0 = true)
    (hdue : mapGet 0 (engOf s e).recs (statusCode .notPermitted).toNat ≤ s.tick) :
    ∃ x, EngineMoves recording e x s (refuseBeat e job s) ∧ recorded (refuseBeat e job s) 0 .notPermitted = true ∧
      x.egress = (engOf s e).egress ∧ x.cntDrop = satAdd (engOf s e).cntDrop 1 ∧
      x.egressRefused = raise s.tick (engOf s e).egressRefused := by
  have hm := ((EngineMoves.refl (p := recording) (e := e) (canonical_link_engines hc)).updEng sending_le_recording
    (fun x => { x with egressRefused := raise s.tick x.egressRefused })).countLinkDrop sending_le_recording
  refine ⟨_, hm.linkRecord (fun _ _ => rfl) .notPermitted job.toNat s.link.endpoint.toNat 0,
    recorded_linkRecord (hm.kept.queues (canonical_splq hc)) hr ?_, ?_⟩
  · rw [hm.self]
    exact hdue
  · unfold recordNoted
    split
    · exact ⟨rfl, rfl, rfl⟩
    · exact ⟨rfl, rfl, rfl⟩

end

end

/-- Settles O37, clause by clause: what a beat does to the frame of its job or of another one, and how a frame closes under each of what
can stop it. -/
theorem egressSealsOrRefuses : Obligations.EgressSealsOrRefuses := by
  unfold Obligations.EgressSealsOrRefuses
  refine ⟨?_, ?_, ?_, ?_, ?_, ?_, ?_⟩
  · intro e cid job data s j hc hallow hcar hjob hopen hclosed hg
    have hm := (EngineMoves.refl (p := sending) (e := e) (canonical_link_engines hc)).updEng (fun _ _ => rfl)
      (fun x => { x with egress := some ⟨j, fit 256 data, s.tick⟩ })
    rw [exec_linkEgressBeat, egressBeatEffect_same hallow hcar (changesJob_none hg), takeBeat_opens hg hjob hopen hclosed]
    exact ⟨_, rfl, by rw [hm.self], hm.others, rfl⟩
  · intro e cid job data s hc hr hallow hcar hclosed hchg hdue
    obtain ⟨x, hm, hrec, hegress, hdrop, hrefused⟩ := refuseBeat_records (job := job) hc hr hdue
    rw [exec_linkEgressBeat, egressBeatEffect_same hallow hcar hchg, takeBeat_refuses hclosed]
    exact ⟨_, rfl, by rw [hm.self, hegress], by rw [hm.self, hdrop], by rw [hm.self, hrefused], hrec, hm.others,
      (congrArg (·.link.jobs) hm.kept.rest :), hm.kept.rest⟩
  · intro e cid job data s j hc hallow hcar hchg hsub
    rw [exec_linkEgressBeat, exec_linkEgressBeat, egressBeatEffect_changed hc hallow hcar hchg hsub]
  · intro e s g key hc hg hl hcar hk hj hseq
    obtain ⟨u, hu, houts, hm, hjm⟩ := egress_sent hc hg hl hcar hk hj hseq
    obtain ⟨hkeying, -, -⟩ := open_of_carries hcar
    have hx : hopSent 1 (keyTouched g.job key (egressTaken (engOf s e))) =
        { keyTouched g.job key (egressTaken (engOf s e)) with txSeq := (engOf s e).txSeq + 1 } := if_neg hkeying
    refine ⟨u, _, _, by rw [exec_egressFrameClose, hu], rfl, rfl, ?_, ?_, ?_, ?_, ?_, hm.others, hjm.others, hm.kept.rest⟩
    · rw [houts]
      simp only [hopOut, hopFrame, if_neg hkeying, jobBody]
    · rw [hjm.self]
      exact mem_linkAdded _
    · rw [hm.self, hx]
      rfl
    · rw [hm.self, hx]
    · rw [hjm.self]
      exact jseq_frameNumbered _ _
  · intro e s g key hc hr hg hl hcar hk hx hj hseq
    obtain ⟨u, hu, hrec, hm, hjm, horng⟩ := egress_last hc hg hl hcar hk hx hj hseq
    exact ⟨u, by rw [exec_egressFrameClose, hu], by rw [hm.self]; rfl, by rw [hm.self]; rfl, hrec hr, by rw [hm.self]; rfl, by rw [hm.self]; rfl,
      hm.others, hjm.others, horng⟩
  · intro e s g key hc hg hl hcar hk hj
    obtain ⟨u, x, hu, hm, hx, hrest⟩ := egress_unnumbered hc hg hl hcar hk hj
    exact ⟨u, by rw [exec_egressFrameClose, hu], by rw [hm.self, hx]; rfl, by rw [hm.self, hx], by rw [hm.self, hx], by rw [hm.self, hx]; rfl,
      hm.others, hrest⟩
  · intro e s g hc hg hl hcar hk hpark
    obtain ⟨u, x, hu, hm, hegress, htx, hfill, hrest⟩ := egress_parked hc hg hl hcar hk hpark
    exact ⟨u, by rw [exec_egressFrameClose, hu], by rw [hm.self, hegress], by rw [hm.self, htx], by rw [hm.self]; exact hfill, hm.others, hrest⟩

end Sys2Proof.EgressFrames
end

section
/-! PROOF. What the units send of themselves, where they record, complete, answer or zeroise (10_orangery_keys.md R233 to R237,
11_digest_engines.md R265): nothing at a link. -/

namespace Sys2Proof.UnitAnswers

open Sys2Proof Sys2Proof.Machine Sys2Proof.Frames Sys2Proof.FencePorts

/-- A completion, a reply, an answer to a requester, or a burst of a queue that a record has filled. -/
def isAnswer : Out → Bool
  | .completion .. | .msix _ | .mgmtReply .. | .burst .. | .digest .. | .digestPos .. | .mailbox .. => true
  | _ => false

/-- Only answers have been sent. -/
abbrev Answers (s t : State) : Prop := Sent (fun o => isAnswer o = true) s t

/-! ## Records and completions -/

theorem answers_putQ (n : Nat) (q : SpillQ) (s : State) : Answers s (putQ n q s) := by
  refine ⟨_, rfl, fun o ho => ?_⟩
  have hburst : ∀ {c : Prop} [Decidable c] {w l d}, o ∈ (if c then [Out.burst n w l d] else []) → isAnswer o = true := by
    intro c _ w l d hmem
    split at hmem
    · rw [List.mem_singleton.mp hmem]
      rfl
    · cases hmem
  exact (List.mem_append.mp ho).elim hburst hburst

theorem answers_postRecord (q k : Nat) (b : Bytes) (s : State) : Answers s (postRecord q k b s) := by
  have hone : Answers s (postEntry q k b s).1 := answers_putQ ..
  have hlost : Answers s (postEntry 0 10 (genericRecord s .splqOverrun 10 q []) (postEntry q k b s).1).1 := hone.trans (answers_putQ ..)
  obtain ⟨os, hos, ho⟩ := hone
  obtain ⟨ps, hps, hp⟩ := hlost
  refine ⟨if decide (q ≠ 0) && isOverrun (postEntry q k b s).2 then ps else os, ?_, ?_⟩
  · simp only [postRecord, hos, hps]
    split
    · rfl
    · rfl
  · split
    · exact hp
    · exact ho

theorem answers_finish (w : Waiter) (st : Status) (d : Bytes) (s : State) : Answers s (finish w st d s) := by
  have hhost : ∀ h, Answers s { s with host := h } := fun _ => .of_outs rfl
  have hcpl : ∀ r f t, Answers t (updCpl r f t) := fun _ _ _ => .of_outs rfl
  have hring : ∀ r f t, Answers t (updRing r f t) := fun _ _ _ => .of_outs rfl
  have hcount : ∀ c t, Answers t (countUp 5 c 1 t) := fun _ _ => .of_outs rfl
  have hirq : ∀ i r t, Answers t (irqAfter i r t) := fun _ _ t => .ite (.refl t) (.ite (.emit rfl) (.of_outs rfl))
  have hwrite : ∀ r i b t, Answers t (writeCpl r i b t) := fun r i b t => ((hcpl r _ t).trans (.emit rfl)).trans (hirq ..)
  have hbad : ∀ ip t, Answers t (noteBad ip t) := fun ip t =>
    .ite (hring ..) (((hring ..).trans (hring ..)).trans (answers_postRecord ..))
  have hcomplete : ∀ ip, Answers s (completeHost ip st d s) := fun ip =>
    .ite (hhost _) ((((hhost _).trans (.ite (hbad ..) (.refl _))).trans (hcpl ..)).trans (.ite ((hwrite ..).trans (hcount ..)) (.refl _)))
  unfold finish
  split
  · exact .refl s
  · split
    · exact hcomplete _
    · exact .refl s
  · split
    · exact .emit (s := { s with mgmt := _ }) rfl
    · exact .refl s

/-! ## Key slots -/

theorem answers_updSlot (n : Nat) (f : Slot → Slot) (s : State) : Answers s (updSlot n f s) := .of_outs rfl

theorem answers_zeroiseSlot (n : Nat) (s : State) : Answers s (zeroiseSlot n s) := by
  have himport : ∀ c t, Answers t (updCtx c (fun x => { x with importing := none }) t) := fun _ _ => .of_outs rfl
  have hload : ∀ l st d t, Answers t (answerLoad l st d t) := by
    intro l st d t
    simp only [answerLoad]
    split
    · exact (himport ..).trans (answers_finish ..)
    · exact (himport ..).trans (answers_finish ..)
    · exact .emit rfl
  have hloads : ∀ t l, Answers t { t with orng := { t.orng with loads := l } } := fun _ _ => .of_outs rfl
  exact ((answers_updSlot ..).trans (hloads _ _)).trans
    (.foldl (fun t _ => (Sent.foldl (fun u _ => .ite (.refl u) (answers_updSlot ..)) _ t).trans (hload ..)) _ _)

theorem answers_slotFail (n : Nat) (s : State) : Answers s (slotFail n false s) := by
  have hbad : ∀ f o, Answers s { updSlot n f s with orng := o } := fun _ _ => .of_outs rfl
  have hone f o b := (hbad f o).trans (answers_postRecord 0 15 b _)
  exact .ite ((hone ..).trans (answers_postRecord ..)) (hone ..)

theorem answers_checkSlot (n : Nat) (s : State) : Answers s (checkSlot n s) := .ite (answers_slotFail ..) (.refl s)

/-! ## Digest requests that end with a key -/

theorem answers_failDg (e : Nat) (run : DgRun) (st : Status) (s : State) : Answers s (failDg e run st s) :=
  (Sent.of_outs (t := clearDg e s) rfl).trans (.emit rfl)

theorem answers_setQueueDg (q : List DgReq) (s : State) : Answers s (setQueueDg q s) := by
  refine ⟨_, rfl, fun o ho => ?_⟩
  obtain ⟨x, -, hx⟩ := List.mem_filterMap.mp ho
  dsimp only at hx
  split at hx
  · cases hx
  · cases hx
    rfl

theorem answers_runDg (e : Nat) (r : DgReq) (chain outer : Bytes) (done : Nat) (s : State) : Answers s (runDg e r chain outer done s) := by
  have hrun : ∀ d p, Answers s (emit (.digestPos r.requester r.desc p) { s with dgst := d }) :=
    fun _ _ => .emit (s := { s with dgst := _ }) rfl
  exact .ite (hrun ..) ((hrun ..).trans (answers_failDg ..))

theorem answers_useSlot (n : Nat) (attr : BitVec 5) (c : Nat) (s : State) : Answers s (useSlot n attr c s).2 := by
  unfold useSlot
  split
  · simp only []
    split
    · exact .refl s
    · exact answers_slotFail ..
  · exact .refl s

theorem answers_cachedStates (n a : Nat) (k : Bytes) (s : State) : Answers s (cachedStates n a k s).2 := by
  simp only [cachedStates]
  split
  · exact .of_outs rfl
  · exact .of_outs rfl

theorem answers_startDg (e : Nat) (r : DgReq) (s : State) : Answers s (startDg e r s) := by
  refine Sent.trans (.of_outs rfl : Answers s (unmarkDg r s)) ?_
  unfold startDg
  generalize unmarkDg r s = t
  have huse := answers_useSlot r.slot (dgAttr r) r.cid t
  have hrefuse : ∀ st u, Answers u (answerDg r st [] u) := fun _ _ => .emit rfl
  simp only []
  split
  · exact hrefuse ..
  split
  next himage =>
    split
    · split
      · exact answers_runDg ..
      · exact hrefuse ..
    · exact answers_runDg ..
  next =>
    split
    next key u hu =>
      rw [hu] at huse
      have hstates := huse.trans (answers_cachedStates r.slot r.alg key u)
      split
      · split
        · exact hstates.trans (answers_runDg ..)
        · exact (hstates.trans (.foldl (fun t n => answers_checkSlot n t) _ _)).trans (hrefuse ..)
      · exact hstates.trans (answers_runDg ..)
    next hu =>
      rw [hu] at huse
      exact huse.trans (hrefuse ..)

theorem answers_pumpDg (n : Nat) (s : State) : Answers s (pumpDg n s) := by
  induction n generalizing s with
  | zero => exact .refl s
  | succ n ih =>
    unfold pumpDg
    split
    · exact ((answers_setQueueDg ..).trans (answers_startDg ..)).trans (ih _)
    · exact .refl s

theorem answers_leaveDg (e : Nat) (run : DgRun) (s : State) : Answers s (leaveDg e run s) := by
  unfold leaveDg
  refine Sent.trans ?_ (answers_pumpDg 16 _)
  split
  · exact .ite ((answers_setQueueDg ..).trans (answers_startDg ..)) (.refl s)
  · exact .refl s

theorem answers_dropKey (n : Nat) (s : State) : Answers s (dropKey n s) := by
  have hcache : ∀ t, Answers t (uncacheSlot n t) := fun _ => .of_outs rfl
  exact ((answers_zeroiseSlot ..).trans (hcache _)).trans (.foldl (fun t _ => (answers_failDg ..).trans (answers_leaveDg ..)) _ _)

theorem answers_dropKeys (ns : List Nat) (s : State) : Answers s (dropKeys ns s) := .foldl (fun t n => answers_dropKey n t) ns s

end Sys2Proof.UnitAnswers
end

section
/-! PROOF. Received frames (05_link_fence.md R120, R123, R130, R136 to R138, Table LINK-9): what any of them may change. -/

namespace Sys2Proof.IngressFrames

open Sys2Proof Sys2Proof.Machine Sys2Proof.Laws Sys2Proof.Frames Sys2Proof.FencePorts Sys2Proof.LinkRules Sys2Proof.UnitAnswers Sys2Proof.EgressFrames

/-- The output is no delivery, or one at the engine. -/
def ownDelivery (e : Nat) : Out → Bool
  | .linkDeliver n _ _ => n == e
  | _ => true

/-- The output is no delivery. -/
def notDelivered : Out → Bool
  | .linkDeliver .. => false
  | _ => true

theorem notDelivered_of_answer {o : Out} (h : isAnswer o = true) : notDelivered o = true := by
  cases o with
  | linkDeliver => exact h
  | _ => rfl

theorem ownDelivery_of_not {e : Nat} {o : Out} (h : notDelivered o = true) : ownDelivery e o = true := by
  cases o with
  | linkDeliver => cases h
  | _ => rfl

theorem answers_linkRecord (e : Nat) (st : Status) (job ep hseq : Nat) (s : State) : Answers s (linkRecord e st job ep hseq s) :=
  .ite (.refl s) ((Sent.of_outs (t := updEng e _ s) rfl).trans (answers_postRecord ..))

theorem answers_failLink (e : Nat) (st : Status) (s : State) : Answers s (failLink e st s) := by
  have hdrop : ∀ x, Answers s (dropExchange x s) := by
    intro x
    unfold dropExchange
    split
    · exact .refl s
    · exact answers_dropKeys ..
  rw [failLink_eq]
  exact ((hdrop _).trans (.of_outs (t := updEng e _ _) rfl)).trans (answers_postRecord ..)

/-- What a frame received at an engine may do: of the engines its own changes, and it delivers there alone. -/
structure Receives (e : Nat) (s t : State) : Prop where
  moves : ∃ x, EngineMoves units e x s t
  sent : Sent (fun o => ownDelivery e o = true) s t

namespace Receives

variable {e : Nat} {s t u : State}

theorem refl (hw : mapWf {} s.link.engines = true) : Receives e s s := ⟨⟨_, .refl hw⟩, .refl s⟩

/-- What leaves the engines and delivers nothing, or at the engine. -/
theorem off (h : Receives e s t) (hk : Kept units t u) (hl : u.link.engines = t.link.engines)
    (hs : Sent (fun o => ownDelivery e o = true) t u) : Receives e s u := by
  obtain ⟨⟨x, hx⟩, hsent⟩ := h
  exact ⟨⟨x, hx.off hk hl⟩, hsent.trans hs⟩

theorem updEng (h : Receives e s t) (f : Engine → Engine) : Receives e s (updEng e f t) := by
  obtain ⟨⟨x, hx⟩, hsent⟩ := h
  exact ⟨⟨_, hx.updEng (fun _ _ => rfl) f⟩, hsent.trans (.of_outs rfl)⟩

theorem updJob (h : Receives e s t) (j : Nat) (f : Job → Job) : Receives e s (updJob j f t) :=
  h.off (.silent rfl rfl rfl rfl) rfl (.of_outs rfl)

theorem emit (h : Receives e s t) {o : Out} (ho : ownDelivery e o = true) : Receives e s (emit o t) :=
  h.off (kept_emit answers_le_units ..) rfl (.emit ho)

theorem countUp (h : Receives e s t) (i c k : Nat) : Receives e s (countUp i c k t) :=
  h.off (kept_countUp answers_le_units ..) rfl (.of_outs rfl)

theorem linkRecord (h : Receives e s t) (st : Status) (job ep hseq : Nat) : Receives e s (linkRecord e st job ep hseq t) := by
  obtain ⟨⟨x, hx⟩, hsent⟩ := h
  exact ⟨⟨_, hx.linkRecord (fun _ _ => rfl) ..⟩,
    hsent.trans ((answers_linkRecord ..).mono fun o ho => ownDelivery_of_not (notDelivered_of_answer ho))⟩

theorem failLink (h : Receives e s t) (st : Status) : Receives e s (failLink e st t) := by
  obtain ⟨⟨x, hx⟩, hsent⟩ := h
  exact ⟨⟨_, hx.failLink (fun _ _ => rfl) st⟩,
    hsent.trans ((answers_failLink ..).mono fun o ho => ownDelivery_of_not (notDelivered_of_answer ho))⟩

end Receives

/-- What a record and a bad tag of a job change. -/
def tagging : Parts where
  put s t := { s with link := { s.link with engines := t.link.engines, jobs := t.link.jobs }, splq := t.splq, outs := t.outs }
  put_self _ := rfl
  put_put _ _ _ := rfl

/-! ## Every path of a received frame (Table LINK-9) -/

section
variable {e : Nat} {r : RxFrame} {f : Bytes} {s t : State} (h : Receives e s t)
include h

theorem receives_failHop : Receives e s (failHop e r t) := ((h.updEng _).updEng _).linkRecord ..
theorem receives_failLength (st : Status) : Receives e s (failLength e r st t) := (h.updEng _).linkRecord ..
theorem receives_failUnknown : Receives e s (failUnknown e r t) := (h.updEng _).linkRecord ..
theorem receives_failMember : Receives e s (failMember e r t) := (h.updEng _).linkRecord ..

theorem receives_failJobTag : Receives e s (failJobTag e r t) := by
  refine Receives.linkRecord ?_ ..
  split
  · exact (h.updEng _).updJob ..
  · exact h.updEng _

theorem receives_deliverFrame (j : Nat) (key : Bytes) : Receives e s (deliverFrame e j f key t) := by
  have htouch : Receives e s (touchJobKey e j key t) := h.updEng _
  have hadd : Receives e s (addLink e j (touchJobKey e j key t)) := htouch.updJob ..
  simp only [deliverFrame]
  split
  · exact receives_failJobTag htouch
  · split
    · split
      · exact (hadd.countUp 3 _ _).emit (by simp [ownDelivery])
      · exact hadd.updEng _
    · exact hadd.off (.silent rfl rfl rfl rfl) rfl (.of_outs rfl)

theorem receives_jobRows : Receives e s (jobRows e r f t) := by
  unfold jobRows
  split
  · exact receives_failUnknown h
  · split
    · exact receives_failUnknown h
    · split
      · exact receives_failMember h
      · split
        · exact h.updEng _
        · split
          · exact receives_deliverFrame h ..
          · exact (h.updEng _).updEng _

theorem receives_takeFragment : Receives e s (takeFragment e r f t) := by
  have hadd : Receives e s (match jobById t r.job with | some j => addLink e j t | none => t) := by
    split
    · exact h.updJob ..
    · exact h
  simp only [takeFragment]
  split
  · split
    · exact hadd.updEng _
    · exact hadd.updEng _
  · split
    · exact hadd.updEng _
    · split
      · exact (hadd.updEng _).updEng _
      · exact hadd.updEng _

theorem receives_takeControl : Receives e s (takeControl e r f t) := by
  simp only [takeControl]
  split
  · exact h.updEng _
  · split
    · exact h.updEng _
    · split
      · exact h.updEng _
      · exact h.updEng _

theorem receives_laterRows (beats : Nat) : Receives e s (laterRows e beats r f t) := by
  simp only [laterRows]
  split
  · exact receives_failLength h _
  split
  · exact receives_failLength h _
  split
  · exact receives_takeControl h
  split
  · exact receives_failJobTag h
  split
  · exact receives_takeFragment h
  · exact receives_jobRows h

end

theorem receives_ingress {e beats : Nat} {f : Bytes} {s : State} (hw : mapWf {} s.link.engines = true) :
    Receives e s (ingressEffect e beats f s) := by
  have h : Receives e s s := .refl hw
  have haccept : Receives e s (acceptHop e (parseFrame f) s) := h.updEng _
  simp only [ingressEffect]
  split
  · exact h
  split
  · exact h.updEng _
  split
  · exact receives_failHop h
  split
  · exact h
  split
  · exact receives_failHop h
  split
  · exact h
  split
  · exact (haccept.updEng _).failLink _
  · exact receives_laterRows haccept beats

/-! ## Frames that pass rows 1 and 2 -/

/-- The engine once a frame has passed the hop layer in the state `s`. -/
def hopAccepted (s : State) (e : Nat) (r : RxFrame) (x : Engine) : Engine :=
  let fresh := !isEstablishing s e r && r.phase == (engOf s e).kphase && (engOf s e).rxPhase != r.phase
  { x with
    rxSeq := mapSet 0 x.rxSeq (seqSpace s e r) r.seq
    rxPhase := if fresh then r.phase else x.rxPhase
    oldUntil := if fresh then some (s.tick + 250000) else x.oldUntil }

section
variable {e beats : Nat} {f : Bytes} {r : RxFrame} {s : State}

theorem exec_linkIngressFrame (e : Fin 96) (beats : Nat) (f : Bytes) (s : State) :
    exec (.linkIngressFrame e beats f) s = .next (ingressEffect e beats f s) := rfl
theorem acceptHop_eq : acceptHop e r s = updEng e (hopAccepted s e r) s := rfl

/-- A frame that row 2 lets pass does not wait for its key. -/
theorem keyOnItsWay_of_row2 (h2 : row2 s e r f = true) : keyOnItsWay s e r = false := by
  simp only [row2, Bool.and_eq_true, Bool.or_eq_true, Bool.not_eq_true', decide_eq_true_eq] at h2
  obtain ⟨-, hauth⟩ := h2
  obtain hplain | ⟨hkey, -⟩ := hauth
  · simp [keyOnItsWay, hplain]
  · simp [keyOnItsWay, hkey]

theorem seq_ne_zero_of_row2 (h2 : row2 s e r f = true) : r.seq ≠ 0 := by
  simp only [row2, Bool.and_eq_true, decide_eq_true_eq] at h2
  obtain ⟨⟨hlast, -⟩, -⟩ := h2
  omega

/-- The HSEQ of an accepted frame is the last one of its space. -/
theorem rxSeq_hopAccepted (x : Engine) (h : r.seq ≠ 0) : mapGet 0 (hopAccepted s e r x).rxSeq (seqSpace s e r) = r.seq := by
  simp only [hopAccepted, mapSet, if_neg h, mapGet_mapPut_same]

theorem seqSpace_job (ht : r.type = 0) : seqSpace s e r = bit r.phase := by simp [seqSpace, isEstablishing, ht]

theorem ingress_accepted (hallow : linkAllowed s = true) (hdown : (engOf s e).state ≠ .down) (hfailed : (engOf s e).state ≠ .failed)
    (hq : ¬((engOf s e).state = .quarantined ∧ (parseFrame f).type = 0)) (h1 : row1 s e (parseFrame f) = true)
    (h2 : row2 s e (parseFrame f) f = true) (hheld : ingressHeld s e (parseFrame f) = false) (hseq : (parseFrame f).seq < 2 ^ 47 - 1) :
    ingressEffect e beats f s = laterRows e beats (parseFrame f) f (updEng e (hopAccepted s e (parseFrame f)) s) := by
  simp only [ingressEffect, hallow, hdown, hfailed, hq, h1, h2, hheld, keyOnItsWay_of_row2 h2, Nat.not_le.mpr hseq, decide_false, Bool.not_true,
    Bool.or_self, Bool.false_eq_true, and_false, if_false, acceptHop_eq]

/-- Rows 1 and 2 for a frame that fails one of them. -/
theorem ingress_failsHop (hallow : linkAllowed s = true) (hdown : (engOf s e).state ≠ .down) (hfailed : (engOf s e).state ≠ .failed)
    (hq : (engOf s e).state ≠ .quarantined)
    (h : row1 s e (parseFrame f) = false ∨ (keyOnItsWay s e (parseFrame f) = false ∧ row2 s e (parseFrame f) f = false)) :
    ingressEffect e beats f s = failHop e (parseFrame f) s := by
  cases h1 : row1 s e (parseFrame f) with
  | false => simp [ingressEffect, hallow, hdown, hfailed, hq, h1]
  | true =>
    obtain hrow | ⟨hway, h2⟩ := h
    · cases h1.symm.trans hrow
    · simp [ingressEffect, hallow, hdown, hfailed, hq, h1, hway, h2]

/-! ## Rows 3 to 8 -/

section
variable (hb : beats = (frameLen r + 255) / 256)
include hb

theorem laterRows_control (ht : r.type = 1) (hlen : r.len ≤ 4090) : laterRows e beats r f s = takeControl e r f s := by
  simp [laterRows, hb, ht, Nat.not_lt.mpr hlen]

theorem laterRows_fragment (ht : r.type = 0) (hlen : r.len ≤ 4096) (hdir : r.dir = 3 ∨ r.dir = 4) (hres : r.jres = 0)
    (hplain : r.plain = true) : laterRows e beats r f s = takeFragment e r f s := by
  have h4 : ¬4 < r.dir := by omega
  have h3 : 3 ≤ r.dir := by omega
  simp [laterRows, hb, ht, Nat.not_lt.mpr hlen, plainOk, h4, h3, hres, hplain]

theorem laterRows_job (ht : r.type = 0) (hlen : r.len ≤ 4096) (hdir : r.dir ≤ 2) (hres : r.jres = 0)
    (hplain : plainOk s r = true) : laterRows e beats r f s = jobRows e r f s := by
  have h4 : ¬4 < r.dir := by omega
  have h3 : ¬3 ≤ r.dir := by omega
  simp [laterRows, hb, ht, Nat.not_lt.mpr hlen, hplain, h4, h3, hres]

end

theorem jobRows_unknown (h : jobById s r.job = none) : jobRows e r f s = failUnknown e r s := by simp only [jobRows, h]

section
variable {j : Nat} {key : Bytes} (hj : jobById s r.job = some j) (hclosed : (jobOf s j).closed.contains e = false)
include hj hclosed

theorem jobRows_notMember (h : inRanges r.ep (jobOf s j).ranges = false) : jobRows e r f s = failMember e r s := by
  simp only [jobRows, hj, hclosed, h, Bool.false_eq_true, if_false, Bool.not_false, if_true]

theorem jobRows_keyed (hin : inRanges r.ep (jobOf s j).ranges = true) (hkeying : (jobOf s j).state ≠ .keying)
    (hkey : cachedJobKey s e j = some key) : jobRows e r f s = deliverFrame e j f key s := by
  simp only [jobRows, hj, hclosed, hin, hkeying, hkey, Bool.false_eq_true, if_false, Bool.not_true]

end

theorem deliverFrame_open {j : Nat} {key p : Bytes} (hdir : (parseFrame f).dir = 0) (hopen : (jobOf s j).state = .open_)
    (htag : openJob_ key (jobNonce (parseFrame f).ep (parseFrame f).dir (parseFrame f).eng (parseFrame f).jseq) (slice f 8 16)
      (slice f 24 (parseFrame f).len) (slice f (24 + (parseFrame f).len) 16) (parseFrame f).plain = some p) :
    deliverFrame e j f key s = emit (.linkDeliver e (parseFrame f).job.toNat (linkBeats p))
      (countUp 3 (jobOf s j).cid p.length (addLink e j (touchJobKey e j key s))) := by
  simp only [deliverFrame, htag]
  simp only [hdir, hopen, true_or, if_true]

theorem deliverFrame_badTag {j : Nat} {key : Bytes}
    (htag : openJob_ key (jobNonce (parseFrame f).ep (parseFrame f).dir (parseFrame f).eng (parseFrame f).jseq) (slice f 8 16)
      (slice f 24 (parseFrame f).len) (slice f (24 + (parseFrame f).len) 16) (parseFrame f).plain = none) :
    deliverFrame e j f key s = failJobTag e (parseFrame f) (touchJobKey e j key s) := by
  simp only [deliverFrame, htag]

/-- The link of a local job's frame is in its job's set (R131). -/
def carried (e : Nat) (r : RxFrame) (s : State) : State :=
  match jobById s r.job with
  | some j => addLink e j s
  | none => s

theorem carried_outs : (carried e r s).outs = s.outs := by
  unfold carried
  split
  · rfl
  · rfl

/-- A job whose link has carried a frame keeps its state. -/
theorem state_carried (hw : mapWf {} s.link.jobs = true) (n : Nat) : (jobOf (carried e r s) n).state = (jobOf s n).state := by
  unfold carried
  split
  next j hj =>
    have h : JobMoves j (linkAdded e (jobOf s j)) s (addLink e j s) := (JobMoves.refl hw).updJob (linkAdded e)
    by_cases hn : n = j
    · rw [hn, h.self]
      rfl
    · rw [h.others n hn]
  next => rfl

theorem mem_links_carried {j : Nat} (hw : mapWf {} s.link.jobs = true) (hj : jobById s r.job = some j) :
    e ∈ (jobOf (carried e r s) j).links := by
  have h : JobMoves j (linkAdded e (jobOf s j)) s (addLink e j s) := (JobMoves.refl hw).updJob (linkAdded e)
  simp only [carried, hj]
  rw [h.self]
  exact mem_linkAdded _

theorem carried_moves {x : Engine} {t : State} (h : EngineMoves framing e x s t) : EngineMoves framing e x s (carried e r t) := by
  unfold carried
  split
  · exact h.updJob (fun _ _ => rfl) _ _
  · exact h

/-- An engine that keeps the first fragment of a message. -/
def fragmentKept (r : RxFrame) (f : Bytes) (x : Engine) : Engine :=
  { x with asm := x.asm.filter (fun a => !((a.grant == decide (r.dir = 4)) && decide (a.job = r.job) && decide (a.ep = r.ep) && !a.done)) ++
    [⟨decide (r.dir = 4), r.job, r.ep, [slice f 8 (32 + r.len)], r.last⟩] }

theorem takeFragment_first (hfrag : r.frag = 0) (hasm : (engOf s e).asm = []) :
    takeFragment e r f s = updEng e (fragmentKept r f) (carried e r s) := by
  simp only [takeFragment, hasm, hfrag]
  rfl

/-- An engine that keeps the first frame of a hop-control message. -/
def controlKept (r : RxFrame) (f : Bytes) (x : Engine) : Engine :=
  { x with hopAsm := x.hopAsm.filter (fun a => a.type != leAt f 8 1) ++
    [⟨leAt f 8 1, slice f 14 r.len, 1, decide (leAt f 10 1 = 1)⟩] }

theorem takeControl_first (h1 : 1 ≤ leAt f 8 1) (h4 : leAt f 8 1 ≤ 4) (h0 : leAt f 9 1 = 0) : takeControl e r f s = updEng e (controlKept r f) s := by
  have hrange : ¬(leAt f 8 1 < 1 ∨ 4 < leAt f 8 1) := by omega
  simp only [takeControl, if_neg hrange, h0, if_true, List.nil_append]
  rfl

end

/-! ## What each row leaves -/

section
variable {e beats : Nat} {f : Bytes} {r : RxFrame} {s t : State}

theorem not_quarantined_of_carries (h : linkCarries s e = true) : (engOf s e).state ≠ .quarantined := by
  obtain h | h := state_of_carries h <;> simp [h]

theorem not_delivered (h : Sent (fun o => notDelivered o = true) s t) : ∀ n x p, .linkDeliver n x p ∉ newOuts s t := by
  intro n x p hmem
  cases h.newOuts _ hmem

theorem sent_linkRecord (st : Status) (job ep hseq : Nat) (hs : Sent (fun o => notDelivered o = true) s t) :
    Sent (fun o => notDelivered o = true) s (linkRecord e st job ep hseq t) :=
  hs.trans ((answers_linkRecord ..).mono fun _ => notDelivered_of_answer)

theorem jobKeys_hopAccepted (x : Engine) : (hopAccepted s e r x).jobKeys = x.jobKeys := rfl

/-- An engine that has counted a bad hop tag in tick `t`. -/
def hopTagCounted (t : Nat) (x : Engine) : Engine := { x with hopTag := raise t x.hopTag, cntHopTag := satAdd x.cntHopTag 1 }

/-- An engine whose bad hop tag of tick `t` counts toward its threshold. -/
def badHopNoted (t : Nat) (x : Engine) : Engine :=
  { x with badHop := (t :: x.badHop).take 64, hopDue := if thresholdMet 64 t x.badHop then some t else x.hopDue }

/-- An engine that has counted a bad job tag in tick `t`. -/
def jobTagCounted (t : Nat) (x : Engine) : Engine := { x with jobTag := raise t x.jobTag, cntJobTag := satAdd x.cntJobTag 1 }

/-- A job whose bad tag of tick `t` counts toward its threshold. -/
def badJobNoted (t : Nat) (x : Job) : Job :=
  { x with bad := (t :: x.bad).take 16, badDue := if thresholdMet 16 t x.bad then some t else x.badDue }

/-- An engine that has counted a frame of an unknown job in tick `t`. -/
def unknownCounted (t : Nat) (x : Engine) : Engine := { x with unknownJob := raise t x.unknownJob, cntUnknown := satAdd x.cntUnknown 1 }

/-- An engine that has counted a frame of an endpoint that is no member in tick `t`. -/
def memberCounted (t : Nat) (x : Engine) : Engine := { x with notMember := raise t x.notMember, cntMember := satAdd x.cntMember 1 }

theorem failHop_eq : failHop e r s = linkRecord e .lnkfHopTag r.job.toNat r.ep.toNat r.seq
    (updEng e (badHopNoted s.tick) (updEng e (hopTagCounted s.tick) s)) := rfl
theorem failUnknown_eq : failUnknown e r s = linkRecord e .lnkfUnknownJob r.job.toNat r.ep.toNat r.seq (updEng e (unknownCounted s.tick) s) := rfl
theorem failMember_eq : failMember e r s = linkRecord e .lnkfNotMember r.job.toNat r.ep.toNat r.seq (updEng e (memberCounted s.tick) s) := rfl
theorem failJobTag_eq {j : Nat} (hj : jobById s r.job = some j) : failJobTag e r s =
    linkRecord e .lnkfJobTag r.job.toNat r.ep.toNat r.seq (updJob j (badJobNoted s.tick) (updEng e (jobTagCounted s.tick) s)) := by
  simp only [failJobTag, hj]
  rfl

/-- The state in which the job rows see a frame: its HSEQ accepted, nothing else changed. -/
structure Accepted (e : Nat) (r : RxFrame) (s t : State) : Prop where
  moves : EngineMoves sending e (hopAccepted s e r (engOf s e)) s t
  outs : t.outs = s.outs
  jobs : t.link.jobs = s.link.jobs
  keys : ∀ j, cachedJobKey t e j = cachedJobKey s e j

theorem accepted (hw : mapWf {} s.link.engines = true) : Accepted e r s (updEng e (hopAccepted s e r) s) where
  moves := (EngineMoves.refl hw).updEng (fun _ _ => rfl) _
  outs := rfl
  jobs := rfl
  keys j := by
    rw [cachedJobKey, ((EngineMoves.refl (p := sending) hw).updEng (fun _ _ => rfl) (hopAccepted s e r)).self]
    rfl

/-- Rows 5 and 6 passed, with the job's key at hand. -/
theorem Accepted.keyed {j : Nat} {key : Bytes} (h : Accepted e r s t) (hj : jobById s r.job = some j)
    (hclosed : (jobOf s j).closed.contains e = false) (hin : inRanges r.ep (jobOf s j).ranges = true)
    (hkeying : (jobOf s j).state ≠ .keying) (hkey : cachedJobKey s e j = some key) : jobRows e r f t = deliverFrame e j f key t := by
  have hjob : jobOf t j = jobOf s j := by rw [jobOf, h.jobs, jobOf]
  have hid : jobById t r.job = some j := by rw [jobById, h.jobs]; exact hj
  exact jobRows_keyed hid (hjob ▸ hclosed) (hjob ▸ hin) (hjob ▸ hkeying) ((h.keys j).trans hkey)

/-- A frame of a job that has passed rows 1 to 4. -/
theorem accepted_job (hc : canonical s = true) (hallow : linkAllowed s = true) (hcar : linkCarries s e = true)
    (h1 : row1 s e (parseFrame f) = true) (h2 : row2 s e (parseFrame f) f = true) (hseq : (parseFrame f).seq < 2 ^ 47 - 1)
    (ht : (parseFrame f).type = 0) (hb : beats = (frameLen (parseFrame f) + 255) / 256) (hlen : (parseFrame f).len ≤ 4096)
    (hdir : (parseFrame f).dir ≤ 2) (hres : (parseFrame f).jres = 0) (hplain : plainOk s (parseFrame f) = true)
    (hheld : ingressHeld s e (parseFrame f) = false) :
    ∃ t, ingressEffect e beats f s = jobRows e (parseFrame f) f t ∧ Accepted e (parseFrame f) s t := by
  obtain ⟨-, hdown, hfailed⟩ := open_of_carries hcar
  refine ⟨_, ?_, accepted (canonical_link_engines hc)⟩
  rw [ingress_accepted hallow hdown hfailed (fun h => not_quarantined_of_carries hcar h.1) h1 h2 hheld hseq]
  exact laterRows_job hb ht hlen hdir hres hplain

/-- A frame delivered: its engine has used its key, its job's set holds the link. -/
theorem deliver_moves {j k : Nat} {key : Bytes} (o : Out) (hwe : mapWf {} s.link.engines = true) (hwj : mapWf {} s.link.jobs = true) :
    EngineMoves framing e (keyTouched j key (engOf s e)) (countUp 3 (jobOf s j).cid k s)
      (emit o (countUp 3 (jobOf s j).cid k (addLink e j (touchJobKey e j key s)))) ∧
    JobMoves j (linkAdded e (jobOf s j)) s (emit o (countUp 3 (jobOf s j).cid k (addLink e j (touchJobKey e j key s)))) := by
  have hm : EngineMoves framing e (engOf s e) (countUp 3 (jobOf s j).cid k s) (countUp 3 (jobOf s j).cid k s) :=
    EngineMoves.refl (s := countUp 3 (jobOf s j).cid k s) hwe
  have hj : JobMoves j (jobOf s j) s (touchJobKey e j key s) := (JobMoves.refl hwj).off rfl
  exact ⟨((hm.updEng sending_le_framing (keyTouched j key)).updJob (fun _ _ => rfl) j (linkAdded e)).emit sending_le_framing o,
    (hj.updJob (linkAdded e)).off rfl⟩

/-- A frame whose job tag fails. -/
theorem badTag_moves {j : Nat} {key : Bytes} (hwe : mapWf {} s.link.engines = true) (hwj : mapWf {} s.link.jobs = true)
    (hj : jobById s r.job = some j) : ∃ rs u, failJobTag e r (touchJobKey e j key s) = u ∧
    EngineMoves tagging e { jobTagCounted s.tick (keyTouched j key (engOf s e)) with recs := rs } s u ∧
    JobMoves j (badJobNoted s.tick (jobOf s j)) s u ∧ Sent (fun o => notDelivered o = true) s u := by
  have hm : EngineMoves tagging e _ s (touchJobKey e j key s) := (EngineMoves.refl hwe).updEng (fun _ _ => rfl) (keyTouched j key)
  have hcount := (hm.updEng (fun _ _ => rfl) (jobTagCounted s.tick)).updJob (fun _ _ => rfl) j (badJobNoted s.tick)
  have hjm : JobMoves j (jobOf s j) s (updEng e (jobTagCounted s.tick) (touchJobKey e j key s)) := (JobMoves.refl hwj).off rfl
  have hsent : Sent (fun o => notDelivered o = true) s (updJob j (badJobNoted s.tick) (updEng e (jobTagCounted s.tick) (touchJobKey e j key s))) :=
    .of_outs rfl
  obtain ⟨rs, hnoted⟩ := hcount.noted (fun _ _ => rfl) .lnkfJobTag r.job.toNat r.ep.toNat r.seq
  rw [failJobTag_eq (s := touchJobKey e j key s) hj]
  exact ⟨rs, _, rfl, hnoted, (hjm.updJob (badJobNoted s.tick)).off (linkRecord_jobs ..), sent_linkRecord _ _ _ _ hsent⟩

end

/-- Settles O38, clause by clause: what any frame may change, then a frame that passes every row, and one that fails each. -/
theorem ingressChecksInOrder : Obligations.IngressChecksInOrder := by
  unfold Obligations.IngressChecksInOrder
  refine ⟨?_, ?_, ?_, ?_, ?_, ?_, ?_⟩
  · intro e beats f s hc
    obtain ⟨⟨x, hm⟩, hsent⟩ := receives_ingress (e := e) (beats := beats) (f := f) (canonical_link_engines hc)
    refine ⟨_, exec_linkIngressFrame .., fun n x p hmem => ?_, hm.others, fun c => ?_, (congrArg State.frames hm.kept.rest :), fun h => ?_⟩
    · simpa [ownDelivery] using hsent.newOuts _ hmem
    · exact (congrArg Ctx.state (hm.kept.life (canonical_ctxs hc) c) :)
    · simp [ingressEffect, h]
  · intro e beats f s j key p hc hallow hcar h1 h2 hseq ht hb hlen hdir hres hplain hj hclosed hin hopen hkey htag
    obtain ⟨t, hrows, ht'⟩ := accepted_job hc hallow hcar h1 h2 hseq ht hb hlen (by omega) hres hplain (by simp [ingressHeld, hj, hkey])
    have hjob : jobOf t j = jobOf s j := by rw [jobOf, ht'.jobs, jobOf]
    obtain ⟨hm, hjm⟩ := deliver_moves (e := e) (j := j) (k := p.length) (key := key) (.linkDeliver e (parseFrame f).job.toNat (linkBeats p))
      ht'.moves.wf (ht'.jobs ▸ canonical_link_jobs hc)
    rw [exec_linkIngressFrame, hrows, ht'.keyed hj hclosed hin (by rw [hopen]; decide) hkey, deliverFrame_open hdir (hjob ▸ hopen) htag]
    refine ⟨_, rfl, ?_, ?_, ?_, ?_, fun n hn => (hm.others n hn).trans (ht'.moves.others n hn), fun n hn => ?_, ?_⟩
    · have houts : (emit (.linkDeliver e (parseFrame f).job.toNat (linkBeats p))
          (countUp 3 (jobOf t j).cid p.length (addLink e j (touchJobKey e j key t)))).outs =
          s.outs ++ [.linkDeliver e (parseFrame f).job.toNat (linkBeats p)] := congrArg (· ++ [_]) ht'.outs
      rw [newOuts, houts, List.drop_left]
    · rw [hm.self, ht'.moves.self, ← seqSpace_job (s := s) (e := e) ht]
      exact rxSeq_hopAccepted _ (seq_ne_zero_of_row2 h2)
    · rw [hjm.self]
      exact mem_linkAdded _
    · rw [hjm.self, hjob]
      exact hopen
    · rw [hjm.others n hn, jobOf, ht'.jobs, jobOf]
    · rw [hjob] at hm ⊢
      generalize emit _ (countUp 3 _ _ (addLink _ _ (touchJobKey _ _ _ t))) = u at hm ⊢
      exact hm.kept.rest.trans (congrArg (fun t => framing.put (countUp 3 (jobOf s j).cid p.length t) u) ht'.moves.kept.rest :)
  · intro e beats f s hc hallow hcar hfail
    obtain ⟨-, hdown, hfailed⟩ := open_of_carries hcar
    obtain ⟨rs, hm⟩ := (((EngineMoves.refl (p := recording) (e := e) (canonical_link_engines hc)).updEng (fun _ _ => rfl)
      (hopTagCounted s.tick)).updEng (fun _ _ => rfl) (badHopNoted s.tick)).noted (fun _ _ => rfl) .lnkfHopTag
      (parseFrame f).job.toNat (parseFrame f).ep.toNat (parseFrame f).seq
    rw [exec_linkIngressFrame, ingress_failsHop hallow hdown hfailed (not_quarantined_of_carries hcar) hfail, failHop_eq]
    exact ⟨_, rfl, not_delivered (sent_linkRecord _ _ _ _ (.of_outs rfl)), by rw [hm.self]; rfl, by rw [hm.self]; rfl, by rw [hm.self]; rfl,
      by rw [hm.self]; rfl, by rw [hm.self]; rfl, hm.others, hm.kept.rest⟩
  · intro e beats f s j key hc hallow hcar h1 h2 hseq ht hb hlen hdir hres hplain hj hclosed hin hkeying hkey htag
    obtain ⟨t, hrows, ht'⟩ := accepted_job hc hallow hcar h1 h2 hseq ht hb hlen hdir hres hplain (by simp [ingressHeld, hj, hkey])
    have hjob : jobOf t j = jobOf s j := by rw [jobOf, ht'.jobs, jobOf]
    obtain ⟨rs, u, hu, hm, hjm, hsent⟩ := badTag_moves (e := e) (r := parseFrame f) (j := j) (key := key) ht'.moves.wf
      (ht'.jobs ▸ canonical_link_jobs hc) (by rw [jobById, ht'.jobs]; exact hj)
    have htick : t.tick = s.tick := (congrArg State.tick ht'.moves.kept.rest :)
    have hkept := (ht'.moves.kept.mono (q := tagging) fun _ _ => rfl).trans hm.kept
    rw [htick, ht'.moves.self] at hm
    rw [htick, hjob] at hjm
    rw [exec_linkIngressFrame, hrows, ht'.keyed hj hclosed hin hkeying hkey, deliverFrame_badTag htag, hu]
    refine ⟨u, rfl, not_delivered ((Sent.of_outs ht'.outs).trans hsent), by rw [hm.self]; rfl, by rw [hm.self]; rfl, by rw [hjm.self]; rfl,
      by rw [hjm.self]; rfl, fun n hn => (hm.others n hn).trans (ht'.moves.others n hn), fun n hn => ?_,
      (congrArg (·.link.ctl) hkept.rest :), hkept.rest⟩
    rw [hjm.others n hn, jobOf, ht'.jobs, jobOf]
  · intro e beats f s hc hallow hcar h1 h2 hseq ht hb hlen hdir hres hplain hheld
    obtain ⟨t, hrows, ht'⟩ := accepted_job hc hallow hcar h1 h2 hseq ht hb hlen hdir hres hplain hheld
    have htick : t.tick = s.tick := (congrArg State.tick ht'.moves.kept.rest :)
    rw [exec_linkIngressFrame, hrows]
    refine ⟨_, rfl, fun hj => ?_, fun j hj hclosed hin => ?_⟩
    · obtain ⟨rs, hm⟩ := ((ht'.moves.mono sending_le_recording).updEng sending_le_recording (unknownCounted t.tick)).noted (fun _ _ => rfl)
        .lnkfUnknownJob (parseFrame f).job.toNat (parseFrame f).ep.toNat (parseFrame f).seq
      rw [jobRows_unknown (by rw [jobById, ht'.jobs]; exact hj), failUnknown_eq]
      exact ⟨not_delivered (sent_linkRecord _ _ _ _ (.of_outs ht'.outs)), (linkRecord_jobs ..).trans ht'.jobs, by rw [hm.self]; rfl,
        by rw [hm.self, htick]; rfl⟩
    · have hjob : jobOf t j = jobOf s j := by rw [jobOf, ht'.jobs, jobOf]
      obtain ⟨rs, hm⟩ := ((ht'.moves.mono sending_le_recording).updEng sending_le_recording (memberCounted t.tick)).noted (fun _ _ => rfl)
        .lnkfNotMember (parseFrame f).job.toNat (parseFrame f).ep.toNat (parseFrame f).seq
      rw [jobRows_notMember (by rw [jobById, ht'.jobs]; exact hj) (hjob ▸ hclosed) (hjob ▸ hin), failMember_eq]
      exact ⟨not_delivered (sent_linkRecord _ _ _ _ (.of_outs ht'.outs)), (linkRecord_jobs ..).trans ht'.jobs, by rw [hm.self]; rfl,
        by rw [hm.self, htick]; rfl⟩
  · intro e beats f s hc hallow hcar h1 h2 hseq ht hb hlen hdir hres hplain hfrag hasm
    obtain ⟨-, hdown, hfailed⟩ := open_of_carries hcar
    have hheld : ingressHeld s e (parseFrame f) = false := by
      have hdir : ¬(parseFrame f).dir < 3 := by omega
      simp [ingressHeld, hdir]
    have hwj := canonical_link_jobs hc
    have ha := accepted (e := e) (r := parseFrame f) (canonical_link_engines hc)
    have hm := (carried_moves (r := parseFrame f) (ha.moves.mono sending_le_framing)).updEng sending_le_framing (fragmentKept (parseFrame f) f)
    have hasm' : (hopAccepted s e (parseFrame f) (engOf s e)).asm = [] := hasm
    rw [exec_linkIngressFrame, ingress_accepted hallow hdown hfailed (fun h => not_quarantined_of_carries hcar h.1) h1 h2 hheld hseq,
      laterRows_fragment hb ht hlen hdir hres hplain, takeFragment_first hfrag (by rw [ha.moves.self]; exact hasm)]
    have houts := (carried_outs (e := e) (r := parseFrame f) (s := updEng e (hopAccepted s e (parseFrame f)) s)).trans ha.outs
    refine ⟨_, rfl, ?_, ?_, by rw [hm.self]; rfl, fun j hj => ?_, hm.others, fun n => ?_, ?_⟩
    · rw [newOuts, updEng_outs, houts, List.drop_length]
    · rw [hm.self]
      simp only [fragmentKept, hasm', List.filter_nil, List.nil_append]
    · exact mem_links_carried (s := updEng e (hopAccepted s e (parseFrame f)) s) hwj hj
    · exact state_carried (s := updEng e (hopAccepted s e (parseFrame f)) s) hwj n
    · generalize hu : updEng e (fragmentKept _ _) _ = u at hm ⊢
      have houts : u.outs = s.outs := by rw [← hu, updEng_outs, houts]
      exact hm.kept.rest.trans (congrArg (fun o => { s with link := { s.link with engines := u.link.engines, jobs := u.link.jobs }, outs := o }) houts)
  · intro e beats f s hc hallow hstate h1 hway h2 hseq ht hb hlen hlow hhigh hidx
    have hup : (engOf s e).state ≠ .down ∧ (engOf s e).state ≠ .failed := by
      obtain h | h | h := hstate
      · simp [h]
      · exact (open_of_carries h).2
      · simp [h]
    have hm := ((accepted (e := e) (r := parseFrame f) (canonical_link_engines hc)).moves).updEng (fun _ _ => rfl) (controlKept (parseFrame f) f)
    rw [exec_linkIngressFrame, ingress_accepted hallow hup.1 hup.2 (by simp [ht]) h1 h2 (by simp [ingressHeld, ht]) hseq,
      laterRows_control hb ht hlen, takeControl_first hlow hhigh hidx]
    refine ⟨_, rfl, ?_, by rw [hm.self]; rfl, ?_, by rw [hm.self]; rfl, by rw [hm.self]; rfl, hm.others, rfl⟩
    · rw [newOuts, updEng_outs, updEng_outs, List.drop_length]
    · rw [hm.self]
      exact rxSeq_hopAccepted (s := s) (e := e) _ (seq_ne_zero_of_row2 h2)

end Sys2Proof.IngressFrames
end

section
/-! PROOF. Keys that end or begin with a hop-key exchange (05_link_fence.md R122 to R124, 10_orangery_keys.md R237, R265): what the
zeroising of slots leaves where no digest request runs, and the working slots of an exchange. -/

namespace Sys2Proof.ExchangeKeys

open Sys2Proof Sys2Proof.Machine Sys2Proof.Laws Sys2Proof.Frames Sys2Proof.KeyImport Sys2Proof.Zeroising

/-! ## Zeroising without a digest request -/

/-- What the zeroising of slots changes while no digest request runs: no record among it. -/
def zeroing : Parts where
  put s t := { s with
    host := t.host, mgmt := t.mgmt, ctxs := t.ctxs, outs := t.outs
    orng := { s.orng with slots := t.orng.slots, loads := t.orng.loads }, dgst := { s.dgst with cache := t.dgst.cache } }
  put_self _ := rfl
  put_put _ _ _ := rfl

theorem zeroing_emit (o : Out) (s : State) : Kept zeroing s (emit o s) := .of_ctxs rfl (List.prefix_append ..) rfl id
theorem zeroing_updCpl (r : Nat) (f : CplRing → CplRing) (s : State) : Kept zeroing s (updCpl r f s) := .silent rfl rfl rfl rfl

theorem zeroing_writeCpl (r : Nat) (noIrq : Bool) (b : Bytes) (s : State) : Kept zeroing s (writeCpl r noIrq b s) := by
  have hirq : ∀ t, Kept zeroing t (irqAfter noIrq r t) := fun t =>
    .ite (.refl t) (.ite ((zeroing_updCpl ..).trans (zeroing_emit ..)) (zeroing_updCpl ..))
  exact ((zeroing_updCpl ..).trans (zeroing_emit ..)).trans (hirq _)

/-- An end that is no BAD_DESCRIPTOR posts no record. -/
theorem zeroing_finish (w : Waiter) {st : Status} (d : Bytes) (s : State) (hst : st ≠ .badDescriptor) : Kept zeroing s (finish w st d s) := by
  have hhost : ∀ t h, Kept zeroing t { t with host := h } := fun _ _ => .silent rfl rfl rfl rfl
  have hcount : ∀ c t, Kept zeroing t (countUp 5 c 1 t) := fun _ _ => (hhost _ _).trans (.updCtx rfl rfl)
  unfold finish
  split
  · exact .refl s
  · split
    next ip _ =>
      have hbad : Kept zeroing s (if st = .badDescriptor then
          noteBad ip { s with host := { s.host with inProg := s.host.inProg.filter (fun x => x.id != ip.id) } }
        else { s with host := { s.host with inProg := s.host.inProg.filter (fun x => x.id != ip.id) } }) := by
        rw [if_neg hst]
        exact hhost ..
      exact .ite (hhost ..) ((hbad.trans (zeroing_updCpl ..)).trans (.ite ((zeroing_writeCpl ..).trans (hcount ..)) (.refl _)))
    next => exact .refl s
  · split
    · have hmgmt : ∀ m, Kept zeroing s { s with mgmt := m } := fun _ => .silent rfl rfl rfl rfl
      unfold replyMgmt
      exact (hmgmt _).trans (zeroing_emit ..)
    · exact .refl s

/-- An event completion posts no record. -/
theorem zeroing_postHostEvent (o : Option (Nat × Nat)) (st : Status) (u : UnitRef) (d : Bytes) (s : State) :
    Kept zeroing s (postHostEvent o st u d s) :=
  .ite (.ite (zeroing_writeCpl ..) (.ite (zeroing_updCpl ..) (zeroing_updCpl ..))) (zeroing_updCpl ..)

/-- The end of a load, without a record. -/
theorem kept_answerLoad_unrecorded (l : KeyLoad) (s : State) : Kept zeroing s (answerLoad l .keyZeroized [] s) := by
  have himport : ∀ c, Kept zeroing s (updCtx c (fun x => { x with importing := none }) s) := fun _ => .updCtx rfl rfl
  simp only [answerLoad]
  split
  · exact (himport _).trans (zeroing_finish _ _ _ (by decide))
  · exact (himport _).trans (zeroing_finish _ _ _ (by decide))
  · exact .of_ctxs rfl (List.prefix_append ..) rfl id

theorem kept_zeroiseSlot_unrecorded (n : Nat) (s : State) : Kept zeroing s (zeroiseSlot n s) := by
  have hslot : ∀ m f t, Kept zeroing t (updSlot m f t) := fun _ _ _ => .silent rfl rfl rfl rfl
  have hloads : ∀ t l, Kept zeroing t { t with orng := { t.orng with loads := l } } := fun _ _ => .silent rfl rfl rfl rfl
  exact ((hslot ..).trans (hloads ..)).trans
    (.foldl (fun t (l : KeyLoad) => (Kept.foldl (fun u m => .ite (.refl u) (hslot m _ u)) l.slots t).trans (kept_answerLoad_unrecorded l _)) _ _)

section
variable {s : State} (hidle : runningDg s = [])
include hidle

/-- No request runs, so none ends with the key. -/
theorem dropKey_idle (n : Nat) : dropKey n s = uncacheSlot n (zeroiseSlot n s) := by
  have hz : runningDg (uncacheSlot n (zeroiseSlot n s)) = runningDg s := (congrArg runningDg (kept_zeroiseSlot_unrecorded n s).rest :)
  simp only [dropKey, hz, hidle, List.filter_nil, List.foldl_nil]

theorem kept_dropKey_idle (n : Nat) : Kept zeroing s (dropKey n s) := by
  rw [dropKey_idle hidle]
  exact (kept_zeroiseSlot_unrecorded n s).trans (.silent rfl rfl rfl rfl)

theorem runningDg_dropKey (n : Nat) : runningDg (dropKey n s) = [] :=
  (congrArg runningDg (kept_dropKey_idle hidle n).rest :).trans hidle

theorem kept_dropKeys_idle (ns : List Nat) : Kept zeroing s (dropKeys ns s) := by
  induction ns generalizing s with
  | nil => exact .refl s
  | cons n ns ih => exact (kept_dropKey_idle hidle n).trans (ih (runningDg_dropKey hidle n))

theorem runningDg_dropKeys (ns : List Nat) : runningDg (dropKeys ns s) = [] :=
  (congrArg runningDg (kept_dropKeys_idle hidle ns).rest :).trans hidle

theorem kept_dropExchange_idle (x : Option Exchange) : Kept zeroing s (dropExchange x s) := by
  unfold dropExchange
  split
  · exact .refl s
  · exact kept_dropKeys_idle hidle _

end

/-! ## A slot that no load holds -/

/-- From `s` to `t` the slot `n` stays, and no load takes it. -/
structure SlotStays (n : Nat) (s t : State) : Prop where
  wf : mapWf {} s.orng.slots = true → mapWf {} t.orng.slots = true
  slot : mapWf {} s.orng.slots = true → (∀ l ∈ s.orng.loads, n ∉ l.slots) → slotOf t n = slotOf s n
  loads : ∀ l ∈ t.orng.loads, l ∈ s.orng.loads

namespace SlotStays

variable {n : Nat} {s t u : State}

theorem of_orng (h : t.orng = s.orng) : SlotStays n s t :=
  ⟨by rw [h]; exact id, fun _ _ => by rw [slotOf, slotOf, h], fun l hl => by rwa [h] at hl⟩

theorem trans (h1 : SlotStays n s t) (h2 : SlotStays n t u) : SlotStays n s u where
  wf := h2.wf ∘ h1.wf
  slot hw hl := (h2.slot (h1.wf hw) fun l hmem => hl l (h1.loads l hmem)).trans (h1.slot hw hl)
  loads l hl := h1.loads l (h2.loads l hl)

theorem updSlot {m : Nat} (h : n ≠ m) (f : Slot → Slot) (s : State) : SlotStays n s (updSlot m f s) :=
  ⟨mapWf_mapMod, fun hw _ => slotOf_updSlot_ne hw h, fun _ => id⟩

end SlotStays

/-- The loads that end with a slot hold no slot but their own. -/
theorem slotStays_dropLoads {n m : Nat} {s : State} (hl : ∀ l ∈ s.orng.loads, n ∉ l.slots) : SlotStays n s (dropLoads m s) := by
  have hloads : SlotStays n s { s with orng := { s.orng with loads := s.orng.loads.filter (fun l => !l.slots.contains m) } } :=
    ⟨id, fun _ _ => rfl, fun l h => (List.mem_filter.mp h).1⟩
  have hpending : ∀ (ks : List Nat) (t : State), n ∉ ks →
      SlotStays n t (ks.foldl (fun s k => if k = m then s else dropPending k s) t) := by
    intro ks
    induction ks with
    | nil => exact fun t _ => .of_orng rfl
    | cons k ks ih =>
      intro t hn
      obtain ⟨hk, hks⟩ := not_or.mp (List.mem_cons.not.mp hn)
      have hone : SlotStays n t (if k = m then t else dropPending k t) := by
        split
        · exact .of_orng rfl
        · exact .updSlot hk _ t
      exact hone.trans (ih _ hks)
  have hgone : ∀ (ls : List KeyLoad) (t : State), (∀ l ∈ ls, n ∉ l.slots) → SlotStays n t (ls.foldl (fun s l =>
      answerLoad l .keyZeroized [] (l.slots.foldl (fun s k => if k = m then s else dropPending k s) s)) t) := by
    intro ls
    induction ls with
    | nil => exact fun t _ => .of_orng rfl
    | cons l ls ih =>
      intro t hls
      exact ((hpending l.slots t (hls l List.mem_cons_self)).trans (.of_orng (answerLoad_orng ..))).trans
        (ih _ fun k hk => hls k (List.mem_cons_of_mem _ hk))
  exact hloads.trans (hgone _ _ fun l h => hl l (List.mem_filter.mp h).1)

theorem slotStays_dropKeys {n : Nat} {ns : List Nat} {s : State} (hidle : runningDg s = []) (hn : n ∉ ns)
    (hl : ∀ l ∈ s.orng.loads, n ∉ l.slots) : SlotStays n s (dropKeys ns s) := by
  induction ns generalizing s with
  | nil => exact .of_orng rfl
  | cons m ns ih =>
    obtain ⟨hm, hns⟩ := not_or.mp (List.mem_cons.not.mp hn)
    have hone : SlotStays n s (dropKey m s) := by
      rw [dropKey_idle hidle]
      have hzero : SlotStays n s (zeroiseSlot m s) :=
        (SlotStays.updSlot hm (fun _ => {}) s).trans (slotStays_dropLoads (by rwa [(vaultOnly_updSlot m (fun _ => {}) s).loads]))
      have hcache : ∀ t, SlotStays n t (uncacheSlot m t) := fun _ => .of_orng rfl
      exact hzero.trans (hcache _)
    exact hone.trans (ih (runningDg_dropKey hidle m) hns fun l hmem => hl l (hone.loads l hmem))

end Sys2Proof.ExchangeKeys
end

section
/-! PROOF. Hop-control messages in frames, and how an exchange begins and fails (05_link_fence.md R122 to R124, R237). -/

namespace Sys2Proof.LinkExchanges

open Sys2Proof Sys2Proof.Machine Sys2Proof.Laws Sys2Proof.Frames Sys2Proof.KeyImport Sys2Proof.FencePorts Sys2Proof.LinkRules
open Sys2Proof.ExchangeKeys Sys2Proof.UnitAnswers

/-! ## Fragments of a message -/

theorem length_chunksFuel_le (f n : Nat) (bs : Bytes) (hn : 1 ≤ n) : (chunksFuel f n bs).length ≤ bs.length := by
  induction f generalizing bs with
  | zero => exact Nat.zero_le _
  | succ f ih =>
    cases bs with
    | nil => exact Nat.le_refl _
    | cons b bs =>
      have h := ih ((b :: bs).drop n)
      simp only [chunksFuel, List.length_cons, List.length_drop] at h ⊢
      omega

/-- The frames that carry a message. -/
def fragments (msg : Bytes) : List Bytes := if msg.isEmpty then [[]] else chunks 4090 msg

theorem one_le_fragments (msg : Bytes) : 1 ≤ (fragments msg).length := by
  cases msg with
  | nil => decide
  | cons b bs => simp [fragments, chunks, chunksFuel]

theorem length_fragments_le (msg : Bytes) : (fragments msg).length ≤ msg.length + 1 := by
  unfold fragments
  split
  · simp
  · exact (length_chunksFuel_le _ _ _ (by decide)).trans (Nat.le_succ _)

/-- A message of one frame. -/
theorem length_fragments_short {msg : Bytes} (h : msg.length ≤ 4090) : (fragments msg).length = 1 := by
  cases msg with
  | nil => rfl
  | cons b bs =>
    have hrest : (b :: bs).drop (max 4090 1) = [] := List.drop_eq_nil_of_le h
    have hnone : chunksFuel (b :: bs).length (max 4090 1) [] = [] := rfl
    simp only [fragments, chunks, chunksFuel, List.isEmpty_cons, Bool.false_eq_true, if_false, hrest, hnone, List.length_singleton]

/-! ## Frames sent one after another -/

/-- The engine can send `n` more frames. -/
def roomFor (n : Nat) (x : Engine) : Prop := x.state = .keying ∨ (x.state ≠ .down ∧ x.state ≠ .failed ∧ x.txSeq + n ≤ 2 ^ 47 - 1)

theorem hopSent_add (m n : Nat) (x : Engine) : hopSent m (hopSent n x) = hopSent (n + m) x := by
  by_cases hk : x.state = .keying
  · simp [hopSent, hk, Nat.add_assoc]
  · simp [hopSent, hk, Nat.add_assoc]

theorem hopSent_zero (x : Engine) : hopSent 0 x = x := by
  unfold hopSent
  split
  · rfl
  · rfl

theorem state_hopSent (n : Nat) (x : Engine) : (hopSent n x).state = x.state := by
  unfold hopSent
  split
  · rfl
  · rfl

theorem canSend_of_roomFor {n : Nat} {x : Engine} (h : roomFor (n + 1) x) : canSend x := by
  obtain hk | ⟨hd, hf, hn⟩ := h
  · exact .inl hk
  · exact .inr ⟨hd, hf, by omega⟩

theorem roomFor_hopSent {n : Nat} {x : Engine} (h : roomFor (n + 1) x) : roomFor n (hopSent 1 x) := by
  obtain hk | ⟨hd, hf, hn⟩ := h
  · exact .inl ((state_hopSent ..).trans hk)
  · by_cases hk : x.state = .keying
    · exact .inl ((state_hopSent ..).trans hk)
    · refine .inr ⟨(state_hopSent 1 x).symm ▸ hd, (state_hopSent 1 x).symm ▸ hf, ?_⟩
      simp only [hopSent, if_neg hk]
      omega

/-- From `s` to `t` the engine has sent `n` frames, and nothing else has changed. -/
structure FramesSent (e n : Nat) (s t : State) : Prop where
  moves : EngineMoves sending e (hopSent n (engOf s e)) s t
  outs : ∃ os, t.outs = s.outs ++ os ∧ os.length = n ∧ ∀ o ∈ os, ∃ f, o = .linkFrame e f

namespace FramesSent

variable {e n m : Nat} {s t u : State}

theorem trans (h1 : FramesSent e n s t) (h2 : FramesSent e m t u) : FramesSent e (n + m) s u := by
  obtain ⟨os, hos, hlen, hframe⟩ := h1.outs
  obtain ⟨ps, hps, hlenp, hframep⟩ := h2.outs
  refine ⟨?_, os ++ ps, by rw [hps, hos, List.append_assoc], by rw [List.length_append, hlen, hlenp],
    fun o ho => (List.mem_append.mp ho).elim (hframe o) (hframep o)⟩
  have hm := h1.moves.trans h2.moves
  rwa [h1.moves.self, hopSent_add] at hm

theorem newOuts (h : FramesSent e n s t) : ∀ o ∈ Machine.newOuts s t, ∃ f, o = .linkFrame e f := by
  obtain ⟨os, hos, -, hframe⟩ := h.outs
  simpa [Machine.newOuts, hos] using hframe

theorem newOuts_ne (h : FramesSent e n s t) (hn : 1 ≤ n) : Machine.newOuts s t ≠ [] := by
  obtain ⟨os, hos, hlen, -⟩ := h.outs
  intro hnil
  rw [Machine.newOuts, hos, List.drop_left] at hnil
  rw [← hlen, hnil] at hn
  exact absurd hn (by decide)

end FramesSent

theorem sendHop_frame {e type : Nat} {body : Bytes} {s : State} (hw : mapWf {} s.link.engines = true) (h : canSend (engOf s e)) :
    FramesSent e 1 s (sendHop e type body s) := by
  rw [sendHop_sent h]
  exact ⟨((EngineMoves.refl hw).updEng (fun _ _ => rfl) (hopSent 1)).emit (fun _ _ => rfl) _, _, rfl, rfl, fun o ho =>
    ⟨_, List.mem_singleton.mp ho⟩⟩

theorem foldl_sendHop {e type : Nat} {bodies : List Bytes} {s : State} (hw : mapWf {} s.link.engines = true)
    (h : roomFor bodies.length (engOf s e)) : FramesSent e bodies.length s (bodies.foldl (fun s b => sendHop e type b s) s) := by
  induction bodies generalizing s with
  | nil => exact ⟨(hopSent_zero (engOf s e)).symm ▸ .refl hw, [], by simp, rfl, by simp⟩
  | cons b bs ih =>
    have hone := sendHop_frame (type := type) (body := b) hw (canSend_of_roomFor h)
    have hrest := ih hone.moves.wf (by rw [hone.moves.self]; exact roomFor_hopSent h)
    rw [List.length_cons, Nat.add_comm]
    exact hone.trans hrest

/-- A message goes out in its fragments. -/
theorem sendControl_frames {e type : Nat} {msg : Bytes} {s : State} (hw : mapWf {} s.link.engines = true)
    (h : roomFor (fragments msg).length (engOf s e)) : FramesSent e (fragments msg).length s (sendControl e type msg s) := by
  have hfold : sendControl e type msg s = ((fragments msg).zipIdx.map fun (d, i) => leNat 1 type ++ leNat 1 i ++
      leNat 1 (bit (decide (i + 1 = (fragments msg).length))) ++ [0] ++ leNat 2 d.length ++ d).foldl (fun s b => sendHop e 1 b s) s := by
    rw [List.foldl_map]
    rfl
  have hlen : ∀ g : Bytes × Nat → Bytes, ((fragments msg).zipIdx.map g).length = (fragments msg).length := by simp
  rw [hfold]
  have hsent := foldl_sendHop (type := 1) (bodies := (fragments msg).zipIdx.map fun (d, i) => leNat 1 type ++ leNat 1 i ++
      leNat 1 (bit (decide (i + 1 = (fragments msg).length))) ++ [0] ++ leNat 2 d.length ++ d) hw (by rwa [hlen])
  rwa [hlen] at hsent

/-! ## The working slots of an exchange (R237) -/

theorem freeWorking_congr {s t : State} (h : ∀ n, slotOf t n = slotOf s n) (k : Nat) : freeWorking k t = freeWorking k s := by
  simp only [freeWorking, h]

/-- The EMPTY working slots, in rising order. -/
def emptyWorking (s : State) : List Nat :=
  ((List.range 848).map (· + workingBase)).filter (fun n => (slotOf s n).state == .empty && !(slotOf s n).pending)

theorem freeWorking_eq (k : Nat) (s : State) : freeWorking k s = (emptyWorking s).take k := rfl

theorem nodup_emptyWorking (s : State) : (emptyWorking s).Nodup :=
  (List.nodup_range.map fun _ _ h => Nat.add_right_cancel h).filter _

/-- Two free working slots are different, and the second is the lowest once the first has been taken. -/
theorem freeWorking_taken_first {a b : Nat} {s t : State} (h : freeWorking 2 s = [a, b]) (ha : (slotOf t a).state ≠ .empty)
    (hne : ∀ n, n ≠ a → slotOf t n = slotOf s n) : b ≠ a ∧ freeWorking 1 t = [b] := by
  obtain ⟨rest, hrest⟩ : ∃ rest, emptyWorking s = a :: b :: rest := by
    rw [freeWorking_eq] at h
    exact ⟨_, (List.take_append_drop 2 _).symm.trans (congrArg (fun l => l ++ (emptyWorking s).drop 2) h)⟩
  have hnodup := nodup_emptyWorking s
  rw [hrest] at hnodup
  have hba : b ≠ a := fun hb => by simp [hb] at hnodup
  have hempty : emptyWorking t = (emptyWorking s).filter (fun n => decide (n ≠ a)) := by
    simp only [emptyWorking, List.filter_filter]
    refine List.filter_congr fun n _ => ?_
    by_cases hn : n = a
    · subst hn
      simp [ha]
    · simp [hn, hne n hn]
  refine ⟨hba, ?_⟩
  rw [freeWorking_eq, hempty, hrest, List.filter_cons_of_neg (by simp), List.filter_cons_of_pos (by simpa using hba)]
  rfl

theorem takeWorking_first {n : Nat} {attr : BitVec 5} {cid : Nat} {key : Bytes} {s : State} (h : freeWorking 1 s = [n]) :
    takeWorking attr cid key s = (some n, setSlot n attr cid none key s) := by
  unfold takeWorking
  rw [h]

theorem slots_drbg (n : Nat) (s : State) : (drbg n s).2.orng.slots = s.orng.slots := by
  unfold drbg
  rfl

theorem vaultOnly_drbg (n : Nat) (s : State) : VaultOnly s (drbg n s).2 where
  rest := by
    unfold drbg
    rfl
  loads := by
    unfold drbg
    rfl
  wf := by
    rw [slots_drbg]
    exact id

/-- A key just written reads back: both shares carry their codes. -/
theorem deviceKey_setSlot {n : Nat} {attr : BitVec 5} {cid : Nat} {g : Option Nat} {key : Bytes} {s : State}
    (hw : mapWf {} s.orng.slots = true) : (deviceKey n (setSlot n attr cid g key s)).isSome = true := by
  have hok : ∀ m, halfOk n 0 (mkHalf n 0 key m) = true := fun m => by simp [halfOk, share0Ok, share1Ok, mkHalf]
  simp only [deviceKey, slotOf_setSlot_self hw, hok, and_self, if_true, Option.isSome_some]

/-! ## HELLO (R122) -/

theorem length_helloBytes (m : HelloMsg) : (helloBytes m).length ≤ 4090 := by
  have hfit : ∀ (n : Nat) (bs : Bytes), (fit n bs).length = n := fun n bs => by simp [fit, zeros]
  simp [helloBytes, hfit, leBv, RecordLog.length_leNat]

/-- The ephemeral keys of an exchange have been drawn into its two working slots; nothing else has changed. -/
structure Drawn (x : Exchange) (s t : State) : Prop where
  vault : VaultOnly s t
  free : freeWorking 2 s = [x.ecdhSlot, x.kemSlot]
  fresh : ∀ n ∈ [x.ecdhSlot, x.kemSlot], (slotOf t n).state = .active ∧ (slotOf t n).attr = attrWrap
  others : ∀ n, n ≠ x.ecdhSlot → n ≠ x.kemSlot → slotOf t n = slotOf s n
  ecdh : (deviceKey x.ecdhSlot t).isSome = true

/-- An engine whose exchange has begun. -/
def begun (x : Exchange) (y : Engine) : Engine := { y with exch := some x, retryAt := none }

theorem sendHello_drawn {e : Nat} {rekey : Bool} {s : State} (hw : mapWf {} s.orng.slots = true) (hfree : (freeWorking 2 s).length = 2) :
    ∃ x t, sendHello e rekey s = sendControl e 1 (helloBytes (ownHello t x)) (updEng e (begun x) t) ∧ Drawn x s t ∧
      x.rekey = rekey ∧ x.start = s.tick ∧ x.peer = none := by
  obtain ⟨a, b, hab⟩ := List.length_eq_two.mp hfree
  rcases h1 : drbg 32 s with ⟨r, s1⟩
  rcases h2 : drbg 48 s1 with ⟨ka, s2⟩
  rcases h3 : drbg 64 s2 with ⟨kb, s3⟩
  have hvault : VaultOnly s s3 := by
    have hv1 := vaultOnly_drbg 32 s
    have hv2 := vaultOnly_drbg 48 s1
    have hv3 := vaultOnly_drbg 64 s2
    rw [h1] at hv1
    rw [h2] at hv2
    rw [h3] at hv3
    exact (hv1.trans hv2).trans hv3
  have hslots : ∀ n, slotOf s3 n = slotOf s n := by
    have hs1 := slots_drbg 32 s
    have hs2 := slots_drbg 48 s1
    have hs3 := slots_drbg 64 s2
    rw [h1] at hs1
    rw [h2] at hs2
    rw [h3] at hs3
    have h : s3.orng.slots = s.orng.slots := hs3.trans (hs2.trans hs1)
    exact fun n => by rw [slotOf, slotOf, h]
  have hw3 := hvault.wf hw
  have hset := vaultOnly_setSlot a attrWrap 0 none ka s3
  have ha : freeWorking 1 s3 = [a] := by
    rw [freeWorking_congr hslots]
    exact (List.take_take (i := 1) (j := 2)).symm.trans (congrArg (List.take 1) hab)
  have hone : (slotOf (setSlot a attrWrap 0 none ka s3) a).state = .active := by rw [slotOf_setSlot_self hw3]
  obtain ⟨hba, hb⟩ := freeWorking_taken_first (t := setSlot a attrWrap 0 none ka s3) hab (by rw [hone]; decide)
    fun n hn => (slotOf_setSlot_ne hw3 hn).trans (hslots n)
  have hkem : ∀ n, n ≠ b → slotOf (setSlot b attrWrap 0 none kb (setSlot a attrWrap 0 none ka s3)) n = slotOf (setSlot a attrWrap 0 none ka s3) n :=
    fun n hn => slotOf_setSlot_ne (hset.wf hw3) hn
  refine ⟨⟨rekey, s.tick, r, a, b, Config.ecdhPublic ka, Config.kemPublic kb, none, none, [], [], none, [], none⟩, _, ?_,
    ⟨(hvault.trans hset).trans (vaultOnly_setSlot b attrWrap 0 none kb _), hab, ?_, ?_, ?_⟩, rfl, rfl, rfl⟩
  · unfold sendHello
    rw [if_neg (by omega)]
    simp only [h1, h2, h3]
    rw [takeWorking_first ha]
    simp only []
    rw [takeWorking_first hb]
    rfl
  · intro n hn
    rcases List.mem_pair.mp hn with rfl | rfl
    · rw [hkem _ (Ne.symm hba), slotOf_setSlot_self hw3]
      exact ⟨rfl, rfl⟩
    · rw [slotOf_setSlot_self (hset.wf hw3)]
      exact ⟨rfl, rfl⟩
  · exact fun n hna hnb => (hkem n hnb).trans ((slotOf_setSlot_ne hw3 hna).trans (hslots n))
  · have hkey := deviceKey_setSlot (n := a) (attr := attrWrap) (cid := 0) (g := none) (key := ka) hw3
    simpa only [deviceKey, hkem a (Ne.symm hba)] using hkey

/-! ## How an exchange begins -/

/-- A message of one frame is one frame. -/
theorem sendControl_short {e type : Nat} {msg : Bytes} {s : State} (h : msg.length ≤ 4090) :
    ∃ body, sendControl e type msg s = sendHop e 1 body s := by
  obtain ⟨d, hd⟩ := List.length_eq_one_iff.mp (length_fragments_short h)
  have hfold : sendControl e type msg s = (fragments msg).zipIdx.foldl (fun s p => sendHop e 1 (leNat 1 type ++ leNat 1 p.2 ++
      leNat 1 (bit (decide (p.2 + 1 = (fragments msg).length))) ++ [0] ++ leNat 2 p.1.length ++ p.1) s) s := rfl
  rw [hfold, hd]
  exact ⟨_, rfl⟩

theorem retryAt_afterSend {t : Nat} {x : Engine} (h : x.retryAt = none) : (afterSend t x).retryAt = none := by
  have hsent : (hopSent 1 x).retryAt = none := by
    unfold hopSent
    split
    · exact h
    · exact h
  unfold afterSend
  split
  · exact hsent
  · split
    · exact h
    · split
      · rfl
      · exact hsent

/-- Before the end of HSEQ a frame leaves the exchange. -/
theorem exch_afterSend {t : Nat} {x : Engine} (h : x.txSeq < 2 ^ 47 - 1) : (afterSend t x).exch = x.exch := by
  unfold afterSend
  split
  · exact exch_hopSent ..
  · split
    · rfl
    · rw [if_neg (Nat.not_le.mpr h)]
      exact exch_hopSent ..

theorem afterSend_room {t : Nat} {x : Engine} (h : roomFor 1 x) : afterSend t x = hopSent 1 x := by
  obtain hk | ⟨hd, hf, hn⟩ := h
  · rw [afterSend, if_pos hk]
  · unfold afterSend
    split
    · rfl
    · rw [if_neg (by simp [hd, hf]), if_neg (by omega)]

/-- What leaves the vault's other parts, and all but the vault, moves no engine. -/
theorem moves_of_vaultOnly {e : Nat} {s t : State} (hw : mapWf {} s.link.engines = true) (h : VaultOnly s t) :
    EngineMoves exchanging e (engOf s e) s t := by
  have hk : Kept vault s t := .silent (h.rest.trans (congrArg (vault.put s) h.rest).symm) (congrArg State.outs h.rest :) (congrArg State.ctxs h.rest :)
    (congrArg State.splq h.rest :)
  exact (EngineMoves.refl hw).off (hk.mono vault_le_exchanging) (congrArg (·.link.engines) h.rest :)

/-- HELLO has gone out: the exchange `x` has begun on the engine, which was `y`. -/
structure Started (e : Nat) (x : Exchange) (y : Engine) (s t : State) : Prop where
  moves : EngineMoves exchanging e (hopSent 1 (begun x y)) s t
  sent : newOuts s t ≠ [] ∧ ∀ o ∈ newOuts s t, ∃ f, o = .linkFrame e f
  free : freeWorking 2 s = [x.ecdhSlot, x.kemSlot]
  fresh : ∀ n ∈ [x.ecdhSlot, x.kemSlot], (slotOf t n).state = .active ∧ (slotOf t n).attr = attrWrap
  others : ∀ n, n ≠ x.ecdhSlot → n ≠ x.kemSlot → slotOf t n = slotOf s n
  ecdh : (deviceKey x.ecdhSlot t).isSome = true

section
variable {e : Nat} {rekey : Bool} {s : State} (hwe : mapWf {} s.link.engines = true) (hws : mapWf {} s.orng.slots = true)
  (hfree : (freeWorking 2 s).length = 2)
include hwe hws hfree

theorem sendHello_moves : ∃ x, x.rekey = rekey ∧ x.start = s.tick ∧ x.peer = none ∧
    EngineMoves exchanging e (afterSend s.tick (begun x (engOf s e))) s (sendHello e rekey s) ∧
    (roomFor 1 (engOf s e) → Started e x (engOf s e) s (sendHello e rekey s)) := by
  obtain ⟨x, t, hsend, hdrawn, hrekey, hstart, hpeer⟩ := sendHello_drawn (e := e) (rekey := rekey) hws hfree
  have hm : EngineMoves exchanging e (begun x (engOf s e)) s (updEng e (begun x) t) :=
    (moves_of_vaultOnly hwe hdrawn.vault).updEng sending_le_exchanging (begun x)
  have htick : (updEng e (begun x) t).tick = s.tick := (congrArg State.tick hdrawn.vault.rest :)
  obtain ⟨body, hbody⟩ := sendControl_short (e := e) (type := 1) (s := updEng e (begun x) t) (length_helloBytes (ownHello t x))
  have hsent := hm.sendHop (fun _ _ => rfl) 1 body
  rw [htick] at hsent
  rw [hsend, hbody]
  refine ⟨x, hrekey, hstart, hpeer, hsent, fun hroom => ?_⟩
  have hroom' : roomFor 1 (begun x (engOf s e)) := hroom
  have hframe := sendHop_frame (type := 1) (body := body) hm.wf (by rw [hm.self]; exact canSend_of_roomFor hroom')
  have horng : (sendHop e 1 body (updEng e (begun x) t)).orng = t.orng := (congrArg State.orng hframe.moves.kept.rest :)
  have hslot : ∀ n, slotOf (sendHop e 1 body (updEng e (begun x) t)) n = slotOf t n := fun n => by rw [slotOf, horng, slotOf]
  have houts : newOuts s (sendHop e 1 body (updEng e (begun x) t)) = newOuts (updEng e (begun x) t) (sendHop e 1 body (updEng e (begun x) t)) := by
    have h : (updEng e (begun x) t).outs = s.outs := (congrArg State.outs hdrawn.vault.rest :)
    rw [newOuts, newOuts, h]
  rw [afterSend_room hroom'] at hsent
  exact ⟨hsent, houts ▸ ⟨hframe.newOuts_ne (Nat.le_refl 1), hframe.newOuts⟩, hdrawn.free, fun n hn => by rw [hslot]; exact hdrawn.fresh n hn,
    fun n ha hb => (hslot n).trans (hdrawn.others n ha hb), by simp only [deviceKey, hslot]; exact hdrawn.ecdh⟩

end

theorem startExchange_ready {e : Nat} {rekey : Bool} {s : State} (hdraw : drawReady s = true) :
    startExchange e rekey s = sendHello e rekey s := withDraw_ready hdraw

/-- An engine that enters KEYING. -/
def keyingBegun (x : Engine) : Engine :=
  { x with
    state := .keying, txEst := 1, rxSeq := [], keys := [], phases := [], kphase := false, rxPhase := false, oldUntil := none
    attempts := 0, retryAt := none, badHop := [], hopDue := none, exch := none, hopAsm := [] }

/-- An engine that begins a rekey. -/
def rekeyBegun (x : Engine) : Engine := { x with state := if x.state = .ready then .rekeying else x.state }

section
variable {e : Nat} {s : State} (hwe : mapWf {} s.link.engines = true) (hws : mapWf {} s.orng.slots = true)
  (hdraw : drawReady s = true) (hfree : (freeWorking 2 s).length = 2)
include hwe hws hdraw hfree

/-- The first establishment begins. -/
theorem beginKeying_started (hx : (engOf s e).exch = none) : ∃ x, x.rekey = false ∧ x.start = s.tick ∧ x.peer = none ∧
    Started e x (keyingBegun (engOf s e)) (updEng e keyingBegun s) (beginKeying e s) := by
  have hm := (EngineMoves.refl (p := sending) (e := e) hwe).updEng (fun _ _ => rfl) keyingBegun
  have hbegin : beginKeying e s = sendHello e false (updEng e keyingBegun s) := by
    rw [beginKeying, hx]
    exact startExchange_ready (s := updEng e keyingBegun s) hdraw
  obtain ⟨x, hrekey, hstart, hpeer, -, hstarted⟩ := sendHello_moves (e := e) (rekey := false) (s := updEng e keyingBegun s) hm.wf hws hfree
  have h := hstarted (.inl (by rw [hm.self]; rfl))
  rw [hm.self] at h
  exact ⟨x, hrekey, hstart, hpeer, hbegin ▸ h⟩

/-- A rekey begins; where HSEQ has ended, HELLO ends the link. -/
theorem beginRekey_moves (htx : txKeyed s e = true) : ∃ x, x.rekey = true ∧ x.start = s.tick ∧ x.peer = none ∧
    EngineMoves exchanging e (afterSend s.tick (begun x (rekeyBegun (engOf s e)))) s (beginRekey e s) ∧
    (roomFor 1 (rekeyBegun (engOf s e)) → Started e x (rekeyBegun (engOf s e)) (updEng e rekeyBegun s) (beginRekey e s)) := by
  have hm := (EngineMoves.refl (p := exchanging) (e := e) hwe).updEng (fun _ _ => rfl) rekeyBegun
  have hbegin : beginRekey e s = sendHello e true (updEng e rekeyBegun s) := by
    rw [beginRekey, if_pos htx]
    exact startExchange_ready (s := updEng e rekeyBegun s) hdraw
  obtain ⟨x, hrekey, hstart, hpeer, hsent, hstarted⟩ := sendHello_moves (e := e) (rekey := true) (s := updEng e rekeyBegun s) hm.wf hws hfree
  rw [hm.self] at hsent hstarted
  exact ⟨x, hrekey, hstart, hpeer, hbegin ▸ hm.trans hsent, hbegin ▸ hstarted⟩

end

/-! ## How an exchange fails -/

/-- The working slots of an exchange. -/
def workingSlots (x : Exchange) : List Nat := [x.ecdhSlot, x.kemSlot] ++ x.ownSlot.toList ++ x.finSlot.toList

/-- The slots of an engine's attempt: its working slots, and the hop slots where they had been derived. -/
def attemptSlots (e : Nat) (x : Engine) : List Nat :=
  match x.exch with
  | none => []
  | some y => workingSlots y ++ if y.finSlot.isSome then hopSlots e (nextPhase x y.rekey) else []

/-- An engine whose attempt has ended with a status in tick `t`. -/
def attemptEnded (st : Status) (t : Nat) (x : Engine) : Engine :=
  { x with keyFail := if st = .notPermitted then raise t x.keyFail else x.keyFail, hopAsm := [] }

/-- From `s` to `t` the attempt of an engine has ended: its slots are EMPTY, and what has come for it is gone. -/
structure AttemptEnded (e : Nat) (st : Status) (s t : State) : Prop where
  moves : EngineMoves exchanging e (attemptEnded st s.tick (engOf s e)) s t
  answers : Answers s t
  queues : runningDg s = [] → t.splq = s.splq
  slots : ∀ n ∈ attemptSlots e (engOf s e), (slotOf t n).state = .empty

section
variable {e : Nat} {st : Status} {s : State}

theorem dropAttempt_eq (e : Nat) (s : State) : dropAttempt e s = dropKeys (attemptSlots e (engOf s e)) s := by
  simp only [dropAttempt, dropExchange, attemptSlots]
  cases (engOf s e).exch with
  | none => rfl
  | some y =>
    simp only [workingSlots]
    split
    · exact (List.foldl_append ..).symm
    · rw [List.append_nil]

theorem attempt_ended (hwe : mapWf {} s.link.engines = true) (hws : mapWf {} s.orng.slots = true) :
    ∃ t, AttemptEnded e st s t ∧ failExchange e st s =
      (if (engOf s e).state = .keying then failLink e st (updEng e (fun x => { x with exch := none }) t)
       else if (engOf s e).state = .quarantined then
         if (engOf s e).attempts + 1 ≥ 3 then failLink e st (updEng e (fun x => { x with exch := none }) t)
         else updEng e (fun x => { x with exch := none, attempts := x.attempts + 1, retryAt := some (s.tick + 250000) }) t
       else updEng e (fun x => { x with exch := none, state := .ready, retryAt := some (s.tick + 250000) }) t) := by
  have hnoted : ∃ u, u = (if st = .notPermitted then updEng e (fun x => { x with keyFail := raise s.tick x.keyFail }) s else s) ∧
      EngineMoves exchanging e { engOf s e with keyFail := if st = .notPermitted then raise s.tick (engOf s e).keyFail else (engOf s e).keyFail } s u ∧
      u.outs = s.outs ∧ u.splq = s.splq ∧ u.orng = s.orng ∧ runningDg u = runningDg s := by
    refine ⟨_, rfl, ?_⟩
    split
    · exact ⟨(EngineMoves.refl hwe).updEng (fun _ _ => rfl) (fun x => { x with keyFail := raise s.tick x.keyFail }), rfl, rfl, rfl, rfl⟩
    · exact ⟨.refl hwe, rfl, rfl, rfl, rfl⟩
  obtain ⟨u, hu, hm, houts, hsplq, horng, hdg⟩ := hnoted
  have hslots : attemptSlots e (engOf u e) = attemptSlots e (engOf s e) := by
    rw [hm.self]
    rfl
  have hdrop := kept_dropKeys (attemptSlots e (engOf s e)) u
  refine ⟨updEng e (fun x => { x with hopAsm := [] }) (dropKeys (attemptSlots e (engOf s e)) u), ⟨?_, ?_, fun hidle => ?_, fun n hn => ?_⟩, ?_⟩
  · exact (hm.off (hdrop.mono vault_le_exchanging) (congrArg (·.link.engines) hdrop.rest :)).updEng (fun _ _ => rfl) (fun x => { x with hopAsm := [] })
  · exact ((Sent.of_outs houts).trans (answers_dropKeys ..)).trans (.of_outs rfl)
  · exact (congrArg State.splq (kept_dropKeys_idle (hdg.trans hidle) (attemptSlots e (engOf s e))).rest :).trans hsplq
  · exact Zeroising.slotState_dropKeys (by rw [horng]; exact hws) hn
  · rw [failExchange, ← hu, dropAttempt_eq, hslots]

theorem roomAt_splq {s t : State} (h : t.splq = s.splq) (q : Nat) : roomAt t q = roomAt s q := by
  unfold roomAt qOf
  rw [h]

/-- An engine without an exchange. -/
def exchangeOff (x : Engine) : Engine := { x with exch := none }

/-- The first establishment fails, and its link with it. -/
theorem failExchange_keying (hwe : mapWf {} s.link.engines = true) (hws : mapWf {} s.orng.slots = true)
    (hk : (engOf s e).state = .keying) :
    EngineMoves exchanging e (linkFailed s.tick (exchangeOff (attemptEnded st s.tick (engOf s e)))) s (failExchange e st s) ∧
    Answers s (failExchange e st s) ∧ (∀ n ∈ attemptSlots e (engOf s e), (slotOf (failExchange e st s) n).state = .empty) ∧
    (mapWf {} s.splq = true → runningDg s = [] → roomAt s 1 = true → recorded (failExchange e st s) 1 st = true) := by
  obtain ⟨t, ht, heq⟩ := attempt_ended (e := e) (st := st) hwe hws
  rw [if_pos hk] at heq
  have hm := ht.moves.updEng (fun _ _ => rfl) exchangeOff
  have hidle : (engOf (updEng e exchangeOff t) e).exch = none := by
    rw [hm.self]
    rfl
  have htick : (updEng e exchangeOff t).tick = s.tick := (congrArg State.tick hm.kept.rest :)
  have hfail := hm.failLink (fun _ _ => rfl) st
  have horng : (failLink e st (updEng e exchangeOff t)).orng = t.orng := by
    rw [failLink_idle hidle]
    rfl
  rw [htick] at hfail
  rw [heq]
  refine ⟨hfail, (ht.answers.trans (.of_outs (t := updEng e exchangeOff t) rfl)).trans (IngressFrames.answers_failLink ..), fun n hn => ?_,
    fun hwq hdg hr => recorded_failLink (s := updEng e exchangeOff t) (hm.kept.queues hwq) ?_⟩
  · have hslot := ht.slots n hn
    rwa [slotOf, ← horng] at hslot
  · rw [hidle]
    exact (roomAt_splq (t := updEng e exchangeOff t) (ht.queues hdg) 1).trans hr

/-- A rekey of a link that carries frames fails: the link is READY under the old phase, and tries again after 1 ms. -/
theorem failExchange_rekeying (hwe : mapWf {} s.link.engines = true) (hws : mapWf {} s.orng.slots = true)
    (hk : (engOf s e).state ≠ .keying) (hq : (engOf s e).state ≠ .quarantined) :
    EngineMoves exchanging e { attemptEnded st s.tick (engOf s e) with exch := none, state := .ready, retryAt := some (s.tick + 250000) } s
      (failExchange e st s) ∧
    ∀ n ∈ attemptSlots e (engOf s e), (slotOf (failExchange e st s) n).state = .empty := by
  obtain ⟨t, ht, heq⟩ := attempt_ended (e := e) (st := st) hwe hws
  rw [if_neg hk, if_neg hq] at heq
  rw [heq]
  exact ⟨ht.moves.updEng (fun _ _ => rfl) (fun x => { x with exch := none, state := .ready, retryAt := some (s.tick + 250000) }), ht.slots⟩

end

end Sys2Proof.LinkExchanges
end

section
/-! PROOF. Timers, thresholds and commands of links (05_link_fence.md R123, R124, R137, R139). -/

namespace Sys2Proof.LinkTimers

open Sys2Proof Sys2Proof.Machine Sys2Proof.Laws Sys2Proof.Frames Sys2Proof.LinkRules Sys2Proof.EgressFrames Sys2Proof.LinkExchanges
open Sys2Proof.ExchangeKeys Sys2Proof.Management

section
variable {e : Nat} {s : State}

theorem exec_keyingTimeout (e : Fin 96) (s : State) : exec (.keyingTimeout e) s = .next (keyingTimeoutEffect e s) := rfl
theorem exec_linkRetryTimer (e : Fin 96) (s : State) : exec (.linkRetryTimer e) s = .next (linkRetryEffect e s) := rfl
theorem exec_hseqRekeyThreshold (e : Fin 96) (s : State) : exec (.hseqRekeyThreshold e) s = .next (hseqThresholdEffect e s) := rfl
theorem exec_rekeyRetryTimer (e : Fin 96) (s : State) : exec (.rekeyRetryTimer e) s = .next (rekeyRetryEffect e s) := rfl
theorem exec_oldPhaseExpiry (e : Fin 96) (s : State) : exec (.oldPhaseExpiry e) s = .next (oldPhaseEffect e s) := rfl
theorem exec_lnkUpFall (e : Fin 96) (s : State) : exec (.lnkUpFall e) s = .next (linkDownEffect e s) := rfl
theorem exec_hopTagThreshold (e : Fin 96) (s : State) : exec (.hopTagThreshold e) s = .next (hopThresholdEffect e s) := rfl
theorem exec_jobTagThreshold (j : Fin 256) (s : State) : exec (.jobTagThreshold j) s = .next (jobThresholdEffect j s) := rfl

/-- A link in a state that sends, before the end of HSEQ. -/
theorem roomFor_one {x : Engine} (h : x.state = .ready ∨ x.state = .rekeying ∨ x.state = .quarantined) (hseq : x.txSeq < 2 ^ 47 - 1) :
    roomFor 1 x := by
  refine .inr ⟨?_, ?_, by omega⟩
  · obtain h | h | h := h <;> simp [h]
  · obtain h | h | h := h <;> simp [h]

/-- Frames sent leave all but the sequence numbers. -/
theorem hopSent_eq (n : Nat) (x : Engine) : ∃ a b, hopSent n x = { x with txEst := a, txSeq := b } := by
  unfold hopSent
  split
  · exact ⟨_, _, rfl⟩
  · exact ⟨_, _, rfl⟩

theorem jobs_of_exchanging {t : State} (h : Kept exchanging s t) : t.link.jobs = s.link.jobs := (congrArg (·.link.jobs) h.rest :)

theorem mem_attemptSlots {x : Exchange} {n : Nat} (hx : (engOf s e).exch = some x) (hn : n ∈ workingSlots x) :
    n ∈ attemptSlots e (engOf s e) := by
  rw [attemptSlots, hx]
  exact List.mem_append_left _ hn

theorem ecdhSlot_mem (x : Exchange) : x.ecdhSlot ∈ workingSlots x := by simp [workingSlots]
theorem kemSlot_mem (x : Exchange) : x.kemSlot ∈ workingSlots x := by simp [workingSlots]

/-! ## What each timer does when it is due -/

theorem keyingTimeout_keying (hk : (engOf s e).state = .keying) (hlate : (engOf s e).upAt + 12500000 ≤ s.tick) :
    keyingTimeoutEffect e s = failExchange e .timeout s := by
  simp only [keyingTimeoutEffect, hk, hlate, if_true]

theorem keyingTimeout_rekeying {x : Exchange} (hk : (engOf s e).state ≠ .keying) (hx : (engOf s e).exch = some x)
    (hlate : x.start + 12500000 ≤ s.tick) : keyingTimeoutEffect e s = failExchange e .timeout s := by
  simp only [keyingTimeoutEffect, hk, hx, hlate, if_false, if_true]

/-- An engine whose link is retried in tick `t`. -/
def retried (t : Nat) (x : Engine) : Engine := { x with upAt := t }

theorem linkRetry_due (hf : (engOf s e).state = .failed) (hup : (engOf s e).up = true) (hallow : linkAllowed s = true)
    (hlate : (engOf s e).failedAt + 250000000 ≤ s.tick) : linkRetryEffect e s = beginKeying e (updEng e (retried s.tick) s) := by
  simp only [linkRetryEffect, hf, hup, hallow, hlate, and_self, if_true]
  rfl

theorem hseqThreshold_due (hs : (engOf s e).state = .ready) (hx : (engOf s e).exch = none) (hr : (engOf s e).retryAt = none)
    (htop : 2 ^ 46 ≤ hopSeqTop (engOf s e)) : hseqThresholdEffect e s = beginRekey e s := by
  simp only [hseqThresholdEffect, hs, hx, hr, htop, and_self, if_true]

theorem rekeyRetry_due {t : Nat} (hr : (engOf s e).retryAt = some t) (ht : t ≤ s.tick) (hx : (engOf s e).exch = none) :
    rekeyRetryEffect e s = if 2 ^ 47 - 1 ≤ hopSeqTop (engOf s e) then failLink e .timeout s else beginRekey e s := by
  simp only [rekeyRetryEffect, hr, ht, hx, and_self, if_true]

/-- An engine whose old phase has ended. -/
def phaseEnded (x : Engine) : Engine :=
  { x with
    oldUntil := none, phases := x.phases.filter (· != !x.rxPhase)
    keys := mapSet [] (mapSet [] x.keys (hopIdx (!x.rxPhase) 0) []) (hopIdx (!x.rxPhase) 1) [] }

theorem oldPhase_due {t : Nat} (ho : (engOf s e).oldUntil = some t) (ht : t ≤ s.tick) :
    oldPhaseEffect e s = dropKeys (hopSlots e (!(engOf s e).rxPhase)) (updEng e phaseEnded s) := by
  simp only [oldPhaseEffect, ho, ht, if_true]
  exact congrArg _ (updEng_congr rfl)

/-- An engine whose lnk_up has fallen. -/
def fallen (x : Engine) : Engine :=
  { stopTraffic x with
    up := false, state := .down, exch := none, hopAsm := [], keys := [], phases := [], retryAt := none, oldUntil := none, attempts := 0
    asm := [], badHop := [], hopDue := none }

theorem linkDownEffect_eq : linkDownEffect e s = updEng e fallen (dropExchange (engOf s e).exch s) := rfl

/-- An engine that has become QUARANTINED in tick `t`. -/
def quarantined (t : Nat) (x : Engine) : Engine :=
  { stopTraffic x with state := .quarantined, attempts := 0, quarantine := raise t x.quarantine }

/-- An engine whose bad hop tags have met their threshold. -/
def hopTagsCleared (x : Engine) : Engine := { x with hopDue := none, badHop := [] }

theorem hopThreshold_due {t : Nat} (hd : (engOf s e).hopDue = some t) (ht : t < s.tick) (hcar : linkCarries s e = true)
    (hx : (engOf s e).exch = none) :
    hopThresholdEffect e s = beginRekey e (updEng e (quarantined s.tick) (updEng e hopTagsCleared s)) := by
  simp only [hopThresholdEffect, hd, ht, if_true, state_of_carries hcar, hx, Option.isSome_none, Bool.false_eq_true, if_false]
  rfl

theorem txKeyed_of_carries (h : linkCarries s e = true) : txKeyed s e = true := by
  simp only [linkCarries, Bool.and_eq_true] at h
  exact h.2

/-- What keys an engine holds, and its class, say whether it can send under its phase. -/
theorem txKeyed_moves {x : Engine} {t : State} (h : EngineMoves exchanging e x s t) (hc : x.cls = (engOf s e).cls)
    (hk : x.keys = (engOf s e).keys) (hp : x.kphase = (engOf s e).kphase) : txKeyed t e = txKeyed s e := by
  have hauth := authClass_kept (h.kept.mono exchanging_le_carrying) ((congrArg Engine.cls h.self).trans hc)
  have hkey : hopKey (engOf t e) (engOf t e).kphase 0 = hopKey (engOf s e) (engOf s e).kphase 0 := by
    rw [h.self, hopKey, hopKey, hk, hp]
  simp only [txKeyed, hauth, decide_eq_decide.mpr (not_congr (Eq.congr_left hkey))]

/-! ## LINK_REKEY -/

theorem exec_linkRekey (m : MgmtHdr) (s : State) : exec (.linkRekey m) s =
    .next (mgmtCommand 0x22 (if m.unit.toNat < Config.engines then .link m.unit.toNat else .none) m (linkRekeyBody m.unit.toNat) s) := rfl

theorem linkRekeyBody_ready {p : MgmtProg} (hge : ¬e ≥ Config.engines) (hx : (engOf s e).exch = none) (hs : (engOf s e).state = .ready) :
    linkRekeyBody e p s = replyMgmt p .ok [] (beginRekey e s) := by
  simp only [linkRekeyBody, hge, hx, hs, if_false, if_true, Option.isSome_none, Bool.false_eq_true]

theorem linkRekeyBody_other {p : MgmtProg} (hge : ¬e ≥ Config.engines) (hx : (engOf s e).exch = none) (hs : (engOf s e).state ≠ .ready) :
    linkRekeyBody e p s = replyMgmt p .notPermitted [] s := by
  simp only [linkRekeyBody, hge, hx, hs, if_false, Option.isSome_none, Bool.false_eq_true]

/-! ## Hop keys of one phase -/

theorem hopIdx_ne (p : Bool) : hopIdx p 0 ≠ hopIdx p 1 := by simp [hopIdx]

theorem hopIdx_ne_not (p : Bool) {c d : Nat} (hc : c < 2) (hd : d < 2) : hopIdx p d ≠ hopIdx (!p) c := by
  cases p
  · simp only [hopIdx, bit, Bool.not_false, Bool.false_eq_true, if_false, if_true]
    omega
  · simp only [hopIdx, bit, Bool.not_true, Bool.false_eq_true, if_false, if_true]
    omega

theorem hopKey_ended {x : Engine} (hw : mapWf [] x.keys = true) {d : Nat} (hd : d < 2) : hopKey (phaseEnded x) (!x.rxPhase) d = [] := by
  simp only [hopKey, phaseEnded]
  obtain rfl | rfl : d = 0 ∨ d = 1 := by omega
  · rw [mapGet_mapSet_other (mapWf_mapSet hw) (hopIdx_ne _), mapGet_mapSet_same hw]
  · rw [mapGet_mapSet_same (mapWf_mapSet hw)]

theorem hopKey_stays {x : Engine} (hw : mapWf [] x.keys = true) {d : Nat} (hd : d < 2) :
    hopKey (phaseEnded x) x.rxPhase d = hopKey x x.rxPhase d := by
  simp only [hopKey, phaseEnded]
  rw [mapGet_mapSet_other (mapWf_mapSet hw) (hopIdx_ne_not _ (by omega) hd), mapGet_mapSet_other hw (hopIdx_ne_not _ (by omega) hd)]

end

/-! ## The threshold of a job (R137) -/

/-- A changed map at a key: changed there, or the key is not listed. -/
theorem mapGet_mapAll_or {α : Type} [DecidableEq α] {d : α} {f : Nat → α → α} {m : NMap α} (k : Nat) (hm : mapWf d m = true) :
    mapGet d (mapAll d f m) k = f k (mapGet d m k) ∨ (mapGet d m k = d ∧ mapGet d (mapAll d f m) k = d) := by
  have hlisted : mapAll d f m = mapAll d (fun k x => if x = d then d else f k x) m := by
    refine List.filterMap_congr fun p hp => ?_
    have hne : p.2 ≠ d := by
      simp only [mapWf, Bool.and_eq_true, List.all_eq_true, decide_eq_true_eq] at hm
      exact hm.2 p hp
    simp only [if_neg hne]
  have hget := LockedChanges.mapGet_mapAll (f := fun k x => if x = d then d else f k x) (k := k) hm (if_pos rfl)
  rw [hlisted, hget]
  by_cases hd : mapGet d m k = d
  · exact .inr ⟨hd, if_pos hd⟩
  · exact .inl (if_neg hd)

section
variable {j n : Nat} {s : State}

/-- What an engine keeps of a job that is suspended: all but its data. -/
theorem engOf_dropJobData (hw : mapWf {} s.link.engines = true) (n : Nat) : ∃ c g, engOf (dropJobData j s) n =
    { engOf s n with cntDrop := c, txPark := (engOf s n).txPark.filter (fun p => !(p.1 == j && p.2.1 == 0)), egress := g } := by
  obtain h | ⟨hnone, h⟩ := mapGet_mapAll_or (f := fun e x => { x with
      cntDrop := satAdd x.cntDrop ((x.txPark.filter (fun p => p.1 == j && p.2.1 == 0)).length + bit (egressOf s e j))
      txPark := x.txPark.filter (fun p => !(p.1 == j && p.2.1 == 0)), egress := if egressOf s e j then none else x.egress }) n hw
  · exact ⟨_, _, h⟩
  · refine ⟨0, none, h.trans ?_⟩
    rw [engOf, hnone]
    rfl

/-- A job whose tags have met their threshold. -/
def tagsCleared (b : Job) : Job := { b with badDue := none, bad := [] }

/-- From `s` to `t` a job has been suspended: it alone of the jobs changes, its engines keep all but its data, and no record is
posted. -/
structure Suspends (j : Nat) (s t : State) : Prop where
  moves : ∃ w, JobMoves j { jobOf s j with state := .suspended, openW := w } s t
  queues : mapWf {} s.splq = true → mapWf {} t.splq = true
  splq : t.splq = s.splq
  engines : ∀ n, (engOf t n).state = (engOf s n).state ∧ (engOf t n).keys = (engOf s n).keys ∧ (engOf t n).jobKeys = (engOf s n).jobKeys
  data : (jobOf s j).state = .open_ → ∀ n, ∀ p ∈ (engOf t n).txPark, p ∈ (engOf s n).txPark ∧ (p.1 = j → p.2.1 ≠ 0)

theorem suspendJob_suspends {st : Status} (hst : st ≠ .badDescriptor) (hwe : mapWf {} s.link.engines = true)
    (hwj : mapWf {} s.link.jobs = true) (hs : (jobOf s j).state = .open_ ∨ (jobOf s j).state = .keying) :
    Suspends j s (suspendJob j st s) := by
  obtain ho | hk := hs
  · have hsusp : suspendJob j st s = updJob j (fun b => { b with state := .suspended }) (dropJobData j s) := by simp only [suspendJob, ho, if_true]
    have hj : JobMoves j (jobOf s j) s (dropJobData j s) := (JobMoves.refl hwj).off rfl
    rw [hsusp]
    refine ⟨⟨_, hj.updJob (fun b => { b with state := .suspended })⟩, id, rfl, fun n => ?_, fun _ n p hp => ?_⟩
    · obtain ⟨c, g, h⟩ := engOf_dropJobData (j := j) hwe n
      exact ⟨(congrArg Engine.state h :), (congrArg Engine.keys h :), (congrArg Engine.jobKeys h :)⟩
    · obtain ⟨c, g, h⟩ := engOf_dropJobData (j := j) hwe n
      have htx : (engOf (updJob j (fun b => { b with state := .suspended }) (dropJobData j s)) n).txPark = _ := (congrArg Engine.txPark h :)
      rw [htx] at hp
      simpa [imp_iff_not_or] using List.mem_filter.mp hp
  · have hsusp : suspendJob j st s = finish (jobOf s j).openW st [] (updJob j (fun b => { b with state := .suspended, openW := .none }) s) := by
      simp [suspendJob, hk]
    have hfin := zeroing_finish (jobOf s j).openW [] (updJob j (fun b => { b with state := .suspended, openW := .none }) s) hst
    have hlink := (congrArg State.link hfin.rest :)
    have heng : ∀ n, engOf (finish (jobOf s j).openW st [] (updJob j (fun b => { b with state := .suspended, openW := .none }) s)) n = engOf s n :=
      fun n => by rw [engOf, hlink]; rfl
    rw [hsusp]
    exact ⟨⟨_, ((JobMoves.refl hwj).updJob (fun b => { b with state := .suspended, openW := .none })).off (congrArg Link.jobs hlink)⟩,
      hfin.queues, (congrArg State.splq hfin.rest :), fun n => by rw [heng]; exact ⟨rfl, rfl, rfl⟩,
      fun h => absurd (hk.symm.trans h) (by decide)⟩

theorem jobThreshold_due {t : Nat} (hd : (jobOf s j).badDue = some t) (ht : t < s.tick)
    (hs : (jobOf s j).state = .open_ ∨ (jobOf s j).state = .keying) :
    jobThresholdEffect j s = postHostEvent (jobOf s j).ring .lnkfJobTag (.job j) (leNat 1 j ++ leNat 1 (jobOf s j).cid)
      (postFaultEventRaw .lnkfJobTag 12 (linkEventBody 0 (jobOf s j).id.toNat 0) (suspendJob j .lnkfJobTag (updJob j tagsCleared s))) := by
  simp only [jobThresholdEffect, hd, ht, hs, if_true]
  rfl

end

/-- Settles O40, clause by clause: the timers of an exchange and of a failed link, HSEQ at 2^46, LINK_REKEY, the end of the old phase,
lnk_up falling, and both thresholds. -/
theorem linkTimersAndThresholds : Obligations.LinkTimersAndThresholds := by
  unfold Obligations.LinkTimersAndThresholds
  refine ⟨?_, ?_, ?_, ?_, ?_, ?_, ?_, ?_, ?_, ?_⟩
  · intro e s hc hr hk hlate hdg
    obtain ⟨hm, -, -, hrec⟩ := failExchange_keying (st := .timeout) (canonical_link_engines hc) (canonical_orng_slots hc) hk
    rw [exec_keyingTimeout, keyingTimeout_keying hk hlate]
    exact ⟨_, rfl, by rw [hm.self]; rfl, by rw [hm.self]; rfl, by rw [hm.self]; rfl, hrec (canonical_splq hc) hdg hr, hm.others,
      jobs_of_exchanging hm.kept⟩
  · intro e s x hc hk hx hlate
    obtain ⟨hm, hslots⟩ := failExchange_rekeying (st := .timeout) (canonical_link_engines hc) (canonical_orng_slots hc)
      (by rw [hk]; decide) (by rw [hk]; decide)
    rw [exec_keyingTimeout, keyingTimeout_rekeying (by rw [hk]; decide) hx hlate]
    exact ⟨_, rfl, by rw [hm.self]; rfl, hslots _ (mem_attemptSlots hx (ecdhSlot_mem x)), hslots _ (mem_attemptSlots hx (kemSlot_mem x)),
      hm.others, jobs_of_exchanging hm.kept, (congrArg State.frames hm.kept.rest :)⟩
  · intro e s hc hf hup hallow hlate hdraw hfree hx
    have hws := canonical_orng_slots hc
    have hretry := (EngineMoves.refl (p := exchanging) (e := e) (canonical_link_engines hc)).updEng (fun _ _ => rfl) (retried s.tick)
    obtain ⟨x, hrekey, hstart, -, h⟩ := beginKeying_started (s := updEng e (retried s.tick) s) hretry.wf hws hdraw hfree
      (by rw [hretry.self]; exact hx)
    have hbegun := ((hretry.updEng (fun _ _ => rfl) keyingBegun).trans h.moves)
    obtain ⟨a, b, hab⟩ := hopSent_eq 1 (begun x (keyingBegun (engOf (updEng e (retried s.tick) s) e)))
    rw [hab, hretry.self] at hbegun
    rw [exec_linkRetryTimer, linkRetry_due hf hup hallow hlate]
    exact ⟨_, x, rfl, by rw [hbegun.self]; rfl, by rw [hbegun.self]; rfl, hrekey, hstart, by rw [hbegun.self]; rfl, hbegun.others,
      jobs_of_exchanging hbegun.kept⟩
  · intro e s hc hs hx hr hdraw hfree htx hseq htop
    obtain ⟨x, hrekey, -, -, hm, -⟩ := beginRekey_moves (canonical_link_engines hc) (canonical_orng_slots hc) hdraw hfree htx
    have hroom : roomFor 1 (begun x (rekeyBegun (engOf s e))) := roomFor_one (.inr (.inl (if_pos hs))) hseq
    obtain ⟨a, b, hab⟩ := hopSent_eq 1 (begun x (rekeyBegun (engOf s e)))
    rw [afterSend_room hroom, hab] at hm
    rw [exec_hseqRekeyThreshold, hseqThreshold_due hs hx hr htop]
    exact ⟨_, x, rfl, by rw [hm.self]; exact if_pos hs, by rw [hm.self]; rfl, hrekey, by rw [hm.self]; rfl, by rw [hm.self]; rfl, hm.others,
      jobs_of_exchanging hm.kept⟩
  · intro m s hc hok hlt hx hdraw hfree htx hseq
    have hge : ¬m.unit.toNat ≥ Config.engines := Nat.not_le.mpr hlt
    rw [exec_linkRekey, mgmtCommand_taken hok]
    generalize hu : (if m.unit.toNat < Config.engines then UnitRef.link m.unit.toNat else .none) = unit
    have houts : s.outs <+: (taken 0x22 unit m s).outs := List.prefix_refl s.outs
    by_cases hs : (engOf s m.unit.toNat).state = .ready
    · have hws := canonical_orng_slots hc
      obtain ⟨x, -, -, -, hm, -⟩ := beginRekey_moves (s := taken 0x22 unit m s) (canonical_link_engines hc) hws hdraw hfree htx
      have hroom : roomFor 1 (begun x (rekeyBegun (engOf s m.unit.toNat))) := roomFor_one (.inr (.inl (if_pos hs))) hseq
      obtain ⟨a, b, hab⟩ := hopSent_eq 1 (begun x (rekeyBegun (engOf s m.unit.toNat)))
      have hself := hm.self.trans ((afterSend_room hroom).trans hab)
      have hjobs := jobs_of_exchanging hm.kept
      rw [linkRekeyBody_ready (s := taken 0x22 unit m s) hge hx hs]
      refine ⟨_, rfl, hm.others, hjobs, fun _ => ⟨replied_replyMgmt rfl (houts.trans hm.kept.outs), ?_, ?_⟩,
        fun h => absurd hs h⟩
      · exact (congrArg Engine.state hself).trans (if_pos hs)
      · exact fun h => nomatch (congrArg Engine.exch hself).symm.trans h
    · rw [linkRekeyBody_other (s := taken 0x22 unit m s) hge hx hs]
      exact ⟨_, rfl, fun _ _ => rfl, rfl, fun h => absurd h hs, fun _ => ⟨replied_replyMgmt rfl houts, rfl⟩⟩
  · intro e s t hc hr ht hx hroom hdraw hfree htx
    rw [exec_rekeyRetryTimer, rekeyRetry_due hr ht hx]
    by_cases htop : 2 ^ 47 - 1 ≤ hopSeqTop (engOf s e)
    · have hm := (EngineMoves.refl (p := recording) (e := e) (canonical_link_engines hc)).failLink_idle (fun _ _ => rfl) hx .timeout
      rw [if_pos htop]
      refine ⟨_, rfl, by rw [hm.self]; rfl, hm.others, (congrArg (·.link.jobs) hm.kept.rest :), fun h => absurd htop (Nat.not_le.mpr h),
        fun _ => ⟨by rw [hm.self]; rfl, recorded_failLink (canonical_splq hc) ?_⟩⟩
      rw [hx]
      exact hroom
    · obtain ⟨x, hrekey, hstart, -, hm, -⟩ := beginRekey_moves (canonical_link_engines hc) (canonical_orng_slots hc) hdraw hfree htx
      rw [if_neg htop]
      exact ⟨_, rfl, by rw [hm.self]; exact retryAt_afterSend rfl, hm.others, jobs_of_exchanging hm.kept,
        fun _ hseq => ⟨x, by rw [hm.self]; exact exch_afterSend hseq, hrekey, hstart⟩, fun h => absurd h htop⟩
  · intro e s t hc hwk ho ht
    have hws := canonical_orng_slots hc
    have hdrop := kept_dropKeys (hopSlots e (!(engOf s e).rxPhase)) (updEng e phaseEnded s)
    have hm := ((EngineMoves.refl (p := exchanging) (e := e) (canonical_link_engines hc)).updEng (fun _ _ => rfl) phaseEnded).off
      (hdrop.mono vault_le_exchanging) (congrArg (·.link.engines) hdrop.rest :)
    rw [exec_oldPhaseExpiry, oldPhase_due ho ht]
    refine ⟨_, rfl, by rw [hm.self]; rfl, by rw [hm.self]; rfl, fun d hd => ⟨?_, by rw [hm.self]; exact hopKey_ended hwk hd,
      by rw [hm.self]; exact hopKey_stays hwk hd⟩, hm.others, jobs_of_exchanging hm.kept⟩
    refine Zeroising.slotState_dropKeys (s := updEng e phaseEnded s) hws ?_
    obtain rfl | rfl : d = 0 ∨ d = 1 := by omega
    · simp [hopSlots]
    · simp [hopSlots]
  · intro e s hc
    have hm := ((EngineMoves.refl (p := exchanging) (e := e) (canonical_link_engines hc)).dropExchange (fun _ _ => rfl)
      (engOf s e).exch).updEng (fun _ _ => rfl) fallen
    rw [exec_lnkUpFall, linkDownEffect_eq]
    refine ⟨_, rfl, by rw [hm.self]; rfl, by rw [hm.self]; rfl, by rw [hm.self]; rfl, by rw [hm.self]; rfl, by rw [hm.self]; rfl,
      by rw [hm.self]; rfl, by rw [hm.self]; rfl, by rw [hm.self]; rfl, by rw [hm.self]; rfl, by rw [hm.self]; rfl, by rw [hm.self]; rfl,
      hm.others, jobs_of_exchanging hm.kept, fun hx => ?_⟩
    rw [hx]
    rfl
  · intro j s t hc hr hd ht hs
    have hjob := (JobMoves.refl (j := j) (canonical_link_jobs hc)).updJob tagsCleared
    have hwe := canonical_link_engines hc
    have hwq := canonical_splq hc
    obtain ⟨⟨w, hsusp⟩, hqueues, hsplq, heng, hdata⟩ := suspendJob_suspends (s := updJob j tagsCleared s) (st := .lnkfJobTag) (by decide)
      hwe hjob.wf (by rw [hjob.self]; exact hs)
    rw [exec_jobTagThreshold, jobThreshold_due hd ht hs]
    generalize suspendJob j .lnkfJobTag (updJob j tagsCleared s) = v at *
    have hlink := (congrArg State.link (zeroing_postHostEvent (jobOf s j).ring .lnkfJobTag (.job j) (leNat 1 j ++ leNat 1 (jobOf s j).cid)
      (postFaultEventRaw .lnkfJobTag 12 (linkEventBody 0 (jobOf s j).id.toNat 0) v)).rest :)
    have hqueue := (congrArg State.splq (zeroing_postHostEvent (jobOf s j).ring .lnkfJobTag (.job j) (leNat 1 j ++ leNat 1 (jobOf s j).cid)
      (postFaultEventRaw .lnkfJobTag 12 (linkEventBody 0 (jobOf s j).id.toNat 0) v)).rest :)
    generalize postHostEvent _ _ _ _ _ = u at hlink hqueue ⊢
    have hposted : recorded (postFaultEventRaw .lnkfJobTag 12 (linkEventBody 0 (jobOf s j).id.toNat 0) v) 1 .lnkfJobTag = true :=
      recorded_posted (hqueues hwq) ((roomAt_splq hsplq 1).trans hr) (by rw [List.append_assoc]; exact leAt_status .lnkfJobTag _)
    have hmoves := hsusp.off (congrArg Link.jobs hlink)
    have hu : ∀ n, engOf u n = engOf v n := fun n => by rw [engOf, hlink]; rfl
    refine ⟨u, rfl, by rw [hmoves.self], by rw [hmoves.self, hjob.self]; rfl, by rw [hmoves.self, hjob.self]; rfl,
      (FenceFills.recorded_splq hqueue).trans hposted, fun n hn => (hmoves.others n hn).trans (hjob.others n hn),
      fun n => by rw [hu]; exact heng n, fun ho n p hp => ?_⟩
    rw [hu] at hp
    exact hdata (by rw [hjob.self]; exact ho) n p hp
  · intro e s t hc hd ht hx hdraw hfree hcar hseq
    have hq := ((EngineMoves.refl (p := exchanging) (e := e) (canonical_link_engines hc)).updEng (fun _ _ => rfl) hopTagsCleared).updEng
      (fun _ _ => rfl) (quarantined s.tick)
    have htx : txKeyed (updEng e (quarantined s.tick) (updEng e hopTagsCleared s)) e = txKeyed s e :=
      txKeyed_moves hq rfl rfl rfl
    have hws := canonical_orng_slots hc
    obtain ⟨x, hrekey, -, -, hm, -⟩ := beginRekey_moves hq.wf hws hdraw hfree (htx.trans (txKeyed_of_carries hcar))
    have hbegun := hq.trans hm
    rw [hq.self] at hbegun
    have hengine : rekeyBegun (quarantined s.tick (hopTagsCleared (engOf s e))) = quarantined s.tick (hopTagsCleared (engOf s e)) := by
      simp [rekeyBegun, quarantined]
    rw [hengine] at hbegun
    have hroom : roomFor 1 (begun x (quarantined s.tick (hopTagsCleared (engOf s e)))) :=
      roomFor_one (.inr (.inr rfl)) (by simpa only [begun, quarantined, stopTraffic, hopTagsCleared] using hseq)
    obtain ⟨a, b, hab⟩ := hopSent_eq 1 (begun x (quarantined s.tick (hopTagsCleared (engOf s e))))
    rw [afterSend_room hroom, hab] at hbegun
    rw [exec_hopTagThreshold, hopThreshold_due hd ht hcar hx]
    exact ⟨_, x, rfl, by rw [hbegun.self]; rfl, by rw [hbegun.self]; rfl, by rw [hbegun.self]; rfl, by rw [hbegun.self]; rfl, hrekey,
      hbegun.others, jobs_of_exchanging hbegun.kept⟩

end Sys2Proof.LinkTimers
end

section
/-! PROOF. Hop-key exchanges (05_link_fence.md R122, R123, R126, 10_orangery_keys.md R237, R249, Table LINK-7). -/

namespace Sys2Proof.HopExchanges

open Sys2Proof Sys2Proof.Machine Sys2Proof.Laws Sys2Proof.Frames Sys2Proof.KeyImport Sys2Proof.LinkRules Sys2Proof.EgressFrames
open Sys2Proof.LinkExchanges Sys2Proof.ExchangeKeys Sys2Proof.LinkTimers Sys2Proof.UnitAnswers

/-! ## A message that answers -/

/-- An engine that has taken the peer's message of a type. -/
def hopTaken (type : Nat) (x : Engine) : Engine := { x with hopAsm := x.hopAsm.filter (fun a => a.type != type) }

/-- An engine whose exchange has come to `x`. -/
def exchangeAt (x : Exchange) (y : Engine) : Engine := { y with exch := some x }

section
variable {e : Nat} {s : State}

theorem takeHop_eq (type : Nat) : takeHop e type s = updEng e (hopTaken type) s := rfl

/-- The state in which an exchange's messages are answered has the room for them. -/
theorem roomFor_message {x : Engine} {k top : Nat} (hk : x.txSeq + k ≤ top)
    (h : x.state = .keying ∨ ((x.state = .rekeying ∨ x.state = .quarantined) ∧ top < 2 ^ 47)) : roomFor k x := by
  obtain h | ⟨hs, hseq⟩ := h
  · exact .inl h
  · refine .inr ⟨?_, ?_, by omega⟩
    · obtain h | h := hs <;> simp [h]
    · obtain h | h := hs <;> simp [h]

/-- From `s` to `u` an engine has come to `x`, and frames of its link have been sent last. -/
structure Answered (p : Parts) (e : Nat) (x : Engine) (s t u : State) : Prop where
  moves : ∃ a b, EngineMoves p e { x with txEst := a, txSeq := b } s u
  sent : newOuts s u ≠ [] ∧ ∀ o ∈ newOuts s u, ∃ f, o = .linkFrame e f
  orng : u.orng = t.orng

theorem sendControl_answered {p : Parts} {type : Nat} {msg : Bytes} {x : Engine} {t : State} (h : EngineMoves p e x s t)
    (hp : sending.le p) (houts : t.outs = s.outs) (hroom : roomFor (fragments msg).length x) :
    Answered p e x s t (sendControl e type msg t) := by
  have hsent := sendControl_frames (type := type) (msg := msg) h.wf (by rwa [h.self])
  obtain ⟨a, b, hab⟩ := hopSent_eq (fragments msg).length x
  have hm := h.trans (hsent.moves.mono hp)
  have hnew : newOuts s (sendControl e type msg t) = newOuts t (sendControl e type msg t) := by rw [newOuts, newOuts, houts]
  rw [h.self, hab] at hm
  exact ⟨⟨a, b, hm⟩, hnew ▸ ⟨hsent.newOuts_ne (one_le_fragments msg), hsent.newOuts⟩, (congrArg State.orng hsent.moves.kept.rest :)⟩

theorem exec_lnkUpRise (e : Fin 96) (s : State) : exec (.lnkUpRise e) s = .next (linkUpEffect e s) := rfl
theorem exec_hopHello (e : Fin 96) (m : HelloMsg) (s : State) : exec (.hopHello e m) s = .next (helloEffect e m s) := rfl
theorem exec_hopCert (e : Fin 96) (chain : Bytes) (s : State) :
    exec (.hopCert e chain) s = .next (certEffect e chain (hopCame s e 2 chain) s) := rfl
theorem exec_hopEncap (e : Fin 96) (ct sig : Bytes) (s : State) : exec (.hopEncap e ct sig) s = .next (encapEffect e ct sig s) := rfl
theorem exec_hopFinish (e : Fin 96) (mac : Bytes) (s : State) : exec (.hopFinish e mac) s = .next (finishEffect e mac s) := rfl

/-- What a failed message of the first establishment leaves, once it has been taken. -/
theorem fails_keying {st : Status} {type : Nat} (hc : canonical s = true) (hk : (engOf s e).state = .keying) :
    EngineMoves exchanging e (linkFailed s.tick (exchangeOff (attemptEnded st s.tick (hopTaken type (engOf s e))))) s
      (failExchange e st (updEng e (hopTaken type) s)) ∧
    Answers s (failExchange e st (updEng e (hopTaken type) s)) ∧
    (∀ n ∈ attemptSlots e (engOf s e), (slotOf (failExchange e st (updEng e (hopTaken type) s)) n).state = .empty) ∧
    (runningDg s = [] → roomAt s 1 = true → recorded (failExchange e st (updEng e (hopTaken type) s)) 1 st = true) := by
  have hws := canonical_orng_slots hc
  have hwq := canonical_splq hc
  have hm := (EngineMoves.refl (p := exchanging) (e := e) (canonical_link_engines hc)).updEng (fun _ _ => rfl) (hopTaken type)
  obtain ⟨hfail, hans, hslots, hrec⟩ := failExchange_keying (st := st) (s := updEng e (hopTaken type) s) hm.wf hws (by rw [hm.self]; exact hk)
  rw [hm.self] at hfail hslots
  exact ⟨hm.trans hfail, (FencePorts.Sent.of_outs (t := updEng e (hopTaken type) s) rfl).trans hans, hslots, hrec hwq⟩

/-! ## HELLO -/

/-- An engine whose peer has appeared in tick `t`. -/
def risen (t : Nat) (x : Engine) : Engine := { x with up := true, upAt := t }

theorem linkUpEffect_rise (hup : (engOf s e).up = false) (hallow : linkAllowed s = true) :
    linkUpEffect e s = beginKeying e (updEng e (risen s.tick) s) := by
  simp only [linkUpEffect, hup, hallow, Bool.false_eq_true, if_false, if_true]
  rfl

theorem answerRekey_begins {m : HelloMsg} (hx : (engOf s e).exch = none) (hs : (engOf s e).state = .ready ∨ (engOf s e).state = .quarantined)
    (hcame : hopCame s e 1 (helloBytes m) = true) (hallow : linkAllowed s = true) (hqueue : helloQueued s e = false) :
    answerRekey e m s = beginRekey e s := by
  have hstate : (decide ((engOf s e).state = .ready) || decide ((engOf s e).state = .quarantined)) = true := by simpa using hs
  simp only [answerRekey, hx, hstate, hcame, hallow, hqueue, Option.isNone_none, Bool.not_false, Bool.and_self, if_true]

theorem takeHello_answers {m : HelloMsg} {x : Exchange} {sec : Bytes} (hx : (engOf s e).exch = some x) (hpeer : x.peer = none)
    (hcame : hopCame s e 1 (helloBytes m) = true) (hallow : linkAllowed s = true) (hep : m.ep ≠ s.link.endpoint)
    (hkey : deviceKey x.ecdhSlot s = some sec) (hpoint : (Config.ecdhShared sec m.ecdh).isSome = true) :
    takeHello e m s = sendControl e 2 (deviceChain s) (updEng e (exchangeAt { x with peer := some m }) (updEng e (hopTaken 1) s)) := by
  have hkey' : deviceKey x.ecdhSlot (takeHop e 1 s) = some sec := hkey
  have hbad : ¬(m.ep = (takeHop e 1 s).link.endpoint ∨ (Config.ecdhShared sec m.ecdh).isNone = true) := by
    rw [not_or, Option.isNone_eq_false_iff.mpr hpoint]
    exact ⟨hep, Bool.false_ne_true⟩
  simp only [takeHello, hx, hpeer, hallow, hcame, hkey', hbad, Option.isSome_none, Bool.not_true, Bool.or_self, Bool.false_eq_true, if_false]
  rfl

theorem takeHello_fails {m : HelloMsg} {x : Exchange} {sec : Bytes} (hx : (engOf s e).exch = some x) (hpeer : x.peer = none)
    (hcame : hopCame s e 1 (helloBytes m) = true) (hallow : linkAllowed s = true) (hep : m.ep = s.link.endpoint)
    (hkey : deviceKey x.ecdhSlot s = some sec) : takeHello e m s = failExchange e .notPermitted (updEng e (hopTaken 1) s) := by
  have hkey' : deviceKey x.ecdhSlot (takeHop e 1 s) = some sec := hkey
  have hbad : m.ep = (takeHop e 1 s).link.endpoint ∨ (Config.ecdhShared sec m.ecdh).isNone = true := .inl hep
  simp only [takeHello, hx, hpeer, hallow, hcame, hkey', hbad, Option.isSome_none, Bool.not_true, Bool.or_self, Bool.false_eq_true, if_false,
    if_true]
  rfl

theorem helloEffect_running {m : HelloMsg} {x : Exchange} (hx : (engOf s e).exch = some x) : helloEffect e m s = takeHello e m s := by
  simp only [helloEffect, answerRekey, hx, Option.isNone_some, Bool.false_and, Bool.false_eq_true, if_false]

end

/-! ## A rekey that the peer has started (R124) -/

section
variable {e : Nat} {s : State}

theorem sent_of_newOuts {P : Out → Prop} {t : State} (hp : s.outs <+: t.outs) (h : ∀ o ∈ newOuts s t, P o) : FencePorts.Sent P s t := by
  obtain ⟨os, hos⟩ := hp
  exact ⟨os, hos.symm, by simpa [newOuts, ← hos] using h⟩

theorem roomFor_exchangeAt {n type : Nat} {x : Exchange} {y : Engine} (h : roomFor n y) : roomFor n (exchangeAt x (hopTaken type y)) := h

/-- The engine of a rekey that the peer has started, once HELLO and CERT have gone. -/
def answering (x : Exchange) (m : HelloMsg) (y : Engine) : Engine :=
  exchangeAt { x with peer := some m } (hopTaken 1 (begun x (rekeyBegun y)))

/-- HELLO goes out, and CERT after it: the exchange begins here with the peer's keys. -/
theorem rekey_answered {m : HelloMsg} (hc : canonical s = true) (hx : (engOf s e).exch = none)
    (hcame : hopCame s e 1 (helloBytes m) = true) (hallow : linkAllowed s = true)
    (hs : (engOf s e).state = .ready ∨ (engOf s e).state = .quarantined) (hqueue : helloQueued s e = false) (hdraw : drawReady s = true)
    (hfree : (freeWorking 2 s).length = 2) (htx : txKeyed s e = true) (hep : m.ep ≠ s.link.endpoint)
    (hpoint : ∀ a, (Config.ecdhShared a m.ecdh).isSome = true) (hseq : (engOf s e).txSeq + (deviceChain s).length + 2 < 2 ^ 47) :
    ∃ x a b, x.rekey = true ∧ x.start = s.tick ∧
      EngineMoves exchanging e { answering x m (engOf s e) with txEst := a, txSeq := b } s (helloEffect e m s) ∧
      ∀ o ∈ newOuts s (helloEffect e m s), ∃ f, o = .linkFrame e f := by
  have hready : (rekeyBegun (engOf s e)).state = .rekeying ∨ (rekeyBegun (engOf s e)).state = .quarantined := by
    obtain hs | hs := hs
    · exact .inl (by simp [rekeyBegun, hs])
    · exact .inr (by simp [rekeyBegun, hs])
  have hroom : ∀ {n x}, n ≤ (deviceChain s).length + 2 → roomFor n (begun x (rekeyBegun (engOf s e))) := fun {_ x} hn =>
    roomFor_message (x := begun x (rekeyBegun (engOf s e))) (Nat.add_le_add_left hn _) (.inr ⟨hready, hseq⟩)
  obtain ⟨x, hrekey, hstart, hpeer, hm, hstarted⟩ := beginRekey_moves (canonical_link_engines hc) (canonical_orng_slots hc) hdraw hfree htx
  have hstarted := hstarted (hroom (x := x) (by omega))
  rw [afterSend_room (hroom (by omega))] at hm
  have hbegins := answerRekey_begins hx hs hcame hallow hqueue
  have hsent := sent_of_newOuts (s := s) hm.kept.outs hstarted.sent.2
  obtain ⟨sec, hsec⟩ := Option.isSome_iff_exists.mp hstarted.ecdh
  obtain ⟨a, b, hab⟩ := hopSent_eq 1 (begun x (rekeyBegun (engOf s e)))
  have hchain : deviceChain (beginRekey e s) = deviceChain s := (congrArg deviceChain hm.kept.rest :)
  have hep' : m.ep ≠ (beginRekey e s).link.endpoint := by rwa [(congrArg (·.link.endpoint) hm.kept.rest :)]
  have hself := hm.self.trans hab
  have hcame' : hopCame (beginRekey e s) e 1 (helloBytes m) = true := by
    rw [hopCame, hself]
    exact hcame
  rw [helloEffect, hbegins, takeHello_answers (by rw [hself]; rfl) hpeer hcame' ((linkAllowed_kept (hm.kept.mono exchanging_le_carrying)).trans hallow)
    hep' hsec (hpoint sec), hchain]
  have hcert := (hm.updEng sending_le_exchanging (hopTaken 1)).updEng sending_le_exchanging (exchangeAt { x with peer := some m })
  have hframes := sendControl_frames (e := e) (type := 2) (msg := deviceChain s) hcert.wf (by
    rw [hcert.self]
    exact roomFor_exchangeAt (roomFor_hopSent (hroom (x := x) (Nat.succ_le_succ (length_fragments_le _)))))
  obtain ⟨c, d, hcd⟩ := hopSent_eq (fragments (deviceChain s)).length
    (exchangeAt { x with peer := some m } (hopTaken 1 (hopSent 1 (begun x (rekeyBegun (engOf s e))))))
  have hall := hcert.trans (hframes.moves.mono sending_le_exchanging)
  rw [hcert.self, hcd, hab] at hall
  have hsent2 := sent_of_newOuts hframes.moves.kept.outs hframes.newOuts
  exact ⟨x, c, d, hrekey, hstart, hall, (hsent.trans ((FencePorts.Sent.of_outs rfl).trans hsent2)).newOuts⟩

end

/-! ## CERT -/

section
variable {e : Nat} {x : Exchange} {m : HelloMsg} {chain : Bytes} {keys : Bytes × Bytes} {s : State}

theorem certEffect_checks (hx : (engOf s e).exch = some x) (hpeer : x.peer = some m) (hkeys : x.peerKeys = none)
    (hcame : hopCame s e 2 chain = true) (hallow : linkAllowed s = true) :
    certEffect e chain (hopCame s e 2 chain) s = checkCert e x m chain (updEng e (hopTaken 2) s) := by
  simp only [certEffect, hx, hpeer, hkeys, hcame, hallow, Option.isSome_none, Bool.not_true, Bool.or_self, Bool.false_eq_true, if_false]
  rfl

theorem checkCert_fails (h : chainVerify (trustAnchor s) chain = none ∨ Config.chainLifecycle chain ≠ s.otp.code) :
    checkCert e x m chain s = failExchange e .notPermitted s := by
  unfold checkCert
  cases hv : chainVerify (trustAnchor s) chain with
  | none => rfl
  | some keys => exact if_pos (h.resolve_left (by simp [hv]))

theorem checkCert_passes (hv : chainVerify (trustAnchor s) chain = some keys) (hl : Config.chainLifecycle chain = s.otp.code)
    (hsign : signReady s = true) (hdraw : drawReady s = true) : checkCert e x m chain s = sendEncap e x m keys chain s := by
  simp only [checkCert, hv, hl, hsign, ne_eq, not_true_eq_false, Bool.not_true, Bool.false_eq_true, if_false]
  exact withDraw_ready hdraw

theorem length_hybridSign (msg : Bytes) (s : State) : (hybridSign msg s).length = 4723 := by
  have hfit : ∀ (n : Nat) (bs : Bytes), (fit n bs).length = n := fun n bs => by simp [fit, zeros]
  simp only [hybridSign, List.length_append, hfit]

/-- An exchange for which ENCAP has been sent: the peer's keys and chain are known, and the secret of the ciphertext is in the slot `n`. -/
def encapSent (keys : Bytes × Bytes) (chain ct : Bytes) (n : Nat) (x : Exchange) : Exchange :=
  { x with peerKeys := some keys, peerChain := chain, ownCt := ct, ownSlot := some n }

theorem sendEncap_slot {n : Nat} (hws : mapWf {} s.orng.slots = true) (hfree : freeWorking 1 s = [n]) :
    ∃ sig t, sig.length = 4723 ∧ VaultOnly s t ∧ (slotOf t n).state = .active ∧ (slotOf t n).attr = attrDerive ∧
      (∀ k, k ≠ n → slotOf t k = slotOf s k) ∧
      sendEncap e x m keys chain s = sendControl e 3 ((Config.kemEncap m.kem (drbg 32 s).1).1 ++ sig)
        (updEng e (exchangeAt (encapSent keys chain (Config.kemEncap m.kem (drbg 32 s).1).1 n x)) t) := by
  have hv := vaultOnly_drbg 32 s
  have hslots := slots_drbg 32 s
  rcases hdraw : drbg 32 s with ⟨r, s1⟩
  rw [hdraw] at hv hslots
  have hsame : ∀ k, slotOf s1 k = slotOf s k := fun k => by rw [slotOf, slotOf, hslots]
  have hws1 := hv.wf hws
  have htake := takeWorking_first (attr := attrDerive) (cid := 0) (key := (Config.kemEncap m.kem r).2) ((freeWorking_congr hsame 1).trans hfree)
  refine ⟨hybridSign (encapHash s (encapSent keys chain (Config.kemEncap m.kem r).1 n x) m chain (Config.kemEncap m.kem r).1)
    (setSlot n attrDerive 0 none (Config.kemEncap m.kem r).2 s1), _, length_hybridSign ..,
    hv.trans (vaultOnly_setSlot n attrDerive 0 none (Config.kemEncap m.kem r).2 s1),
    by rw [slotOf_setSlot_self hws1], by rw [slotOf_setSlot_self hws1], fun k hk => (slotOf_setSlot_ne hws1 hk).trans (hsame k), ?_⟩
  unfold sendEncap
  rw [hdraw]
  simp only [htake]
  rfl

end

/-! ## ENCAP -/

/-- Working slots that stay are free where they were. -/
theorem freeWorking_stays {s t : State} (h : ∀ n, workingBase ≤ n → slotOf t n = slotOf s n) (k : Nat) : freeWorking k t = freeWorking k s := by
  have hempty : emptyWorking t = emptyWorking s := List.filter_congr fun n hn => by
    obtain ⟨i, -, rfl⟩ := List.mem_map.mp hn
    rw [h _ (Nat.le_add_left ..)]
  rw [freeWorking_eq, freeWorking_eq, hempty]

theorem hopSlot_lt {e : Nat} {phase : Bool} {d : Nat} (he : e < 96) (hd : d < 2) : hopSlot e (bit phase) d < workingBase := by
  have hbit : bit phase ≤ 1 := by cases phase <;> decide
  simp only [hopSlot, workingBase]
  omega

/-- An exchange whose peer's ciphertext has come. -/
def cipherCame (ct : Bytes) (x : Exchange) : Exchange := { x with peerCt := ct }

/-- The key of a direction that an exchange derives. -/
def hopDerived (z h : Bytes) (a : Bool) (d : Nat) : Bytes := kdf z (ascii (if a = decide (d = 0) then "OCN-HOP-AB" else "OCN-HOP-BA")) h 256

theorem hopDerived_tx (z h : Bytes) (a : Bool) :
    (if a = true then kdf z (ascii "OCN-HOP-AB") h 256 else kdf z (ascii "OCN-HOP-BA") h 256) = hopDerived z h a 0 := by
  cases a <;> simp [hopDerived]

theorem hopDerived_rx (z h : Bytes) (a : Bool) :
    (if a = true then kdf z (ascii "OCN-HOP-BA") h 256 else kdf z (ascii "OCN-HOP-AB") h 256) = hopDerived z h a 1 := by
  cases a <;> simp [hopDerived]

/-- The slot of a hop key once it has been derived. -/
def HopKeyed (n : Nat) (key : Bytes) (x : Slot) : Prop :=
  ∃ mask, x = { state := .active, attr := attrEngine, len := key.length, active := mkHalf n 0 key mask }

section
variable {e : Nat} {x : Exchange} {m : HelloMsg} {ct sig : Bytes} {keys : Bytes × Bytes} {s : State}

theorem hopKeysEffect_derives (hx : (engOf s e).exch = some x) (hpeer : x.peer = some m) (hfin : x.finSlot = none) :
    hopKeysEffect e ct s = deriveHop e (cipherCame ct x) m s := by
  simp only [hopKeysEffect, hx, hpeer, hfin, Option.isSome_none, Bool.false_eq_true, if_false]
  simp only [cipherCame, hpeer, hfin]

theorem encapEffect_derives (hx : (engOf s e).exch = some x) (hpeer : x.peer = some m) (hkeys : x.peerKeys = some keys)
    (hfin : x.finSlot = none) (hcame : hopCame s e 3 (ct ++ sig) = true) (hallow : linkAllowed s = true)
    (hok : hybridOk keys (encapHash s x m x.peerChain ct) sig = true) (hdraw : drawReady s = true)
    (hw : mapWf {} s.link.engines = true) :
    encapEffect e ct sig s = deriveHop e (cipherCame ct x) m (updEng e (hopTaken 3) s) := by
  have hok' : hybridOk keys (encapHash (takeHop e 3 s) x m x.peerChain ct) sig = true := hok
  have htaken : engOf (updEng e (hopTaken 3) s) e = hopTaken 3 (engOf s e) := mapGet_mapMod_same hw
  simp only [encapEffect, hx, hpeer, hkeys, hfin, hcame, hallow, hok', Option.isSome_none, Bool.not_true, Bool.or_self, Bool.false_eq_true, if_false]
  rw [withDraw_ready (s := takeHop e 3 s) hdraw]
  exact hopKeysEffect_derives (s := updEng e (hopTaken 3) s) ((congrArg Engine.exch htaken).trans hx) hpeer hfin

theorem deriveHop_slots {sec seed own : Bytes} {o k : Nat} (he : e < 96) (hws : mapWf {} s.orng.slots = true)
    (hsec : deviceKey x.ecdhSlot s = some sec) (hseed : deviceKey x.kemSlot s = some seed) (hown : x.ownSlot = some o)
    (hkey : deviceKey o s = some own) (hfree : freeWorking 1 s = [k]) :
    ∃ msg t, msg.length ≤ 4090 ∧ VaultOnly s t ∧ (slotOf t k).state = .active ∧ (slotOf t k).attr = attrEnc ∧
      (∀ d, d < 2 → HopKeyed (hopSlot e (bit (nextPhase (engOf s e) x.rekey)) d) (hopDerived ((Config.ecdhShared sec m.ecdh).getD [] ++
        sideOrder (isSideA s m) own (Config.kemDecap seed x.peerCt)) (exchangeHash s x m) (isSideA s m) d)
        (slotOf t (hopSlot e (bit (nextPhase (engOf s e) x.rekey)) d))) ∧
      deriveHop e x m s = sendControl e 4 msg (updEng e (exchangeAt { x with finSlot := some k }) t) := by
  generalize hz : (Config.ecdhShared sec m.ecdh).getD [] ++ sideOrder (isSideA s m) own (Config.kemDecap seed x.peerCt) = z
  generalize hh : exchangeHash s x m = h
  generalize hp : bit (nextPhase (engOf s e) x.rekey) = p
  have hlt : ∀ {d}, d < 2 → hopSlot e p d < workingBase := fun hd => hp ▸ hopSlot_lt he hd
  have htx := vaultOnly_setSlot (hopSlot e p 0) attrEngine 0 none (hopDerived z h (isSideA s m) 0) s
  have hrx := vaultOnly_setSlot (hopSlot e p 1) attrEngine 0 none (hopDerived z h (isSideA s m) 1)
    (setSlot (hopSlot e p 0) attrEngine 0 none (hopDerived z h (isSideA s m) 0) s)
  have hne : hopSlot e p 0 ≠ hopSlot e p 1 := by simp [hopSlot]
  have htake := takeWorking_first (n := k) (attr := attrEnc) (cid := 0) (key := kdf z (ascii "OCN-HOP-FIN") h 384)
    (s := setSlot (hopSlot e p 1) attrEngine 0 none (hopDerived z h (isSideA s m) 1)
      (setSlot (hopSlot e p 0) attrEngine 0 none (hopDerived z h (isSideA s m) 0) s)) (by
        rw [freeWorking_stays (s := s) fun n hn => ?_, hfree]
        rw [slotOf_setSlot_ne (htx.wf hws) (Nat.ne_of_gt (Nat.lt_of_lt_of_le (hlt (by decide)) hn)),
          slotOf_setSlot_ne hws (Nat.ne_of_gt (Nat.lt_of_lt_of_le (hlt (by decide)) hn))])
  have hk : workingBase ≤ k := (mem_freeWorking (k := 1) (by rw [hfree]; exact List.mem_cons_self)).1
  have hw2 := hrx.wf (htx.wf hws)
  refine ⟨hmac384 (kdf z (ascii "OCN-HOP-FIN") h 384) (exchangeTranscript s x m), _, (RecordLog.length_sha384_le _).trans (by decide),
    (htx.trans hrx).trans (vaultOnly_setSlot k attrEnc 0 none (kdf z (ascii "OCN-HOP-FIN") h 384) _), by rw [slotOf_setSlot_self hw2],
    by rw [slotOf_setSlot_self hw2], fun d hd => ?_, ?_⟩
  · rw [slotOf_setSlot_ne hw2 (Nat.ne_of_lt (Nat.lt_of_lt_of_le (hlt hd) hk))]
    obtain rfl | rfl : d = 0 ∨ d = 1 := by omega
    · rw [slotOf_setSlot_ne (htx.wf hws) hne, slotOf_setSlot_self hws]
      exact ⟨_, rfl⟩
    · rw [slotOf_setSlot_self (htx.wf hws)]
      exact ⟨_, rfl⟩
  · unfold deriveHop
    simp only [hsec, hseed, hown, Option.bind_some, hkey, hz, hh, hp, hopDerived_tx, hopDerived_rx, htake]
    rfl

end

/-! ## FINISH -/

section
variable {e : Nat} {x : Exchange} {m : HelloMsg} {mac fin : Bytes} {n : Nat} {s : State}

theorem hopSlot_mem_attemptSlots {d : Nat} (hx : (engOf s e).exch = some x) (hfin : x.finSlot = some n) (hd : d < 2) :
    hopSlot e (bit (nextPhase (engOf s e) x.rekey)) d ∈ attemptSlots e (engOf s e) := by
  have hmem : hopSlot e (bit (nextPhase (engOf s e) x.rekey)) d ∈ hopSlots e (nextPhase (engOf s e) x.rekey) := by
    obtain rfl | rfl : d = 0 ∨ d = 1 := by omega
    · exact List.mem_cons_self
    · exact List.mem_cons_of_mem _ List.mem_cons_self
  simp only [attemptSlots, hx, hfin, Option.isSome_some, if_true]
  exact List.mem_append_right _ hmem

theorem finishEffect_checks (hx : (engOf s e).exch = some x) (hpeer : x.peer = some m) (hfin : x.finSlot = some n)
    (hcame : hopCame s e 4 mac = true) (hallow : linkAllowed s = true) (hkey : deviceKey n s = some fin) :
    finishEffect e mac s = if mac = hmac384 fin (exchangeTranscript s x m) then finishExchange e x m (updEng e (hopTaken 4) s)
      else failExchange e .notPermitted (updEng e (hopTaken 4) s) := by
  have hkey' : deviceKey n (takeHop e 4 s) = some fin := hkey
  simp only [finishEffect, hx, hpeer, hfin, hcame, hallow, hkey', Bool.not_true, Bool.or_self, Bool.false_eq_true, if_false]
  rfl

end

/-! ## The pushes of FINISH (R249) -/

/-- A slot of which a code has failed (R236). -/
def badSlot (x : Slot) : Slot := { x with state := .bad, active := {}, pend := {}, pending := false }

/-- From `s` to `t` the vault has changed in bus slots alone. -/
structure BusOnly (s t : State) : Prop where
  kept : Kept vault s t
  wf : mapWf {} s.orng.slots = true → mapWf {} t.orng.slots = true
  slots : mapWf {} s.orng.slots = true → ∀ n, 64 ≤ n → slotOf t n = slotOf s n
  pushes : t.orng.pushes = s.orng.pushes

/-- From `s` to `t` one push has been sent, with its drop, unit and key. -/
structure PushMade (p : Nat × Nat × Bytes) (s t : State) : Prop where
  kept : Kept vault s t
  wf : mapWf {} s.orng.slots = true → mapWf {} t.orng.slots = true
  slots : mapWf {} s.orng.slots = true → ∀ n, 64 ≤ n → slotOf t n = slotOf s n
  pushes : ∃ q : Push, t.orng.pushes = s.orng.pushes ++ [q] ∧ (q.drop, q.unit, q.plain.2) = p

section
variable {s : State}

theorem busOnly_checkSlot {n : Nat} (hn : n < 64) (s : State) : BusOnly s (checkSlot n s) := by
  have hfail : (slotFail n false s).orng.slots = (updSlot n badSlot s).orng.slots ∧ (slotFail n false s).orng.pushes = s.orng.pushes := by
    simp only [slotFail, halfFail]
    split
    · exact ⟨rfl, rfl⟩
    · exact ⟨rfl, rfl⟩
  obtain ⟨hslots, hpushes⟩ := hfail
  have hkept := kept_checkSlot n s
  simp only [checkSlot] at hkept ⊢
  split
  next h =>
    rw [if_pos h] at hkept
    refine ⟨hkept, fun hw => by rw [hslots]; exact (vaultOnly_updSlot n badSlot s).wf hw, fun hw k hk => ?_, hpushes⟩
    rw [slotOf, hslots]
    exact Zeroising.slotOf_updSlot_ne hw (Nat.ne_of_gt (Nat.lt_of_lt_of_le hn hk))
  next => exact ⟨.refl s, id, fun _ _ _ => rfl, rfl⟩

theorem busOnly_sendKbus {d : Nat} (hd : d < 32) (hdr plain : Bytes) (s : State) : BusOnly s (sendKbus d hdr plain s) := by
  unfold sendKbus
  split
  · exact busOnly_checkSlot (by simp only [busSlot]; omega) s
  · exact ⟨(Kept.silent rfl rfl rfl rfl : Kept vault s (updDrop d _ s)).trans (.of_ctxs rfl (List.prefix_append ..) rfl id), id,
      fun _ _ _ => rfl, rfl⟩

theorem pushMade_sendPush {d : Nat} (hd : d < 32) (hdr plain : Bytes) (s : State) :
    PushMade (d, leAt hdr 6 2, plain) s (sendPush d hdr plain s) := by
  have hsent := busOnly_sendKbus hd hdr plain s
  exact ⟨hsent.kept.trans (.silent rfl rfl rfl rfl), hsent.wf, hsent.slots, _, congrArg (· ++ [_]) hsent.pushes, rfl⟩

theorem leAt_kbusHeader_unit (kind cid ksel flags id sel unit : Nat) :
    leAt (kbusHeader kind cid ksel flags id sel unit) 6 2 = unit % 256 ^ 2 := by
  have hfield := Management.leAt_field (leNat 1 kind ++ leNat 1 cid ++ leNat 1 ksel ++ leNat 1 flags ++ leNat 1 id ++ leNat 1 sel) [] 2 unit
  simpa [kbusHeader, RecordLog.length_leNat] using hfield

theorem pushMade_pushHopKey {e dir : Nat} {phase : Bool} {key : Bytes} (he : e < 96)
    (hkey : deviceKey (hopSlot e (bit phase) dir) s = some key) :
    PushMade ((engineUnit e).1, (engineUnit e).2, key) s (pushHopKey e phase dir s) := by
  have hunit : leAt (kbusHeader 3 0 (hopIdx phase dir) 0 0 0 (engineUnit e).2) 6 2 = (engineUnit e).2 := by
    rw [leAt_kbusHeader_unit]
    simp only [engineUnit]
    omega
  have hpush := pushMade_sendPush (d := (engineUnit e).1) (by simp only [engineUnit]; omega)
    (kbusHeader 3 0 (hopIdx phase dir) 0 0 0 (engineUnit e).2) key s
  rw [hunit] at hpush
  simp only [pushHopKey, hkey]
  exact hpush

end

/-! ## READY -/

/-- An engine whose exchange `x` with the peer of `m` has ended well; it had the phase `old`. -/
def finished (x : Exchange) (m : HelloMsg) (old phase : Bool) (y : Engine) : Engine :=
  { y with
    state := .ready, kphase := phase, txSeq := 1, peerEp := m.ep, exch := none, hopAsm := [], attempts := 0, retryAt := none
    rxSeq := mapSet 0 y.rxSeq (bit phase) 0, rxPhase := if x.rekey then y.rxPhase else false, oldUntil := none
    phases := if x.rekey then [old, phase] else [phase]
    keys := mapSet [] (mapSet [] y.keys (hopIdx phase 0) []) (hopIdx phase 1) []
    rekeys := if x.rekey then y.rekeys + 1 else y.rekeys, badHop := [], hopDue := none }

/-- The event of a link that is READY again after its quarantine. -/
def released (e : Nat) (m : HelloMsg) (old : LinkState) (s : State) : State :=
  if old = .quarantined then postEventRaw 0x04 12 (linkEventBody e 0 m.ep.toNat) s else s

section
variable {e : Nat} {x : Exchange} {y : Engine} {m : HelloMsg} {s t : State}

theorem finishExchange_eq : finishExchange e x m s = resumeLink e (released e m (engOf s e).state (updEng e
    (finished x m (engOf s e).kphase (nextPhase (engOf s e) x.rekey)) (pushHopKey e (nextPhase (engOf s e) x.rekey) 1
      (pushHopKey e (nextPhase (engOf s e) x.rekey) 0 (dropExchange (some x) s))))) := rfl

theorem released_orng (old : LinkState) : (released e m old s).orng = s.orng := by
  unfold released
  split
  · rfl
  · rfl

theorem moves_released (h : EngineMoves exchanging e y s t) (m : HelloMsg) (old : LinkState) :
    EngineMoves exchanging e y s (released e m old t) := by
  unfold HopExchanges.released
  split
  · exact h.postRecord records_le_exchanging 1 12 _
  · exact h

/-- An engine with no JOB_CLOSE due. -/
def noneDue (y : Engine) : Engine := { y with closeDue := [] }

theorem resumeLink_idle (ht : (engOf s e).txPark = []) (hd : (engOf s e).closeDue = []) : resumeLink e s = updEng e noneDue s := by
  simp only [resumeLink, ht, List.map_nil, List.eraseDups_nil, List.foldl_nil, sendDueCloses, hd]
  rfl

theorem hopKey_finished {old phase : Bool} (hw : mapWf [] y.keys = true) {d : Nat} (hd : d < 2) :
    hopKey (noneDue (finished x m old phase y)) phase d = [] := by
  simp only [hopKey, noneDue, finished]
  obtain rfl | rfl : d = 0 ∨ d = 1 := by omega
  · rw [mapGet_mapSet_other (mapWf_mapSet hw) (hopIdx_ne _), mapGet_mapSet_same hw]
  · rw [mapGet_mapSet_same (mapWf_mapSet hw)]

end

/-- From `s` to `u` an exchange has ended well: both keys of its phase are pushed, its working slots are EMPTY. -/
structure Finishes (e : Nat) (x : Exchange) (m : HelloMsg) (phase : Bool) (ks : List Bytes) (y : Engine) (s u : State) : Prop where
  moves : EngineMoves exchanging e (noneDue (finished x m y.kphase phase y)) s u
  pushes : (u.orng.pushes.drop s.orng.pushes.length).map (fun p => (p.drop, p.unit, p.plain.2)) =
    ks.map (fun k => ((engineUnit e).1, (engineUnit e).2, k))
  working : ∀ k ∈ workingSlots x, (slotOf u k).state = .empty
  hop : ∀ d, d < 2 → slotOf u (hopSlot e (bit phase) d) = slotOf s (hopSlot e (bit phase) d)

section
variable {e : Nat} {x : Exchange} {m : HelloMsg} {s : State}

theorem finishExchange_finishes {k0 k1 : Bytes} {phase : Bool} (he : e < 96) (hwe : mapWf {} s.link.engines = true)
    (hws : mapWf {} s.orng.slots = true) (hphase : phase = nextPhase (engOf s e) x.rekey)
    (hworking : ∀ k ∈ workingSlots x, workingBase ≤ k) (hl : loadsHeld s = true)
    (hpending : ∀ d, d < 2 → (slotOf s (hopSlot e (bit phase) d)).pending = false)
    (hk0 : deviceKey (hopSlot e (bit phase) 0) s = some k0) (hk1 : deviceKey (hopSlot e (bit phase) 1) s = some k1)
    (hdue : (engOf s e).closeDue = []) (hpark : (engOf s e).txPark = []) (hidle : runningDg s = []) :
    Finishes e x m phase [k0, k1] (engOf s e) s (finishExchange e x m s) := by
  have hbase : ∀ d, 64 ≤ hopSlot e (bit phase) d := fun d => by simp only [hopSlot]; omega
  have hkept := kept_dropKeys_idle hidle (workingSlots x)
  have hhop : ∀ d, d < 2 → slotOf (dropKeys (workingSlots x) s) (hopSlot e (bit phase) d) = slotOf s (hopSlot e (bit phase) d) := fun d hd =>
    (slotStays_dropKeys hidle (fun hmem => absurd (hopSlot_lt he hd) (Nat.not_lt.mpr (hworking _ hmem))) (not_held hl (hpending d hd))).slot hws
      (not_held hl (hpending d hd))
  have hw1 : mapWf {} (dropKeys (workingSlots x) s).orng.slots = true := (Packets.gainsNoKey_dropKeys ..).wf hws
  have hpush0 := pushMade_pushHopKey (s := dropKeys (workingSlots x) s) (dir := 0) (phase := phase) he (by
    simp only [deviceKey, hhop 0 (by decide)] at hk0 ⊢
    exact hk0)
  have hpush1 := pushMade_pushHopKey (s := pushHopKey e phase 0 (dropKeys (workingSlots x) s)) (dir := 1) (phase := phase) he (by
    simp only [deviceKey, hpush0.slots hw1 _ (hbase 1), hhop 1 (by decide)] at hk1 ⊢
    exact hk1)
  obtain ⟨q0, hq0, hkey0⟩ := hpush0.pushes
  obtain ⟨q1, hq1, hkey1⟩ := hpush1.pushes
  have hm := ((((EngineMoves.refl (p := exchanging) (e := e) hwe).dropExchange vault_le_exchanging (some x)).off
    (hpush0.kept.mono vault_le_exchanging) (congrArg (·.link.engines) hpush0.kept.rest :)).off
    (hpush1.kept.mono vault_le_exchanging) (congrArg (·.link.engines) hpush1.kept.rest :)).updEng sending_le_exchanging
    (finished x m (engOf s e).kphase phase)
  have hm := moves_released hm m (engOf s e).state
  have hfinal : finishExchange e x m s = updEng e noneDue (released e m (engOf s e).state (updEng e (finished x m (engOf s e).kphase phase)
      (pushHopKey e phase 1 (pushHopKey e phase 0 (dropKeys (workingSlots x) s))))) := by
    rw [finishExchange_eq, ← hphase]
    exact resumeLink_idle ((congrArg Engine.txPark hm.self).trans hpark) ((congrArg Engine.closeDue hm.self).trans hdue)
  have hslot : ∀ k, slotOf (finishExchange e x m s) k = slotOf (pushHopKey e phase 1 (pushHopKey e phase 0 (dropKeys (workingSlots x) s))) k :=
    fun k => by
      rw [hfinal]
      exact congrArg (fun o : Orng => mapGet {} o.slots k) (released_orng _)
  have hslots : ∀ k, 64 ≤ k → slotOf (finishExchange e x m s) k = slotOf (dropKeys (workingSlots x) s) k := fun k hk =>
    (hslot k).trans ((hpush1.slots (hpush0.wf hw1) k hk).trans (hpush0.slots hw1 k hk))
  have hpushes : (finishExchange e x m s).orng.pushes = s.orng.pushes ++ ([q0] ++ [q1]) := by
    have h : (finishExchange e x m s).orng.pushes = (pushHopKey e phase 1 (pushHopKey e phase 0 (dropKeys (workingSlots x) s))).orng.pushes := by
      rw [hfinal]
      exact congrArg (·.pushes) (released_orng _)
    rw [h, hq1, hq0, (congrArg (·.orng.pushes) hkept.rest :), List.append_assoc]
    rfl
  refine ⟨hfinal ▸ hm.updEng sending_le_exchanging noneDue, ?_, fun k hk => ?_, fun d hd => (hslots _ (hbase d)).trans (hhop d hd)⟩
  · rw [hpushes, List.drop_left]
    simp [← hkey0, ← hkey1]
  · rw [hslots k (Nat.le_trans (by decide) (hworking k hk))]
    exact Zeroising.slotState_dropKeys hws hk

end

/-- Settles O39, message by message: what begins an exchange, what answers each message, and what a message that fails ends. -/
theorem hopExchangesEndReadyOrFailed : Obligations.HopExchangesEndReadyOrFailed := by
  unfold Obligations.HopExchangesEndReadyOrFailed
  refine ⟨?_, ?_, ?_, ?_, ?_, ?_, ?_, ?_, ?_⟩
  · intro e s hc hup hallow hdraw hfree hx
    have hws := canonical_orng_slots hc
    have hrise := (EngineMoves.refl (p := exchanging) (e := e) (canonical_link_engines hc)).updEng (fun _ _ => rfl) (risen s.tick)
    obtain ⟨x, hrekey, hstart, hpeer, h⟩ := beginKeying_started (s := updEng e (risen s.tick) s) hrise.wf hws hdraw hfree
      (by rw [hrise.self]; exact hx)
    have hbegun := (hrise.updEng (fun _ _ => rfl) keyingBegun).trans h.moves
    obtain ⟨a, b, hab⟩ := hopSent_eq 1 (begun x (keyingBegun (engOf (updEng e (risen s.tick) s) e)))
    rw [hab, hrise.self] at hbegun
    rw [exec_lnkUpRise, linkUpEffect_rise hup hallow]
    exact ⟨_, x, rfl, by rw [hbegun.self]; rfl, by rw [hbegun.self]; rfl, by rw [hbegun.self]; rfl, by rw [hbegun.self]; rfl, hpeer, hrekey,
      hstart, h.sent.1, fun o ho => h.sent.2 o ho, h.free, h.fresh, h.others, hbegun.others, jobs_of_exchanging hbegun.kept⟩
  · intro e m s x sec hc hx hpeer hcame hallow hep hkey hpoint hroom
    have hm := ((EngineMoves.refl (p := sending) (e := e) (canonical_link_engines hc)).updEng (fun _ _ => rfl) (hopTaken 1)).updEng
      (fun _ _ => rfl) (exchangeAt { x with peer := some m })
    obtain ⟨⟨a, b, hmoves⟩, hsent, -⟩ := sendControl_answered (type := 2) (msg := deviceChain s) hm (fun _ _ => rfl) rfl
      (roomFor_message (Nat.add_le_add_left (length_fragments_le _) _) hroom)
    rw [exec_hopHello, helloEffect_running hx, takeHello_answers hx hpeer hcame hallow hep hkey hpoint]
    exact ⟨_, rfl, by rw [hmoves.self]; rfl, by rw [hmoves.self]; rfl, hsent.1, fun o ho => hsent.2 o ho, hmoves.others, hmoves.kept.rest⟩
  · intro e m s x sec hc hr hx hpeer hcame hallow hk hep hkey hdg
    obtain ⟨hm, hans, hslots, hrec⟩ := fails_keying (st := .notPermitted) (type := 1) hc hk
    rw [exec_hopHello, helloEffect_running hx, takeHello_fails hx hpeer hcame hallow hep hkey]
    exact ⟨_, rfl, by rw [hm.self]; rfl, by rw [hm.self]; rfl, by rw [hm.self]; rfl, by rw [hm.self]; rfl, hrec hdg hr,
      hslots _ (mem_attemptSlots hx (ecdhSlot_mem x)), hslots _ (mem_attemptSlots hx (kemSlot_mem x)),
      fun n f hmem => (by cases hans.newOuts _ hmem), hm.others, jobs_of_exchanging hm.kept⟩
  · intro e m s hc hx hcame hallow hs hqueue hdraw hfree htx hep hpoint hseq
    obtain ⟨x, a, b, hrekey, hstart, hm, hsent⟩ := rekey_answered hc hx hcame hallow hs hqueue hdraw hfree htx hep hpoint hseq
    have hstate : (rekeyBegun (engOf s e)).state = if (engOf s e).state = .ready then .rekeying else .quarantined := by
      obtain hs | hs := hs <;> simp [rekeyBegun, hs]
    rw [exec_hopHello]
    exact ⟨_, { x with peer := some m }, rfl, by rw [hm.self]; rfl, hrekey, rfl, hstart, by rw [hm.self]; exact hstate, by rw [hm.self]; rfl,
      by rw [hm.self]; rfl, hsent, hm.others, jobs_of_exchanging hm.kept⟩
  · intro e chain s x m keys n hc hx hpeer hkeys hcame hallow hv hl hsign hdraw hfree hroom
    have hws := canonical_orng_slots hc
    have hm := (EngineMoves.refl (p := exchanging) (e := e) (canonical_link_engines hc)).updEng (fun _ _ => rfl) (hopTaken 2)
    have hr : (drbg 32 (updEng e (hopTaken 2) s)).1 = (drbg 32 s).1 := by
      unfold drbg
      rfl
    obtain ⟨sig, t, hlen, hvault, hactive, hattr, hothers, hsend⟩ := sendEncap_slot (e := e) (x := x) (m := m) (chain := chain) (keys := keys)
      (s := updEng e (hopTaken 2) s) hws hfree
    rw [hr] at hsend
    have hkeyed := (hm.trans (moves_of_vaultOnly hm.wf hvault)).updEng (fun _ _ => rfl)
      (exchangeAt (encapSent keys chain (Config.kemEncap m.kem (drbg 32 s).1).1 n x))
    rw [hm.self] at hkeyed
    have hfits : (engOf s e).txSeq + (fragments ((Config.kemEncap m.kem (drbg 32 s).1).1 ++ sig)).length ≤
        (engOf s e).txSeq + (Config.kemEncap m.kem (drbg 32 s).1).1.length + 4724 := by
      have h := length_fragments_le ((Config.kemEncap m.kem (drbg 32 s).1).1 ++ sig)
      rw [List.length_append, hlen] at h
      omega
    obtain ⟨⟨a, b, hmoves⟩, hsent, horng⟩ := sendControl_answered (type := 3) (msg := (Config.kemEncap m.kem (drbg 32 s).1).1 ++ sig) hkeyed
      sending_le_exchanging (congrArg State.outs hvault.rest :) (roomFor_message hfits hroom)
    have hslot : ∀ k, slotOf (sendControl e 3 ((Config.kemEncap m.kem (drbg 32 s).1).1 ++ sig) (updEng e
        (exchangeAt (encapSent keys chain (Config.kemEncap m.kem (drbg 32 s).1).1 n x)) t)) k = slotOf t k := fun k => by rw [slotOf, horng]; rfl
    rw [exec_hopCert, certEffect_checks hx hpeer hkeys hcame hallow, checkCert_passes (s := updEng e (hopTaken 2) s) hv hl hsign hdraw, hsend]
    exact ⟨_, _, rfl, by rw [hmoves.self]; rfl, rfl, by rw [hslot, hactive], by rw [hslot, hattr], fun k hk => (hslot k).trans (hothers k hk),
      by rw [hmoves.self]; rfl, hsent.1, fun o ho => hsent.2 o ho, hmoves.others, jobs_of_exchanging hmoves.kept⟩
  · intro e chain s x m hc hr hx hpeer hkeys hcame hallow hk hbad hdg
    obtain ⟨hm, -, hslots, hrec⟩ := fails_keying (st := .notPermitted) (type := 2) hc hk
    rw [exec_hopCert, certEffect_checks hx hpeer hkeys hcame hallow, checkCert_fails (s := updEng e (hopTaken 2) s) hbad]
    exact ⟨_, rfl, by rw [hm.self]; rfl, by rw [hm.self]; rfl, hrec hdg hr, hslots _ (mem_attemptSlots hx (ecdhSlot_mem x)),
      hslots _ (mem_attemptSlots hx (kemSlot_mem x)), hm.others, jobs_of_exchanging hm.kept⟩
  · intro e ct sig s x m keys sec seed own z h o k hc hx hpeer hkeys hfin hcame hallow hok hdraw hsec hseed hown hkey hz hh hfree hroom
    have hws := canonical_orng_slots hc
    have hwe := canonical_link_engines hc
    have hm := (EngineMoves.refl (p := exchanging) (e := e.val) hwe).updEng (fun _ _ => rfl) (hopTaken 3)
    obtain ⟨msg, t, hlen, hvault, hactive, hattr, hslots, hsend⟩ := deriveHop_slots (x := cipherCame ct x) (m := m) (s := updEng e (hopTaken 3) s)
      e.isLt hws hsec hseed hown hkey hfree
    have hphase : nextPhase (engOf (updEng e (hopTaken 3) s) e) (cipherCame ct x).rekey = nextPhase (engOf s e) x.rekey := by
      rw [hm.self]
      rfl
    have hkeyed := (hm.trans (moves_of_vaultOnly hm.wf hvault)).updEng (fun _ _ => rfl) (exchangeAt { cipherCame ct x with finSlot := some k })
    rw [hm.self] at hkeyed
    obtain ⟨⟨a, b, hmoves⟩, hsent, horng⟩ := sendControl_answered (type := 4) (msg := msg) hkeyed sending_le_exchanging
      (congrArg State.outs hvault.rest :) (roomFor_message (length_fragments_short hlen ▸ Nat.le_refl _) hroom)
    have hslot : ∀ n, slotOf (sendControl e 4 msg (updEng e (exchangeAt { cipherCame ct x with finSlot := some k }) t)) n = slotOf t n :=
      fun n => by rw [slotOf, horng]; rfl
    rw [exec_hopEncap, encapEffect_derives hx hpeer hkeys hfin hcame hallow hok hdraw hwe, hsend]
    rw [hphase] at hslots
    refine ⟨_, rfl, by rw [hmoves.self]; rfl, fun d hd => ?_, by rw [hslot, hactive], by rw [hslot, hattr], by rw [hmoves.self]; rfl, hsent.1,
      fun o ho => hsent.2 o ho, hmoves.others, jobs_of_exchanging hmoves.kept⟩
    obtain ⟨mask, hmask⟩ := hslots d hd
    refine ⟨_, mask, ?_, (hslot _).trans hmask⟩
    rw [hz, hh]
    rfl
  · intro e mac fin k0 k1 s x m n phase hc hx hpeer hfin hcame hallow hkey hmac hphase hbase hl hpending hk0 hk1 hdue hpark hkeys hdg
    have hm := (EngineMoves.refl (p := exchanging) (e := e.val) (canonical_link_engines hc)).updEng (fun _ _ => rfl) (hopTaken 4)
    have hws := canonical_orng_slots hc
    have hmem : ∀ k, k ∈ workingSlots x ↔ k ∈ [x.ecdhSlot, x.kemSlot, n] ++ x.ownSlot.toList := fun k => by
      simp only [workingSlots, hfin, Option.toList_some, List.mem_append, List.mem_cons, List.not_mem_nil]
      tauto
    have hdone := finishExchange_finishes (x := x) (m := m) (s := updEng e (hopTaken 4) s) e.isLt hm.wf hws
      (by rw [hm.self]; exact hphase) (fun k hk => hbase k ((hmem k).mp hk)) hl hpending hk0 hk1 (by rw [hm.self]; exact hdue)
      (by rw [hm.self]; exact hpark) hdg
    have hall := hm.trans hdone.moves
    rw [hm.self] at hall
    rw [exec_hopFinish, finishEffect_checks hx hpeer hfin hcame hallow hkey, if_pos hmac]
    exact ⟨_, rfl, by rw [hall.self]; rfl, by rw [hall.self]; rfl, by rw [hall.self]; rfl, by rw [hall.self]; rfl, by rw [hall.self]; rfl,
      fun d hd => by rw [hall.self]; exact hopKey_finished (y := hopTaken 4 (engOf s e)) (m := m) (old := (engOf s e).kphase) hkeys hd, hdone.pushes,
      fun k hk => hdone.working k ((hmem k).mpr hk), hdone.hop, hall.others, jobs_of_exchanging hall.kept⟩
  · intro e mac fin s x m n hc hr hx hpeer hfin hcame hkey hallow hk hmac hdg
    obtain ⟨hm, -, hslots, hrec⟩ := fails_keying (st := .notPermitted) (type := 4) hc hk
    rw [exec_hopFinish, finishEffect_checks hx hpeer hfin hcame hallow hkey, if_neg hmac]
    exact ⟨_, rfl, by rw [hm.self]; rfl, by rw [hm.self]; rfl, hrec hdg hr, fun d hd => hslots _ (hopSlot_mem_attemptSlots hx hfin hd),
      hslots _ (mem_attemptSlots hx (by simp [workingSlots, hfin])), hm.others, jobs_of_exchanging hm.kept⟩

end Sys2Proof.HopExchanges
end

section
/-! PROOF. A tick on an empty queue (01_the_complex.md, The Sundial, 05_link_fence.md R137): what the work of a tick leaves as it was, and
the thresholds of jobs. -/

namespace Sys2Proof.TickWork

open Sys2Proof Sys2Proof.Machine Sys2Proof.Laws Sys2Proof.Frames Sys2Proof.FencePorts Sys2Proof.LinkRules

/-- From `s` to `t` neither the tick count nor a job of the link fence changes. -/
structure Stays (s t : State) : Prop where
  tick : t.tick = s.tick
  jobs : t.link.jobs = s.link.jobs

namespace Stays

variable {s t u : State}

theorem refl (s : State) : Stays s s := ⟨rfl, rfl⟩

theorem trans (h1 : Stays s t) (h2 : Stays t u) : Stays s u := ⟨h2.tick.trans h1.tick, h2.jobs.trans h1.jobs⟩

theorem ite {c : Prop} [Decidable c] (h1 : Stays s t) (h2 : Stays s u) : Stays s (if c then t else u) := by
  split
  · exact h1
  · exact h2

theorem foldl {α : Type} {f : State → α → State} (hf : ∀ s a, Stays s (f s a)) (as : List α) (s : State) : Stays s (as.foldl f s) := by
  induction as generalizing s with
  | nil => exact refl s
  | cons a as ih => exact (hf s a).trans (ih _)

theorem forUpTo {f : Nat → State → State} (hf : ∀ k s, Stays s (f k s)) (n : Nat) (s : State) : Stays s (forUpTo n f s) := by
  induction n with
  | zero => exact refl s
  | succ n ih => exact ih.trans (hf n _)

/-- What changes other parts. -/
theorem of_rest {p : Parts} (h : t = p.put s t) (hp : ∀ u, (p.put s u).tick = s.tick ∧ (p.put s u).link.jobs = s.link.jobs) : Stays s t :=
  ⟨(congrArg State.tick h).trans (hp t).1, (congrArg (·.link.jobs) h).trans (hp t).2⟩

end Stays

theorem stays_updChan (ch : Nat) (f : Chan → Chan) (s : State) : Stays s (updChan ch f s) := ⟨rfl, rfl⟩
theorem stays_updDie (d : Nat) (f : Die → Die) (s : State) : Stays s (updDie d f s) := ⟨rfl, rfl⟩
theorem stays_updCtx (c : Nat) (f : Ctx → Ctx) (s : State) : Stays s (updCtx c f s) := ⟨rfl, rfl⟩
theorem stays_updEng (e : Nat) (f : Engine → Engine) (s : State) : Stays s (updEng e f s) := ⟨rfl, rfl⟩
theorem stays_updSlice (d : Nat) (f : Slice → Slice) (s : State) : Stays s (updSlice d f s) := ⟨rfl, rfl⟩
theorem stays_emit (o : Out) (s : State) : Stays s (emit o s) := ⟨rfl, rfl⟩
theorem stays_postRecord (q k : Nat) (b : Bytes) (s : State) : Stays s (postRecord q k b s) := ⟨rfl, rfl⟩

theorem stays_finish (w : Waiter) (st : Status) (d : Bytes) (s : State) : Stays s (finish w st d s) :=
  .of_rest (p := answers) (kept_finish (fun _ _ => rfl) w st d s).rest fun _ => ⟨rfl, rfl⟩

theorem stays_dropKeys (ns : List Nat) (s : State) : Stays s (dropKeys ns s) := .of_rest (kept_dropKeys ns s).rest fun _ => ⟨rfl, rfl⟩

theorem stays_judgeLeftovers (d c : Nat) (s : State) : Stays s (judgeLeftovers d c s) := .of_rest (kept_judgeLeftovers d c s).rest fun _ => ⟨rfl, rfl⟩

theorem stays_settleHome (c d : Nat) (s : State) : Stays s (settleHome c d s) :=
  .of_rest (Switches.kept_settleHome c d s).rest fun _ => ⟨rfl, rfl⟩

theorem stays_postLodge (d : Nat) (req : List Bytes) (s : State) : Stays s (postLodge d req s) :=
  .of_rest (p := requests) (kept_postLodge (fun _ _ => rfl) d req s).rest fun _ => ⟨rfl, rfl⟩

theorem stays_askDies (ds : List Nat) (code c : Nat) (s : State) : Stays s (askDies ds code c s) :=
  .of_rest (p := requests) (kept_askDies (fun _ _ => rfl) ds code c s).rest fun _ => ⟨rfl, rfl⟩

theorem stays_writeSvc (d : Nat) (bs : List Bytes) (s : State) : Stays s (writeSvc d bs s) :=
  .of_rest (p := requests) (kept_writeSvc (fun _ _ => rfl) d bs s).rest fun _ => ⟨rfl, rfl⟩

theorem stays_dropChecks (f : Nat → Check → Bool) (s : State) : Stays s (dropChecks f s) := .of_rest (kept_dropChecks f s).rest fun _ => ⟨rfl, rfl⟩

/-! ## Requests at a fence channel, and the scrub engine (R87, R96, R110, R111) -/

theorem stays_countDown (ch c : Nat) (s : State) : Stays s (countDown ch c s) := by
  simp only [countDown]
  split
  · exact ⟨rfl, rfl⟩
  · exact ⟨rfl, rfl⟩

theorem stays_digestBusError (r : ChanReq) (row : Nat) (s : State) : Stays s (digestBusError r row s) := by
  have hleave : ∀ e run st, Stays s (leaveDg e run (failDg e run st s)) := fun e run st =>
    .of_rest ((kept_failDg e run st s).trans (kept_leaveDg e run _)).rest fun _ => ⟨rfl, rfl⟩
  simp only [digestBusError]
  split
  · split
    · exact .ite (hleave ..) (.refl s)
    · exact .refl s
  · exact .refl s

theorem stays_memReadAnswer (r : ChanReq) (kind row : Nat) (d : BitVec 512) (s : State) : Stays s (memReadAnswer r kind row d s) := by
  have hreads : ∀ m, Stays s { s with fence := { s.fence with memReads := m } } := fun _ => ⟨rfl, rfl⟩
  simp only [memReadAnswer]
  split
  · exact .ite ((hreads _).trans (stays_finish ..)) (.ite ((hreads _).trans (stays_finish ..)) (hreads _))
  · exact .refl s

theorem stays_scrubRefused (r : ChanReq) (row : Nat) (s : State) : Stays s (scrubRefused r row s) := by
  have hfence : ∀ f, Stays s { s with fence := f } := fun _ => ⟨rfl, rfl⟩
  exact .ite (.refl s) ((hfence _).trans (.foldl (fun t (j : ScrubJob) => stays_finish ..) _ _))

theorem stays_respond (ch : Nat) (r : ChanReq) (kind row : Nat) (d : BitVec 512) (s : State) : Stays s (respond ch r kind row d s) :=
  (((stays_emit ..).trans (stays_countDown ..)).trans
    (.ite ((stays_digestBusError ..).trans (stays_scrubRefused ..)) (.refl _))).trans (stays_memReadAnswer ..)

theorem stays_fenceRecord (ch : Nat) (r : ChanReq) (g : Option Nat) (st : Status) (uerr : Bool) (s : State) :
    Stays s (fenceRecord ch r g st uerr s) := by
  simp only [fenceRecord]
  split
  · exact .refl s
  · exact (stays_updChan ..).trans (stays_postRecord ..)

theorem stays_refuseNoKey (ch : Nat) (r : ChanReq) (s : State) : Stays s (refuseNoKey ch r s) :=
  ((stays_updChan ..).trans (stays_respond ..)).trans (stays_fenceRecord ..)

theorem stays_issueReq (ch : Nat) (r : ChanReq) (e : KcEntry) (s : State) : Stays s (issueReq ch r e s) := by
  have hsealed : ∀ t, Stays t (refuseSealed ch r e t) := fun t =>
    (((stays_updChan ..).trans (stays_respond ..)).trans (stays_fenceRecord ..)).trans ⟨rfl, rfl⟩
  simp only [issueReq]
  split
  · exact ⟨rfl, rfl⟩
  · exact .ite ((stays_updChan ..).trans (hsealed _)) ⟨rfl, rfl⟩

theorem stays_selectReq (ch : Nat) (r : ChanReq) (s : State) : Stays s (selectReq ch r s) := by
  simp only [selectReq]
  split
  · exact .ite (stays_updChan ..) ((stays_updChan ..).trans (stays_updChan ..))
  · exact .ite (stays_updChan ..) (stays_issueReq ..)

theorem stays_acceptReq (ch : Nat) (r : ChanReq) (s : State) : Stays s (acceptReq ch r s) := by
  have hrow : ∀ (row : Nat) (f : Chan → Chan) g st t, Stays t (fenceRecord ch r g st false (respond ch r 2 row 0 (updChan ch f t))) :=
    fun _ _ _ _ _ => ((stays_updChan ..).trans (stays_respond ..)).trans (stays_fenceRecord ..)
  have hfenced : ∀ t, Stays t (refuseFenced ch r t) := fun _ => (stays_updChan ..).trans (stays_respond ..)
  have hzeroized : ∀ t, Stays t (refuseZeroized ch r t) := fun _ => ((stays_updChan ..).trans (stays_emit ..)).trans (stays_refuseNoKey ..)
  have hrise : Stays s (countRise ch r.cid s) := stays_updChan ..
  refine .ite (.refl s) (.ite (stays_updChan ..) (hrise.trans ?_))
  exact .ite (hrow ..) (.ite (hrow ..) (.ite (hfenced _) (.ite (hzeroized _) (stays_selectReq ..))))

theorem stays_offerLines (ch n : Nat) (s : State) : Stays s (offerLines ch n s) := by
  induction n generalizing s with
  | zero => exact .refl s
  | succ n ih =>
    unfold offerLines
    split
    · exact .refl s
    · exact .ite (stays_updChan ..) (((stays_updChan ..).trans (stays_acceptReq ..)).trans (ih _))

theorem stays_scrubTick (s : State) : Stays s (scrubTick s) := by
  have hqueue : ∀ q t, Stays t { t with fence := { t.fence with scrub := q } } := fun _ _ => ⟨rfl, rfl⟩
  have hstart : ∀ t x, Stays t (startFrame x t) := fun t x => (hqueue _ t).trans (.forUpTo (fun ch u => stays_updChan ch _ u) _ _)
  exact (Stays.foldl hstart _ s).trans (.foldl (fun t (e : Nat × Chan) => stays_offerLines e.1 _ t) _ _)

/-! ## Commits of locked changes (R16) -/

theorem stays_queueScrub (fs : List Nat) (id : Nat → ScrubIdent) (c k : Nat) (f : ScrubFor) (w : Waiter) (s : State) :
    Stays s (queueScrub fs id c k f w s).2 := ⟨rfl, rfl⟩

theorem stays_lockDone (o : LockOwner) (s : State) : Stays s (lockDone o s) := by
  have hgroup : ∀ g f, Stays s (updGroup g f s) := fun _ _ => ⟨rfl, rfl⟩
  have hrefusal : ∀ c, Stays s (endRefusal c s) := fun _ => .ite (.refl s) ⟨rfl, rfl⟩
  cases o with
  | firmware => exact .refl s
  | orangery => exact .refl s
  | sealing g w => exact (hgroup ..).trans (stays_finish ..)
  | destroy c => exact ((hrefusal c).trans (stays_queueScrub ..)).trans (stays_updCtx ..)
  | retire g => exact (hgroup ..).trans (stays_queueScrub ..)

theorem stays_commitLock (l : Lock) (ls : List Lock) (s : State) : Stays s (commitLock l ls s) := by
  have happly : ∀ f x, Stays s (lockApply l { s with fence := f, sund := x }) := fun _ _ => ⟨rfl, rfl⟩
  have hseal : ∀ op t, Stays t (noteSeal op t) := fun op t => by cases op <;> exact ⟨rfl, rfl⟩
  have hpromote : ∀ t, Stays t (promoteLock t) := fun t => by
    unfold promoteLock
    split
    · exact .refl t
    · exact .ite ⟨rfl, rfl⟩ (.refl t)
  exact (((happly ..).trans (hseal ..)).trans (hpromote _)).trans (stays_lockDone ..)

theorem stays_commitDue (n : Nat) (s : State) : Stays s (commitDue n s) := by
  induction n generalizing s with
  | zero => exact .refl s
  | succ n ih =>
    unfold commitDue
    split
    · exact .refl s
    · exact (stays_commitLock ..).trans (ih _)

/-! ## Links at their thresholds (R122 to R124, R137) -/

theorem stays_failLink (e : Nat) (st : Status) (s : State) : Stays s (failLink e st s) :=
  .of_rest (kept_failLink e st s).rest fun _ => ⟨rfl, rfl⟩

theorem stays_sendHop (e type : Nat) (body : Bytes) (s : State) : Stays s (sendHop e type body s) := by
  have hsent : ∀ f o, Stays s (emit o (updEng e f s)) := fun _ _ => ⟨rfl, rfl⟩
  exact .ite (hsent ..) (.ite (stays_updEng ..) (.ite ((hsent ..).trans (stays_failLink ..)) (hsent ..)))

theorem stays_sendControl (e type : Nat) (msg : Bytes) (s : State) : Stays s (sendControl e type msg s) :=
  .foldl (fun _ _ => stays_sendHop ..) _ s

theorem stays_failExchange (e : Nat) (st : Status) (s : State) : Stays s (failExchange e st s) := by
  have hnoted : Stays s (if st = .notPermitted then updEng e (fun x => { x with keyFail := raise s.tick x.keyFail }) s else s) :=
    .ite (stays_updEng ..) (.refl s)
  have hdrop : ∀ t, Stays t (dropAttempt e t) := fun t => by
    rw [LinkExchanges.dropAttempt_eq]
    exact stays_dropKeys ..
  have hended := (hnoted.trans (hdrop _)).trans (stays_updEng e (fun x => { x with hopAsm := [] }) _)
  have hlink : ∀ f t, Stays t (failLink e st (updEng e f t)) := fun _ _ => (stays_updEng ..).trans (stays_failLink ..)
  simp only [failExchange]
  split
  · exact hended.trans (hlink ..)
  · split
    · exact hended.trans (.ite (hlink ..) (stays_updEng ..))
    · exact hended.trans (stays_updEng ..)

theorem stays_takeWorking (attr : BitVec 5) (c : Nat) (key : Bytes) (s : State) : Stays s (takeWorking attr c key s).2 := by
  unfold takeWorking
  split
  · exact .refl s
  · exact ⟨rfl, rfl⟩

theorem stays_drbg (n : Nat) (s : State) : Stays s (drbg n s).2 := by
  have h := (LinkExchanges.vaultOnly_drbg n s).rest
  exact ⟨(congrArg State.tick h :), (congrArg (·.link.jobs) h :)⟩

theorem stays_sendHello (e : Nat) (rekey : Bool) (s : State) : Stays s (sendHello e rekey s) := by
  unfold sendHello
  split
  · exact stays_failExchange ..
  · have h1 := stays_drbg 32 s
    rcases hr : drbg 32 s with ⟨r, s1⟩
    rw [hr] at h1
    have h2 := stays_drbg 48 s1
    rcases ha : drbg 48 s1 with ⟨a, s2⟩
    rw [ha] at h2
    have h3 := stays_drbg 64 s2
    rcases hk : drbg 64 s2 with ⟨k, s3⟩
    rw [hk] at h3
    have h4 := stays_takeWorking attrWrap 0 a s3
    rcases hn : takeWorking attrWrap 0 a s3 with ⟨n, s4⟩
    rw [hn] at h4
    have h5 := stays_takeWorking attrWrap 0 k s4
    rcases hm : takeWorking attrWrap 0 k s4 with ⟨m, s5⟩
    rw [hm] at h5
    simp only [ha, hk, hn, hm]
    exact ((((h1.trans h2).trans h3).trans h4).trans h5).trans ((stays_updEng ..).trans (stays_sendControl ..))

theorem stays_beginRekey (e : Nat) (s : State) : Stays s (beginRekey e s) := by
  have hqueue : ∀ q t, Stays t { t with orng := { t.orng with queue := q } } := fun _ _ => ⟨rfl, rfl⟩
  have hstart : ∀ t, Stays t (startExchange e true t) := fun t =>
    .ite (stays_failExchange ..) (.ite (hqueue ..) (stays_sendHello ..))
  exact .ite ((stays_updEng ..).trans (hstart _)) (stays_updEng ..)

theorem stays_hopThresholdEffect (e : Nat) (s : State) : Stays s (hopThresholdEffect e s) := by
  simp only [hopThresholdEffect]
  split
  · exact .refl s
  · exact .ite (.ite (((stays_updEng ..).trans (stays_updEng ..)).trans (.ite (.refl _) (stays_beginRekey ..))) (stays_updEng ..)) (.refl s)

/-! ## Dies that are held, and drains (Tables FAULT-5, CTX-9) -/

theorem stays_kickDies (s : State) : Stays s (kickDies s) := .of_rest (SwitchSteps.brings_kickDies 0 s).kept.rest fun _ => ⟨rfl, rfl⟩

theorem stays_nextRequest (d : Nat) (s : State) : Stays s (nextRequest d s) := by
  unfold nextRequest
  split
  · exact stays_updDie ..
  · exact (stays_updDie ..).trans (stays_writeSvc ..)

theorem stays_dropRequest (d : Nat) (s : State) : Stays s (dropRequest d s) := by
  unfold dropRequest
  split
  · exact stays_nextRequest ..
  · exact stays_nextRequest ..
  all_goals exact .refl s

theorem stays_cancelWaits (f : Issuer → Bool) (s : State) : Stays s (cancelWaits f s) := by
  have hring : ∀ r t, Stays t { t with perg := { t.perg with ring := r } } := fun _ _ => ⟨rfl, rfl⟩
  exact (Stays.forUpTo (fun d t => stays_updSlice d _ t) _ s).trans (hring ..)

theorem stays_holdReset (d : Nat) (s : State) : Stays s (holdReset d s) := by
  have hforget : ∀ t, Stays t (forgetDie d t) := fun t => .foldl (fun t c => (stays_updCtx c _ t).trans (stays_updCtx ..)) _ t
  have hpower : ∀ f t, Stays t (updPwr d f t) := fun _ _ => ⟨rfl, rfl⟩
  have hheld : Stays s (holdDie d .resetting s) :=
    ((((((stays_dropRequest ..).trans (stays_updDie ..)).trans (stays_updSlice ..)).trans (stays_cancelWaits ..)).trans (hforget _)).trans
      (stays_dropChecks ..)).trans (hpower ..)
  have hkicked := hheld.trans (stays_kickDies _)
  unfold holdReset scheduleDie
  exact hkicked.trans (stays_postLodge ..)

theorem stays_postDrain (c : Nat) (s : State) : Stays s (postDrain c s) := by
  unfold postDrain
  split
  · exact .refl s
  · exact (stays_updCtx ..).trans (stays_askDies ..)

/-! ## Switches (Table CTX-6) -/

theorem stays_savedOut (c v : Nat) (s : State) : Stays s (savedOut c v s) := by
  simp only [savedOut]
  split
  · exact stays_updCtx ..
  · exact .ite (((stays_updCtx ..).trans (stays_updCtx ..)).trans (stays_finish ..)) (stays_updCtx ..)

theorem stays_writeHeaders (d : Nat) (r : Resident) (s : State) : Stays s (writeHeaders d r s) := by
  have houts : ∀ os, Stays s { s with outs := s.outs ++ os } := fun _ => ⟨rfl, rfl⟩
  have hline : ∀ t l, Stays t (wholeLine l t) := fun t l => .of_rest (Transfers.lines_wholeLine l t).kept.rest fun _ => ⟨rfl, rfl⟩
  have hlines := fun os ls => (houts os).trans (.foldl hline ls _)
  exact .ite ((hlines ..).trans (stays_updDie ..)) (hlines ..)

theorem stays_saveEffect (d : Nat) (s : State) : Stays s (saveEffect d s) := by
  have hleave : ∀ r t, Stays t (leaveIdle d r t) := fun r t =>
    ((stays_settleHome r.cid d t).trans (stays_savedOut ..)).trans (stays_updDie ..)
  have hsave : ∀ r, Stays s (saveCores d r s) := fun r =>
    ((Stays.ite (stays_judgeLeftovers ..) (.refl s)).trans (stays_writeHeaders ..)).trans (hleave ..)
  have hreach : ∀ r, Stays s (reachSwitch d r s) := fun r => .ite (stays_updDie ..) (hsave r)
  have hstamps : ∀ t, Stays t (clearStamps d t) := fun _ => ⟨rfl, rfl⟩
  have hevicted : ∀ c j a, Stays s (evicted d c j a s) := fun c _ _ =>
    (((Stays.ite (stays_judgeLeftovers ..) (.refl s)).trans (stays_updDie ..)).trans (stays_settleHome c d _)).trans (hstamps _)
  simp only [saveEffect]
  split
  · exact .refl s
  · split
    · exact .refl s
    · split
      · exact .ite (.refl s) (hreach _)
      · exact hreach _
      · exact .ite (.refl s) (hevicted ..)
      all_goals exact .refl s

/-! ## Thresholds of jobs (R137) -/

theorem stays_postHostEvent (o : Option (Nat × Nat)) (st : Status) (u : UnitRef) (d : Bytes) (s : State) : Stays s (postHostEvent o st u d s) :=
  .of_rest (p := answers) (kept_postHostEvent (fun _ _ => rfl) o st u d s).rest fun _ => ⟨rfl, rfl⟩

section
variable {j : Nat} {b : Job} {st : Status} {s t u : State}

theorem moves_of_stays (h : JobMoves j b s t) (hs : Stays t u) : JobMoves j b s u := h.off hs.jobs

/-- Of the jobs a suspension changes its own alone, and an OPEN one becomes SUSPENDED. -/
theorem suspendJob_moves (h : JobMoves j b s t) :
    ∃ y, JobMoves j y s (suspendJob j st t) ∧ (b.state = .open_ → y = { b with state := .suspended }) := by
  have hdata : JobMoves j b s (dropJobData j t) := h.off rfl
  by_cases ho : b.state = .open_
  · refine ⟨_, ?_, fun _ => rfl⟩
    rw [suspendJob, h.self, if_pos ho]
    exact hdata.updJob (fun b => { b with state := .suspended })
  · by_cases hk : b.state = .keying
    · refine ⟨{ b with state := .suspended, openW := .none }, ?_, fun h => absurd h ho⟩
      rw [suspendJob, h.self, if_neg ho, if_pos hk]
      exact moves_of_stays (h.updJob (fun b => { b with state := .suspended, openW := .none })) (stays_finish ..)
    · refine ⟨b, ?_, fun h => absurd h ho⟩
      rw [suspendJob, h.self, if_neg ho, if_neg hk]
      exact h

/-- An OPEN job whose threshold has been met before this tick. -/
def OverThreshold (s : State) (b : Job) : Prop := b.state = .open_ ∧ ∃ t, b.badDue = some t ∧ t < s.tick

/-- A job that a threshold has suspended. -/
def ThresholdDone (b : Job) : Prop := b.state = .suspended ∧ b.badDue = none

theorem threshold_moves (hw : mapWf {} s.link.jobs = true) : ∃ y, JobMoves j y s (jobThresholdEffect j s) ∧
    (OverThreshold s (jobOf s j) → ThresholdDone y) ∧ (ThresholdDone (jobOf s j) → ThresholdDone y) := by
  have hcleared := (JobMoves.refl (j := j) hw).updJob LinkTimers.tagsCleared
  obtain ⟨y, hy, hopen⟩ := suspendJob_moves (st := .lnkfJobTag) hcleared
  unfold jobThresholdEffect
  cases hd : (jobOf s j).badDue with
  | none => exact ⟨_, .refl hw, fun ⟨_, t, ht, _⟩ => (nomatch hd.symm.trans ht), id⟩
  | some t =>
    have hnot : ¬ThresholdDone (jobOf s j) := fun h => nomatch hd.symm.trans h.2
    simp only []
    split
    · split
      · refine ⟨y, moves_of_stays (moves_of_stays hy (stays_postRecord ..)) (stays_postHostEvent ..), fun ⟨ho, _⟩ => ?_, fun h => absurd h hnot⟩
        rw [hopen ho]
        exact ⟨rfl, rfl⟩
      next hs => exact ⟨_, hcleared, fun ⟨ho, _⟩ => absurd (.inl ho) hs, fun h => absurd h hnot⟩
    next hlate => exact ⟨_, .refl hw, fun ⟨_, u, hu, hlt⟩ => absurd (Option.some.inj (hd.symm.trans hu) ▸ hlt) hlate, id⟩

theorem tick_jobThresholdEffect (j : Nat) (s : State) : (jobThresholdEffect j s).tick = s.tick := by
  have hsuspend : ∀ t, (suspendJob j .lnkfJobTag t).tick = t.tick := fun t => (congrArg State.tick (kept_suspendJob j .lnkfJobTag t).rest :)
  unfold jobThresholdEffect
  split
  · rfl
  · split
    · simp only []
      split
      · exact (stays_postHostEvent ..).tick.trans (hsuspend _)
      · rfl
    · rfl

/-- The thresholds of a list of jobs, one after another. -/
def jobThresholds (es : List (Nat × Job)) (s : State) : State := es.foldl (fun s e => jobThresholdEffect e.1 s) s

theorem tick_jobThresholds (es : List (Nat × Job)) (s : State) : (jobThresholds es s).tick = s.tick := by
  induction es generalizing s with
  | nil => rfl
  | cons e es ih => exact (ih _).trans (tick_jobThresholdEffect ..)

/-- A job over its threshold has been suspended once its turn has come. -/
theorem jobThresholds_done {es : List (Nat × Job)} (hw : mapWf {} s.link.jobs = true)
    (h : ThresholdDone (jobOf s j) ∨ (OverThreshold s (jobOf s j) ∧ ∃ b, (j, b) ∈ es)) : ThresholdDone (jobOf (jobThresholds es s) j) := by
  induction es generalizing s with
  | nil => exact h.resolve_right fun ⟨_, _, hmem⟩ => nomatch hmem
  | cons e es ih =>
    obtain ⟨k, c⟩ := e
    obtain ⟨y, hy, hover, hdone⟩ := threshold_moves (j := k) hw
    refine ih hy.wf ?_
    by_cases hk : j = k
    · subst hk
      refine .inl ?_
      rw [hy.self]
      exact h.elim hdone fun h => hover h.1
    · rw [hy.others j hk]
      refine h.imp id fun ⟨⟨ho, t, ht, hlt⟩, b, hmem⟩ => ⟨⟨ho, t, ht, by rwa [tick_jobThresholdEffect]⟩, b, ?_⟩
      exact (List.mem_cons.mp hmem).resolve_left fun heq => hk (congrArg Prod.fst heq)

end

/-! ## The work of a tick -/

theorem step_empty {s : State} (h : s.pending = []) : step s = .next (idleTick s) := by
  unfold step
  rw [h]

/-- The link engines over their thresholds, one after another. -/
def linkThresholds (s : State) : State := (s.link.engines.filter (fun e => e.2.hopDue.isSome)).foldl (fun s e => hopThresholdEffect e.1 s) s

/-- What follows the thresholds in a tick. -/
def afterThresholds (s : State) : State := scrubTick (settleSwitches (postDrains (holdResets s)))

theorem idleTick_eq (s : State) : idleTick s = afterThresholds (linkThresholds (jobThresholds
    ((commitDue 8 s).link.jobs.filter (fun e => e.2.badDue.isSome)) (advance (commitDue 8 s)))) := rfl

theorem stays_linkThresholds (s : State) : Stays s (linkThresholds s) :=
  .foldl (fun t (e : Nat × Engine) => stays_hopThresholdEffect e.1 t) _ s

theorem stays_afterThresholds (s : State) : Stays s (afterThresholds s) := by
  have hholds : Stays s (holdResets s) := .foldl (fun t (e : Nat × Die) => stays_holdReset e.1 t) _ s
  have hdrains : ∀ t, Stays t (postDrains t) := fun t => .foldl (fun t (e : Nat × Ctx) => stays_postDrain e.1 t) _ t
  have hswitches : ∀ t, Stays t (settleSwitches t) := fun t => .foldl (fun t (e : Nat × Die) => stays_saveEffect e.1 t) _ t
  exact ((hholds.trans (hdrains _)).trans (hswitches _)).trans (stays_scrubTick _)

theorem tick_idleTick (s : State) : (idleTick s).tick = (s.tick + 1) % 2 ^ 64 := by
  rw [idleTick_eq, (stays_afterThresholds _).tick, (stays_linkThresholds _).tick, tick_jobThresholds, advance, (stays_commitDue 8 s).tick]

theorem commitDue_idle {s : State} (h : s.fence.locks = []) (n : Nat) : commitDue n s = s := by
  cases n with
  | zero => rfl
  | succ n =>
    unfold commitDue
    rw [h]
    rfl

/-- Work on the listed elements that satisfy `p` is none where no element does. -/
theorem foldl_filter_none {α : Type} {p : α → Bool} {f : State → α → State} {as : List α} {s : State} (h : as.all (fun a => !p a) = true) :
    (as.filter p).foldl f s = s := by
  have hnone : as.filter p = [] := List.filter_eq_nil_iff.mpr fun a ha => by simpa using List.all_eq_true.mp h a ha
  rw [hnone]
  rfl

/-- On a calm block the tick passes alone. -/
theorem idleTick_calm {s : State} (h : calm s = true) : idleTick s = advance s := by
  simp only [calm, Bool.and_eq_true, List.isEmpty_iff] at h
  obtain ⟨⟨⟨⟨⟨⟨hlocks, hscrub⟩, hctxs⟩, hchans⟩, hjobs⟩, hengines⟩, hdies⟩ := h
  have hjob : s.link.jobs.all (fun e => !e.2.badDue.isSome) = true := by simpa using hjobs
  have hlink : s.link.engines.all (fun e => !e.2.hopDue.isSome) = true := by simpa using hengines
  have hdie := fun e he => Bool.and_eq_true_iff.mp (List.all_eq_true.mp hdies e he)
  have hport : s.fence.chans.all (fun e => !!e.2.intQ.isEmpty) = true := by simpa using hchans
  have hthresholds : linkThresholds (advance s) = advance s := foldl_filter_none hlink
  have hholds : holdResets (advance s) = advance s := foldl_filter_none (List.all_eq_true.mpr fun e he => (hdie e he).1)
  have hdrains : postDrains (advance s) = advance s := foldl_filter_none hctxs
  have hswitches : settleSwitches (advance s) = advance s := foldl_filter_none (List.all_eq_true.mpr fun e he => (hdie e he).2)
  have hstart : startFrames (advance s) = advance s := by
    have hnone : (advance s).fence.scrub = [] := hscrub
    rw [startFrames, hnone]
    rfl
  have hports : scrubTick (advance s) = advance s := by
    rw [scrubTick, hstart]
    exact foldl_filter_none hport
  rw [idleTick_eq, commitDue_idle hlocks, jobThresholds, foldl_filter_none hjob, hthresholds, afterThresholds, hholds, hdrains, hswitches, hports]

/-- Settles O2: on a calm block no work is due; all other work of a tick leaves the count; a job over its threshold is suspended in its
turn, and what follows leaves the jobs. -/
theorem emptyQueueIsOneTick : Obligations.EmptyQueueIsOneTick := by
  unfold Obligations.EmptyQueueIsOneTick
  refine ⟨fun s hp hcalm => ?_, fun s hp => ⟨_, step_empty hp, tick_idleTick s⟩,
    fun j u s hp hc hlocks hlt hdue hu hopen => ⟨_, step_empty hp, ?_⟩⟩
  · rw [step_empty hp, idleTick_calm hcalm]
    rfl
  · have hnow : u < (advance s).tick := by
      simp only [advance, Nat.mod_eq_of_lt hlt]
      omega
    have hmem : (j, jobOf s j) ∈ s.link.jobs := DrainEnd.mem_of_mapGet_ne fun h => by
      have hnone : (jobOf s j).badDue = none := congrArg Job.badDue h
      exact nomatch hdue.symm.trans hnone
    have hdone := jobThresholds_done (j := j) (es := s.link.jobs.filter (fun e => e.2.badDue.isSome)) (s := advance s) (canonical_link_jobs (s := s) hc)
      (.inr ⟨⟨hopen, u, hdue, hnow⟩, jobOf s j, List.mem_filter.mpr ⟨hmem, Option.isSome_iff_exists.mpr ⟨u, hdue⟩⟩⟩)
    rw [idleTick_eq, commitDue_idle hlocks, jobOf, (stays_afterThresholds _).jobs, (stays_linkThresholds _).jobs]
    exact hdone.1

end Sys2Proof.TickWork
end
